-- ==== Sys2Proof/Word.lean ====
section
/-! DEFINITION. The word types of the Lamtis 8400 (R6, R99) and the one sparse table type that every
indexed piece of state uses. -/
namespace Sys2Proof

/-- A 32-bit register word (R99). -/
abbrev Word := BitVec 32
/-- A 64-bit value: a register pair, a payload, an instruction word (R54). -/
abbrev DWord := BitVec 64
/-- One byte of memory (R6). -/
abbrev Byte := BitVec 8

/-- A table indexed by numbers: key and value pairs with strictly rising keys. -/
abbrev Map (α : Type) := List (Nat × α)

/-- An exact floating value (R103): a finite nonzero value is (-1)^neg times m times 2^e with m above 0. -/
inductive Val where
  | nan
  | inf (neg : Bool)
  | zero (neg : Bool)
  | fin (neg : Bool) (m : Nat) (e : Int)
  deriving DecidableEq, Repr

end Sys2Proof
end

