-- ==== Sys2Proof/Machine/Data.lean ====
section
/-! DEFINITION. Bit fields, byte order and the operations of the sparse tables (R6). -/
namespace Sys2Proof

/-- Bits [lo+n-1:lo] of a number, bit 0 the least significant (R6). -/
def bits (w lo n : Nat) : Nat := w / 2 ^ lo % 2 ^ n

/-- One bit of a number. -/
def bitOf (w i : Nat) : Bool := w / 2 ^ i % 2 == 1

/-- The number whose two's complement of width `w` is `x` (x below 2^w). -/
def toSigned (w x : Nat) : Int := if x < 2 ^ (w - 1) then (x : Int) else (x : Int) - (2 ^ w : Nat)

/-- An integer as its residue modulo 2^w. -/
def wrapTo (w : Nat) (x : Int) : Nat := (x % ((2 ^ w : Nat) : Int)).toNat

/-- 1 for true, 0 for false. -/
def b2n (b : Bool) : Nat := if b then 1 else 0

/-- Ceiling division. -/
def ceilDiv (a b : Nat) : Nat := (a + b - 1) / b

/-- The little-endian bytes of a number (R6). -/
def toBytes : Nat → Nat → List Byte
  | 0, _ => []
  | n + 1, x => BitVec.ofNat 8 x :: toBytes n (x / 256)

/-- The number that little-endian bytes hold (R6). -/
def ofBytes : List Byte → Nat
  | [] => 0
  | b :: bs => b.toNat + 256 * ofBytes bs

/-- Entry `i` of a list, or `d` beyond its end. -/
def nthD {α : Type} (d : α) (l : List α) (i : Nat) : α := (l[i]?).getD d

/-- A list with entry `i` replaced (unchanged beyond its end). -/
def setNth {α : Type} (l : List α) (i : Nat) (a : α) : List α := l.set i a

/-- A list without entry `i`. -/
def dropNth {α : Type} (l : List α) (i : Nat) : List α := l.eraseIdx i

/-- The value at a key, if the table lists it. -/
def Map.find? {α : Type} : Map α → Nat → Option α
  | [], _ => none
  | (k, v) :: t, i => if k = i then some v else Map.find? t i

/-- The value at a key, or a default. -/
def Map.getD {α : Type} (m : Map α) (i : Nat) (d : α) : α := (Map.find? m i).getD d

/-- The table with a key set, keys kept rising. -/
def Map.put {α : Type} : Map α → Nat → α → Map α
  | [], i, a => [(i, a)]
  | (k, v) :: t, i, a =>
    if k < i then (k, v) :: Map.put t i a
    else if k = i then (i, a) :: t
    else (i, a) :: (k, v) :: t

/-- The table without a key, wherever it is listed. -/
def Map.del {α : Type} : Map α → Nat → Map α
  | [], _ => []
  | (k, v) :: t, i => if k = i then Map.del t i else (k, v) :: Map.del t i

/-- The table with a key set to a value, where the default value is not listed. -/
def Map.putD {α : Type} [DecidableEq α] (d : α) (m : Map α) (i : Nat) (a : α) : Map α :=
  if a = d then Map.del m i else Map.put m i a

/-- The table with every value changed. -/
def Map.mapVals {α : Type} (f : Nat → α → α) (m : Map α) : Map α := m.map (fun p => (p.1, f p.1 p.2))

/-- The table with the keys that a test keeps. -/
def Map.keep {α : Type} (f : Nat → α → Bool) (m : Map α) : Map α := m.filter (fun p => f p.1 p.2)

/-- The lowest number below `n` (searched from `i`) that the table does not list. -/
def Map.firstFree {α : Type} (m : Map α) : Nat → Nat → Option Nat
  | 0, _ => none
  | n + 1, i => if (Map.find? m i).isNone then some i else Map.firstFree m n (i + 1)

/-- The canonical form: keys strictly rising. -/
def Map.wf {α : Type} : Map α → Bool
  | [] => true
  | [_] => true
  | (k, _) :: (k', v') :: t => decide (k < k') && Map.wf ((k', v') :: t)

/-- A sorted set of numbers with one more member. -/
def insSet : List Nat → Nat → List Nat
  | [], a => [a]
  | b :: t, a => if a < b then a :: b :: t else if a = b then b :: t else b :: insSet t a

/-- A set without a member. -/
def delSet (l : List Nat) (a : Nat) : List Nat := l.filter (fun b => b != a)

/-- The union of two sets. -/
def uniSet (l m : List Nat) : List Nat := m.foldl insSet l

/-- An element placed before the first that it does not exceed. -/
def insBy {α : Type} (le : α → α → Bool) (a : α) : List α → List α
  | [] => [a]
  | b :: t => if le a b then a :: b :: t else b :: insBy le a t

/-- A list in order; equals keep their places. -/
def sortBy {α : Type} (le : α → α → Bool) : List α → List α
  | [] => []
  | a :: t => insBy le a (sortBy le t)

/-- The last of some entries that a test keeps, with its place. -/
def findIdx {α : Type} (f : α → Bool) (l : List α) : Option (Nat × α) :=
  (l.zipIdx.find? (fun p => f p.1)).map (fun p => (p.2, p.1))

/-- Saturating addition at a maximum (R328). -/
def satAdd (maxv a n : Nat) : Nat := if a + n > maxv then maxv else a + n

/-- ⌊log2 n⌋ for n > 0 by fuel; 0 for 0. -/
def log2 (n : Nat) : Nat := Nat.log2 n

/-- ⌊√n⌋ by Newton steps over fuel. -/
def isqrtAux : Nat → Nat → Nat → Nat
  | 0, _, x => x
  | f + 1, n, x =>
    let y := (x + n / x) / 2
    if y < x then isqrtAux f n y else x

/-- ⌊√n⌋. -/
def isqrt (n : Nat) : Nat := if n = 0 then 0 else isqrtAux 600 n (2 ^ (Nat.log2 n / 2 + 1))

end Sys2Proof
end

