-- ==== Sys2Proof/Syntax.lean ====
section
/-! DEFINITION. The instructions of Akkel with their operands decoded (spec/03), and the device's own steps
(spec/95, spec/opcode_table.json), as one inductive type. -/
namespace Sys2Proof

/-- An operand selector (R53). -/
inductive Sel where
  | v (n : Nat)
  | k (n : Nat)
  | zero
  | lane
  | fp
  | iter
  | act
  | wpop
  | p (n : Nat)
  | f (n : Nat)
  deriving DecidableEq, Repr

/-- A guard: sense 1 (`neg`) and predicate (R52). -/
structure Guard where
  neg : Bool
  pred : Nat
  deriving DecidableEq, Repr

/-- The type codes of R55, in code order. -/
inductive Ty where
  | i8 | i16 | i32 | i64 | n8 | n16 | n32 | n64
  | f32 | f16 | bf16 | e4m3 | e5m2 | e3m2 | e2m3 | e2m1 | e8m0 | cf8
  deriving DecidableEq, Repr

/-- The rounding codes of R56. -/
inductive Rnd where
  | rne | rtz | rup | rdn | rna | sr | srw | dyn
  deriving DecidableEq, Repr

/-- The source modifiers of R57. -/
inductive SrcMod where
  | none | neg | abs | negAbs
  deriving DecidableEq, Repr

/-- The modifier byte of format A without its reserved bit (R57). -/
structure Mods where
  c : SrcMod
  b : SrcMod
  a : SrcMod
  sat : Bool
  deriving DecidableEq, Repr

/-- The combine ops of R58. -/
inductive Comb where
  | none | addI32 | addF32 | minI32 | maxI32 | or | and | addI64
  deriving DecidableEq, Repr

/-- The condition codes of R59. -/
inductive Cond where
  | eq | ne | lt | le | gt | ge | ord | unord
  deriving DecidableEq, Repr

/-- The immediate types of format I (R61). -/
inductive IType where
  | i32 | n32 | f32 | i64
  deriving DecidableEq, Repr

/-- The modes of LANEX (R166). -/
inductive LaneMode where
  | from | rot | mirr | xor
  deriving DecidableEq, Repr

/-- The modes of POLL (R167). -/
inductive PollMode where
  | all | any | mask | count
  deriving DecidableEq, Repr

/-- The modes of PEERS (R168). -/
inductive PeersMode where
  | same | lead
  deriving DecidableEq, Repr

/-- The ops of FREDW (R181). -/
inductive RedOp where
  | add | min | max
  deriving DecidableEq, Repr

/-- The scopes of R123 a field names; code 00 means auto, the edge's default or no release, as the field says. -/
inductive Scope where
  | auto | core | die | package
  deriving DecidableEq, Repr

/-- The access sizes of format M, 1 to 16 bytes (R62). -/
inductive Size where
  | b1 | b2 | b4 | b8 | b16
  deriving DecidableEq, Repr

/-- The cache hints of R62. -/
inductive Hint where
  | normal | streaming | keep | noAlloc | noRdc
  deriving DecidableEq, Repr

/-- The atomic ops of R64. -/
inductive AtomOp where
  | add | fadd | smin | smax | umin | umax | and | or | xor | xchg
  deriving DecidableEq, Repr

/-- The in-flight paths of R13, in the order of their codes. -/
inductive Path where
  | l | f | s | e
  deriving DecidableEq, Repr

/-- The iteration controls of format E (R65). -/
inductive Itc where
  | same | next | val | zero
  deriving DecidableEq, Repr

/-- Format A (R60). -/
structure FmtA where
  g : Guard
  rnd : Rnd
  ty : Ty
  dst : Sel
  sa : Sel
  sb : Sel
  sc : Sel
  mods : Mods
  deriving DecidableEq, Repr

/-- Format A of ICMP and FCMP: RND holds the condition (R69). -/
structure FmtCmp where
  g : Guard
  cond : Cond
  ty : Ty
  dst : Sel
  sa : Sel
  sb : Sel
  sc : Sel
  mods : Mods
  deriving DecidableEq, Repr

/-- Format A of PLOP: MOD is a truth table (R69). -/
structure FmtPlop where
  g : Guard
  rnd : Rnd
  ty : Ty
  dst : Sel
  sa : Sel
  sb : Sel
  sc : Sel
  table : Nat
  deriving DecidableEq, Repr

/-- Format A of LANEX (R69, R166). -/
structure FmtLanex where
  g : Guard
  mode : LaneMode
  ty : Ty
  dst : Sel
  sa : Sel
  sb : Sel
  sc : Sel
  mods : Mods
  deriving DecidableEq, Repr

/-- Format A of POLL (R69, R167). -/
structure FmtPoll where
  g : Guard
  mode : PollMode
  ty : Ty
  dst : Sel
  sa : Sel
  sb : Sel
  sc : Sel
  mods : Mods
  deriving DecidableEq, Repr

/-- Format A of PEERS (R69, R168). -/
structure FmtPeers where
  g : Guard
  mode : PeersMode
  ty : Ty
  dst : Sel
  sa : Sel
  sb : Sel
  sc : Sel
  mods : Mods
  deriving DecidableEq, Repr

/-- Format A of the conversions: TYPE is the destination type and SC the source type code (R69). -/
structure FmtCvt where
  g : Guard
  rnd : Rnd
  dty : Ty
  sty : Ty
  dst : Sel
  sa : Sel
  sb : Sel
  mods : Mods
  deriving DecidableEq, Repr

/-- Format A of FREDW: SC[1:0] is the op (R69). -/
structure FmtFredw where
  g : Guard
  rnd : Rnd
  ty : Ty
  op : RedOp
  dst : Sel
  sa : Sel
  sb : Sel
  mods : Mods
  deriving DecidableEq, Repr

/-- Format I (R61). -/
structure FmtI where
  g : Guard
  ity : IType
  dst : Sel
  sa : Sel
  imm : Word
  deriving DecidableEq, Repr

/-- Format I of ICMPI: the condition and 29 immediate bits (R61, R158). -/
structure FmtIcmpi where
  g : Guard
  ity : IType
  dst : Sel
  sa : Sel
  cond : Cond
  imm : Nat
  deriving DecidableEq, Repr

/-- Format I of JOIN and GATE: block, slot and path in the immediate (R289). -/
structure FmtWatch where
  g : Guard
  ity : IType
  dst : Sel
  sa : Sel
  path : Path
  block : Nat
  slot : Nat
  deriving DecidableEq, Repr

/-- Format M (R62). -/
structure FmtM where
  g : Guard
  lsid : Nat
  scope : Scope
  bound : Nat
  bmode : Bool
  size : Size
  data : Sel
  base : Sel
  hint : Hint
  ofs : Nat
  deriving DecidableEq, Repr

/-- Format M of ATOM and ATOMR: BOUND is the atomic op (R64). -/
structure FmtAtom where
  g : Guard
  lsid : Nat
  scope : Scope
  op : AtomOp
  bmode : Bool
  size : Size
  data : Sel
  base : Sel
  hint : Hint
  ofs : Nat
  deriving DecidableEq, Repr

/-- Format E of the emits (R65). -/
structure FmtE where
  g : Guard
  block : Nat
  slot : Nat
  val : Sel
  frm : Sel
  scope : Scope
  comb : Comb
  nullf : Bool
  itc : Itc
  stop : Nat
  edge : Nat
  deriving DecidableEq, Repr

/-- Format E of FALLOC, SPAWN and SPAWNQ: bits [11:8] hold the slot blocks less 1 (R65). -/
structure FmtSpawn where
  g : Guard
  block : Nat
  slot : Nat
  val : Sel
  frm : Sel
  scope : Scope
  nb : Nat
  itc : Itc
  stop : Nat
  edge : Nat
  deriving DecidableEq, Repr

/-- Format X (R66). -/
structure FmtX where
  g : Guard
  subop : Nat
  fch : Nat
  sa : Sel
  sb : Sel
  sc : Sel
  unit : Nat
  flags : Nat
  deriving DecidableEq, Repr

/-- Format G (R67). -/
structure FmtG where
  g : Guard
  desc : Nat
  rblock : Nat
  rslot : Nat
  path : Path
  subop : Nat
  rscope : Scope
  rcomb : Comb
  flags : Nat
  deriving DecidableEq, Repr

/-- Format S (R68). -/
structure FmtS where
  g : Guard
  sysn : Nat
  opnd : Sel
  imm : Nat
  deriving DecidableEq, Repr

/-- A host command as its 64 bytes say (R374). -/
structure HostCommand where
  tag : DWord
  body : List Word
  wait1 : Nat
  wait0 : Nat
  signal : Nat
  reserved : Nat
  queue : Nat
  opcode : Nat
  deriving DecidableEq, Repr

/-- A fabric packet: header fields of R382, the payload, and whether its tag checks. -/
structure FabricPacket where
  dchip : Nat
  schip : Nat
  cls : Nat
  keyIdx : Nat
  len : Nat
  sport : Nat
  reserved : Nat
  counter : Nat
  payload : List Byte
  tagGood : Bool
  sentIn : Option (Nat × Nat × Nat)
  deriving DecidableEq, Repr

/-- A fabric packet as it travels: header, payload, whether its tag is right (R382), and of exchange data the group, calendar and
phase in which it was sent, by which a late one is known (R387); what shows it on the wire is open. -/
structure WirePacket where
  header : BitVec 128
  payload : List Byte
  tagGood : Bool
  sentIn : Option (Nat × Nat × Nat)
  deriving DecidableEq, Repr

/-- Who an SPDM exchange is with: the root is requester to a die, the control die responder to the host (R389). -/
inductive SpdmPeer where
  | die (d : Nat)
  | host (session : Nat)
  deriving DecidableEq, Repr

/-- What an SPDM exchange brings from outside: whether it succeeds, the LASTERR of R391 when it does not,
the requested version, a digest and a certificate chain that the exchange carries, and the measurement blocks by their index (R390).
`silent` says that the request has been sent and no answer has come yet. -/
structure SpdmAnswer where
  good : Bool
  silent : Bool
  err : Nat
  version : Nat
  digest : List Word
  chain : List Byte
  blocks : List (Nat × List Word)
  deriving DecidableEq, Repr

/-- Where a memory error strikes (R190, R333, R368). -/
inductive ErrorSite where
  | frameSlot (core frame slot : Nat)
  | slotRead (core warp lane slot : Nat)
  | stash (core line word : Nat)
  | tile (core tile elem : Nat)
  | dram (pa len : Nat)
  | dieCache (die k word : Nat)
  | tokenSent (core k : Nat)
  | tokenCrossing (k : Nat)
  | tokenArrived (core k : Nat)
  | rowPacket (k : Nat)
  | rowEntry (core rin k : Nat)
  | sparse (core acc elem : Nat)
  | reorder (core k : Nat)
  deriving DecidableEq, Repr

/-- The packet that a failed tag discards (R49): the k-th token that crosses, a memory request, the answer to one, the k-th row
packet, returned row credit, fill of a cache, round for a view, ownership request or grant, or child's retirement, the k-th request for a
frame that came to a core, the recall of the k-th entry of a base die's directory, or one that the state does not hold (a management flit). -/
inductive LostPacket where
  | token (k : Nat)
  | request (id : Nat)
  | answer (id : Nat)
  | row (k : Nat)
  | rowCredit (k : Nat)
  | fill (k : Nat)
  | view (k : Nat)
  | ownership (k : Nat)
  | retirement (k : Nat)
  | creation (core k : Nat)
  | recall (die k : Nat)
  | other
  deriving DecidableEq, Repr

/-- A failed tag: the direction of the boundary, and the packet that it discards (R49). -/
structure TagFailure where
  dir : Nat
  what : LostPacket
  deriving DecidableEq, Repr

/-- A phase-done marker: the member that sends it, and how many units of its grant it did not use (R387). Where it ends the phase,
`lost` of the units that had left this chip were not accepted by then, and `alive` says whether a barista in charge on this chip has
not failed (R388). -/
structure DoneMarker where
  member : Nat
  unused : Nat
  lost : Nat
  alive : Bool
  deriving DecidableEq, Repr

/-- A phase whose timeout has passed: its group, how many units granted to senders without a marker were not sent, and how many
units that have left this chip their destination had not accepted (R387); `alive` as in a marker. -/
structure LatePhase where
  group : Nat
  unused : Nat
  lost : Nat
  alive : Bool
  deriving DecidableEq, Repr

/-- What the power manager sees in a microsecond beside the package's power: the hottest junction in °C (R396), and whether
the management processor gave its heartbeat (R371). -/
structure Sensed where
  junction : Nat
  beat : Bool
  deriving DecidableEq, Repr

/-- The steps of the Lamtis 8400: one constructor for each row of the opcode table. The instruction words
(R74) carry their decoded fields; the device steps (spec/95) carry the place they happen at and what the
outside world supplies. -/
inductive Instr where
  /-- EMIT (R281). -/
  | emit (a : FmtE)
  /-- EMITX (R283). -/
  | emitx (a : FmtE)
  /-- EMITC (R282). -/
  | emitc (a : FmtE)
  /-- EMITE (R282). -/
  | emite (a : FmtE)
  /-- EMITB (R284). -/
  | emitb (a : FmtE)
  /-- FALLOC (R286). -/
  | falloc (a : FmtSpawn)
  /-- FFREE (R288). -/
  | ffree (a : FmtI)
  /-- SPAWN (R287). -/
  | spawn (a : FmtSpawn)
  /-- SPAWNQ (R287). -/
  | spawnq (a : FmtSpawn)
  /-- JOIN (R289). -/
  | join (a : FmtWatch)
  /-- GATE (R289). -/
  | gate (a : FmtWatch)
  /-- TRAP (R290). -/
  | trap (a : FmtS)
  /-- BRK (R291). -/
  | brk (a : FmtS)
  /-- NOP (R292). -/
  | nop (a : FmtS)
  /-- DONE (R292). -/
  | done (a : FmtS)
  /-- IADD (R153). -/
  | iadd (a : FmtA)
  /-- ISUB (R153). -/
  | isub (a : FmtA)
  /-- IMUL (R153). -/
  | imul (a : FmtA)
  /-- IMULH (R153). -/
  | imulh (a : FmtA)
  /-- IMAD (R153). -/
  | imad (a : FmtA)
  /-- IMADW (R155). -/
  | imadw (a : FmtA)
  /-- IADDC (R154). -/
  | iaddc (a : FmtA)
  /-- ISUBB (R154). -/
  | isubb (a : FmtA)
  /-- IMIN (R153). -/
  | imin (a : FmtA)
  /-- IMAX (R153). -/
  | imax (a : FmtA)
  /-- IABS (R153). -/
  | iabs (a : FmtA)
  /-- INEG (R153). -/
  | ineg (a : FmtA)
  /-- ISAD (R153). -/
  | isad (a : FmtA)
  /-- IDOT4 (R155). -/
  | idot4 (a : FmtA)
  /-- IDOT2 (R155). -/
  | idot2 (a : FmtA)
  /-- LEA (R156). -/
  | lea (a : FmtA)
  /-- IADDI (R157). -/
  | iaddi (a : FmtI)
  /-- IMULI (R157). -/
  | imuli (a : FmtI)
  /-- ANDI (R157). -/
  | andi (a : FmtI)
  /-- ORI (R157). -/
  | ori (a : FmtI)
  /-- XORI (R157). -/
  | xori (a : FmtI)
  /-- SHLI (R157). -/
  | shli (a : FmtI)
  /-- SHRI (R157). -/
  | shri (a : FmtI)
  /-- SHRAI (R157). -/
  | shrai (a : FmtI)
  /-- MOVI (R157). -/
  | movi (a : FmtI)
  /-- MOVKI (R157). -/
  | movki (a : FmtI)
  /-- ICMPI (R158). -/
  | icmpi (a : FmtIcmpi)
  /-- LEAI (R157). -/
  | leai (a : FmtI)
  /-- AND (R159). -/
  | and (a : FmtA)
  /-- OR (R159). -/
  | or (a : FmtA)
  /-- XOR (R159). -/
  | xor (a : FmtA)
  /-- ANDN (R159). -/
  | andn (a : FmtA)
  /-- NOT (R159). -/
  | not (a : FmtA)
  /-- SHL (R159). -/
  | shl (a : FmtA)
  /-- SHR (R159). -/
  | shr (a : FmtA)
  /-- SHRA (R159). -/
  | shra (a : FmtA)
  /-- ROTL (R159). -/
  | rotl (a : FmtA)
  /-- FUNNEL (R159). -/
  | funnel (a : FmtA)
  /-- POPC (R159). -/
  | popc (a : FmtA)
  /-- CLZ (R159). -/
  | clz (a : FmtA)
  /-- CTZ (R159). -/
  | ctz (a : FmtA)
  /-- BREV (R159). -/
  | brev (a : FmtA)
  /-- BFX (R160). -/
  | bfx (a : FmtA)
  /-- BFI (R160). -/
  | bfi (a : FmtA)
  /-- ICMP (R161). -/
  | icmp (a : FmtCmp)
  /-- PLOP (R161). -/
  | plop (a : FmtPlop)
  /-- SEL (R161). -/
  | sel (a : FmtA)
  /-- MOV (R161). -/
  | mov (a : FmtA)
  /-- MOVP (R161). -/
  | movp (a : FmtA)
  /-- LANEX (R166). -/
  | lanex (a : FmtLanex)
  /-- POLL (R167). -/
  | poll (a : FmtPoll)
  /-- PEERS (R168). -/
  | peers (a : FmtPeers)
  /-- CNVI (R162). -/
  | cnvi (a : FmtCvt)
  /-- BYTSEL (R163). -/
  | bytsel (a : FmtA)
  /-- MOVK (R161). -/
  | movk (a : FmtA)
  /-- FPTR (R164). -/
  | fptr (a : FmtA)
  /-- FPSPLIT (R164). -/
  | fpsplit (a : FmtA)
  /-- FADD (R177). -/
  | fadd (a : FmtA)
  /-- FSUB (R177). -/
  | fsub (a : FmtA)
  /-- FMUL (R177). -/
  | fmul (a : FmtA)
  /-- FFMA (R177). -/
  | ffma (a : FmtA)
  /-- FMIN (R178). -/
  | fmin (a : FmtA)
  /-- FMAX (R178). -/
  | fmax (a : FmtA)
  /-- FCMP (R179). -/
  | fcmp (a : FmtCmp)
  /-- FCLASS (R180). -/
  | fclass (a : FmtA)
  /-- FSCALE (R177). -/
  | fscale (a : FmtA)
  /-- FREDW (R181). -/
  | fredw (a : FmtFredw)
  /-- FDOT2 (R183). -/
  | fdot2 (a : FmtA)
  /-- PKFMA (R182). -/
  | pkfma (a : FmtA)
  /-- PKADD (R182). -/
  | pkadd (a : FmtA)
  /-- PKMUL (R182). -/
  | pkmul (a : FmtA)
  /-- FCVT (R185). -/
  | fcvt (a : FmtCvt)
  /-- F2I (R186). -/
  | f2i (a : FmtCvt)
  /-- I2F (R187). -/
  | i2f (a : FmtCvt)
  /-- FRCP (R184). -/
  | frcp (a : FmtA)
  /-- FRSQ (R184). -/
  | frsq (a : FmtA)
  /-- FSQRT (R184). -/
  | fsqrt (a : FmtA)
  /-- FEXP2 (R184). -/
  | fexp2 (a : FmtA)
  /-- FLOG2 (R184). -/
  | flog2 (a : FmtA)
  /-- FSIN (R184). -/
  | fsin (a : FmtA)
  /-- FCOS (R184). -/
  | fcos (a : FmtA)
  /-- FTANH (R184). -/
  | ftanh (a : FmtA)
  /-- MXPACK (R188). -/
  | mxpack (a : FmtCvt)
  /-- MXUNPK (R189). -/
  | mxunpk (a : FmtCvt)
  /-- MXCFG (R241). -/
  | mxcfg (a : FmtX)
  /-- BLDQ (R243). -/
  | bldq (a : FmtX)
  /-- ROWP (R244). -/
  | rowp (a : FmtX)
  /-- ROWS (R245). -/
  | rows (a : FmtX)
  /-- ACCZ (R247). -/
  | accz (a : FmtX)
  /-- ACCRD (R248). -/
  | accrd (a : FmtX)
  /-- ACCWB (R249). -/
  | accwb (a : FmtX)
  /-- ACCST (R250). -/
  | accst (a : FmtX)
  /-- ISCFG (R252). -/
  | iscfg (a : FmtX)
  /-- ISX (R253). -/
  | isx (a : FmtX)
  /-- SACCI (R255). -/
  | sacci (a : FmtX)
  /-- SACCF (R256). -/
  | saccf (a : FmtX)
  /-- NZSCAN (R257). -/
  | nzscan (a : FmtX)
  /-- FCHBIND (R242). -/
  | fchbind (a : FmtX)
  /-- MXSEQ (R246). -/
  | mxseq (a : FmtX)
  /-- LDG (R216). -/
  | ldg (a : FmtM)
  /-- LDB (R217). -/
  | ldb (a : FmtM)
  /-- LDA (R216). -/
  | lda (a : FmtM)
  /-- LDS (R216). -/
  | lds (a : FmtM)
  /-- LDC (R216). -/
  | ldc (a : FmtM)
  /-- STG (R219). -/
  | stg (a : FmtM)
  /-- STL (R219). -/
  | stl (a : FmtM)
  /-- STS (R219). -/
  | sts (a : FmtM)
  /-- SMAP (R220). -/
  | smap (a : FmtM)
  /-- SWB (R221). -/
  | swb (a : FmtM)
  /-- SINV (R221). -/
  | sinv (a : FmtM)
  /-- PREF (R218). -/
  | pref (a : FmtM)
  /-- LDP (R216). -/
  | ldp (a : FmtM)
  /-- STP (R219). -/
  | stp (a : FmtM)
  /-- ATOM (R223). -/
  | atom (a : FmtAtom)
  /-- ATOMR (R223). -/
  | atomr (a : FmtAtom)
  /-- CAS (R224). -/
  | cas (a : FmtM)
  /-- CAS128 (R224). -/
  | cas128 (a : FmtM)
  /-- INCW (R225). -/
  | incw (a : FmtM)
  /-- DECW (R225). -/
  | decw (a : FmtM)
  /-- FADDB (R225). -/
  | faddb (a : FmtM)
  /-- PUTF (R226). -/
  | putf (a : FmtM)
  /-- TAKE (R226). -/
  | take (a : FmtM)
  /-- READF (R226). -/
  | readf (a : FmtM)
  /-- SETE (R226). -/
  | sete (a : FmtM)
  /-- FENCE (R227). -/
  | fence (a : FmtM)
  /-- ROUNDA (R229). -/
  | rounda (a : FmtM)
  /-- ROUNDV (R230). -/
  | roundv (a : FmtM)
  /-- ACQ (R228). -/
  | acq (a : FmtM)
  /-- CPY (R296). -/
  | cpy (a : FmtG)
  /-- CPY2D (R296). -/
  | cpy2d (a : FmtG)
  /-- GATH (R298). -/
  | gath (a : FmtG)
  /-- SCAT (R298). -/
  | scat (a : FmtG)
  /-- STRM (R299). -/
  | strm (a : FmtG)
  /-- STRMGO (R300). -/
  | strmgo (a : FmtG)
  /-- STRMX (R300). -/
  | strmx (a : FmtG)
  /-- DPOST (R301). -/
  | dpost (a : FmtG)
  /-- DXCH (R302). -/
  | dxch (a : FmtG)
  /-- DXQ (R303). -/
  | dxq (a : FmtG)
  /-- CPYB (R297). -/
  | cpyb (a : FmtG)
  /-- HBIND (R339). -/
  | hbind (a : FmtS)
  /-- HBIND_RELEASE (R339). -/
  | hbindRelease (a : FmtS)
  /-- HREAD (R340). -/
  | hread (a : FmtS)
  /-- HCLR (R341). -/
  | hclr (a : FmtS)
  /-- TRON (R342). -/
  | tron (a : FmtS)
  /-- TROFF (R343). -/
  | troff (a : FmtS)
  /-- TRMARK (R344). -/
  | trmark (a : FmtS)
  /-- SRSEED (R345). -/
  | srseed (a : FmtS)
  /-- SRDRAW (R346). -/
  | srdraw (a : FmtS)
  /-- CTRD (R340). -/
  | ctrd (a : FmtS)
  /-- SYSRD (R347). -/
  | sysrd (a : FmtS)
  /-- SYSWR (R146). -/
  | syswr (a : FmtS)
  /-- SRAM_PART_WRITE (R149). -/
  | sramPartWrite (a : FmtS)
  /-- SYSWR_STATUS_READ (R148). -/
  | syswrStatusRead (a : FmtS)
  /-- GLOAD (R348). -/
  | gload (a : FmtS)
  /-- GUNLD (R349). -/
  | gunld (a : FmtS)
  /-- LAUNCH (R350). -/
  | launch (a : FmtS)
  /-- TGEN (R351). -/
  | tgen (a : FmtS)
  /-- DIRFL (R352). -/
  | dirfl (a : FmtS)
  /-- PREEMPT (R353). -/
  | preempt (a : FmtS)
  /-- RESUME (R353). -/
  | resume (a : FmtS)
  /-- TRET_REPLAY (R354). -/
  | tretReplay (a : FmtS)
  /-- TRET_POISON (R354). -/
  | tretPoison (a : FmtS)
  /-- TRET_RAISE_MARK (R354). -/
  | tretRaiseMark (a : FmtS)
  /-- TRET_ANSWER (R354). -/
  | tretAnswer (a : FmtS)
  /-- DIEQ (R355). -/
  | dieq (a : FmtS)
  /-- JRNL (R356). -/
  | jrnl (a : FmtS)
  /-- TOKEN_LAND (R15). -/
  | tokenLand (core k : Nat)
  /-- DEFERRED_TOKEN_REPRESENT (R18). -/
  | deferredTokenRepresent (core frame : Nat)
  /-- TOKEN_LOG_WAIT_RESUME (R193). -/
  | tokenLogWaitResume (core : Nat)
  /-- RECORD_INSTANCE (R22). -/
  | recordInstance (core frame entry : Nat)
  /-- BREW_TIMER_EXPIRY (R24). -/
  | brewTimerExpiry (core carafe : Nat)
  /-- CARAFE_LINGER_EXPIRY (R23). -/
  | carafeLingerExpiry (core carafe : Nat)
  /-- PRIORITY_AGING (R26). -/
  | priorityAging (core graph : Nat)
  /-- AGE_PROMOTION (R26). -/
  | agePromotion (core carafe : Nat)
  /-- POUR (R25). -/
  | pour (core : Nat)
  /-- COMMIT (R33). -/
  | commit (core slot : Nat)
  /-- COMMIT_RESUME (R13). -/
  | commitResume (core slot : Nat)
  /-- RELEASED_TOKEN_SEND (R129). -/
  | releasedTokenSend (cid k : Nat)
  /-- FENCE_GROUP_ADVANCE (R132). -/
  | fenceGroupAdvance (cid : Nat)
  /-- SYNC_STALL_TIMEOUT (R34). -/
  | syncStallTimeout (core slot : Nat)
  /-- FAULT_RECORD_DELIVERY (R358). -/
  | faultRecordDelivery
  /-- HOME_ACCESS (R207). -/
  | homeAccess (req : Nat)
  /-- LOAD_RETURN (R216). -/
  | loadReturn (core slot k : Nat)
  /-- IN_FLIGHT_DECREMENT (R13). -/
  | inFlightDecrement (k : Nat)
  /-- CACHE_FILL_ARRIVAL (R198). -/
  | cacheFillArrival (k : Nat)
  /-- STASH_FILL (R203). -/
  | stashFill (core k : Nat)
  /-- DIE_DIRECTORY_RECALL (R204). -/
  | dieDirectoryRecall (die k : Nat)
  /-- OWNERSHIP_REQUEST (R205). -/
  | ownershipRequest (k : Nat)
  /-- OWNER_RECALL (R205). -/
  | ownerRecall (die k : Nat)
  /-- UPGRADE_GRANT (R367). -/
  | upgradeGrant (k : Nat)
  /-- PAGE_WALK_COMPLETE (R318). -/
  | pageWalkComplete (die k : Nat)
  /-- GEN_WRAP_SWEEP (R200). -/
  | genWrapSweep (die k : Nat)
  /-- RDC_SWEEP_WALKER (R202). -/
  | rdcSweepWalker (die k : Nat)
  /-- ROUND_VIEW_UPDATE (R229). -/
  | roundViewUpdate (k : Nat)
  /-- ROUNDA_COMPLETE (R229). -/
  | roundaComplete (k : Nat)
  /-- TGEN_TAKE_UP (R314). -/
  | tgenTakeUp (die k : Nat)
  /-- FRAME_CREATE (R191). -/
  | frameCreate (core : Nat)
  /-- FRAME_BRING_IN (R37). -/
  | frameBringIn (core frame : Nat)
  /-- FREE_REQUEST (R288). -/
  | freeRequest (core k : Nat)
  /-- FRAME_RELEASE (R39). -/
  | frameRelease (core frame : Nat)
  /-- CHILD_RETIREMENT (R39). -/
  | childRetirement (k : Nat)
  /-- TASK_DISPATCH (R270). -/
  | taskDispatch (core : Nat)
  /-- SPILL_DRAIN (R270). -/
  | spillDrain (core graph : Nat)
  /-- ENGINE_COMMAND_START (R271). -/
  | engineCommandStart (core eid : Nat)
  /-- ENGINE_ELEMENT (R137). -/
  | engineElement (core eid i : Nat)
  /-- ENGINE_COMPLETION (R293). -/
  | engineCompletion (core eid : Nat)
  /-- OPERANDS_CONSUMED (R272). -/
  | operandsConsumed (core buf : Nat)
  /-- INDIRECT_STREAM_START (R273). -/
  | indirectStreamStart (die : Nat)
  /-- STREAM_ELEMENT (R299). -/
  | streamElement (core n : Nat)
  /-- STREAM_CLOSE (R299). -/
  | streamClose (core n : Nat)
  /-- STREAM_CONTROL_DELIVERY (R300). -/
  | streamControlDelivery (core eid : Nat)
  /-- ROW_PACKET_ARRIVAL (R234). -/
  | rowPacketArrival (k : Nat)
  /-- ROW_FIRE (R235). -/
  | rowFire (core : Nat)
  /-- PARTIAL_ADD (R235). -/
  | partialAdd (core k : Nat)
  /-- END_PACKET (R237). -/
  | endPacket (core input : Nat)
  /-- ROW_CREDIT_RETURN (R233). -/
  | rowCreditReturn (k : Nat)
  /-- ROW_CREDIT_GRANT (R233). -/
  | rowCreditGrant (core : Nat)
  /-- ROWS_ROW_SEND (R245). -/
  | rowsRowSend (core eid : Nat)
  /-- BQ_SWAP (R243). -/
  | bqSwap (core q : Nat)
  /-- ACCWB_READOUT_END (R249). -/
  | accwbReadoutEnd (core tile : Nat)
  /-- ENGINE_OWNERSHIP_TRANSFER (R241). -/
  | engineOwnershipTransfer (core : Nat)
  /-- INTERSECT_STEP (R254). -/
  | intersectStep (core unit : Nat)
  /-- SPARSE_INSERT (R251). -/
  | sparseInsert (core k : Nat)
  /-- LAUNCH_START (R264). -/
  | launchStart
  /-- ROOT_TOKEN_SEND (R264). -/
  | rootTokenSend
  /-- LAUNCH_COMPLETE (R9). -/
  | launchComplete (lid : Nat)
  /-- DRAIN_LIMIT_EXPIRY (R361). -/
  | drainLimitExpiry (core frame : Nat)
  /-- TRACE_DRAIN (R342). -/
  | traceDrain (core n : Nat)
  /-- TRACE_LOSS (R278). -/
  | traceLoss (core : Nat)
  /-- COMMAND_ACCEPT (R375). -/
  | commandAccept (session : Nat) (bytes : List Byte)
  /-- COMMAND_START (R263). -/
  | commandStart
  /-- COMMAND_END (R375). -/
  | commandEnd (seq : Nat)
  /-- H_LOAD (R376). -/
  | hLoad (seq : Nat)
  /-- H_UNLOAD (R376). -/
  | hUnload (seq : Nat)
  /-- H_LAUNCH (R376). -/
  | hLaunch (seq : Nat)
  /-- H_COPY (R376). -/
  | hCopy (seq : Nat) (data : List Byte)
  /-- H_PREEMPT (R376). -/
  | hPreempt (seq : Nat)
  /-- H_RESUME (R376). -/
  | hResume (seq : Nat)
  /-- H_QUERY_DIE_ENTRY (R376). -/
  | hQueryDieEntry (seq : Nat)
  /-- H_QUERY_ERROR_COUNTER (R333). -/
  | hQueryErrorCounter (seq : Nat)
  /-- H_QUERY_EXCHANGE (R376). -/
  | hQueryExchange (seq : Nat)
  /-- H_JOURNAL_READ (R376). -/
  | hJournalRead (seq : Nat)
  /-- H_DIE_RESET (R376). -/
  | hDieReset (seq : Nat)
  /-- H_ATTEST (R391). -/
  | hAttest (seq : Nat)
  /-- H_DEBUG_HALT (R364). -/
  | hDebugHalt (seq : Nat)
  /-- H_DEBUG_RELEASE (R364). -/
  | hDebugRelease (seq : Nat)
  /-- H_DEBUG_ARM (R291). -/
  | hDebugArm (seq : Nat)
  /-- H_DEBUG_DISARM (R291). -/
  | hDebugDisarm (seq : Nat)
  /-- H_CONFIGURE_QUEUE_PRIORITY (R377). -/
  | hConfigureQueuePriority (seq : Nat)
  /-- H_CONFIGURE_POWER_CAP (R377). -/
  | hConfigurePowerCap (seq : Nat)
  /-- H_CONFIGURE_EXCHANGE_GROUP (R377). -/
  | hConfigureExchangeGroup (seq : Nat)
  /-- H_CONFIGURE_CHIP (R377). -/
  | hConfigureChip (seq : Nat)
  /-- H_CONFIGURE_INSTALL_KEY (R385). -/
  | hConfigureInstallKey (seq : Nat)
  /-- H_CONFIGURE_SEND_KEY (R385). -/
  | hConfigureSendKey (seq : Nat)
  /-- H_CONFIGURE_ERASE_KEY (R385). -/
  | hConfigureEraseKey (seq : Nat)
  /-- GET_VERSION (R389). -/
  | getVersion (peer : SpdmPeer) (answer : SpdmAnswer)
  /-- GET_CAPABILITIES (R389). -/
  | getCapabilities (peer : SpdmPeer) (answer : SpdmAnswer)
  /-- NEGOTIATE_ALGORITHMS (R389). -/
  | negotiateAlgorithms (peer : SpdmPeer) (answer : SpdmAnswer)
  /-- GET_DIGESTS (R389). -/
  | getDigests (peer : SpdmPeer) (answer : SpdmAnswer)
  /-- GET_CERTIFICATE (R389). -/
  | getCertificate (peer : SpdmPeer) (answer : SpdmAnswer)
  /-- CHALLENGE (R389). -/
  | challenge (peer : SpdmPeer) (answer : SpdmAnswer)
  /-- GET_MEASUREMENTS (R390). -/
  | getMeasurements (peer : SpdmPeer) (answer : SpdmAnswer)
  /-- KEY_EXCHANGE (R389). -/
  | keyExchange (peer : SpdmPeer) (answer : SpdmAnswer)
  /-- FINISH (R372). -/
  | finish (peer : SpdmPeer) (answer : SpdmAnswer)
  /-- KEY_UPDATE (R389). -/
  | keyUpdate (peer : SpdmPeer) (answer : SpdmAnswer)
  /-- END_SESSION (R373). -/
  | endSession (peer : SpdmPeer) (answer : SpdmAnswer)
  /-- UNSUPPORTED_REQUEST (R389). -/
  | unsupportedRequest (peer : SpdmPeer) (answer : SpdmAnswer)
  /-- ATTESTATION_RESPONSE_TIMEOUT (R391). -/
  | attestationResponseTimeout (die : Nat)
  /-- ATTESTATION_RETRY (R391). -/
  | attestationRetry (die : Nat)
  /-- KEY_ROLLOVER_START (R393). -/
  | keyRolloverStart (dir : Nat)
  /-- SENDER_KEY_DELIVERY (R393). -/
  | senderKeyDelivery (dir : Nat)
  /-- FIRST_NEW_KEY_FLIT (R393). -/
  | firstNewKeyFlit (dir : Nat)
  /-- DRAIN_MARKER_SEND (R393). -/
  | drainMarkerSend (dir : Nat)
  /-- DRAIN_MARKER_ARRIVAL (R393). -/
  | drainMarkerArrival (dir : Nat)
  /-- BOUNDARY_TAG_FAILURE (R49). -/
  | boundaryTagFailure (failure : TagFailure)
  /-- BOUNDARY_TOKEN_CREDIT_RETURN (R266). -/
  | boundaryTokenCreditReturn (k : Nat)
  /-- FABRIC_PACKET_SEND (R381). -/
  | fabricPacketSend (k : Nat)
  /-- FABRIC_PACKET_RECEIVE (R382). -/
  | fabricPacketReceive (die : Nat) (pkt : WirePacket)
  /-- FABRIC_PORT_CHANGE (R381). -/
  | fabricPortChange (port : Nat) (up : Bool)
  /-- POST_ARRIVAL (R301). -/
  | postArrival (group member : Nat) (row : List Nat)
  /-- PHASE_DONE_MARKER (R387). -/
  | phaseDoneMarker (group : Nat) (marker : DoneMarker)
  /-- PHASE_TIMEOUT (R387). -/
  | phaseTimeout (late : LatePhase)
  /-- DXCH_GRANT (R302). -/
  | dxchGrant (core eid : Nat)
  /-- BARISTA_HEARTBEAT (R388). -/
  | baristaHeartbeat (group : Nat)
  /-- STANDBY_TAKEOVER (R388). -/
  | standbyTakeover (group : Nat)
  /-- TAKEOVER_NOTICE (R388). -/
  | takeoverNotice (group : Nat)
  /-- DXCH_GRANT_TIMEOUT (R388). -/
  | dxchGrantTimeout (core eid : Nat)
  /-- DIE_RESET (R365). -/
  | dieReset (die : Nat)
  /-- DIE_REJOIN (R366). -/
  | dieRejoin (die : Nat)
  /-- UNCORRECTABLE_MATCHING_ERROR (R368). -/
  | uncorrectableMatchingError (core : Nat)
  /-- MEMORY_ERROR (R368). -/
  | memoryError (site : ErrorSite) (corrected : Bool)
  /-- MGMT_HEARTBEAT_TIMEOUT (R371). -/
  | mgmtHeartbeatTimeout
  /-- POWER_SAMPLE (R371, R395). -/
  | powerSample (watts : Nat) (sensed : Sensed)
  /-- POWER_CONTROL_INTERVAL (R395). -/
  | powerControlInterval
  /-- THERMAL_TRIP (R396). -/
  | thermalTrip
  /-- POWER_ON (R394). -/
  | powerOn
  /-- PACKAGE_RESET (R369). -/
  | packageReset
  /-- FLIT_COUNTER_LIMIT (R325). -/
  | flitCounterLimit (dir : Nat)
  /-- SECURED_MESSAGE_CHECK_FAILURE (R372). -/
  | securedMessageCheckFailure (session : Nat)
  deriving DecidableEq, Repr

end Sys2Proof
end

