-- ==== Sys2Proof/WellFormed.lean ====
section
/-! DEFINITION. What GLOAD accepts of one instruction: the operand kinds, widths, types and ranges that the
chapters give each instruction, with the refusal reasons of R77. -/
namespace Sys2Proof

/-- What an operand field is used for (R53, R54, R69, R239, R336). -/
inductive Role where
  /-- a source of n words -/
  | src (n : Nat)
  /-- a predicate source p0-p7 -/
  | pred
  /-- the carry predicate p0-p6, read and written (R154) -/
  | carry
  /-- a destination of n words: v, k16-k31 or zero -/
  | dst (n : Nat)
  /-- a lane-register destination of n words -/
  | dstLane (n : Nat)
  /-- a k16-k31 destination of n words -/
  | dstK (n : Nat)
  /-- a predicate destination p0-p6 -/
  | dstPred
  /-- a load destination: a lane register, or a frame slot for a split-phase load -/
  | dstLoad (n : Nat)
  /-- a source of n words that is no frame slot (R63) -/
  | reg (n : Nat)
  /-- v4n to v4n+3, read -/
  | quad
  /-- v8n to v8n+7, read (CAS128) -/
  | octet
  /-- the even pair of EMITX, also where it is a slot pair (R283, R305) -/
  | evenPair
  /-- the VAL operand of format E, which may name any register, slot or selector (R65) -/
  | val
  /-- descriptor base k0-k24 -/
  | desc
  /-- target quad k4n -/
  | targets
  /-- the frame-pointer base of EMITB with its count -/
  | kbase (c : Nat)
  /-- must hold 0x068 -/
  | unused
  deriving DecidableEq, Repr

/-- The block and graph that an instruction stands in, as GLOAD sees them. -/
structure BlockCtx where
  granules : Nat
  nblock : Nat
  edges : List Bool
  supv : Bool
  deriving DecidableEq, Repr

/-- The checks of one instruction: each flag false fails with the reason its comment names. -/
structure Form where
  /-- 0x02 -/
  reservedOk : Bool := true
  /-- 0x06 -/
  typeOk : Bool := true
  /-- 0x07 -/
  modeOk : Bool := true
  /-- 0x08: per-warp instructions are guarded always -/
  perWarp : Bool := false
  /-- 0x09 -/
  rangeOk : Bool := true
  /-- 0x0A -/
  modsOk : Bool := true
  /-- 0x0B -/
  immOk : Bool := true
  /-- 0x0C -/
  graphOk : Bool := true
  /-- 0x11 -/
  privOk : Bool := true
  /-- 0x04 beyond the operand kinds -/
  placeOk : Bool := true
  g : Guard := ⟨false, 7⟩
  ops : List (Role × Sel) := []
  deriving DecidableEq, Repr

/-- Words of an operand of a type (R54). -/
def Ty.words : Ty → Nat
  | .i64 | .n64 => 2
  | _ => 1

/-- Signedness of an integer type (R98). -/
def Ty.signed : Ty → Bool
  | .i8 | .i16 | .i32 | .i64 => true
  | _ => false

/-- Width in bits of an element of a type (R98, R100). -/
def Ty.width : Ty → Nat
  | .i8 | .n8 | .e4m3 | .e5m2 | .e8m0 | .cf8 => 8
  | .i16 | .n16 | .f16 | .bf16 => 16
  | .i32 | .n32 | .f32 => 32
  | .i64 | .n64 => 64
  | .e3m2 | .e2m3 => 6
  | .e2m1 => 4

def Ty.isInt : Ty → Bool
  | .i8 | .i16 | .i32 | .i64 | .n8 | .n16 | .n32 | .n64 => true
  | _ => false

def Ty.isWide : Ty → Bool
  | .i32 | .n32 | .i64 | .n64 => true
  | _ => false

/-- The float types that the conversions take (R185). -/
def Ty.isFloat : Ty → Bool
  | .f32 | .f16 | .bf16 | .e4m3 | .e5m2 | .e3m2 | .e2m3 | .e2m1 => true
  | _ => false

/-- The element types of scaled blocks (R112). -/
def Ty.isMx : Ty → Bool
  | .e4m3 | .e5m2 | .e3m2 | .e2m3 | .e2m1 => true
  | _ => false

def Ty.isF32 : Ty → Bool
  | .f32 => true
  | _ => false

def Ty.isHalf : Ty → Bool
  | .f16 | .bf16 => true
  | _ => false

/-- The widening conversions (R185): destination, then source. -/
def widening : Ty → Ty → Bool
  | .f32, _ => true
  | .f16, .f16 | .bf16, .bf16 => true
  | .f16, .e4m3 | .bf16, .e4m3 | .e4m3, .e4m3 => true
  | .f16, .e5m2 | .bf16, .e5m2 | .e5m2, .e5m2 => true
  | .f16, .e3m2 | .bf16, .e3m2 | .e4m3, .e3m2 | .e5m2, .e3m2 | .e3m2, .e3m2 => true
  | .f16, .e2m3 | .bf16, .e2m3 | .e4m3, .e2m3 | .e2m3, .e2m3 => true
  | _, .e2m1 => true
  | _, _ => false

def Rnd.isRne : Rnd → Bool
  | .rne => true
  | _ => false

def SrcMod.isNone : SrcMod → Bool
  | .none => true
  | _ => false

def Mods.none : Mods := ⟨.none, .none, .none, false⟩

/-- Modifiers stand only on the marked sources, and saturate only where defined (R57). -/
def Mods.within (m : Mods) (a b c sat : Bool) : Bool :=
  (a || m.a.isNone) && (b || m.b.isNone) && (c || m.c.isNone) && (sat || !m.sat)

def Scope.isAuto : Scope → Bool
  | .auto => true
  | _ => false

def Comb.isNone : Comb → Bool
  | .none => true
  | _ => false

def Hint.isNormal : Hint → Bool
  | .normal => true
  | _ => false

def Cond.isInt : Cond → Bool
  | .ord | .unord => false
  | _ => true

/-- Bytes of an access (R62). -/
def Size.bytes : Size → Nat
  | .b1 => 1
  | .b2 => 2
  | .b4 => 4
  | .b8 => 8
  | .b16 => 16

/-- Registers that an access of a size covers (R212). -/
def Size.words : Size → Nat
  | .b8 => 2
  | .b16 => 4
  | _ => 1

def Sel.isSlot : Sel → Bool
  | .f _ => true
  | _ => false

def Sel.isZero : Sel → Bool
  | .zero => true
  | _ => false

def Sel.isReg : Sel → Bool
  | .v _ => true
  | _ => false

/-- The three-source forms of rows 0x1_, 0x3_, 0x4_, 0x5_ and 0x6_. -/
def formA (a : FmtA) (tyOk rndAny : Bool) (ma mb mc sat : Bool) (d s0 s1 s2 : Role) : Form :=
  { typeOk := tyOk, modeOk := rndAny || a.rnd.isRne, modsOk := a.mods.within ma mb mc sat, g := a.g,
    ops := [(d, a.dst), (s0, a.sa), (s1, a.sb), (s2, a.sc)] }

/-- A form of the 32- and 64-bit integer types: the roles take the type's width where the flag says so. -/
def formInt (a : FmtA) (ma mb mc sat : Bool) (d s0 s1 s2 : Role) : Form :=
  formA a a.ty.isWide false ma mb mc sat d s0 s1 s2

/-- A conversion (R69). -/
def formCvt (a : FmtCvt) (dw sw : Nat) (tyOk rndAny : Bool) (ma sat : Bool) : Form :=
  { typeOk := tyOk, modeOk := rndAny || a.rnd.isRne, modsOk := a.mods.within ma false false sat, g := a.g,
    ops := [(.dst dw, a.dst), (.src sw, a.sa), (.unused, a.sb)] }

/-- Format I on the integer types (R157). -/
def formI (a : FmtI) (tyOk immOk : Bool) (d s : Role) : Form :=
  { typeOk := tyOk, immOk := immOk, g := a.g, ops := [(d, a.dst), (s, a.sa)] }

def IType.words : IType → Nat
  | .i64 => 2
  | _ => 1

def IType.width : IType → Nat
  | .i64 => 64
  | _ => 32

def IType.isF32 : IType → Bool
  | .f32 => true
  | _ => false

def IType.isN32 : IType → Bool
  | .n32 => true
  | _ => false

/-- Format M (R209): which of SIZE, SCOPE, BOUND and HINT are free. -/
def formM (m : FmtM) (sizeOk scopeFree boundFree hintFree : Bool) (d b : Role) : Form :=
  { rangeOk := sizeOk && (scopeFree || m.scope.isAuto) && (boundFree || (m.bound == 0 && !m.bmode))
      && (hintFree || m.hint.isNormal),
    g := m.g, ops := [(d, m.data), (b, m.base)] }

/-- A load of R209: its DATA is a lane register, or a slot where split-phase loads are allowed. -/
def formLoad (m : FmtM) (maxWords : Nat) (scopeFree boundFree hintFree slotOk : Bool) : Form :=
  let f := formM m (decide (m.size.words ≤ maxWords) && !(m.data.isSlot && m.size.words == 4)) scopeFree
    boundFree hintFree (.dstLoad m.size.words) (.src 2)
  { f with placeOk := slotOk || !m.data.isSlot }

/-- A store of R209; 16 bytes take a quad (R62). -/
def formStore (m : FmtM) (maxWords : Nat) (hintFree : Bool) : Form :=
  formM m (decide (m.size.words ≤ maxWords)) false false hintFree
    (if m.size.words = 4 then .quad else .src m.size.words) (.src 2)

def Size.is48 : Size → Bool
  | .b4 | .b8 => true
  | _ => false

/-- An atomic whose operand is one value, or a pair or quad of values (R63). -/
def formAtomic (m : FmtM) (sizeOk : Bool) (d : Role) : Form :=
  formM m sizeOk true false false d (.src 2)

/-- A row-engine form (R240). -/
def formX (x : FmtX) (subOk fchOk unitOk flagsOk : Bool) (a b c : Role) : Form :=
  { reservedOk := flagsOk, perWarp := true, rangeOk := subOk && fchOk && unitOk, g := x.g,
    ops := [(a, x.sa), (b, x.sb), (c, x.sc)] }

def Path.isL : Path → Bool
  | .l => true
  | _ => false

/-- An engine command (R67, R305). -/
def formG (nblock : Nat) (x : FmtG) (subOk flagsOk rangeOk : Bool) : Form :=
  { reservedOk := flagsOk, perWarp := true,
    rangeOk := decide (x.desc ≤ 24) && decide (x.rblock < nblock) && subOk && rangeOk, g := x.g }

/-- A system form (R338). -/
def formS (x : FmtS) (resOk rangeOk immOk graphOk privOk placeOk : Bool) (o : Role) : Form :=
  { reservedOk := resOk, perWarp := true, rangeOk := rangeOk, immOk := immOk, graphOk := graphOk,
    privOk := privOk, placeOk := placeOk, g := x.g, ops := [(o, x.opnd)] }

/-- The reply address of R337: block below the graph's count, and room for a second slot. -/
def replyOk (nblock imm : Nat) (two : Bool) : Bool :=
  decide (bits imm 8 12 < nblock) && !(two && bits imm 0 8 == 255)

/-- The registers that SYSRD reads (R147). -/
def sysnReadable (n : Nat) : Bool :=
  decide (n ≤ 2) || (decide (0x100 ≤ n) && decide (n ≤ 0x17F)) || (decide (0x200 ≤ n) && decide (n ≤ 0x3FF))
    || (decide (0x400 ≤ n) && decide (n ≤ 0x412)) || (decide (0x420 ≤ n) && decide (n ≤ 0x432)) || n == 0x440
    || (decide (0x500 ≤ n) && decide (n ≤ 0x72B)) || n == 0x800 || n == 0x801 || n == 0x802 || n == 0x804

/-- The registers whose access is RW (R147): the third is for firmware only. -/
def sysnWritable (n : Nat) : Bool :=
  n == 0x001 || (decide (0x200 ≤ n) && decide (n ≤ 0x2FF)) || n == 0x802 || n == 0x801

/-- The counters of R333. -/
def ctrNamed (n : Nat) : Bool :=
  decide (n ≤ 5) || (decide (0x10 ≤ n) && decide (n ≤ 0x17)) || (decide (0x20 ≤ n) && decide (n ≤ 0x29))
    || (decide (0x40 ≤ n) && decide (n ≤ 0x45))

def ctrWide (n : Nat) : Bool := decide (0x20 ≤ n) && decide (n ≤ 0x29)

/-- The index bits of each counter (R333). -/
def ctrIndexOk (n imm : Nat) : Bool :=
  if n ≤ 5 then decide (imm < 4096)
  else if 0x10 ≤ n && n ≤ 0x17 then decide (imm < 64)
  else if n == 0x27 then decide (imm < 4)
  else if n == 0x41 then decide (imm < 8)
  else imm == 0

/-- The word index limits of DIEQ (R355). -/
def dieqWordOk (imm : Nat) : Bool :=
  let w := bits imm 2 4
  match bits imm 0 2 with
  | 0 => decide (w ≤ 1)
  | 1 | 2 => decide (w ≤ 11)
  | _ => w == 0

/-- An emit whose edge must be declared and whose block must exist (R65). -/
def emitOk (c : BlockCtx) (e : FmtE) (combOk stopOk scopeOk : Bool) : Bool :=
  decide (e.block < c.nblock) && (nthD false c.edges e.edge) && combOk && stopOk && scopeOk

/-- A device step: its place exists. -/
def happens (ok : Bool) : Form := { rangeOk := ok }

/-- The checks of every instruction, chapter by chapter (R153 to R357). -/
def Instr.form (c : BlockCtx) : Instr → Form
  | .emit e => { graphOk := emitOk c e e.comb.isNone (e.stop == 0) true, g := e.g, ops := [(.val, e.val), (.src 1, e.frm)] }
  | .emitx e => { graphOk := emitOk c e e.comb.isNone (e.stop == 0) e.scope.isAuto, g := e.g,
                  ops := [(.val, e.val), (.evenPair, e.frm)] }
  | .emitc e => { graphOk := emitOk c e (!e.comb.isNone) (e.stop == 0) true, g := e.g, ops := [(.val, e.val), (.src 1, e.frm)] }
  | .emite e => { graphOk := emitOk c e e.comb.isNone (e.stop != 0) true, g := e.g, ops := [(.unused, e.val), (.src 1, e.frm)] }
  | .emitb e => { perWarp := true, g := e.g,
                  graphOk := decide (e.block < c.nblock) && nthD false c.edges 0 &&
                    (match e.frm with | .k b => decide (b + e.edge ≤ 31) | _ => true),
                  ops := [(.val, e.val), (.kbase (e.edge + 1), e.frm)] }
  | .falloc e => { graphOk := decide (e.block < c.nblock) && e.itc == .same && e.stop == 0 && e.edge == 0, g := e.g,
                   ops := [(.unused, e.val), (.src 1, e.frm)] }
  | .spawn e => { graphOk := decide (e.block < c.nblock) && nthD false c.edges e.edge && e.itc == .zero && e.stop == 0,
                  g := e.g, ops := [(.val, e.val), (.src 1, e.frm)] }
  | .spawnq e => { graphOk := decide (e.block < c.nblock) && nthD false c.edges e.edge && e.itc == .zero && decide (e.stop < 7),
                   g := e.g, ops := [(.val, e.val), (.src 1, e.frm), (.dstPred, .p (if e.stop < 7 then e.stop else 0))] }
  | .ffree a => { formI a a.ity.isN32 true .unused (.src 1) with reservedOk := a.imm == 0 }
  | .join a => { typeOk := a.ity.isN32, g := a.g, graphOk := decide (a.block < c.nblock), reservedOk := a.path.isL,
                 ops := [(.unused, a.dst), (.src 1, a.sa)] }
  | .gate a => { typeOk := a.ity.isN32, g := a.g, graphOk := decide (a.block < c.nblock),
                 ops := [(.unused, a.dst), (.src 1, a.sa)] }
  | .trap x => formS x (x.sysn == 0 && decide (x.imm < 65536)) true true true true true .unused
  | .brk x => formS x (x.sysn == 0 && decide (x.imm < 65536)) true true true true true .unused
  | .nop x => formS x (x.sysn == 0 && x.imm == 0) true true true true true .unused
  | .done x => formS x (x.sysn == 0 && x.imm == 0) true true true true true .unused
  | .iadd a | .isub a | .imul a => formInt a true true false true (.dst a.ty.words) (.src a.ty.words) (.src a.ty.words) .unused
  | .imulh a | .imin a | .imax a =>
    formInt a true true false false (.dst a.ty.words) (.src a.ty.words) (.src a.ty.words) .unused
  | .imad a | .isad a =>
    formInt a true true true true (.dst a.ty.words) (.src a.ty.words) (.src a.ty.words) (.src a.ty.words)
  | .imadw a => formA a (a.ty == .i32 || a.ty == .n32) false true true true true (.dst 2) (.src 1) (.src 1) (.src 2)
  | .iaddc a | .isubb a =>
    formInt a true true false false (.dst a.ty.words) (.src a.ty.words) (.src a.ty.words) .carry
  | .iabs a | .ineg a => formInt a true false false true (.dst a.ty.words) (.src a.ty.words) .unused .unused
  | .idot4 a => formA a (a.ty == .i8 || a.ty == .n8) false false false true true (.dst 1) (.src 1) (.src 1) (.src 1)
  | .idot2 a => formA a (a.ty == .i16 || a.ty == .n16) false false false true true (.dst 1) (.src 1) (.src 1) (.src 1)
  | .lea a => formInt a false false false false (.dst 2) (.src 2) (.src a.ty.words) (.src 1)
  | .iaddi a | .imuli a | .andi a | .ori a | .xori a | .leai a =>
    formI a (!a.ity.isF32) true (.dst a.ity.words) (.src a.ity.words)
  | .shli a | .shri a | .shrai a =>
    formI a (!a.ity.isF32) (decide (a.imm.toNat < a.ity.width)) (.dst a.ity.words) (.src a.ity.words)
  | .movi a => formI a true true (.dst a.ity.words) .unused
  | .movki a => formI a true true (.dstK a.ity.words) .unused
  | .icmpi a => { typeOk := a.ity == .i32 || a.ity == .n32, modeOk := a.cond.isInt, immOk := decide (a.imm < 2 ^ 29), g := a.g,
                  ops := [(.dstPred, a.dst), (.src 1, a.sa)] }
  | .and a | .or a | .xor a | .andn a =>
    formInt a false false false false (.dst a.ty.words) (.src a.ty.words) (.src a.ty.words) .unused
  | .not a | .brev a => formInt a false false false false (.dst a.ty.words) (.src a.ty.words) .unused .unused
  | .shl a | .shr a | .shra a | .rotl a | .bfx a =>
    formInt a false false false false (.dst a.ty.words) (.src a.ty.words) (.src 1) .unused
  | .funnel a | .bfi a =>
    formInt a false false false false (.dst a.ty.words) (.src a.ty.words) (.src a.ty.words) (.src 1)
  | .popc a | .clz a | .ctz a => formInt a false false false false (.dst 1) (.src a.ty.words) .unused .unused
  | .icmp a => { typeOk := a.ty.isWide, modeOk := a.cond.isInt, modsOk := a.mods == .none, g := a.g,
                 ops := [(.dstPred, a.dst), (.src a.ty.words, a.sa), (.src a.ty.words, a.sb), (.unused, a.sc)] }
  | .plop a => { typeOk := a.ty == .i8, modeOk := a.rnd.isRne, rangeOk := decide (a.table < 256), g := a.g,
                 ops := [(.dstPred, a.dst), (.pred, a.sa), (.pred, a.sb), (.pred, a.sc)] }
  | .sel a => formInt a false false false false (.dst a.ty.words) (.src a.ty.words) (.src a.ty.words) .pred
  | .mov a => formInt a false false false false (.dst a.ty.words) (.src a.ty.words) .unused .unused
  | .movp a => formInt a false false false false .dstPred (.src a.ty.words) .unused .unused
  | .lanex a => { typeOk := a.ty.isWide, modsOk := a.mods == .none, g := a.g,
                  ops := [(.dst a.ty.words, a.dst), (.src a.ty.words, a.sa),
                    (if a.mode = .mirr then .unused else .src 1, a.sb), (.unused, a.sc)] }
  | .poll a => { typeOk := a.ty.isWide, modsOk := a.mods == .none, g := a.g,
                 ops := [(match a.mode with | .all | .any => .dstPred | _ => .dstLane 1, a.dst),
                   (.src a.ty.words, a.sa), (.unused, a.sb), (.unused, a.sc)] }
  | .peers a => { typeOk := a.ty.isWide, modsOk := a.mods == .none, g := a.g,
                  ops := [(.dstLane 1, a.dst), (.src a.ty.words, a.sa), (.unused, a.sb), (.unused, a.sc)] }
  | .cnvi a => formCvt a a.dty.words a.sty.words (a.dty.isWide && a.sty.isInt) false false true
  | .bytsel a => formInt a false false false false (.dst a.ty.words) (.src a.ty.words) (.src a.ty.words) (.src a.ty.words)
  | .movk a => formInt a false false false false (.dstK a.ty.words) (.src a.ty.words) .unused .unused
  | .fptr a => formA a (a.ty == .n32) false false false false false (.dst 1) (.src 1) (.src 1) (.src 1)
  | .fpsplit a => formA a (a.ty == .n32) false false false false false (.dst 1) (.src 1) .unused .unused
  | .fadd a | .fsub a | .fmul a => formA a a.ty.isF32 true true true false true (.dst 1) (.src 1) (.src 1) .unused
  | .ffma a => formA a a.ty.isF32 true true true true true (.dst 1) (.src 1) (.src 1) (.src 1)
  | .fmin a | .fmax a => formA a a.ty.isF32 false true true false false (.dst 1) (.src 1) (.src 1) .unused
  | .fcmp a => { typeOk := a.ty.isF32, modsOk := a.mods.within true true false false, g := a.g,
                 ops := [(.dstPred, a.dst), (.src 1, a.sa), (.src 1, a.sb), (.unused, a.sc)] }
  | .fclass a => formA a a.ty.isF32 false true false false false (.dst 1) (.src 1) .unused .unused
  | .fscale a => formA a a.ty.isF32 true true false false true (.dst 1) (.src 1) (.src 1) .unused
  | .fredw a => { typeOk := a.ty.isF32, modsOk := a.mods.within true false false (a.op == .add), g := a.g,
                  ops := [(.dst 1, a.dst), (.src 1, a.sa), (.unused, a.sb)] }
  | .fdot2 a => formA a a.ty.isHalf true true true true true (.dst 1) (.src 1) (.src 1) (.src 1)
  | .pkfma a => formA a a.ty.isHalf true true true true true (.dst 1) (.src 1) (.src 1) (.src 1)
  | .pkadd a | .pkmul a => formA a a.ty.isHalf true true true false true (.dst 1) (.src 1) (.src 1) .unused
  | .frcp a | .frsq a | .fsqrt a | .fexp2 a | .flog2 a | .fsin a | .fcos a | .ftanh a =>
    formA a a.ty.isF32 true true false false false (.dst 1) (.src 1) .unused .unused
  | .fcvt a => formCvt a 1 1 (a.dty.isFloat && a.sty.isFloat) (!widening a.dty a.sty) true (!widening a.dty a.sty)
  | .f2i a => formCvt a a.dty.words 1 (a.dty.isInt && a.sty.isFloat) true true false
  | .i2f a => formCvt a 1 a.sty.words (a.dty.isFloat && a.sty.isInt) true true true
  | .mxpack a => formCvt a 1 1 (a.dty.isMx && (a.sty.isF32 || a.sty.isHalf)) true true true
  | .mxunpk a => formCvt a 1 1 ((a.dty.isF32 || a.dty.isHalf) && a.sty.isMx) false false false
  | .mxcfg x => formX x (x.subop == 0) (x.fch == 0) (x.unit == 0) (x.flags == 0) .desc .unused .unused
  | .bldq x => formX x (decide (x.subop ≤ 4)) true (x.unit == 0) (x.flags == 0) (.src 2)
      (if x.sb.isZero then .unused else .src 2) (if x.sc.isZero then .unused else .src 1)
  | .rowp x => formX x (x.subop == 0) true (decide (x.unit < 64)) (x.flags == 0) (.src 1) .targets (.src 1)
  | .rows x => formX x (x.subop == 0) true (decide (x.unit < 64)) (decide (x.flags < 4)) .desc .targets .unused
  | .accz x => formX x (x.subop == 0) (x.fch == 0) (decide (x.unit < 64)) (x.flags == 0) .unused .unused .unused
  | .accrd x => formX x (x.subop == 0) (x.fch == 0) (decide (x.unit < 64)) (x.flags == 0) (.dstLane 2) (.src 1) .unused
  | .accwb x => formX x (x.subop == 0) (x.fch == 0) (decide (x.unit < 64)) (decide (x.flags < 8)) (.src 2) (.src 1) .unused
  | .accst x => formX x (x.subop == 0) (x.fch == 0) (decide (x.unit < 64))
      (decide (x.flags < 64) && decide (bits x.flags 0 3 < 5)) (.src 2) (.src 1) .unused
  | .iscfg x => formX x (x.subop == 0) (x.fch == 0) (decide (x.unit < 4)) (x.flags == 0) (.src 1) (.src 1) .unused
  | .isx x => formX x (x.subop == 0) (x.fch == 0) (decide (x.unit < 4)) (x.flags == 0) .desc .unused .unused
  | .sacci x => formX x (x.subop == 0) (x.fch == 0) (decide (x.unit < 4)) (x.flags == 0) (.src 1) (.src 1) .unused
  | .saccf x => formX x (x.subop == 0) (x.fch == 0) (decide (x.unit < 4))
      (!bitOf x.flags 5 && bits x.flags 0 2 != 3) (.src 2) (.src 2) (.src 1)
  | .nzscan x => formX x (x.subop == 0) (x.fch == 0) (decide (x.unit < 2)) (decide (x.flags < 4)) .desc (.src 1) .unused
  | .fchbind x => formX x (x.subop == 0) true (x.unit == 0) (x.flags == 0) (.src 1) (.src 1) .unused
  | .mxseq x => formX x (x.subop == 0) (x.fch == 0) (decide (x.unit < 64)) (decide (x.flags < 2)) (.src 1) (.src 1) (.src 1)
  | .ldg m => formLoad m 4 false false true true
  | .ldb m => formLoad m 2 false true true true
  | .lda m => formLoad m 2 true false true true
  | .lds m => formLoad m 2 false false false false
  | .ldc m => formLoad m 2 false false true true
  | .stg m => formStore m 4 true
  | .stl m => formStore m 2 false
  | .sts m => formStore m 2 false
  | .smap m => { formM m (m.size == .b1) false false false .quad .unused with reservedOk := decide (m.ofs < 16) }
  | .swb m | .sinv m => formM m (m.size == .b1) false false false .unused (.src 2)
  | .pref m => formM m (m.size == .b1) false false true .unused (.src 2)
  | .ldp m => formLoad m 2 false false true true
  | .stp m => formStore m 2 true
  | .atom m => { rangeOk := m.size.is48 && !(m.op == .fadd && m.size == .b8) && m.scope.isAuto && !m.bmode && m.hint.isNormal,
                 g := m.g, ops := [(.src m.size.words, m.data), (.src 2, m.base)] }
  | .atomr m => { rangeOk := m.size.is48 && !(m.op == .fadd && m.size == .b8) && !m.bmode && m.hint.isNormal,
                  g := m.g, ops := [(.reg m.size.words, m.data), (.src 2, m.base)] }
  | .cas m | .faddb m => formAtomic m m.size.is48 (if m.size = .b8 then .quad else .reg 2)
  | .cas128 m => formAtomic m (m.size == .b16) .octet
  | .incw m | .decw m => formAtomic m m.size.is48 (.reg m.size.words)
  | .putf m => formM m (m.size == .b8) false false false (.src 2) (.src 2)
  | .take m | .readf m => formM m (m.size == .b8) true false false .unused (.src 2)
  | .sete m => formM m (m.size == .b8) false false false .unused (.src 2)
  | .fence m => { formM m (m.size == .b1) true false false .unused .unused with perWarp := true, reservedOk := m.ofs == 0 }
  | .rounda m => formM m (m.size == .b1) true false false .unused (.src 2)
  | .roundv m => formM m (m.size == .b4) false false false .unused (.src 2)
  | .acq m => formM m (m.size == .b1) true false false .unused (.src 2)
  | .cpy x => formG c.nblock x (x.subop == 0)
      (bits x.flags 2 9 == 0 && (bitOf x.flags 11 || bits x.flags 12 4 == 0)) (bits x.flags 0 2 != 3)
  | .cpy2d x => formG c.nblock x (x.subop == 0)
      (bits x.flags 2 9 == 0 && (bitOf x.flags 11 || bits x.flags 12 4 == 0)) (decide (bits x.flags 0 2 < 2))
  | .gath x => formG c.nblock x (x.subop == 0) (bits x.flags 2 14 == 0) (bits x.flags 0 2 != 3)
  | .scat x => formG c.nblock x (x.subop == 0)
      (bits x.flags 2 9 == 0 && (bitOf x.flags 11 || bits x.flags 12 4 == 0)) (bits x.flags 0 2 == 0)
  | .strm x => formG c.nblock x (decide (x.subop < 2)) (decide (x.flags < 32))
      (decide (bits x.flags 0 3 < 4) && (bitOf x.flags 3 || (x.rscope.isAuto && x.rcomb.isNone)))
  | .strmgo x => { formG c.nblock x (decide (x.subop < 2))
      (decide (x.flags < 4) && x.desc == 0 && x.rblock == 0 && x.rslot == 0 && x.path.isL && x.rscope.isAuto && x.rcomb.isNone) true
      with ops := [] }
  | .strmx x => { formG c.nblock x (decide (x.subop < 2))
      (decide (x.flags < 64) && x.desc == 0 && x.rblock == 0 && x.rslot == 0 && x.path.isL && x.rscope.isAuto && x.rcomb.isNone) true
      with ops := [(.src 1, .v (bits x.flags 0 6))] }
  | .dpost x => formG c.nblock x (x.subop == 0) (decide (x.flags < 256)) true
  | .dxch x => formG c.nblock x (x.subop == 0) (decide (x.flags < 256)) true
  | .dxq x => { formG c.nblock x (x.subop == 0) (decide (x.flags < 256) && x.desc == 0) true with ops := [] }
  | .cpyb x => formG c.nblock x (x.subop == 0) (x.flags == 0) true
  | .hbind x => formS x (decide (x.sysn < 8) && decide (x.imm < 8) && !bitOf x.imm 2) true true true true true .unused
  | .hbindRelease x => formS x (decide (x.sysn < 8) && decide (x.imm < 8) && bitOf x.imm 2) true true true true true .unused
  | .hread x => formS x true (decide (x.sysn < 8)) true true true true (.dst 1)
  | .hclr x => formS x (x.imm == 0) (decide (x.sysn < 256)) true true true true .unused
  | .tron x => formS x (x.sysn == 0) true (x.imm % 65536 != 0) true true true (.src 2)
  | .troff x => formS x (x.sysn == 0 && x.imm == 0) true true true true true .unused
  | .trmark x => formS x (x.sysn == 0) true true true true true (.src 1)
  | .srseed x => formS x (x.sysn == 0 && x.imm == 0) true true true true true (.src 2)
  | .srdraw x => formS x (x.sysn == 0) true true true true true (.dst 1)
  | .ctrd x => formS x true (ctrNamed x.sysn && ctrIndexOk x.sysn x.imm) true true true true
      (.dst (if ctrWide x.sysn then 2 else 1))
  | .sysrd x => formS x (x.imm == 0) (sysnReadable x.sysn && x.sysn != 2) true true c.supv true
      (.dst (if x.sysn = 0x804 then 2 else 1))
  | .syswrStatusRead x => formS x (x.imm == 0) (x.sysn == 2) true true c.supv true (.dst 1)
  | .syswr x => formS x (x.opnd.isZero || x.imm == 0) (sysnReadable x.sysn && x.sysn != 1) true true
      (c.supv && x.sysn != 0x801) (sysnWritable x.sysn || !sysnReadable x.sysn) (if x.opnd.isZero then .unused else .src 1)
  | .sramPartWrite x => formS x (x.opnd.isZero || x.imm == 0) (x.sysn == 1) true true c.supv true
      (if x.opnd.isZero then .unused else .src 1)
  | .gload x => formS x (x.sysn == 0 && decide (x.imm < 2 ^ 20)) true true (replyOk c.nblock x.imm true) c.supv true .desc
  | .gunld x => formS x (x.sysn == 0 && decide (x.imm < 2 ^ 20)) true true (replyOk c.nblock x.imm true) c.supv true (.src 1)
  | .launch x => formS x (x.sysn == 0 && decide (x.imm < 2 ^ 20)) true true (replyOk c.nblock x.imm false) c.supv true .desc
  | .tgen x => formS x (x.sysn == 0 && decide (x.imm < 2 ^ 20)) true true (replyOk c.nblock x.imm false) c.supv true (.src 1)
  | .dirfl x => formS x (x.sysn == 0 && decide (x.imm < 2 ^ 20)) true true (replyOk c.nblock x.imm false) c.supv true .desc
  | .preempt x => formS x (x.sysn == 0 && decide (x.imm < 2 ^ 20)) true true (replyOk c.nblock x.imm true) c.supv true (.src 1)
  | .resume x => formS x (x.sysn == 0 && decide (x.imm < 2 ^ 20)) true true (replyOk c.nblock x.imm false) c.supv true (.src 1)
  | .tretReplay x => formS x (decide (x.imm < 2 ^ 20)) (x.sysn == 0) true (replyOk c.nblock x.imm false) c.supv true .desc
  | .tretPoison x => formS x (decide (x.imm < 2 ^ 20)) (x.sysn == 1) true (replyOk c.nblock x.imm false) c.supv true .desc
  | .tretRaiseMark x => formS x (decide (x.imm < 2 ^ 20)) (x.sysn == 2) true (replyOk c.nblock x.imm false) c.supv true .desc
  | .tretAnswer x => formS x (decide (x.imm < 2 ^ 20)) (x.sysn == 3) true (replyOk c.nblock x.imm false) c.supv true .desc
  | .dieq x => formS x (decide (x.sysn < 32) && decide (x.imm < 64)) (decide (x.sysn < 19)) (dieqWordOk x.imm) true c.supv true (.dst 1)
  | .jrnl x => formS x (x.sysn == 0) true true true c.supv true (.src 2)
  | .tokenLand core _ => happens (decide (core < 512))
  | .deferredTokenRepresent core frame => happens (decide (core < 512) && decide (frame < 16384))
  | .tokenLogWaitResume core => happens (decide (core < 512))
  | .recordInstance core frame entry => happens (decide (core < 512) && decide (frame < 16384) && decide (entry < 11))
  | .brewTimerExpiry core carafe => happens (decide (core < 512) && decide (carafe < 64))
  | .carafeLingerExpiry core carafe => happens (decide (core < 512) && decide (carafe < 64))
  | .priorityAging core graph => happens (decide (core < 512) && decide (graph < 256))
  | .agePromotion core carafe => happens (decide (core < 512) && decide (carafe < 64))
  | .pour core => happens (decide (core < 512))
  | .commit core slot => happens (decide (core < 512) && decide (slot < 128))
  | .commitResume core slot => happens (decide (core < 512) && decide (slot < 128))
  | .releasedTokenSend _ _ => happens true
  | .fenceGroupAdvance _ => happens true
  | .syncStallTimeout core slot => happens (decide (core < 512) && decide (slot < 128))
  | .faultRecordDelivery => happens true
  | .homeAccess _ => happens true
  | .loadReturn core slot _ => happens (decide (core < 512) && decide (slot < 128))
  | .inFlightDecrement _ => happens true
  | .cacheFillArrival _ => happens true
  | .stashFill core _ => happens (decide (core < 512))
  | .dieDirectoryRecall die _ => happens (decide (die < 19))
  | .ownershipRequest _ => happens true
  | .ownerRecall die _ => happens (decide (die < 19))
  | .upgradeGrant _ => happens true
  | .pageWalkComplete die _ => happens (decide (die < 19))
  | .genWrapSweep die _ => happens (decide (die < 19))
  | .rdcSweepWalker die _ => happens (decide (die < 19))
  | .roundViewUpdate _ => happens true
  | .roundaComplete _ => happens true
  | .tgenTakeUp die _ => happens (decide (die < 19))
  | .frameCreate core => happens (decide (core < 512))
  | .frameBringIn core frame => happens (decide (core < 512) && decide (frame < 16384))
  | .freeRequest core _ => happens (decide (core < 512))
  | .frameRelease core frame => happens (decide (core < 512) && decide (frame < 16384))
  | .childRetirement _ => happens true
  | .taskDispatch core => happens (decide (core < 512))
  | .spillDrain core graph => happens (decide (core < 512) && decide (graph < 256))
  | .engineCommandStart core _ => happens (decide (core < 512))
  | .engineElement core _ _ => happens (decide (core < 512))
  | .engineCompletion core _ => happens (decide (core < 512))
  | .operandsConsumed core buf => happens (decide (core < 512) && decide (buf < 16))
  | .indirectStreamStart die => happens (decide (die < 19))
  | .streamElement core n => happens (decide (core < 512) && decide (n < 2))
  | .streamClose core n => happens (decide (core < 512) && decide (n < 2))
  | .streamControlDelivery core _ => happens (decide (core < 512))
  | .rowPacketArrival _ => happens true
  | .rowFire core => happens (decide (core < 512))
  | .partialAdd core _ => happens (decide (core < 512))
  | .endPacket core input => happens (decide (core < 512) && decide (input < 8))
  | .rowCreditReturn _ => happens true
  | .rowCreditGrant core => happens (decide (core < 512))
  | .rowsRowSend core _ => happens (decide (core < 512))
  | .bqSwap core q => happens (decide (core < 512) && decide (q < 4))
  | .accwbReadoutEnd core tile => happens (decide (core < 512) && decide (tile < 64))
  | .engineOwnershipTransfer core => happens (decide (core < 512))
  | .intersectStep core unit => happens (decide (core < 512) && decide (unit < 4))
  | .sparseInsert core _ => happens (decide (core < 512))
  | .launchStart => happens true
  | .rootTokenSend => happens true
  | .launchComplete _ => happens true
  | .drainLimitExpiry core frame => happens (decide (core < 512) && decide (frame < 16384))
  | .traceDrain core _ => happens (decide (core < 512))
  | .traceLoss core => happens (decide (core < 512))
  | .commandAccept _ bytes => happens (decide (bytes.length = 64))
  | .commandStart => happens true
  | .commandEnd _ => happens true
  | .hLoad _ => happens true
  | .hUnload _ => happens true
  | .hLaunch _ => happens true
  | .hCopy _ _ => happens true
  | .hPreempt _ => happens true
  | .hResume _ => happens true
  | .hQueryDieEntry _ => happens true
  | .hQueryErrorCounter _ => happens true
  | .hQueryExchange _ => happens true
  | .hJournalRead _ => happens true
  | .hDieReset _ => happens true
  | .hAttest _ => happens true
  | .hDebugHalt _ => happens true
  | .hDebugRelease _ => happens true
  | .hDebugArm _ => happens true
  | .hDebugDisarm _ => happens true
  | .hConfigureQueuePriority _ => happens true
  | .hConfigurePowerCap _ => happens true
  | .hConfigureExchangeGroup _ => happens true
  | .hConfigureChip _ => happens true
  | .hConfigureInstallKey _ => happens true
  | .hConfigureSendKey _ => happens true
  | .hConfigureEraseKey _ => happens true
  | .getVersion _ _ => happens true
  | .getCapabilities _ _ => happens true
  | .negotiateAlgorithms _ _ => happens true
  | .getDigests _ _ => happens true
  | .getCertificate _ _ => happens true
  | .challenge _ _ => happens true
  | .getMeasurements _ _ => happens true
  | .keyExchange _ _ => happens true
  | .finish _ _ => happens true
  | .keyUpdate _ _ => happens true
  | .endSession _ _ => happens true
  | .unsupportedRequest _ _ => happens true
  | .attestationResponseTimeout die => happens (decide (die < 19))
  | .attestationRetry die => happens (decide (die < 19))
  | .keyRolloverStart dir => happens (decide (dir < 44))
  | .senderKeyDelivery dir => happens (decide (dir < 44))
  | .firstNewKeyFlit dir => happens (decide (dir < 44))
  | .drainMarkerSend dir => happens (decide (dir < 44))
  | .drainMarkerArrival dir => happens (decide (dir < 44))
  | .boundaryTagFailure f => happens (decide (f.dir < 44))
  | .boundaryTokenCreditReturn _ => happens true
  | .fabricPacketSend _ => happens true
  | .fabricPacketReceive die _ => happens (decide (die < 19))
  | .fabricPortChange port _ => happens (decide (port < 36))
  | .postArrival group _ _ => happens (decide (group < 256))
  | .phaseDoneMarker group _ => happens (decide (group < 256))
  | .phaseTimeout p => happens (decide (p.group < 256))
  | .dxchGrant core _ => happens (decide (core < 512))
  | .baristaHeartbeat group => happens (decide (group < 256))
  | .standbyTakeover group => happens (decide (group < 256))
  | .takeoverNotice group => happens (decide (group < 256))
  | .dxchGrantTimeout core _ => happens (decide (core < 512))
  | .dieReset die => happens (decide (die < 19))
  | .dieRejoin die => happens (decide (die < 19))
  | .uncorrectableMatchingError core => happens (decide (core < 512))
  | .memoryError _ _ => happens true
  | .mgmtHeartbeatTimeout => happens true
  | .powerSample _ _ => happens true
  | .powerControlInterval => happens true
  | .thermalTrip => happens true
  | .powerOn => happens true
  | .packageReset => happens true
  | .flitCounterLimit dir => happens (decide (dir < 44))
  | .securedMessageCheckFailure _ => happens true

/-- The reasons for which one operand is refused (R53, R54, R261, R357). -/
def operandReasons (granules : Nat) : Role → Sel → List Nat
  | .src n, s => match s with
    | .p _ => [4]
    | .v r => if (n == 2 && r % 2 != 0) || 16 * granules < r + n then [5] else []
    | .k r => if n == 2 && r % 2 != 0 then [5] else []
    | .f r => if n == 2 && 254 < r then [5] else []
    | _ => []
  | .reg n, s => match s with
    | .p _ | .f _ => [4]
    | .v r => if (n == 2 && r % 2 != 0) || 16 * granules < r + n then [5] else []
    | .k r => if n == 2 && r % 2 != 0 then [5] else []
    | _ => []
  | .pred, s => match s with
    | .p _ => []
    | _ => [4]
  | .carry, s | .dstPred, s => match s with
    | .p r => if r < 7 then [] else [4]
    | _ => [4]
  | .dst n, s => match s with
    | .v r => if (n == 2 && r % 2 != 0) || 16 * granules < r + n then [5] else []
    | .k r => if r < 16 then [4] else if n == 2 && r % 2 != 0 then [5] else []
    | .zero => []
    | _ => [4]
  | .dstLane n, s => match s with
    | .v r => if (n == 2 && r % 2 != 0) || 16 * granules < r + n then [5] else []
    | _ => [4]
  | .dstK n, s => match s with
    | .k r => if r < 16 then [4] else if n == 2 && r % 2 != 0 then [5] else []
    | _ => [4]
  | .dstLoad n, s => match s with
    | .v r => if (n == 2 && r % 2 != 0) || (n == 4 && r % 4 != 0) || 16 * granules < r + n then [5] else []
    | .f r => if n == 2 && 254 < r then [5] else []
    | _ => [4]
  | .quad, s => match s with
    | .v r => if r % 4 != 0 || 16 * granules < r + 4 then [5] else []
    | _ => [4]
  | .octet, s => match s with
    | .v r => if r % 8 != 0 || 16 * granules < r + 8 then [5] else []
    | _ => [4]
  | .evenPair, s => match s with
    | .p _ => [4]
    | .v r => if r % 2 != 0 || 16 * granules < r + 2 then [5] else []
    | .k r | .f r => if r % 2 != 0 then [5] else []
    | _ => []
  | .val, s => match s with
    | .p _ => [4]
    | .v r => if 16 * granules < r + (if r % 2 = 0 then 2 else 1) then [5] else []
    | _ => []
  | .desc, s => match s with
    | .k r => if r ≤ 24 then [] else [4]
    | _ => [4]
  | .targets, s => match s with
    | .k r => if r % 4 == 0 then [] else [4]
    | _ => [4]
  | .kbase _, s => match s with
    | .k _ => []
    | _ => [4]
  | .unused, s => match s with
    | .zero => []
    | _ => [4]

/-- The reasons that one check adds. -/
def orReason (ok : Bool) (r : Nat) : List Nat := if ok then [] else [r]

/-- A guard that is legal: not 0b1111, and 0b0111 on a per-warp instruction (R52). -/
def Form.guardOk (f : Form) : Bool :=
  decide (f.g.pred < 8) && !(f.g.neg && f.g.pred == 7) && (!f.perWarp || (!f.g.neg && f.g.pred == 7))

/-- Every reason of R77 for which one instruction is refused in a block. -/
def Instr.reasons (c : BlockCtx) (i : Instr) : List Nat :=
  let f := i.form c
  orReason f.reservedOk 0x02 ++ orReason f.placeOk 0x04 ++ f.ops.flatMap (fun o => operandReasons c.granules o.1 o.2)
    ++ orReason f.typeOk 0x06 ++ orReason f.modeOk 0x07 ++ orReason f.guardOk 0x08 ++ orReason f.rangeOk 0x09
    ++ orReason f.modsOk 0x0A ++ orReason f.immOk 0x0B ++ orReason f.graphOk 0x0C ++ orReason f.privOk 0x11

/-- An instruction that GLOAD accepts in a block (R77). -/
def Instr.wellFormed (c : BlockCtx) (i : Instr) : Bool := (i.reasons c).isEmpty

end Sys2Proof
end

