-- ==== Sys2Proof/Decode.lean ====
section
/-! DEFINITION. The 64-bit words of Akkel (R52 to R74): the decoder, total on every number, with the refusal
reasons of R77 that show in the word alone, and the encoder written from the same tables. -/
namespace Sys2Proof

/-- A selector code (R53); a code not listed is reserved. -/
def decSel (n : Nat) : Option Sel :=
  if n < 0x40 then some (.v n)
  else if n < 0x60 then some (.k (n - 0x40))
  else if n = 0x68 then some .zero
  else if n = 0x69 then some .lane
  else if n = 0x6A then some .fp
  else if n = 0x6B then some .iter
  else if n = 0x6C then some .act
  else if n = 0x6D then some .wpop
  else if 0x70 ≤ n ∧ n < 0x78 then some (.p (n - 0x70))
  else if 0x100 ≤ n ∧ n < 0x200 then some (.f (n - 0x100))
  else none

/-- The code of a selector (R53). -/
def encSel : Sel → Nat
  | .v n => n
  | .k n => 0x40 + n
  | .zero => 0x68
  | .lane => 0x69
  | .fp => 0x6A
  | .iter => 0x6B
  | .act => 0x6C
  | .wpop => 0x6D
  | .p n => 0x70 + n
  | .f n => 0x100 + n

/-- A selector whose number its code can hold. -/
def Sel.fits : Sel → Bool
  | .v n => decide (n < 64)
  | .k n => decide (n < 32)
  | .p n => decide (n < 8)
  | .f n => decide (n < 256)
  | _ => true

/-- A type code (R55). -/
def decTy : Nat → Option Ty
  | 0 => some .i8 | 1 => some .i16 | 2 => some .i32 | 3 => some .i64
  | 4 => some .n8 | 5 => some .n16 | 6 => some .n32 | 7 => some .n64
  | 8 => some .f32 | 9 => some .f16 | 10 => some .bf16 | 11 => some .e4m3
  | 12 => some .e5m2 | 13 => some .e3m2 | 14 => some .e2m3 | 15 => some .e2m1
  | 16 => some .e8m0 | 17 => some .cf8
  | _ => none

def encTy : Ty → Nat
  | .i8 => 0 | .i16 => 1 | .i32 => 2 | .i64 => 3 | .n8 => 4 | .n16 => 5 | .n32 => 6 | .n64 => 7
  | .f32 => 8 | .f16 => 9 | .bf16 => 10 | .e4m3 => 11 | .e5m2 => 12 | .e3m2 => 13 | .e2m3 => 14 | .e2m1 => 15
  | .e8m0 => 16 | .cf8 => 17

/-- A rounding code (R56). -/
def decRnd : Nat → Rnd
  | 0 => .rne | 1 => .rtz | 2 => .rup | 3 => .rdn | 4 => .rna | 5 => .sr | 6 => .srw | _ => .dyn

def encRnd : Rnd → Nat
  | .rne => 0 | .rtz => 1 | .rup => 2 | .rdn => 3 | .rna => 4 | .sr => 5 | .srw => 6 | .dyn => 7

/-- A source modifier code (R57). -/
def decSrcMod : Nat → SrcMod
  | 0 => .none | 1 => .neg | 2 => .abs | _ => .negAbs

def encSrcMod : SrcMod → Nat
  | .none => 0 | .neg => 1 | .abs => 2 | .negAbs => 3

/-- The modifier byte without its reserved bit (R57). -/
def decMods (w : Nat) : Mods := ⟨decSrcMod (bits w 6 2), decSrcMod (bits w 4 2), decSrcMod (bits w 2 2), bitOf w 1⟩

def encMods (m : Mods) : Nat :=
  encSrcMod m.c * 64 + encSrcMod m.b * 16 + encSrcMod m.a * 4 + b2n m.sat * 2

/-- A combine op code (R58). -/
def decComb : Nat → Comb
  | 0 => .none | 1 => .addI32 | 2 => .addF32 | 3 => .minI32 | 4 => .maxI32 | 5 => .or | 6 => .and | _ => .addI64

def encComb : Comb → Nat
  | .none => 0 | .addI32 => 1 | .addF32 => 2 | .minI32 => 3 | .maxI32 => 4 | .or => 5 | .and => 6 | .addI64 => 7

/-- A condition code (R59). -/
def decCond : Nat → Cond
  | 0 => .eq | 1 => .ne | 2 => .lt | 3 => .le | 4 => .gt | 5 => .ge | 6 => .ord | _ => .unord

def encCond : Cond → Nat
  | .eq => 0 | .ne => 1 | .lt => 2 | .le => 3 | .gt => 4 | .ge => 5 | .ord => 6 | .unord => 7

/-- An immediate type (R61). -/
def decIType : Nat → IType
  | 0 => .i32 | 1 => .n32 | 2 => .f32 | _ => .i64

def encIType : IType → Nat
  | .i32 => 0 | .n32 => 1 | .f32 => 2 | .i64 => 3

/-- A scope code (R62, R65, R67). -/
def decScope : Nat → Scope
  | 0 => .auto | 1 => .core | 2 => .die | _ => .package

def encScope : Scope → Nat
  | .auto => 0 | .core => 1 | .die => 2 | .package => 3

/-- A size code (R62); 101 to 111 are refused. -/
def decSize : Nat → Option Size
  | 0 => some .b1 | 1 => some .b2 | 2 => some .b4 | 3 => some .b8 | 4 => some .b16 | _ => none

def encSize : Size → Nat
  | .b1 => 0 | .b2 => 1 | .b4 => 2 | .b8 => 3 | .b16 => 4

/-- A hint code (R62); 101 to 111 are refused. -/
def decHint : Nat → Option Hint
  | 0 => some .normal | 1 => some .streaming | 2 => some .keep | 3 => some .noAlloc | 4 => some .noRdc | _ => none

def encHint : Hint → Nat
  | .normal => 0 | .streaming => 1 | .keep => 2 | .noAlloc => 3 | .noRdc => 4

/-- An atomic op code (R64); 1010 to 1111 are refused. -/
def decAtomOp : Nat → Option AtomOp
  | 0 => some .add | 1 => some .fadd | 2 => some .smin | 3 => some .smax | 4 => some .umin | 5 => some .umax
  | 6 => some .and | 7 => some .or | 8 => some .xor | 9 => some .xchg | _ => none

def encAtomOp : AtomOp → Nat
  | .add => 0 | .fadd => 1 | .smin => 2 | .smax => 3 | .umin => 4 | .umax => 5 | .and => 6 | .or => 7
  | .xor => 8 | .xchg => 9

/-- A path code (R67, R71, R289). -/
def decPath : Nat → Path
  | 0 => .l | 1 => .f | 2 => .s | _ => .e

def encPath : Path → Nat
  | .l => 0 | .f => 1 | .s => 2 | .e => 3

/-- An iteration control (R65). -/
def decItc : Nat → Itc
  | 0 => .same | 1 => .next | 2 => .val | _ => .zero

def encItc : Itc → Nat
  | .same => 0 | .next => 1 | .val => 2 | .zero => 3

def decLaneMode : Nat → Option LaneMode
  | 0 => some .from | 1 => some .rot | 2 => some .mirr | 3 => some .xor | _ => none

def encLaneMode : LaneMode → Nat
  | .from => 0 | .rot => 1 | .mirr => 2 | .xor => 3

def decPollMode : Nat → Option PollMode
  | 0 => some .all | 1 => some .any | 2 => some .mask | 3 => some .count | _ => none

def encPollMode : PollMode → Nat
  | .all => 0 | .any => 1 | .mask => 2 | .count => 3

def decPeersMode : Nat → Option PeersMode
  | 0 => some .same | 1 => some .lead | _ => none

def encPeersMode : PeersMode → Nat
  | .same => 0 | .lead => 1

def decRedOp : Nat → Option RedOp
  | 0 => some .add | 1 => some .min | 2 => some .max | _ => none

def encRedOp : RedOp → Nat
  | .add => 0 | .min => 1 | .max => 2

/-- The guard field (R52). -/
def decGuard (w : Nat) : Guard := ⟨bitOf w 55, bits w 52 3⟩

def encGuard (g : Guard) : Nat := (b2n g.neg * 8 + g.pred) * 2 ^ 52

def Guard.fits (g : Guard) : Bool := decide (g.pred < 8)

/-- A decoded field, or a stand-in with the reason its code is refused for. -/
def orElse {α : Type} (x : Option α) (d : α) (r : Nat) : List Nat × α :=
  match x with
  | some a => ([], a)
  | none => ([r], d)

/-- A selector field (reason 0x03 where reserved). -/
def decSelAt (w lo : Nat) : List Nat × Sel := orElse (decSel (bits w lo 9)) .zero 3

/-- A type field (reason 0x06). -/
def decTyAt (w lo : Nat) : List Nat × Ty := orElse (decTy (bits w lo 5)) .i32 6

/-- Format A (R60). -/
def decA (w : Nat) : List Nat × FmtA :=
  let t := decTyAt w 44
  let d := decSelAt w 35
  let a := decSelAt w 26
  let b := decSelAt w 17
  let c := decSelAt w 8
  (t.1 ++ d.1 ++ a.1 ++ b.1 ++ c.1 ++ orReason (!bitOf w 0) 0x0A,
   ⟨decGuard w, decRnd (bits w 49 3), t.2, d.2, a.2, b.2, c.2, decMods w⟩)

def decCmp (w : Nat) : List Nat × FmtCmp :=
  let x := decA w
  (x.1, ⟨x.2.g, decCond (bits w 49 3), x.2.ty, x.2.dst, x.2.sa, x.2.sb, x.2.sc, x.2.mods⟩)

def decPlop (w : Nat) : List Nat × FmtPlop :=
  let t := decTyAt w 44
  let d := decSelAt w 35
  let a := decSelAt w 26
  let b := decSelAt w 17
  let c := decSelAt w 8
  (t.1 ++ d.1 ++ a.1 ++ b.1 ++ c.1, ⟨decGuard w, decRnd (bits w 49 3), t.2, d.2, a.2, b.2, c.2, bits w 0 8⟩)

def decLanex (w : Nat) : List Nat × FmtLanex :=
  let x := decA w
  let m := orElse (decLaneMode (bits w 49 3)) .from 7
  (x.1 ++ m.1, ⟨x.2.g, m.2, x.2.ty, x.2.dst, x.2.sa, x.2.sb, x.2.sc, x.2.mods⟩)

/-- A destination that R53 allows somewhere, for a mode that asks for no kind of its own (R169). -/
def someDst : Sel → Sel
  | .zero => .v 0
  | .k n => if 16 ≤ n then .v 0 else .k n
  | .p n => if n < 7 then .v 0 else .p n
  | s => s

def decPoll (w : Nat) : List Nat × FmtPoll :=
  let x := decA w
  let m := orElse (decPollMode (bits w 49 3)) .mask 7
  (x.1 ++ m.1, ⟨x.2.g, m.2, x.2.ty, if m.1.isEmpty then x.2.dst else someDst x.2.dst, x.2.sa, x.2.sb, x.2.sc, x.2.mods⟩)

def decPeers (w : Nat) : List Nat × FmtPeers :=
  let x := decA w
  let m := orElse (decPeersMode (bits w 49 3)) .same 7
  (x.1 ++ m.1, ⟨x.2.g, m.2, x.2.ty, x.2.dst, x.2.sa, x.2.sb, x.2.sc, x.2.mods⟩)

/-- The conversions: SC[4:0] is the source type and SC[8:5] is 0, else reason 0x06 (R69, R169, R176). -/
def decCvt (w : Nat) : List Nat × FmtCvt :=
  let t := decTyAt w 44
  let d := decSelAt w 35
  let a := decSelAt w 26
  let b := decSelAt w 17
  let s := decTyAt w 8
  (t.1 ++ d.1 ++ a.1 ++ b.1 ++ s.1 ++ orReason (bits w 13 4 == 0) 6 ++ orReason (!bitOf w 0) 0x0A,
   ⟨decGuard w, decRnd (bits w 49 3), t.2, s.2, d.2, a.2, b.2, decMods w⟩)

/-- FREDW: SC[1:0] is the op and SC[8:2] is 0, else reason 0x02 (R69, R176). -/
def decFredw (w : Nat) : List Nat × FmtFredw :=
  let t := decTyAt w 44
  let d := decSelAt w 35
  let a := decSelAt w 26
  let b := decSelAt w 17
  let o := orElse (decRedOp (bits w 8 2)) .add 7
  (orReason (bits w 10 7 == 0) 2 ++ t.1 ++ d.1 ++ a.1 ++ b.1 ++ o.1 ++ orReason (!bitOf w 0) 0x0A,
   ⟨decGuard w, decRnd (bits w 49 3), t.2, o.2, d.2, a.2, b.2, decMods w⟩)

/-- Format I (R61). -/
def decI (w : Nat) : List Nat × FmtI :=
  let d := decSelAt w 41
  let a := decSelAt w 32
  (d.1 ++ a.1, ⟨decGuard w, decIType (bits w 50 2), d.2, a.2, BitVec.ofNat 32 (bits w 0 32)⟩)

def decIcmpi (w : Nat) : List Nat × FmtIcmpi :=
  let x := decI w
  (x.1, ⟨x.2.g, x.2.ity, x.2.dst, x.2.sa, decCond (bits w 29 3), bits w 0 29⟩)

/-- JOIN and GATE: IMM[31:22] is 0, else reason 0x02 (R289, R305). -/
def decWatch (w : Nat) : List Nat × FmtWatch :=
  let x := decI w
  (x.1 ++ orReason (bits w 22 10 == 0) 2,
   ⟨x.2.g, x.2.ity, x.2.dst, x.2.sa, decPath (bits w 20 2), bits w 8 12, bits w 0 8⟩)

/-- Format M (R62). -/
def decM (w : Nat) : List Nat × FmtM :=
  let s := orElse (decSize (bits w 37 3)) .b1 9
  let d := decSelAt w 28
  let b := decSelAt w 19
  let h := orElse (decHint (bits w 16 3)) .normal 9
  (s.1 ++ d.1 ++ b.1 ++ h.1,
   ⟨decGuard w, bits w 47 5, decScope (bits w 45 2), bits w 41 4, bitOf w 40, s.2, d.2, b.2, h.2, bits w 0 16⟩)

def decAtom (w : Nat) : List Nat × FmtAtom :=
  let x := decM w
  let o := orElse (decAtomOp (bits w 41 4)) .add 9
  (x.1 ++ o.1,
   ⟨x.2.g, x.2.lsid, x.2.scope, o.2, x.2.bmode, x.2.size, x.2.data, x.2.base, x.2.hint, x.2.ofs⟩)

/-- Format E (R65). -/
def decE (w : Nat) : List Nat × FmtE :=
  let v := decSelAt w 23
  let f := decSelAt w 14
  (v.1 ++ f.1,
   ⟨decGuard w, bits w 40 12, bits w 32 8, v.2, f.2, decScope (bits w 12 2), decComb (bits w 9 3), bitOf w 8,
    decItc (bits w 6 2), bits w 3 3, bits w 0 3⟩)

def decSpawn (w : Nat) : List Nat × FmtSpawn :=
  let x := decE w
  (x.1, ⟨x.2.g, x.2.block, x.2.slot, x.2.val, x.2.frm, x.2.scope, bits w 8 4, x.2.itc, x.2.stop, x.2.edge⟩)

/-- Format X (R66). -/
def decX (w : Nat) : List Nat × FmtX :=
  let a := decSelAt w 34
  let b := decSelAt w 25
  let c := decSelAt w 16
  (a.1 ++ b.1 ++ c.1, ⟨decGuard w, bits w 48 4, bits w 43 5, a.2, b.2, c.2, bits w 8 8, bits w 0 8⟩)

/-- Format G (R67). -/
def decG (w : Nat) : List Nat × FmtG :=
  ([], ⟨decGuard w, bits w 47 5, bits w 35 12, bits w 27 8, decPath (bits w 25 2), bits w 21 4,
    decScope (bits w 19 2), decComb (bits w 16 3), bits w 0 16⟩)

/-- Format S (R68). -/
def decS (w : Nat) : List Nat × FmtS :=
  let o := decSelAt w 31
  (o.1, ⟨decGuard w, bits w 40 12, o.2, bits w 0 31⟩)

/-- Format S of SYSWR: under a reserved OPND code, which is not 0x068, IMM must be 0 as well (R357). -/
def decSyswr (w : Nat) : List Nat × FmtS :=
  let x := decS w
  (if !x.1.isEmpty && bits w 0 31 != 0 then 2 :: x.1 else x.1, x.2)

/-- Decoded fields under a constructor. -/
def decodeAs {α : Type} (k : α → Instr) (x : List Nat × α) : List Nat × Instr := (x.1, k x.2)

/-- TRET: SYSN[3:0] is the action, 4 to 15 are refused with 0x09, and SYSN[11:4] is 0 (R338, R354). -/
def decTret (w : Nat) : List Nat × Instr :=
  let x := decS w
  let e := x.1 ++ orReason (bits w 44 8 == 0) 2
  match bits w 40 4 with
  | 0 => (e, .tretReplay x.2)
  | 1 => (e, .tretPoison x.2)
  | 2 => (e, .tretRaiseMark x.2)
  | 3 => (e, .tretAnswer x.2)
  | _ => (e ++ [9], .tretReplay x.2)

/-- The opcode map (R74): the instruction of a word, with the reasons that its codes are refused for; none for a
free or unassigned opcode (reason 0x01). -/
def decodeRaw (w : Nat) : Option (List Nat × Instr) :=
  match bits w 56 8 with
  | 0x00 => some (decodeAs .emit (decE w))
  | 0x01 => some (decodeAs .emitx (decE w))
  | 0x02 => some (decodeAs .emitc (decE w))
  | 0x03 => some (decodeAs .emite (decE w))
  | 0x04 => some (decodeAs .emitb (decE w))
  | 0x05 => some (decodeAs .falloc (decSpawn w))
  | 0x06 => some (decodeAs .ffree (decI w))
  | 0x07 => some (decodeAs .spawn (decSpawn w))
  | 0x08 => some (decodeAs .spawnq (decSpawn w))
  | 0x09 => some (decodeAs .join (decWatch w))
  | 0x0A => some (decodeAs .gate (decWatch w))
  | 0x0B => some (decodeAs .trap (decS w))
  | 0x0C => some (decodeAs .brk (decS w))
  | 0x0D => some (decodeAs .nop (decS w))
  | 0x0E => some (decodeAs .done (decS w))
  | 0x10 => some (decodeAs .iadd (decA w))
  | 0x11 => some (decodeAs .isub (decA w))
  | 0x12 => some (decodeAs .imul (decA w))
  | 0x13 => some (decodeAs .imulh (decA w))
  | 0x14 => some (decodeAs .imad (decA w))
  | 0x15 => some (decodeAs .imadw (decA w))
  | 0x16 => some (decodeAs .iaddc (decA w))
  | 0x17 => some (decodeAs .isubb (decA w))
  | 0x18 => some (decodeAs .imin (decA w))
  | 0x19 => some (decodeAs .imax (decA w))
  | 0x1A => some (decodeAs .iabs (decA w))
  | 0x1B => some (decodeAs .ineg (decA w))
  | 0x1C => some (decodeAs .isad (decA w))
  | 0x1D => some (decodeAs .idot4 (decA w))
  | 0x1E => some (decodeAs .idot2 (decA w))
  | 0x1F => some (decodeAs .lea (decA w))
  | 0x20 => some (decodeAs .iaddi (decI w))
  | 0x21 => some (decodeAs .imuli (decI w))
  | 0x22 => some (decodeAs .andi (decI w))
  | 0x23 => some (decodeAs .ori (decI w))
  | 0x24 => some (decodeAs .xori (decI w))
  | 0x25 => some (decodeAs .shli (decI w))
  | 0x26 => some (decodeAs .shri (decI w))
  | 0x27 => some (decodeAs .shrai (decI w))
  | 0x28 => some (decodeAs .movi (decI w))
  | 0x29 => some (decodeAs .movki (decI w))
  | 0x2A => some (decodeAs .icmpi (decIcmpi w))
  | 0x2B => some (decodeAs .leai (decI w))
  | 0x30 => some (decodeAs .and (decA w))
  | 0x31 => some (decodeAs .or (decA w))
  | 0x32 => some (decodeAs .xor (decA w))
  | 0x33 => some (decodeAs .andn (decA w))
  | 0x34 => some (decodeAs .not (decA w))
  | 0x35 => some (decodeAs .shl (decA w))
  | 0x36 => some (decodeAs .shr (decA w))
  | 0x37 => some (decodeAs .shra (decA w))
  | 0x38 => some (decodeAs .rotl (decA w))
  | 0x39 => some (decodeAs .funnel (decA w))
  | 0x3A => some (decodeAs .popc (decA w))
  | 0x3B => some (decodeAs .clz (decA w))
  | 0x3C => some (decodeAs .ctz (decA w))
  | 0x3D => some (decodeAs .brev (decA w))
  | 0x3E => some (decodeAs .bfx (decA w))
  | 0x3F => some (decodeAs .bfi (decA w))
  | 0x40 => some (decodeAs .icmp (decCmp w))
  | 0x41 => some (decodeAs .plop (decPlop w))
  | 0x42 => some (decodeAs .sel (decA w))
  | 0x43 => some (decodeAs .mov (decA w))
  | 0x44 => some (decodeAs .movp (decA w))
  | 0x45 => some (decodeAs .lanex (decLanex w))
  | 0x46 => some (decodeAs .poll (decPoll w))
  | 0x47 => some (decodeAs .peers (decPeers w))
  | 0x48 => some (decodeAs .cnvi (decCvt w))
  | 0x49 => some (decodeAs .bytsel (decA w))
  | 0x4A => some (decodeAs .movk (decA w))
  | 0x4B => some (decodeAs .fptr (decA w))
  | 0x4C => some (decodeAs .fpsplit (decA w))
  | 0x50 => some (decodeAs .fadd (decA w))
  | 0x51 => some (decodeAs .fsub (decA w))
  | 0x52 => some (decodeAs .fmul (decA w))
  | 0x53 => some (decodeAs .ffma (decA w))
  | 0x54 => some (decodeAs .fmin (decA w))
  | 0x55 => some (decodeAs .fmax (decA w))
  | 0x56 => some (decodeAs .fcmp (decCmp w))
  | 0x57 => some (decodeAs .fclass (decA w))
  | 0x58 => some (decodeAs .fscale (decA w))
  | 0x59 => some (decodeAs .fredw (decFredw w))
  | 0x5A => some (decodeAs .fdot2 (decA w))
  | 0x5B => some (decodeAs .pkfma (decA w))
  | 0x5C => some (decodeAs .pkadd (decA w))
  | 0x5D => some (decodeAs .pkmul (decA w))
  | 0x60 => some (decodeAs .fcvt (decCvt w))
  | 0x61 => some (decodeAs .f2i (decCvt w))
  | 0x62 => some (decodeAs .i2f (decCvt w))
  | 0x63 => some (decodeAs .frcp (decA w))
  | 0x64 => some (decodeAs .frsq (decA w))
  | 0x65 => some (decodeAs .fsqrt (decA w))
  | 0x66 => some (decodeAs .fexp2 (decA w))
  | 0x67 => some (decodeAs .flog2 (decA w))
  | 0x68 => some (decodeAs .fsin (decA w))
  | 0x69 => some (decodeAs .fcos (decA w))
  | 0x6A => some (decodeAs .ftanh (decA w))
  | 0x6B => some (decodeAs .mxpack (decCvt w))
  | 0x6C => some (decodeAs .mxunpk (decCvt w))
  | 0x70 => some (decodeAs .mxcfg (decX w))
  | 0x71 => some (decodeAs .bldq (decX w))
  | 0x72 => some (decodeAs .rowp (decX w))
  | 0x73 => some (decodeAs .rows (decX w))
  | 0x74 => some (decodeAs .accz (decX w))
  | 0x75 => some (decodeAs .accrd (decX w))
  | 0x76 => some (decodeAs .accwb (decX w))
  | 0x77 => some (decodeAs .accst (decX w))
  | 0x78 => some (decodeAs .iscfg (decX w))
  | 0x79 => some (decodeAs .isx (decX w))
  | 0x7A => some (decodeAs .sacci (decX w))
  | 0x7B => some (decodeAs .saccf (decX w))
  | 0x7C => some (decodeAs .nzscan (decX w))
  | 0x7D => some (decodeAs .fchbind (decX w))
  | 0x7E => some (decodeAs .mxseq (decX w))
  | 0x80 => some (decodeAs .ldg (decM w))
  | 0x81 => some (decodeAs .ldb (decM w))
  | 0x82 => some (decodeAs .lda (decM w))
  | 0x83 => some (decodeAs .lds (decM w))
  | 0x84 => some (decodeAs .ldc (decM w))
  | 0x85 => some (decodeAs .stg (decM w))
  | 0x86 => some (decodeAs .stl (decM w))
  | 0x87 => some (decodeAs .sts (decM w))
  | 0x88 => some (decodeAs .smap (decM w))
  | 0x89 => some (decodeAs .swb (decM w))
  | 0x8A => some (decodeAs .sinv (decM w))
  | 0x8B => some (decodeAs .pref (decM w))
  | 0x8C => some (decodeAs .ldp (decM w))
  | 0x8D => some (decodeAs .stp (decM w))
  | 0x90 => some (decodeAs .atom (decAtom w))
  | 0x91 => some (decodeAs .atomr (decAtom w))
  | 0x92 => some (decodeAs .cas (decM w))
  | 0x93 => some (decodeAs .cas128 (decM w))
  | 0x94 => some (decodeAs .incw (decM w))
  | 0x95 => some (decodeAs .decw (decM w))
  | 0x96 => some (decodeAs .faddb (decM w))
  | 0x97 => some (decodeAs .putf (decM w))
  | 0x98 => some (decodeAs .take (decM w))
  | 0x99 => some (decodeAs .readf (decM w))
  | 0x9A => some (decodeAs .sete (decM w))
  | 0x9B => some (decodeAs .fence (decM w))
  | 0x9C => some (decodeAs .rounda (decM w))
  | 0x9D => some (decodeAs .roundv (decM w))
  | 0x9E => some (decodeAs .acq (decM w))
  | 0xA0 => some (decodeAs .cpy (decG w))
  | 0xA1 => some (decodeAs .cpy2d (decG w))
  | 0xA2 => some (decodeAs .gath (decG w))
  | 0xA3 => some (decodeAs .scat (decG w))
  | 0xA4 => some (decodeAs .strm (decG w))
  | 0xA5 => some (decodeAs .strmgo (decG w))
  | 0xA6 => some (decodeAs .strmx (decG w))
  | 0xA7 => some (decodeAs .dpost (decG w))
  | 0xA8 => some (decodeAs .dxch (decG w))
  | 0xA9 => some (decodeAs .dxq (decG w))
  | 0xAA => some (decodeAs .cpyb (decG w))
  | 0xB0 => some (if bitOf w 2 then decodeAs .hbindRelease (decS w) else decodeAs .hbind (decS w))
  | 0xB1 => some (decodeAs .hread (decS w))
  | 0xB2 => some (decodeAs .hclr (decS w))
  | 0xB3 => some (decodeAs .tron (decS w))
  | 0xB4 => some (decodeAs .troff (decS w))
  | 0xB5 => some (decodeAs .trmark (decS w))
  | 0xB6 => some (decodeAs .srseed (decS w))
  | 0xB7 => some (decodeAs .srdraw (decS w))
  | 0xB8 => some (decodeAs .ctrd (decS w))
  | 0xF0 => some (if bits w 40 12 == 2 then decodeAs .syswrStatusRead (decS w) else decodeAs .sysrd (decS w))
  | 0xF1 => some (if bits w 40 12 == 1 then decodeAs .sramPartWrite (decSyswr w) else decodeAs .syswr (decSyswr w))
  | 0xF2 => some (decodeAs .gload (decS w))
  | 0xF3 => some (decodeAs .gunld (decS w))
  | 0xF4 => some (decodeAs .launch (decS w))
  | 0xF5 => some (decodeAs .tgen (decS w))
  | 0xF6 => some (decodeAs .dirfl (decS w))
  | 0xF7 => some (decodeAs .preempt (decS w))
  | 0xF8 => some (decodeAs .resume (decS w))
  | 0xF9 => some (decTret w)
  | 0xFA => some (decodeAs .dieq (decS w))
  | 0xFB => some (decodeAs .jrnl (decS w))
  | _ => none

/-- The least reason of a list (R77 names the lowest). -/
def leastReason : List Nat → Option Nat
  | [] => none
  | r :: rs => match leastReason rs with
    | none => some r
    | some r' => some (min r r')

/-- What the decoder answers: an instruction, or the reason of R77 for which the word is none. -/
inductive Decoded where
  | ok (i : Instr)
  | refused (reason : Nat)
  deriving DecidableEq, Repr

/-- The decoder (R74, R77), total on every number. -/
def decode (w : Nat) : Decoded :=
  match decodeRaw w with
  | none => .refused 1
  | some (e, i) => match leastReason e with
    | some r => .refused r
    | none => .ok i

/-- Every reason of R77 for which GLOAD refuses a word in a block. -/
def wordReasons (c : BlockCtx) (w : Nat) : List Nat :=
  match decodeRaw w with
  | none => [1]
  | some (e, i) => e ++ i.reasons c

def encA (a : FmtA) : Nat :=
  encGuard a.g + encRnd a.rnd * 2 ^ 49 + encTy a.ty * 2 ^ 44 + encSel a.dst * 2 ^ 35 + encSel a.sa * 2 ^ 26
    + encSel a.sb * 2 ^ 17 + encSel a.sc * 2 ^ 8 + encMods a.mods

def encCmp (a : FmtCmp) : Nat :=
  encGuard a.g + encCond a.cond * 2 ^ 49 + encTy a.ty * 2 ^ 44 + encSel a.dst * 2 ^ 35 + encSel a.sa * 2 ^ 26
    + encSel a.sb * 2 ^ 17 + encSel a.sc * 2 ^ 8 + encMods a.mods

def encPlop (a : FmtPlop) : Nat :=
  encGuard a.g + encRnd a.rnd * 2 ^ 49 + encTy a.ty * 2 ^ 44 + encSel a.dst * 2 ^ 35 + encSel a.sa * 2 ^ 26
    + encSel a.sb * 2 ^ 17 + encSel a.sc * 2 ^ 8 + a.table

def encLanex (a : FmtLanex) : Nat :=
  encGuard a.g + encLaneMode a.mode * 2 ^ 49 + encTy a.ty * 2 ^ 44 + encSel a.dst * 2 ^ 35 + encSel a.sa * 2 ^ 26
    + encSel a.sb * 2 ^ 17 + encSel a.sc * 2 ^ 8 + encMods a.mods

def encPoll (a : FmtPoll) : Nat :=
  encGuard a.g + encPollMode a.mode * 2 ^ 49 + encTy a.ty * 2 ^ 44 + encSel a.dst * 2 ^ 35 + encSel a.sa * 2 ^ 26
    + encSel a.sb * 2 ^ 17 + encSel a.sc * 2 ^ 8 + encMods a.mods

def encPeers (a : FmtPeers) : Nat :=
  encGuard a.g + encPeersMode a.mode * 2 ^ 49 + encTy a.ty * 2 ^ 44 + encSel a.dst * 2 ^ 35 + encSel a.sa * 2 ^ 26
    + encSel a.sb * 2 ^ 17 + encSel a.sc * 2 ^ 8 + encMods a.mods

def encCvt (a : FmtCvt) : Nat :=
  encGuard a.g + encRnd a.rnd * 2 ^ 49 + encTy a.dty * 2 ^ 44 + encSel a.dst * 2 ^ 35 + encSel a.sa * 2 ^ 26
    + encSel a.sb * 2 ^ 17 + encTy a.sty * 2 ^ 8 + encMods a.mods

def encFredw (a : FmtFredw) : Nat :=
  encGuard a.g + encRnd a.rnd * 2 ^ 49 + encTy a.ty * 2 ^ 44 + encSel a.dst * 2 ^ 35 + encSel a.sa * 2 ^ 26
    + encSel a.sb * 2 ^ 17 + encRedOp a.op * 2 ^ 8 + encMods a.mods

def encI (a : FmtI) : Nat :=
  encGuard a.g + encIType a.ity * 2 ^ 50 + encSel a.dst * 2 ^ 41 + encSel a.sa * 2 ^ 32 + a.imm.toNat

def encIcmpi (a : FmtIcmpi) : Nat :=
  encGuard a.g + encIType a.ity * 2 ^ 50 + encSel a.dst * 2 ^ 41 + encSel a.sa * 2 ^ 32 + encCond a.cond * 2 ^ 29 + a.imm

def encWatch (a : FmtWatch) : Nat :=
  encGuard a.g + encIType a.ity * 2 ^ 50 + encSel a.dst * 2 ^ 41 + encSel a.sa * 2 ^ 32 + encPath a.path * 2 ^ 20
    + a.block * 2 ^ 8 + a.slot

def encM (m : FmtM) : Nat :=
  encGuard m.g + m.lsid * 2 ^ 47 + encScope m.scope * 2 ^ 45 + m.bound * 2 ^ 41 + b2n m.bmode * 2 ^ 40
    + encSize m.size * 2 ^ 37 + encSel m.data * 2 ^ 28 + encSel m.base * 2 ^ 19 + encHint m.hint * 2 ^ 16 + m.ofs

def encAtom (m : FmtAtom) : Nat :=
  encGuard m.g + m.lsid * 2 ^ 47 + encScope m.scope * 2 ^ 45 + encAtomOp m.op * 2 ^ 41 + b2n m.bmode * 2 ^ 40
    + encSize m.size * 2 ^ 37 + encSel m.data * 2 ^ 28 + encSel m.base * 2 ^ 19 + encHint m.hint * 2 ^ 16 + m.ofs

def encE (e : FmtE) : Nat :=
  encGuard e.g + e.block * 2 ^ 40 + e.slot * 2 ^ 32 + encSel e.val * 2 ^ 23 + encSel e.frm * 2 ^ 14
    + encScope e.scope * 2 ^ 12 + encComb e.comb * 2 ^ 9 + b2n e.nullf * 2 ^ 8 + encItc e.itc * 2 ^ 6 + e.stop * 2 ^ 3
    + e.edge

def encSpawn (e : FmtSpawn) : Nat :=
  encGuard e.g + e.block * 2 ^ 40 + e.slot * 2 ^ 32 + encSel e.val * 2 ^ 23 + encSel e.frm * 2 ^ 14
    + encScope e.scope * 2 ^ 12 + e.nb * 2 ^ 8 + encItc e.itc * 2 ^ 6 + e.stop * 2 ^ 3 + e.edge

def encX (x : FmtX) : Nat :=
  encGuard x.g + x.subop * 2 ^ 48 + x.fch * 2 ^ 43 + encSel x.sa * 2 ^ 34 + encSel x.sb * 2 ^ 25 + encSel x.sc * 2 ^ 16
    + x.unit * 2 ^ 8 + x.flags

def encG (x : FmtG) : Nat :=
  encGuard x.g + x.desc * 2 ^ 47 + x.rblock * 2 ^ 35 + x.rslot * 2 ^ 27 + encPath x.path * 2 ^ 25 + x.subop * 2 ^ 21
    + encScope x.rscope * 2 ^ 19 + encComb x.rcomb * 2 ^ 16 + x.flags

def encS (x : FmtS) : Nat :=
  encGuard x.g + x.sysn * 2 ^ 40 + encSel x.opnd * 2 ^ 31 + x.imm

/-- A word from its opcode and its other fields (R52). -/
def word (op fields : Nat) : Option Nat := some (op * 2 ^ 56 + fields)

/-- The 64-bit word of an instruction (R60 to R74); a device step has none. -/
def encode : Instr → Option Nat
  | .emit a => word 0x00 (encE a)
  | .emitx a => word 0x01 (encE a)
  | .emitc a => word 0x02 (encE a)
  | .emite a => word 0x03 (encE a)
  | .emitb a => word 0x04 (encE a)
  | .falloc a => word 0x05 (encSpawn a)
  | .ffree a => word 0x06 (encI a)
  | .spawn a => word 0x07 (encSpawn a)
  | .spawnq a => word 0x08 (encSpawn a)
  | .join a => word 0x09 (encWatch a)
  | .gate a => word 0x0A (encWatch a)
  | .trap a => word 0x0B (encS a)
  | .brk a => word 0x0C (encS a)
  | .nop a => word 0x0D (encS a)
  | .done a => word 0x0E (encS a)
  | .iadd a => word 0x10 (encA a)
  | .isub a => word 0x11 (encA a)
  | .imul a => word 0x12 (encA a)
  | .imulh a => word 0x13 (encA a)
  | .imad a => word 0x14 (encA a)
  | .imadw a => word 0x15 (encA a)
  | .iaddc a => word 0x16 (encA a)
  | .isubb a => word 0x17 (encA a)
  | .imin a => word 0x18 (encA a)
  | .imax a => word 0x19 (encA a)
  | .iabs a => word 0x1A (encA a)
  | .ineg a => word 0x1B (encA a)
  | .isad a => word 0x1C (encA a)
  | .idot4 a => word 0x1D (encA a)
  | .idot2 a => word 0x1E (encA a)
  | .lea a => word 0x1F (encA a)
  | .iaddi a => word 0x20 (encI a)
  | .imuli a => word 0x21 (encI a)
  | .andi a => word 0x22 (encI a)
  | .ori a => word 0x23 (encI a)
  | .xori a => word 0x24 (encI a)
  | .shli a => word 0x25 (encI a)
  | .shri a => word 0x26 (encI a)
  | .shrai a => word 0x27 (encI a)
  | .movi a => word 0x28 (encI a)
  | .movki a => word 0x29 (encI a)
  | .icmpi a => word 0x2A (encIcmpi a)
  | .leai a => word 0x2B (encI a)
  | .and a => word 0x30 (encA a)
  | .or a => word 0x31 (encA a)
  | .xor a => word 0x32 (encA a)
  | .andn a => word 0x33 (encA a)
  | .not a => word 0x34 (encA a)
  | .shl a => word 0x35 (encA a)
  | .shr a => word 0x36 (encA a)
  | .shra a => word 0x37 (encA a)
  | .rotl a => word 0x38 (encA a)
  | .funnel a => word 0x39 (encA a)
  | .popc a => word 0x3A (encA a)
  | .clz a => word 0x3B (encA a)
  | .ctz a => word 0x3C (encA a)
  | .brev a => word 0x3D (encA a)
  | .bfx a => word 0x3E (encA a)
  | .bfi a => word 0x3F (encA a)
  | .icmp a => word 0x40 (encCmp a)
  | .plop a => word 0x41 (encPlop a)
  | .sel a => word 0x42 (encA a)
  | .mov a => word 0x43 (encA a)
  | .movp a => word 0x44 (encA a)
  | .lanex a => word 0x45 (encLanex a)
  | .poll a => word 0x46 (encPoll a)
  | .peers a => word 0x47 (encPeers a)
  | .cnvi a => word 0x48 (encCvt a)
  | .bytsel a => word 0x49 (encA a)
  | .movk a => word 0x4A (encA a)
  | .fptr a => word 0x4B (encA a)
  | .fpsplit a => word 0x4C (encA a)
  | .fadd a => word 0x50 (encA a)
  | .fsub a => word 0x51 (encA a)
  | .fmul a => word 0x52 (encA a)
  | .ffma a => word 0x53 (encA a)
  | .fmin a => word 0x54 (encA a)
  | .fmax a => word 0x55 (encA a)
  | .fcmp a => word 0x56 (encCmp a)
  | .fclass a => word 0x57 (encA a)
  | .fscale a => word 0x58 (encA a)
  | .fredw a => word 0x59 (encFredw a)
  | .fdot2 a => word 0x5A (encA a)
  | .pkfma a => word 0x5B (encA a)
  | .pkadd a => word 0x5C (encA a)
  | .pkmul a => word 0x5D (encA a)
  | .fcvt a => word 0x60 (encCvt a)
  | .f2i a => word 0x61 (encCvt a)
  | .i2f a => word 0x62 (encCvt a)
  | .frcp a => word 0x63 (encA a)
  | .frsq a => word 0x64 (encA a)
  | .fsqrt a => word 0x65 (encA a)
  | .fexp2 a => word 0x66 (encA a)
  | .flog2 a => word 0x67 (encA a)
  | .fsin a => word 0x68 (encA a)
  | .fcos a => word 0x69 (encA a)
  | .ftanh a => word 0x6A (encA a)
  | .mxpack a => word 0x6B (encCvt a)
  | .mxunpk a => word 0x6C (encCvt a)
  | .mxcfg a => word 0x70 (encX a)
  | .bldq a => word 0x71 (encX a)
  | .rowp a => word 0x72 (encX a)
  | .rows a => word 0x73 (encX a)
  | .accz a => word 0x74 (encX a)
  | .accrd a => word 0x75 (encX a)
  | .accwb a => word 0x76 (encX a)
  | .accst a => word 0x77 (encX a)
  | .iscfg a => word 0x78 (encX a)
  | .isx a => word 0x79 (encX a)
  | .sacci a => word 0x7A (encX a)
  | .saccf a => word 0x7B (encX a)
  | .nzscan a => word 0x7C (encX a)
  | .fchbind a => word 0x7D (encX a)
  | .mxseq a => word 0x7E (encX a)
  | .ldg a => word 0x80 (encM a)
  | .ldb a => word 0x81 (encM a)
  | .lda a => word 0x82 (encM a)
  | .lds a => word 0x83 (encM a)
  | .ldc a => word 0x84 (encM a)
  | .stg a => word 0x85 (encM a)
  | .stl a => word 0x86 (encM a)
  | .sts a => word 0x87 (encM a)
  | .smap a => word 0x88 (encM a)
  | .swb a => word 0x89 (encM a)
  | .sinv a => word 0x8A (encM a)
  | .pref a => word 0x8B (encM a)
  | .ldp a => word 0x8C (encM a)
  | .stp a => word 0x8D (encM a)
  | .atom a => word 0x90 (encAtom a)
  | .atomr a => word 0x91 (encAtom a)
  | .cas a => word 0x92 (encM a)
  | .cas128 a => word 0x93 (encM a)
  | .incw a => word 0x94 (encM a)
  | .decw a => word 0x95 (encM a)
  | .faddb a => word 0x96 (encM a)
  | .putf a => word 0x97 (encM a)
  | .take a => word 0x98 (encM a)
  | .readf a => word 0x99 (encM a)
  | .sete a => word 0x9A (encM a)
  | .fence a => word 0x9B (encM a)
  | .rounda a => word 0x9C (encM a)
  | .roundv a => word 0x9D (encM a)
  | .acq a => word 0x9E (encM a)
  | .cpy a => word 0xA0 (encG a)
  | .cpy2d a => word 0xA1 (encG a)
  | .gath a => word 0xA2 (encG a)
  | .scat a => word 0xA3 (encG a)
  | .strm a => word 0xA4 (encG a)
  | .strmgo a => word 0xA5 (encG a)
  | .strmx a => word 0xA6 (encG a)
  | .dpost a => word 0xA7 (encG a)
  | .dxch a => word 0xA8 (encG a)
  | .dxq a => word 0xA9 (encG a)
  | .cpyb a => word 0xAA (encG a)
  | .hbind a => word 0xB0 (encS a)
  | .hbindRelease a => word 0xB0 (encS a)
  | .hread a => word 0xB1 (encS a)
  | .hclr a => word 0xB2 (encS a)
  | .tron a => word 0xB3 (encS a)
  | .troff a => word 0xB4 (encS a)
  | .trmark a => word 0xB5 (encS a)
  | .srseed a => word 0xB6 (encS a)
  | .srdraw a => word 0xB7 (encS a)
  | .ctrd a => word 0xB8 (encS a)
  | .sysrd a => word 0xF0 (encS a)
  | .syswr a => word 0xF1 (encS a)
  | .sramPartWrite a => word 0xF1 (encS a)
  | .syswrStatusRead a => word 0xF0 (encS a)
  | .gload a => word 0xF2 (encS a)
  | .gunld a => word 0xF3 (encS a)
  | .launch a => word 0xF4 (encS a)
  | .tgen a => word 0xF5 (encS a)
  | .dirfl a => word 0xF6 (encS a)
  | .preempt a => word 0xF7 (encS a)
  | .resume a => word 0xF8 (encS a)
  | .tretReplay a => word 0xF9 (encS a)
  | .tretPoison a => word 0xF9 (encS a)
  | .tretRaiseMark a => word 0xF9 (encS a)
  | .tretAnswer a => word 0xF9 (encS a)
  | .dieq a => word 0xFA (encS a)
  | .jrnl a => word 0xFB (encS a)
  | .tokenLand _ _ => none
  | .deferredTokenRepresent _ _ => none
  | .tokenLogWaitResume _ => none
  | .recordInstance _ _ _ => none
  | .brewTimerExpiry _ _ => none
  | .carafeLingerExpiry _ _ => none
  | .priorityAging _ _ => none
  | .agePromotion _ _ => none
  | .pour _ => none
  | .commit _ _ => none
  | .commitResume _ _ => none
  | .releasedTokenSend _ _ => none
  | .fenceGroupAdvance _ => none
  | .syncStallTimeout _ _ => none
  | .faultRecordDelivery => none
  | .homeAccess _ => none
  | .loadReturn _ _ _ => none
  | .inFlightDecrement _ => none
  | .cacheFillArrival _ => none
  | .stashFill _ _ => none
  | .dieDirectoryRecall _ _ => none
  | .ownershipRequest _ => none
  | .ownerRecall _ _ => none
  | .upgradeGrant _ => none
  | .pageWalkComplete _ _ => none
  | .genWrapSweep _ _ => none
  | .rdcSweepWalker _ _ => none
  | .roundViewUpdate _ => none
  | .roundaComplete _ => none
  | .tgenTakeUp _ _ => none
  | .frameCreate _ => none
  | .frameBringIn _ _ => none
  | .freeRequest _ _ => none
  | .frameRelease _ _ => none
  | .childRetirement _ => none
  | .taskDispatch _ => none
  | .spillDrain _ _ => none
  | .engineCommandStart _ _ => none
  | .engineElement _ _ _ => none
  | .engineCompletion _ _ => none
  | .operandsConsumed _ _ => none
  | .indirectStreamStart _ => none
  | .streamElement _ _ => none
  | .streamClose _ _ => none
  | .streamControlDelivery _ _ => none
  | .rowPacketArrival _ => none
  | .rowFire _ => none
  | .partialAdd _ _ => none
  | .endPacket _ _ => none
  | .rowCreditReturn _ => none
  | .rowCreditGrant _ => none
  | .rowsRowSend _ _ => none
  | .bqSwap _ _ => none
  | .accwbReadoutEnd _ _ => none
  | .engineOwnershipTransfer _ => none
  | .intersectStep _ _ => none
  | .sparseInsert _ _ => none
  | .launchStart => none
  | .rootTokenSend => none
  | .launchComplete _ => none
  | .drainLimitExpiry _ _ => none
  | .traceDrain _ _ => none
  | .traceLoss _ => none
  | .commandAccept _ _ => none
  | .commandStart => none
  | .commandEnd _ => none
  | .hLoad _ => none
  | .hUnload _ => none
  | .hLaunch _ => none
  | .hCopy _ _ => none
  | .hPreempt _ => none
  | .hResume _ => none
  | .hQueryDieEntry _ => none
  | .hQueryErrorCounter _ => none
  | .hQueryExchange _ => none
  | .hJournalRead _ => none
  | .hDieReset _ => none
  | .hAttest _ => none
  | .hDebugHalt _ => none
  | .hDebugRelease _ => none
  | .hDebugArm _ => none
  | .hDebugDisarm _ => none
  | .hConfigureQueuePriority _ => none
  | .hConfigurePowerCap _ => none
  | .hConfigureExchangeGroup _ => none
  | .hConfigureChip _ => none
  | .hConfigureInstallKey _ => none
  | .hConfigureSendKey _ => none
  | .hConfigureEraseKey _ => none
  | .getVersion _ _ => none
  | .getCapabilities _ _ => none
  | .negotiateAlgorithms _ _ => none
  | .getDigests _ _ => none
  | .getCertificate _ _ => none
  | .challenge _ _ => none
  | .getMeasurements _ _ => none
  | .keyExchange _ _ => none
  | .finish _ _ => none
  | .keyUpdate _ _ => none
  | .endSession _ _ => none
  | .unsupportedRequest _ _ => none
  | .attestationResponseTimeout _ => none
  | .attestationRetry _ => none
  | .keyRolloverStart _ => none
  | .senderKeyDelivery _ => none
  | .firstNewKeyFlit _ => none
  | .drainMarkerSend _ => none
  | .drainMarkerArrival _ => none
  | .boundaryTagFailure _ => none
  | .boundaryTokenCreditReturn _ => none
  | .fabricPacketSend _ => none
  | .fabricPacketReceive _ _ => none
  | .fabricPortChange _ _ => none
  | .postArrival _ _ _ => none
  | .phaseDoneMarker _ _ => none
  | .phaseTimeout _ => none
  | .dxchGrant _ _ => none
  | .baristaHeartbeat _ => none
  | .standbyTakeover _ => none
  | .takeoverNotice _ => none
  | .dxchGrantTimeout _ _ => none
  | .dieReset _ => none
  | .dieRejoin _ => none
  | .uncorrectableMatchingError _ => none
  | .memoryError _ _ => none
  | .mgmtHeartbeatTimeout => none
  | .powerSample _ _ => none
  | .powerControlInterval => none
  | .thermalTrip => none
  | .powerOn => none
  | .packageReset => none
  | .flitCounterLimit _ => none
  | .securedMessageCheckFailure _ => none

def FmtA.fits (a : FmtA) : Bool := a.g.fits && a.dst.fits && a.sa.fits && a.sb.fits && a.sc.fits
def FmtCmp.fits (a : FmtCmp) : Bool := a.g.fits && a.dst.fits && a.sa.fits && a.sb.fits && a.sc.fits
def FmtPlop.fits (a : FmtPlop) : Bool :=
  a.g.fits && a.dst.fits && a.sa.fits && a.sb.fits && a.sc.fits && decide (a.table < 256)
def FmtLanex.fits (a : FmtLanex) : Bool := a.g.fits && a.dst.fits && a.sa.fits && a.sb.fits && a.sc.fits
def FmtPoll.fits (a : FmtPoll) : Bool := a.g.fits && a.dst.fits && a.sa.fits && a.sb.fits && a.sc.fits
def FmtPeers.fits (a : FmtPeers) : Bool := a.g.fits && a.dst.fits && a.sa.fits && a.sb.fits && a.sc.fits
def FmtCvt.fits (a : FmtCvt) : Bool := a.g.fits && a.dst.fits && a.sa.fits && a.sb.fits
def FmtFredw.fits (a : FmtFredw) : Bool := a.g.fits && a.dst.fits && a.sa.fits && a.sb.fits
def FmtI.fits (a : FmtI) : Bool := a.g.fits && a.dst.fits && a.sa.fits
def FmtIcmpi.fits (a : FmtIcmpi) : Bool := a.g.fits && a.dst.fits && a.sa.fits && decide (a.imm < 2 ^ 29)
def FmtWatch.fits (a : FmtWatch) : Bool :=
  a.g.fits && a.dst.fits && a.sa.fits && decide (a.block < 4096) && decide (a.slot < 256)
def FmtM.fits (m : FmtM) : Bool :=
  m.g.fits && m.data.fits && m.base.fits && decide (m.lsid < 32) && decide (m.bound < 16) && decide (m.ofs < 65536)
def FmtAtom.fits (m : FmtAtom) : Bool :=
  m.g.fits && m.data.fits && m.base.fits && decide (m.lsid < 32) && decide (m.ofs < 65536)
def FmtE.fits (e : FmtE) : Bool :=
  e.g.fits && e.val.fits && e.frm.fits && decide (e.block < 4096) && decide (e.slot < 256) && decide (e.stop < 8)
    && decide (e.edge < 8)
def FmtSpawn.fits (e : FmtSpawn) : Bool :=
  e.g.fits && e.val.fits && e.frm.fits && decide (e.block < 4096) && decide (e.slot < 256) && decide (e.nb < 16)
    && decide (e.stop < 8) && decide (e.edge < 8)
def FmtX.fits (x : FmtX) : Bool :=
  x.g.fits && x.sa.fits && x.sb.fits && x.sc.fits && decide (x.subop < 16) && decide (x.fch < 32)
    && decide (x.unit < 256) && decide (x.flags < 256)
def FmtG.fits (x : FmtG) : Bool :=
  x.g.fits && decide (x.desc < 32) && decide (x.rblock < 4096) && decide (x.rslot < 256) && decide (x.subop < 16)
    && decide (x.flags < 65536)
def FmtS.fits (x : FmtS) : Bool := x.g.fits && x.opnd.fits && decide (x.sysn < 4096) && decide (x.imm < 2 ^ 31)

/-- An instruction whose every field its word can hold, and whose words name it (HBIND and its release, SYSRD and
the status read, SYSWR and the partition write, and the actions of TRET share opcodes). -/
def Instr.fits : Instr → Bool
  | .emit a => a.fits
  | .emitx a => a.fits
  | .emitc a => a.fits
  | .emite a => a.fits
  | .emitb a => a.fits
  | .falloc a => a.fits
  | .ffree a => a.fits
  | .spawn a => a.fits
  | .spawnq a => a.fits
  | .join a => a.fits
  | .gate a => a.fits
  | .trap a => a.fits
  | .brk a => a.fits
  | .nop a => a.fits
  | .done a => a.fits
  | .iadd a => a.fits
  | .isub a => a.fits
  | .imul a => a.fits
  | .imulh a => a.fits
  | .imad a => a.fits
  | .imadw a => a.fits
  | .iaddc a => a.fits
  | .isubb a => a.fits
  | .imin a => a.fits
  | .imax a => a.fits
  | .iabs a => a.fits
  | .ineg a => a.fits
  | .isad a => a.fits
  | .idot4 a => a.fits
  | .idot2 a => a.fits
  | .lea a => a.fits
  | .iaddi a => a.fits
  | .imuli a => a.fits
  | .andi a => a.fits
  | .ori a => a.fits
  | .xori a => a.fits
  | .shli a => a.fits
  | .shri a => a.fits
  | .shrai a => a.fits
  | .movi a => a.fits
  | .movki a => a.fits
  | .icmpi a => a.fits
  | .leai a => a.fits
  | .and a => a.fits
  | .or a => a.fits
  | .xor a => a.fits
  | .andn a => a.fits
  | .not a => a.fits
  | .shl a => a.fits
  | .shr a => a.fits
  | .shra a => a.fits
  | .rotl a => a.fits
  | .funnel a => a.fits
  | .popc a => a.fits
  | .clz a => a.fits
  | .ctz a => a.fits
  | .brev a => a.fits
  | .bfx a => a.fits
  | .bfi a => a.fits
  | .icmp a => a.fits
  | .plop a => a.fits
  | .sel a => a.fits
  | .mov a => a.fits
  | .movp a => a.fits
  | .lanex a => a.fits
  | .poll a => a.fits
  | .peers a => a.fits
  | .cnvi a => a.fits
  | .bytsel a => a.fits
  | .movk a => a.fits
  | .fptr a => a.fits
  | .fpsplit a => a.fits
  | .fadd a => a.fits
  | .fsub a => a.fits
  | .fmul a => a.fits
  | .ffma a => a.fits
  | .fmin a => a.fits
  | .fmax a => a.fits
  | .fcmp a => a.fits
  | .fclass a => a.fits
  | .fscale a => a.fits
  | .fredw a => a.fits
  | .fdot2 a => a.fits
  | .pkfma a => a.fits
  | .pkadd a => a.fits
  | .pkmul a => a.fits
  | .fcvt a => a.fits
  | .f2i a => a.fits
  | .i2f a => a.fits
  | .frcp a => a.fits
  | .frsq a => a.fits
  | .fsqrt a => a.fits
  | .fexp2 a => a.fits
  | .flog2 a => a.fits
  | .fsin a => a.fits
  | .fcos a => a.fits
  | .ftanh a => a.fits
  | .mxpack a => a.fits
  | .mxunpk a => a.fits
  | .mxcfg a => a.fits
  | .bldq a => a.fits
  | .rowp a => a.fits
  | .rows a => a.fits
  | .accz a => a.fits
  | .accrd a => a.fits
  | .accwb a => a.fits
  | .accst a => a.fits
  | .iscfg a => a.fits
  | .isx a => a.fits
  | .sacci a => a.fits
  | .saccf a => a.fits
  | .nzscan a => a.fits
  | .fchbind a => a.fits
  | .mxseq a => a.fits
  | .ldg a => a.fits
  | .ldb a => a.fits
  | .lda a => a.fits
  | .lds a => a.fits
  | .ldc a => a.fits
  | .stg a => a.fits
  | .stl a => a.fits
  | .sts a => a.fits
  | .smap a => a.fits
  | .swb a => a.fits
  | .sinv a => a.fits
  | .pref a => a.fits
  | .ldp a => a.fits
  | .stp a => a.fits
  | .atom a => a.fits
  | .atomr a => a.fits
  | .cas a => a.fits
  | .cas128 a => a.fits
  | .incw a => a.fits
  | .decw a => a.fits
  | .faddb a => a.fits
  | .putf a => a.fits
  | .take a => a.fits
  | .readf a => a.fits
  | .sete a => a.fits
  | .fence a => a.fits
  | .rounda a => a.fits
  | .roundv a => a.fits
  | .acq a => a.fits
  | .cpy a => a.fits
  | .cpy2d a => a.fits
  | .gath a => a.fits
  | .scat a => a.fits
  | .strm a => a.fits
  | .strmgo a => a.fits
  | .strmx a => a.fits
  | .dpost a => a.fits
  | .dxch a => a.fits
  | .dxq a => a.fits
  | .cpyb a => a.fits
  | .hbind a => a.fits && !bitOf a.imm 2
  | .hbindRelease a => a.fits && bitOf a.imm 2
  | .hread a => a.fits
  | .hclr a => a.fits
  | .tron a => a.fits
  | .troff a => a.fits
  | .trmark a => a.fits
  | .srseed a => a.fits
  | .srdraw a => a.fits
  | .ctrd a => a.fits
  | .sysrd a => a.fits && a.sysn != 2
  | .syswr a => a.fits && a.sysn != 1
  | .sramPartWrite a => a.fits && a.sysn == 1
  | .syswrStatusRead a => a.fits && a.sysn == 2
  | .gload a => a.fits
  | .gunld a => a.fits
  | .launch a => a.fits
  | .tgen a => a.fits
  | .dirfl a => a.fits
  | .preempt a => a.fits
  | .resume a => a.fits
  | .tretReplay a => a.fits && a.sysn == 0
  | .tretPoison a => a.fits && a.sysn == 1
  | .tretRaiseMark a => a.fits && a.sysn == 2
  | .tretAnswer a => a.fits && a.sysn == 3
  | .dieq a => a.fits
  | .jrnl a => a.fits
  | .tokenLand _ _ => false
  | .deferredTokenRepresent _ _ => false
  | .tokenLogWaitResume _ => false
  | .recordInstance _ _ _ => false
  | .brewTimerExpiry _ _ => false
  | .carafeLingerExpiry _ _ => false
  | .priorityAging _ _ => false
  | .agePromotion _ _ => false
  | .pour _ => false
  | .commit _ _ => false
  | .commitResume _ _ => false
  | .releasedTokenSend _ _ => false
  | .fenceGroupAdvance _ => false
  | .syncStallTimeout _ _ => false
  | .faultRecordDelivery => false
  | .homeAccess _ => false
  | .loadReturn _ _ _ => false
  | .inFlightDecrement _ => false
  | .cacheFillArrival _ => false
  | .stashFill _ _ => false
  | .dieDirectoryRecall _ _ => false
  | .ownershipRequest _ => false
  | .ownerRecall _ _ => false
  | .upgradeGrant _ => false
  | .pageWalkComplete _ _ => false
  | .genWrapSweep _ _ => false
  | .rdcSweepWalker _ _ => false
  | .roundViewUpdate _ => false
  | .roundaComplete _ => false
  | .tgenTakeUp _ _ => false
  | .frameCreate _ => false
  | .frameBringIn _ _ => false
  | .freeRequest _ _ => false
  | .frameRelease _ _ => false
  | .childRetirement _ => false
  | .taskDispatch _ => false
  | .spillDrain _ _ => false
  | .engineCommandStart _ _ => false
  | .engineElement _ _ _ => false
  | .engineCompletion _ _ => false
  | .operandsConsumed _ _ => false
  | .indirectStreamStart _ => false
  | .streamElement _ _ => false
  | .streamClose _ _ => false
  | .streamControlDelivery _ _ => false
  | .rowPacketArrival _ => false
  | .rowFire _ => false
  | .partialAdd _ _ => false
  | .endPacket _ _ => false
  | .rowCreditReturn _ => false
  | .rowCreditGrant _ => false
  | .rowsRowSend _ _ => false
  | .bqSwap _ _ => false
  | .accwbReadoutEnd _ _ => false
  | .engineOwnershipTransfer _ => false
  | .intersectStep _ _ => false
  | .sparseInsert _ _ => false
  | .launchStart => false
  | .rootTokenSend => false
  | .launchComplete _ => false
  | .drainLimitExpiry _ _ => false
  | .traceDrain _ _ => false
  | .traceLoss _ => false
  | .commandAccept _ _ => false
  | .commandStart => false
  | .commandEnd _ => false
  | .hLoad _ => false
  | .hUnload _ => false
  | .hLaunch _ => false
  | .hCopy _ _ => false
  | .hPreempt _ => false
  | .hResume _ => false
  | .hQueryDieEntry _ => false
  | .hQueryErrorCounter _ => false
  | .hQueryExchange _ => false
  | .hJournalRead _ => false
  | .hDieReset _ => false
  | .hAttest _ => false
  | .hDebugHalt _ => false
  | .hDebugRelease _ => false
  | .hDebugArm _ => false
  | .hDebugDisarm _ => false
  | .hConfigureQueuePriority _ => false
  | .hConfigurePowerCap _ => false
  | .hConfigureExchangeGroup _ => false
  | .hConfigureChip _ => false
  | .hConfigureInstallKey _ => false
  | .hConfigureSendKey _ => false
  | .hConfigureEraseKey _ => false
  | .getVersion _ _ => false
  | .getCapabilities _ _ => false
  | .negotiateAlgorithms _ _ => false
  | .getDigests _ _ => false
  | .getCertificate _ _ => false
  | .challenge _ _ => false
  | .getMeasurements _ _ => false
  | .keyExchange _ _ => false
  | .finish _ _ => false
  | .keyUpdate _ _ => false
  | .endSession _ _ => false
  | .unsupportedRequest _ _ => false
  | .attestationResponseTimeout _ => false
  | .attestationRetry _ => false
  | .keyRolloverStart _ => false
  | .senderKeyDelivery _ => false
  | .firstNewKeyFlit _ => false
  | .drainMarkerSend _ => false
  | .drainMarkerArrival _ => false
  | .boundaryTagFailure _ => false
  | .boundaryTokenCreditReturn _ => false
  | .fabricPacketSend _ => false
  | .fabricPacketReceive _ _ => false
  | .fabricPortChange _ _ => false
  | .postArrival _ _ _ => false
  | .phaseDoneMarker _ _ => false
  | .phaseTimeout _ => false
  | .dxchGrant _ _ => false
  | .baristaHeartbeat _ => false
  | .standbyTakeover _ => false
  | .takeoverNotice _ => false
  | .dxchGrantTimeout _ _ => false
  | .dieReset _ => false
  | .dieRejoin _ => false
  | .uncorrectableMatchingError _ => false
  | .memoryError _ _ => false
  | .mgmtHeartbeatTimeout => false
  | .powerSample _ _ => false
  | .powerControlInterval => false
  | .thermalTrip => false
  | .powerOn => false
  | .packageReset => false
  | .flitCounterLimit _ => false
  | .securedMessageCheckFailure _ => false

/-- The instruction that the decoder reads from the table's bits. An instruction is one 64-bit word (R52), so bits
above `nbits` are 0 and bits from 64 on make it no instruction. -/
def decodeTableWord (nbits w : Nat) : Option Instr :=
  if 2 ^ 64 ≤ w % 2 ^ nbits then none
  else match decode (w % 2 ^ nbits) with
    | .ok i => some i
    | .refused _ => none

end Sys2Proof
end

