-- ==== Sys2Proof/Machine/Num.lean ====
section
/-! DEFINITION. Number formats, exact values, the one rounding function, stochastic draws, block scales, the coded
format cf8 and the special functions (spec/05, R184). -/
namespace Sys2Proof

/-! ### Formats -/

/-- A floating format (R100): exponent bits, mantissa bits, bias, the largest finite magnitude's encoding, whether it
has infinities, and its canonical NaN (R101). -/
structure FFmt where
  ebits : Nat
  mbits : Nat
  bias : Nat
  maxFin : Nat
  hasInf : Bool
  nan : Option Nat
  deriving DecidableEq, Repr

/-- The formats of R100; the integer and scale types take f32's row and are never asked. -/
def Ty.fmt : Ty → FFmt
  | .f16 => ⟨5, 10, 15, 0x7BFF, true, some 0x7E00⟩
  | .bf16 => ⟨8, 7, 127, 0x7F7F, true, some 0x7FC0⟩
  | .e4m3 | .cf8 => ⟨4, 3, 7, 0x7E, false, some 0x7F⟩
  | .e5m2 => ⟨5, 2, 15, 0x7B, true, some 0x7E⟩
  | .e3m2 => ⟨3, 2, 3, 0x1F, false, none⟩
  | .e2m3 => ⟨2, 3, 1, 0x1F, false, none⟩
  | .e2m1 => ⟨2, 1, 1, 0x7, false, none⟩
  | .f32 | .i8 | .i16 | .i32 | .i64 | .n8 | .n16 | .n32 | .n64 | .e8m0 => ⟨8, 23, 127, 0x7F7FFFFF, true, some 0x7FC00000⟩

/-- Width of an encoding. -/
def FFmt.width (f : FFmt) : Nat := 1 + f.ebits + f.mbits

/-- decode_t of R103 for the floating formats. -/
def decodeF (t : Ty) (b : Nat) : Val :=
  let f := t.fmt
  let s := bitOf b (f.ebits + f.mbits)
  let mag := bits b 0 (f.ebits + f.mbits)
  let ex := mag / 2 ^ f.mbits
  let m := mag % 2 ^ f.mbits
  if f.maxFin < mag then (if f.hasInf && m == 0 then .inf s else .nan)
  else if ex == 0 then (if m == 0 then .zero s else .fin s m (1 - (f.bias : Int) - f.mbits))
  else .fin s (m + 2 ^ f.mbits) ((ex : Int) - f.bias - f.mbits)

/-- A finite nonzero value, or a zero, from an integer times a power of two. -/
def Val.ofInt (x : Int) (e : Int) (negZero : Bool) : Val :=
  if x = 0 then .zero negZero else .fin (decide (x < 0)) x.natAbs e

/-- decode_t of R103 for the integer types. -/
def decodeI (t : Ty) (b : Nat) : Int :=
  let x := b % 2 ^ t.width
  if t.signed then toSigned t.width x else (x : Int)

/-- An integer as an exact value. -/
def Val.int (x : Int) : Val := Val.ofInt x 0 false

/-- The scale e8m0 as a value (R100). -/
def decodeScale (s : Nat) : Val := if s == 0xFF then .nan else .fin false 1 ((s : Int) - 127)

/-! ### Exact arithmetic (R173) -/

def Val.isNan : Val → Bool
  | .nan => true
  | .inf _ | .zero _ | .fin _ _ _ => false

def Val.isZero : Val → Bool
  | .zero _ => true
  | .nan | .inf _ | .fin _ _ _ => false

def Val.isFin : Val → Bool
  | .fin _ _ _ | .zero _ => true
  | .nan | .inf _ => false

/-- The sign of a value; NaN counts as positive. -/
def Val.sign : Val → Bool
  | .nan => false
  | .inf s | .zero s | .fin s _ _ => s

/-- The value with its sign set (R171). -/
def Val.withSign (s : Bool) : Val → Val
  | .nan => .nan
  | .inf _ => .inf s
  | .zero _ => .zero s
  | .fin _ m e => .fin s m e

def Val.neg (v : Val) : Val := v.withSign (!v.sign)

/-- A source modifier on a decoded value (R171). -/
def Val.modify (v : Val) : SrcMod → Val
  | .none => v
  | .neg => v.neg
  | .abs => v.withSign false
  | .negAbs => v.withSign true

/-- The exact product (R173). -/
def Val.mul : Val → Val → Val
  | .nan, _ | _, .nan => .nan
  | .inf _, .zero _ | .zero _, .inf _ => .nan
  | .inf s, .inf t | .inf s, .fin t _ _ | .fin s _ _, .inf t => .inf (s != t)
  | .zero s, .zero t | .zero s, .fin t _ _ | .fin s _ _, .zero t => .zero (s != t)
  | .fin s m e, .fin t n f => .fin (s != t) (m * n) (e + f)

/-- The value times 2^n (R177). -/
def Val.scale (v : Val) (n : Int) : Val :=
  match v with
  | .fin s m e => .fin s m (e + n)
  | .nan => .nan
  | .inf s => .inf s
  | .zero s => .zero s

/-- The lowest exponent among finite values. -/
def Val.minExp : List Val → Option Int
  | [] => none
  | .fin _ _ e :: t => some (match Val.minExp t with | none => e | some x => min e x)
  | .nan :: t | .inf _ :: t | .zero _ :: t => Val.minExp t

/-- A finite value in units of 2^base (base at most its exponent). -/
def Val.units (base : Int) : Val → Int
  | .fin s m e => (if s then -1 else 1) * ((m * 2 ^ (e - base).toNat : Nat) : Int)
  | .nan | .inf _ | .zero _ => 0

/-- The exact sum of terms under R173: `rdn` says that the rounding mode is rdn. -/
def Val.sum (rdn : Bool) (ts : List Val) : Val :=
  if ts.any Val.isNan then .nan
  else if ts.any (fun v => decide (v = .inf false)) then
    (if ts.any (fun v => decide (v = .inf true)) then .nan else .inf false)
  else if ts.any (fun v => decide (v = .inf true)) then .inf true
  else
    match Val.minExp ts with
    | none => .zero (if ts.all (fun v => v.sign) then !ts.isEmpty else if ts.all (fun v => !v.sign) then false else rdn)
    | some base => Val.ofInt ((ts.map (Val.units base)).foldl (· + ·) 0) base rdn

/-- Numeric order of two values that are not NaN, as the sign of a − b (zeros are equal). -/
def Val.cmp (a b : Val) : Ordering :=
  match a, b with
  | .inf s, .inf t => if s == t then .eq else if s then .lt else .gt
  | .inf s, _ => if s then .lt else .gt
  | _, .inf t => if t then .gt else .lt
  | _, _ =>
    match Val.minExp [a, b] with
    | none => .eq
    | some base => compare (a.units base) (b.units base)

/-! ### Rounding (R104 to R106) -/

/-- ⌊log2⌋ of a finite magnitude. -/
def magLog (m : Nat) (e : Int) : Int := (log2 m : Int) + e

/-- Count of trailing zero bits of a nonzero number, by fuel. -/
def tzAux : Nat → Nat → Nat
  | 0, _ => 0
  | f + 1, m => if m % 2 == 1 then 0 else 1 + tzAux f (m / 2)

def tz (m : Nat) : Nat := tzAux 4096 m

/-- Whether the rounding goes up (R104). The discarded part is rem / 2^shift; `inexact` says that the exact value
has no lowest set bit (R172). -/
def roundUp (mode : Rnd) (neg : Bool) (lo rem shift : Nat) (inexact : Bool) (draw : Nat) : Bool :=
  if rem = 0 && !inexact then false
  else match mode with
    | .rne | .dyn => decide (2 ^ shift < 2 * rem) || (decide (2 * rem = 2 ^ shift) && (inexact || lo % 2 == 1))
    | .rna => decide (2 ^ shift ≤ 2 * rem)
    | .rtz => false
    | .rup => !neg
    | .rdn => neg
    | .sr => decide (2 ^ 16 ≤ rem * 2 ^ 16 / 2 ^ shift + draw % 2 ^ 16)
    | .srw =>
      let w := if inexact then 32 else min 32 (shift - tz rem)
      decide (2 ^ w ≤ rem * 2 ^ w / 2 ^ shift + draw % 2 ^ w)

/-- The magnitude in quanta 2^q after rounding. A magnitude far below the quantum keeps only its being nonzero. -/
def roundMag (mode : Rnd) (neg : Bool) (m : Nat) (e q : Int) (inexact : Bool) (draw : Nat) : Nat :=
  if q ≤ e then
    let m' := m * 2 ^ (e - q).toNat
    m' + (if inexact && (match mode with | .rup => !neg | .rdn => neg | _ => false) then 1 else 0)
  else
    let sh := (q - e).toNat
    if log2 m + 64 < sh then b2n (roundUp mode neg 0 1 64 true draw)
    else
      let lo := m / 2 ^ sh
      lo + b2n (roundUp mode neg lo (m % 2 ^ sh) sh inexact draw)

/-- The encoding of a sign above a magnitude's encoding. -/
def FFmt.sign (f : FFmt) (s : Bool) (mag : Nat) : Nat := b2n s * 2 ^ (f.ebits + f.mbits) + mag

/-- The encoding of infinity. -/
def FFmt.infMag (f : FFmt) : Nat := (2 ^ f.ebits - 1) * 2 ^ f.mbits

/-- A result beyond the largest finite value (R105). -/
def overflowF (f : FFmt) (mode : Rnd) (s sat : Bool) : Nat :=
  let toInf := f.hasInf && !sat && (match mode with
    | .rtz => false
    | .rup => !s
    | .rdn => s
    | .rne | .rna | .sr | .srw | .dyn => true)
  f.sign s (if toInf then f.infMag else f.maxFin)

/-- round of R104 to a floating type, as an encoding. -/
def roundF (t : Ty) (mode : Rnd) (sat : Bool) (draw : Nat) (inexact : Bool) (v : Val) : Nat :=
  let f := t.fmt
  match v with
  | .nan => f.nan.getD 0
  | .inf s =>
    if sat then f.sign s f.maxFin
    else if f.hasInf then f.sign s f.infMag
    else match f.nan with
      | some n => n
      | none => f.sign s f.maxFin
  | .zero s => f.sign s 0
  | .fin s m e =>
    let top := magLog m e
    if (f.bias : Int) + 2 < top then overflowF f mode s sat
    else
      let q := max top (1 - (f.bias : Int)) - f.mbits
      let r := roundMag mode s m e q inexact draw
      -- r quanta: the quantum of a subnormal is the format's smallest step
      let step : Nat := (q - (1 - (f.bias : Int) - f.mbits)).toNat
      let mag := r + step * 2 ^ f.mbits
      if f.maxFin < mag then overflowF f mode s sat else f.sign s mag

/-- Clamp to a range. -/
def clampInt (lo hi x : Int) : Int := if x < lo then lo else if hi < x then hi else x

/-- The range of an integer type (R98). -/
def Ty.minI (t : Ty) : Int := if t.signed then -((2 ^ (t.width - 1) : Nat) : Int) else 0
def Ty.maxI (t : Ty) : Int := if t.signed then ((2 ^ (t.width - 1) : Nat) : Int) - 1 else ((2 ^ t.width : Nat) : Int) - 1

/-- round of R104 to an integer type (R106). -/
def roundI (t : Ty) (mode : Rnd) (draw : Nat) (v : Val) : Int :=
  match v with
  | .nan | .zero _ => 0
  | .inf s => if s then t.minI else t.maxI
  | .fin s m e =>
    if 80 < magLog m e then (if s then t.minI else t.maxI)
    else
      let r := roundMag mode s m e 0 false draw
      clampInt t.minI t.maxI ((if s then -1 else 1) * (r : Int))

/-- The rounding code of R56. -/
def Rnd.ofCode : Nat → Rnd
  | 0 => .rne
  | 1 => .rtz
  | 2 => .rup
  | 3 => .rdn
  | 4 => .rna
  | 5 => .sr
  | 6 => .srw
  | _ => .dyn

/-- dyn replaced by the graph's default mode (R104, R107). -/
def Rnd.resolve (dflt : Nat) : Rnd → Rnd
  | .dyn => Rnd.ofCode dflt
  | .rne => .rne
  | .rtz => .rtz
  | .rup => .rup
  | .rdn => .rdn
  | .rna => .rna
  | .sr => .sr
  | .srw => .srw

def Rnd.isRdn : Rnd → Bool
  | .rdn => true
  | .rne | .rtz | .rup | .rna | .sr | .srw | .dyn => false

/-! ### Draws (R108, R111) -/

/-- mix64 of R108. -/
def mix64 (z : DWord) : DWord :=
  let z1 := (z ^^^ (z >>> 30)) * 0xBF58476D1CE4E5B9#64
  let z2 := (z1 ^^^ (z1 >>> 27)) * 0x94D049BB133111EB#64
  z2 ^^^ (z2 >>> 31)

/-- grind of R108: 32 draw bits. -/
def grind (key serial : DWord) (block instr iter n : Nat) : Nat :=
  let c := (block % 4096) * 2 ^ 24 + (instr % 64) * 2 ^ 18 + (iter % 1024) * 2 ^ 8 + n % 256
  let h := mix64 (serial ^^^ key)
  (mix64 (h + BitVec.ofNat 64 c * 0x9E3779B97F4A7C15#64)).toNat / 2 ^ 32

/-- serial_mix of R111. -/
def serialMix (p : DWord) (o : Nat) : DWord :=
  mix64 (p ^^^ (BitVec.ofNat 64 (o + 1) * 0x9E3779B97F4A7C15#64)) ||| 0x8000000000000000#64

/-! ### Elements of rows and scaled blocks (R112, R117) -/

/-- decode_mx of R112. -/
def decodeMx (t : Ty) (s b : Nat) : Val :=
  if s == 0xFF then .nan else (decodeF t b).scale ((s : Int) - 127)

/-- emax of R188. -/
def Ty.emax : Ty → Int
  | .e4m3 => 8
  | .e5m2 => 15
  | .e3m2 => 4
  | .e2m3 | .e2m1 => 2
  | _ => 0

/-- Element j of packed bytes (R99): 6-bit elements in 3-byte groups, 4-bit elements two to a byte. -/
def packedElem (width : Nat) (data : List Byte) (j : Nat) : Nat :=
  let lo := width * j
  ofBytes ((data.drop (lo / 8)).take 3) / 2 ^ (lo % 8) % 2 ^ width

/-- Elements packed into bytes (R99). -/
def packElems (width : Nat) (es : List Nat) : List Byte :=
  toBytes (ceilDiv (es.length * width) 8) ((es.zipIdx).foldl (fun acc p => acc + p.1 % 2 ^ width * 2 ^ (width * p.2)) 0)

/-! ### The coded format cf8 (R113 to R116) -/

/-- The next code of a table from a stream of bits: the offset or the escaped field, and the rest (R114). -/
def cf8Code (table : Nat) (s : List Bool) : Option ((Int ⊕ Nat) × List Bool) :=
  let esc (r : List Bool) : Option ((Int ⊕ Nat) × List Bool) :=
    match r with
    | a :: b :: c :: d :: t => some (.inr (b2n a * 8 + b2n b * 4 + b2n c * 2 + b2n d), t)
    | _ => none
  match table, s with
  | 0, false :: t => some (.inl 0, t)
  | 0, true :: false :: false :: t => some (.inl 1, t)
  | 0, true :: false :: true :: t => some (.inl (-1), t)
  | 0, true :: true :: false :: false :: false :: t => some (.inl 2, t)
  | 0, true :: true :: false :: false :: true :: t => some (.inl (-2), t)
  | 0, true :: true :: false :: true :: false :: t => some (.inl 3, t)
  | 0, true :: true :: false :: true :: true :: t => some (.inl (-3), t)
  | 1, false :: false :: t => some (.inl 0, t)
  | 1, false :: true :: t => some (.inl 1, t)
  | 1, true :: false :: false :: t => some (.inl (-1), t)
  | 1, true :: false :: true :: false :: t => some (.inl 2, t)
  | 1, true :: false :: true :: true :: t => some (.inl (-2), t)
  | 1, true :: true :: false :: false :: t => some (.inl 3, t)
  | 1, true :: true :: false :: true :: t => some (.inl (-3), t)
  | 2, false :: false :: false :: t => some (.inl 0, t)
  | 2, false :: false :: true :: t => some (.inl 1, t)
  | 2, false :: true :: false :: t => some (.inl (-1), t)
  | 2, false :: true :: true :: t => some (.inl 2, t)
  | 2, true :: false :: false :: t => some (.inl (-2), t)
  | 2, true :: false :: true :: t => some (.inl 3, t)
  | 2, true :: true :: false :: t => some (.inl (-3), t)
  | _, true :: true :: true :: t => esc t
  | _, _ => none

/-- The elements of a coded stream: E4M3 encodings, and whether a decode error arose (R115). -/
def cf8Elems (table base : Nat) (nibbles : List Byte) : Nat → Nat → List Bool → List Nat × Bool
  | 0, _, _ => ([], false)
  | n + 1, j, s =>
    match cf8Code table s with
    | none => (List.replicate (n + 1) 0x7F, true)
    | some (sym, rest) =>
      let nib := packedElem 4 nibbles j
      let (e, bad) : Nat × Bool := match sym with
        | .inr f => (f, false)
        | .inl d => let x := (base : Int) + d; if x < 0 || 15 < x then (0, true) else (x.toNat, false)
      let (t, b) := cf8Elems table base nibbles n (j + 1) rest
      ((if bad then 0x7F else (nib / 8) * 128 + e * 8 + nib % 8) :: t, bad || b)

/-- The bits of a byte stream, from bit 0 of each byte (R113). -/
def byteBits (l : List Byte) : List Bool := l.flatMap (fun b => (List.range 8).map (fun i => bitOf b.toNat i))

/-- The 32 E4M3 encodings of a cf8 block given its bytes (its length from the index table), and whether a decode
error is counted (R113 to R116). Header bits [5:4], which R113 gives as 0, are not looked at (DESIGN CHOICE, assumption 116). -/
def cf8Block (blk : List Byte) : List Nat × Bool :=
  let nans := (List.replicate 32 0x7F, false)
  match blk with
  | [] => nans
  | h :: t =>
    let tab := bits h.toNat 6 2
    if tab == 3 then (if blk.length == 33 then (t.map BitVec.toNat, false) else nans)
    else if blk.length < 21 || 45 < blk.length then nans
    else cf8Elems tab (bits h.toNat 0 4) (t.take 16) 32 0 (byteBits (t.drop 16))

/-! ### Exact mathematical functions (R184)

Each function answers a value and whether the value is only a truncation of an irrational one; the truncation error
is far below every rounding boundary of f32. -/

/-- Fixed-point precision of the special functions, in bits. -/
def fixP : Nat := 640

/-- x·y / 2^fixP. -/
def fixMul (x y : Int) : Int := (x * y) / ((2 ^ fixP : Nat) : Int)

/-- Σ x^(2k+1)/(2k+1) with sign s per term, for 1/x given as the first power: n terms. -/
def atanSum (sgn : Int) (x2 : Int) : Nat → Int → Nat → Int
  | 0, _, _ => 0
  | n + 1, p, k => p / ((2 * k + 1 : Nat) : Int) + atanSum sgn x2 n (sgn * fixMul p x2) (k + 1)

/-- atanh of a fixed-point x with |x| at most 1/3. -/
def fixAtanh (x : Int) : Int := atanSum 1 (fixMul x x) 230 x 0

/-- ln 2 = 2 atanh(1/3). -/
def fixLn2 : Int := 2 * fixAtanh (((2 ^ fixP : Nat) : Int) / 3)

/-- atan of 1/n. -/
def fixAtanInv (n : Nat) : Int :=
  let x := ((2 ^ fixP : Nat) : Int) / (n : Int)
  atanSum (-1) (fixMul x x) 160 x 0

/-- π/2 = 8 atan(1/5) − 2 atan(1/239). -/
def fixHalfPi : Int := 8 * fixAtanInv 5 - 2 * fixAtanInv 239

/-- Σ of x^k/k! by steps: term t at index k. -/
def expSum (x : Int) : Nat → Int → Nat → Int
  | 0, _, _ => 0
  | n + 1, t, k => t + expSum x n (fixMul t x / ((k + 1 : Nat) : Int)) (k + 1)

/-- e^x for a fixed-point x with |x| at most 1. -/
def fixExp (x : Int) : Int := expSum x 130 ((2 ^ fixP : Nat) : Int) 0

/-- Σ of alternating terms x^k/k!, k rising by 2. -/
def trigSum (x2 : Int) : Nat → Int → Nat → Int
  | 0, _, _ => 0
  | n + 1, t, k => t + trigSum x2 n (-(fixMul t x2) / (((k + 1) * (k + 2) : Nat) : Int)) (k + 2)

def fixSin (x : Int) : Int := trigSum (fixMul x x) 80 x 1
def fixCos (x : Int) : Int := trigSum (fixMul x x) 80 ((2 ^ fixP : Nat) : Int) 0

/-- A fixed-point number as a value. -/
def fixVal (x : Int) : Val := Val.ofInt x (-(fixP : Int)) false

/-- A finite magnitude in fixed point (floor), for exponents of f32's range. -/
def toFix (m : Nat) (e : Int) : Int :=
  let k : Int := e + fixP
  if 0 ≤ k then ((m * 2 ^ k.toNat : Nat) : Int) else ((m / 2 ^ (-k).toNat : Nat) : Int)

/-- 1/A. -/
def fnRcp : Val → Val × Bool
  | .nan => (.nan, false)
  | .inf s => (.zero s, false)
  | .zero s => (.inf s, false)
  | .fin s m e => (.fin s (2 ^ fixP / m) (-(fixP : Int) - e), decide (2 ^ fixP % m ≠ 0))

/-- √A. -/
def fnSqrt : Val → Val × Bool
  | .nan => (.nan, false)
  | .inf s => if s then (.nan, false) else (.inf false, false)
  | .zero s => (.zero s, false)
  | .fin s m e =>
    if s then (.nan, false)
    else
      let (m1, e1) : Nat × Int := if e % 2 = 0 then (m, e) else (2 * m, e - 1)
      let n := m1 * 2 ^ fixP
      let r := isqrt n
      (.fin false r ((e1 - fixP) / 2), decide (r * r ≠ n))

/-- 1/√A. -/
def fnRsq : Val → Val × Bool
  | .nan => (.nan, false)
  | .inf s => if s then (.nan, false) else (.zero false, false)
  | .zero s => (.inf s, false)
  | .fin s m e =>
    if s then (.nan, false)
    else
      let (m1, e1) : Nat × Int := if e % 2 = 0 then (m, e) else (2 * m, e - 1)
      let r := isqrt (2 ^ fixP / m1)
      (.fin false r (-(fixP : Int) / 2 - e1 / 2), decide (r * r * m1 ≠ 2 ^ fixP))

/-- 2^A. Beyond ±512 the result is as one at ±512: above every f32, or below every quantum (R105). -/
def fnExp2 : Val → Val × Bool
  | .nan => (.nan, false)
  | .inf s => (if s then .zero false else .inf false, false)
  | .zero _ => (.fin false 1 0, false)
  | .fin s m e =>
    if 9 ≤ magLog m e then (.fin false 1 (if s then -512 else 512), false)
    else
      let x := (if s then -1 else 1) * toFix m e
      let one : Int := ((2 ^ fixP : Nat) : Int)
      let k := x / one
      let f := x % one
      if f = 0 then (.fin false 1 k, false)
      else ((fixVal (fixExp (fixMul f fixLn2))).scale k, true)

/-- log2 A. -/
def fnLog2 : Val → Val × Bool
  | .nan => (.nan, false)
  | .inf s => if s then (.nan, false) else (.inf false, false)
  | .zero _ => (.inf true, false)
  | .fin s m e =>
    if s then (.nan, false)
    else
      let top := magLog m e
      let one : Int := ((2 ^ fixP : Nat) : Int)
      let y := toFix m (e - top)
      if y = one then (Val.int top, false)
      else
        let r := ((y - one) * one) / (y + one)
        let l := (2 * fixAtanh r * one) / fixLn2
        (fixVal (top * one + l), true)

/-- sin and cos of a finite nonzero A in radians: exact argument reduction over π/2 (R184). -/
def fnTrig (cosine : Bool) : Val → Val × Bool
  | .nan | .inf _ => (.nan, false)
  | .zero s => (if cosine then .fin false 1 0 else .zero s, false)
  | .fin s m e =>
    let x := toFix m e
    let k := x / fixHalfPi
    let r := x - k * fixHalfPi
    let q := ((k % 4).toNat + (if cosine then 1 else 0)) % 4
    let v := match q with
      | 0 => fixSin r
      | 1 => fixCos r
      | 2 => -(fixSin r)
      | _ => -(fixCos r)
    (fixVal (if s && !cosine then -v else v), true)

def fnSin (v : Val) : Val × Bool := fnTrig false v
def fnCos (v : Val) : Val × Bool := fnTrig true v

/-- tanh A = (1 − E)/(1 + E) with E = e^(−2|A|). -/
def fnTanh : Val → Val × Bool
  | .nan => (.nan, false)
  | .inf s => (.fin s 1 0, false)
  | .zero s => (.zero s, false)
  | .fin s m e =>
    let one : Int := ((2 ^ fixP : Nat) : Int)
    if 7 ≤ magLog m e then (.fin s (2 ^ 200 - 1) (-200), true)
    else
      let y := 2 * toFix m e
      let k := y / fixLn2
      let r := y - k * fixLn2
      let ex := fixExp (-r) / ((2 ^ k.toNat : Nat) : Int)
      ((fixVal (((one - ex) * one) / (one + ex))).withSign s, true)

end Sys2Proof
end

