-- ==== Sys2Proof/Machine/Flags.lean ====
section
/-! DEFINITION. Source modifiers, reduction to a type, carries, comparisons and classes: what sets predicates and
saturates results (R152, R154, R158, R161, R178 to R180, R331). -/
namespace Sys2Proof.Machine

/-- val of R152: the w low bits of x as a signed or unsigned integer. -/
def intVal (w : Nat) (signed : Bool) (x : Nat) : Int :=
  if signed then toSigned w (x % 2 ^ w) else ((x % 2 ^ w : Nat) : Int)

/-- modv of R152. -/
def modInt (w : Nat) (signed : Bool) (x : Nat) : SrcMod → Int
  | .none => intVal w signed x
  | .neg => intVal w signed (wrapTo w (-(intVal w signed x)))
  | .abs => if signed then intVal w true (wrapTo w ((intVal w true x).natAbs : Int)) else intVal w false x
  | .negAbs =>
    intVal w signed (wrapTo w (-(if signed then intVal w true (wrapTo w ((intVal w true x).natAbs : Int)) else intVal w false x)))

/-- fin of R152: clamped to the type with the saturate bit, else wrapped; as w bits. -/
def finInt (t : Ty) (sat : Bool) (r : Int) : Nat :=
  wrapTo t.width (if sat then clampInt t.minI t.maxI r else r)

/-- Carry out of an addition with carry in (R154). -/
def addCarry (w a b : Nat) (p : Bool) : Nat × Bool :=
  let s := a + b + b2n p
  (s % 2 ^ w, decide (2 ^ w ≤ s))

/-- Borrow out of a subtraction with borrow in (R154). -/
def subBorrow (w a b : Nat) (p : Bool) : Nat × Bool :=
  let s : Int := (a : Int) - b - b2n p
  (wrapTo w s, decide (s < 0))

/-- An integer comparison (R59, R158, R161). -/
def condInt (c : Cond) (a b : Int) : Bool :=
  match c with
  | .eq => decide (a = b)
  | .ne => decide (a ≠ b)
  | .lt => decide (a < b)
  | .le => decide (a ≤ b)
  | .gt => decide (b < a)
  | .ge => decide (b ≤ a)
  | .ord => true
  | .unord => false

/-- A floating comparison (R179). -/
def condF (c : Cond) (a b : Val) : Bool :=
  let nan := a.isNan || b.isNan
  let o := Val.cmp a b
  match c with
  | .eq => !nan && o == .eq
  | .ne => nan || o != .eq
  | .lt => !nan && o == .lt
  | .le => !nan && o != .gt
  | .gt => !nan && o == .gt
  | .ge => !nan && o != .lt
  | .ord => !nan
  | .unord => nan

/-- Whether a is chosen as the smaller (R178: −0 below +0). -/
def minPicksA (a b : Val) : Bool :=
  match Val.cmp a b with
  | .lt => true
  | .gt => false
  | .eq => a.sign || !b.sign

/-- Whether a is chosen as the larger (R178: +0 above −0). -/
def maxPicksA (a b : Val) : Bool :=
  match Val.cmp a b with
  | .lt => false
  | .gt => true
  | .eq => !a.sign || b.sign

/-- FMIN and FMAX on modified values (R178). -/
def minMax (isMin : Bool) (a b : Val) : Val :=
  if a.isNan then b
  else if b.isNan then a
  else if (if isMin then minPicksA a b else maxPicksA a b) then a else b

/-- The one-hot class mask of R180. -/
def classMask (v : Val) : Nat :=
  match v with
  | .inf true => 1
  | .fin true m e => if magLog m e < -126 then 4 else 2
  | .zero true => 8
  | .zero false => 16
  | .fin false m e => if magLog m e < -126 then 32 else 64
  | .inf false => 128
  | .nan => 256

/-- The histogram bin of an offered value (R331). -/
def histBin (v : Val) : Nat :=
  match decodeF .f32 (roundF .f32 .rne false 0 false v) with
  | .nan | .inf _ => 63
  | .zero _ => 0
  | .fin _ m e => (clampInt (-39) 22 (magLog m e) + 40).toNat

/-- What a warp keeps of an offer: the bin with the value's sign, which the filter asks for (R330); 128 for NaN. -/
def offerKey (v : Val) : Nat := if v.isNan then 128 else b2n v.sign * 64 + histBin v

/-- The bin of a kept offer. -/
def offerBin (k : Nat) : Nat := if k == 128 then 63 else k % 64

/-- Whether a filter lets an offer pass (R330). -/
def offerPasses (filter k : Nat) : Bool :=
  k == 128 || (match filter with | 0 => true | 1 => decide (k < 64) | 2 => decide (64 ≤ k) | _ => false)

end Sys2Proof.Machine
end

