-- ==== Sys2Proof/Config.lean ====
section
/-! DEFINITION. What the spec leaves to the implementation (free values, without a body) and the figures that
one package is built with (R3, R262). -/
namespace Sys2Proof.Config

/-- Cores of one package (R3). -/
def cores : Nat := 512
/-- Bytes that an unlisted address of DRAM reads as: the spec gives no reset contents (assumption 2). -/
def emptyByte : Byte := 0
/-- Warp slots of a partition (R3, R262). -/
def slotsPerPartition : Nat := 16
/-- Partitions of a core (R3). -/
def partitions : Nat := 8
/-- Register granules of a partition: 16 slots of 64 registers, in granules of 16 (R3, R27). -/
def granulesPerPartition : Nat := 64
/-- Deferred-token records of a core's token log (R193). -/
def logRecords : Nat := 2097152
/-- Entries of the spawn spill ring (R262). -/
def spillEntries : Nat := 4194304
/-- Cycles of one microsecond at 1.7 GHz (R3). -/
def cyclesPerUs : Nat := 1700
/-- The remote-data cache that firmware chooses for a stack at bring-up, in GiB (R202): 0 to 8 of it are taken. A free value. -/
opaque rdcChoice : Nat → Nat

/-- The hash that chooses a TLB set from the address space, the page number and the page size (R319). A free value. -/
opaque tlbHash : Nat → Nat → Nat → Nat

/-- The hash that chooses a set of an owner directory from the address space and the line (R320). A free value. -/
opaque ownerHash : Nat → Nat → Nat

/-- The share of slots, in 1/1024, that the power manager withholds to meet the cap from a measured average: the
spec says only that it is sized to meet the cap (R395). A free value. -/
opaque withheldShare : Nat → Nat → Nat

/-- Whether a slot of a core is withheld in a cycle under a share: the spec does not say which slots the power manager takes (R395).
Slots 0 to 7 are the warp issue slots of the partitions, slot 8 the row engine's firing slot. A free value. -/
opaque slotWithheld : Nat → Nat → Nat → Nat → Bool

/-- The X.509 chain, in DER, that fuses and the firmware store hold for a die's slot 0: outside the spec (R326). A free value. -/
opaque certChain : Nat → List Byte

/-- The 256-bit link key of a serial number: the root draws it from its DRBG, none twice (R325, R393). A free value. -/
opaque linkKey : Nat → BitVec 256

/-- How many flits a packet with a payload of so many bytes takes on a boundary: the spec gives flits no size (R49, R325). A free
value. -/
opaque flitsOf : Nat → Nat

/-- How many flits SPDM message n of the root and a die takes on a boundary: the spec sizes no message (R325, R389). A free value. -/
opaque spdmFlits : Nat → Nat

/-- The length code of an X.509 chain or digest word that no happening supplied: certificate contents are outside
the spec (R326). A free value. -/
opaque certDigest : Nat → Nat → Word

/-- Field n of an exchange-group descriptor whose 160 bytes hold a number: the spec names the fields and gives no place
for them (R322, R377). A free value. -/
opaque groupField : Nat → Nat → Nat

/-- What the nine bits [8:0] of a DXQ payload hold when more than 511 phases have ended: the spec does not say (R303). A
free value. -/
opaque phasesEnded : Nat → Nat

end Sys2Proof.Config
end

