-- ==== Sys2Proof/Machine/State.lean ====
section
/-! DEFINITION. The state of one Lamtis 8400 package as plain data: frames, warps, memories, queues, tables,
counters and what stands at the package's edges. -/
namespace Sys2Proof.Machine

/-- Why a step stops the model. -/
inductive Fault where
  /-- Raised by every instruction of the opcode map when no warp is issuing (State.cur names none). Safe: on the
  device an instruction acts only in a warp. -/
  | noWarp
  deriving DecidableEq, Repr

/-- Why a step has no meaning. -/
inductive Refusal where
  /-- An instruction that the model gives no meaning. Safe. -/
  | notModelled (mnemonic : String)
  /-- Raised by step on a fetched word that is no instruction, with the reason of R77. Safe: GLOAD admits no such
  word (R77), so no illegal-instruction event exists. -/
  | notAnInstruction (reason : Nat)
  deriving DecidableEq, Repr

/-! ### Tokens and frames -/

/-- A release word: the LIST byte and the four IDS bytes of an edge descriptor (R130, R97). -/
structure RelWord where
  byte : Nat
  idBytes : Nat
  deriving DecidableEq, Repr

/-- The in-flight charge that a happening ends: an activation's frame and a path (R13). -/
structure Charge where
  fp : Nat
  serial : DWord
  path : Path
  deriving DecidableEq, Repr

/-- A token (R73) with what travels beside it: the identity (R17), the release word (R130), the mark of having
crossed the fabric (R73), the frame whose instance sent it (R37), the commits it releases (R129) and the charge that its
landing ends (R13). -/
structure Token where
  fp : Nat
  block : Nat
  slot : Nat
  iter : Nat
  null : Bool
  bad73 : Bool
  comb : Comb
  rel : Scope
  poison : Bool
  stop : Nat
  payload : DWord
  ident : Nat
  relWord : RelWord
  crossed : Bool
  sender : Option Nat
  hb : List Nat
  charges : List Charge
  deriving DecidableEq, Repr

/-- What a packet of the token class carries (R288). -/
inductive PacketBody where
  | token (t : Token)
  | free (fp ident : Nat)
  | out (chip : Nat) (t : Token)
  deriving DecidableEq, Repr

/-- A packet of the token class with its source and target core (R48). One for another chip goes to a fabric die, written as
its first core, 64 times the die's id. -/
structure Packet where
  src : Nat
  dst : Nat
  body : PacketBody
  deriving DecidableEq, Repr

/-- States of a readiness entry (R12): 0b00, 0b01, 0b10 and 0b11. -/
inductive EntryState where
  | free | matching | recorded | waiting
  deriving DecidableEq, Repr

/-- A readiness entry (R12), with the cycle at which its instance became ready (R23), the count of refetch aborts in
a row (R217), the commits its tokens released (R129), and whether a fault record holds it (R359). -/
structure Entry where
  state : EntryState
  block : Nat
  iter : Nat
  remain : Nat
  nullSeen : Bool
  poisonSeen : Bool
  cremain : Nat
  readyAt : Nat
  order : Nat
  refetch : Nat
  hb : List Nat
  held : Bool
  deriving DecidableEq, Repr

/-- A watch's condition (R289). -/
inductive WatchCond where
  | join
  | gate (path : Path) (threshold : Nat)
  deriving DecidableEq, Repr

/-- A record of a frame's chain in the token log (R192, R193, R289). -/
inductive ChainRec where
  | deferred (log : Nat) (t : Token)
  | watch (log : Nat) (c : WatchCond) (t : Token)
  deriving DecidableEq, Repr

/-- The four in-flight counters (R11, R13). -/
structure InFlight where
  l : Nat
  f : Nat
  s : Nat
  e : Nat
  deriving DecidableEq, Repr

/-- A frame: its header (R11), slots, chain, where it is (R36), its creation order (R22), its launch, whether an
instance of another frame has addressed it since it left frame memory (R37), and whether it is being evicted (R38). -/
structure Frame where
  serial : DWord
  parent : Nat
  graph : Nat
  ident : Nat
  depth : Nat
  prio : Nat
  closing : Bool
  slotblk : Nat
  join : Nat
  ordinal : Nat
  infl : InFlight
  presence : List Nat
  entries : List Entry
  slots : Map Word
  chain : List ChainRec
  resident : Bool
  created : Nat
  broughtAt : Nat
  released : Bool
  launch : Option Nat
  drained : List Nat
  addressed : Bool
  moving : Bool
  deriving DecidableEq, Repr

/-- What asked for a frame (R191). -/
inductive CreateFor where
  | root (index : Nat)
  | falloc (fp block slot iter : Nat) (serial : DWord)
  | spawn (task : Nat)
  | trap (record : List Word) (handle : Nat)
  deriving DecidableEq, Repr

/-- A frame creation that waits on its core for free indices (R191). -/
structure Creation where
  what : CreateFor
  graph : Nat
  slotblk : Nat
  serial : DWord
  parent : Nat
  depth : Nat
  prio : Nat
  ordinal : Nat
  launch : Option Nat
  tokens : List Token
  deriving DecidableEq, Repr

/-! ### Warps -/

/-- An instance on a lane of a warp (R29). -/
structure Inst where
  frame : Nat
  entry : Nat
  iter : Nat
  serial : DWord
  age : Nat
  order : Nat
  nullSeen : Bool
  hb : List Nat
  deriving DecidableEq, Repr

/-- A synchronous load of one lane that waits for its bytes (R33, R216): the destination, the bytes that have
come, and those still to come. -/
structure PendLoad where
  id : Nat
  charges : List Charge
  lane : Nat
  addr : Nat
  reg : Nat
  words : Nat
  bytes : List (Option Byte)
  poison : Bool
  deriving DecidableEq, Repr

/-- The full/empty operations (R226). -/
inductive FullOp where
  | putf | take | readf | sete
  deriving DecidableEq, Repr

/-- The atomics (R223 to R225). -/
inductive AtomKind where
  | rmw (op : AtomOp)
  | cas
  | incw
  | decw
  | faddb
  deriving DecidableEq, Repr

/-- What a memory request does at its home, or a commit-buffered access at its core's stash. -/
inductive ReqKind where
  | load
  | store (data : List Byte) (poison : Bool)
  | atomic (k : AtomKind) (operand : List Word)
  | full (op : FullOp) (data : DWord)
  | rounda (scope : Scope)
  | roundv
  | stashStore (data : List Byte)
  | smap (window desc : Nat)
  | swb
  | sinv
  deriving DecidableEq, Repr

/-- Where reply tokens go (R215, R337). -/
structure Reply where
  fp : Nat
  block : Nat
  slot : Nat
  iter : Nat
  ident : Nat
  rel : Scope
  deriving DecidableEq, Repr

/-- The state of a memory request: on its way, waiting for a walk, waiting at the port, parked in a fault-queue
entry, or waiting as a deferred reader (R207, R226). -/
inductive ReqState where
  | moving
  | walking
  | port
  | remote
  | parked (entry : Nat)
  | reader
  deriving DecidableEq, Repr

/-- A request of the memory class (R196, R207). `fresh` asks for a walk afresh (R360); `back` names the chip and the number
of a request that came over the fabric; for a deferred reader `stamp` is its number of arrival.
`elem` names the engine element it serves (core, command, element, first byte); `batch` the writes it ends with. `warp` names the synchronous load it fills: core, slot, index of the
pending load and first byte. `cid`, `group`, `lsid` and `lane` place it in a commit; `blk` is the number of its warp; `lda` says
that later accesses of its warp wait for it (R133), `acq` that it ends an acquire over every region, `wb` that it writes a stash line back (R203). `bads` are the offsets of
poisoned bytes among those it writes, `priv` says that it is an LDP's or STP's (R211), `ask` that whoever asked is told of a
fault. Of a request that came over the fabric, `sync` says that it does not park (R213), `elemIn` that it is an element's
(R137). `fillIn` marks a prefetch (R218). -/
structure Req where
  core : Nat
  graph : Nat
  asid : Nat
  ident : Nat
  va : Nat
  size : Nat
  kind : ReqKind
  charge : Option Charge
  cid : Option Nat
  group : Nat
  lsid : Nat
  lane : Nat
  reply : Option Reply
  warp : Option (Nat × Nat × Nat × Nat)
  split : Option (Nat × Nat)
  issuedAt : Nat
  state : ReqState
  hint : Hint
  ldc : Bool
  local' : Bool
  hw : Bool
  fresh : Bool
  back : Option (Nat × Nat)
  elem : Option (Nat × Nat × Nat × Nat)
  batch : Option Nat
  rgen : Nat
  stamp : Nat
  tgen : Nat
  blk : Option Nat
  lda : Bool
  acq : Bool
  wb : Bool
  sync : Bool
  elemIn : Bool
  bads : List Nat
  priv : Bool
  ask : Bool
  fillIn : Bool
  deriving DecidableEq, Repr

/-- A split-phase load whose bytes come by parts: its reply, the bytes, the charges it ends (R211, R215). -/
structure Split where
  reply : Reply
  bytes : List (Option Byte)
  charges : List Charge
  poison : Bool
  deriving DecidableEq, Repr

/-- A place in the commit buffer (R31, R210): LSID, lane, and the access. -/
structure StoreSlot where
  lsid : Nat
  lane : Nat
  va : Nat
  size : Nat
  kind : ReqKind
  reply : Option Reply
  local' : Bool
  hint : Hint
  priv : Bool
  deriving DecidableEq, Repr

/-- What a warp sends at commit step 2, in program order (R281 to R290). -/
inductive Emitted where
  | token (edge : Nat) (lane : Nat) (chip : Option Nat) (scope : Scope) (t : Token)
  | free (lane fp : Nat)
  | entry (task : Nat) (t : Token)
  | watch (lane : Nat) (c : WatchCond) (t : Token)
  | trap (code fp iter block mask : Nat)
  deriving DecidableEq, Repr

/-- The engines of a core (R271). -/
inductive EngKind where
  | cpy | cpy2d | gath | scat | strm | strmgo | strmx | dpost | dxch | dxq | cpyb | rows | isx | nzscan
  deriving DecidableEq, Repr

/-- The state of an engine command. -/
inductive EngState where
  | queued | running | closing
  deriving DecidableEq, Repr

/-- An element under way in an engine: the bytes that have come, which of them are
poisoned, whether its writes have been sent and how many still stand. -/
structure EngPart where
  bytes : List (Option Byte)
  poison : List Nat
  sent : Bool
  left : Nat
  deriving DecidableEq, Repr

/-- An engine command (R271, R293): what it read at issue and how far it has come; `parkedE` are the elements that have been parked at
their homes, each from then on (R271). -/
structure EngCmd where
  kind : EngKind
  graph : Nat
  ident : Nat
  asid : Nat
  fp : Nat
  serial : DWord
  iter : Nat
  path : Path
  desc : List Word
  flags : Nat
  subop : Nat
  rblock : Nat
  rslot : Nat
  rscope : Scope
  rcomb : Comb
  cid : Option Nat
  state : EngState
  total : Nat
  next : Nat
  parts : Map EngPart
  doneE : List Nat
  poison : Bool
  run : Bool
  pushes : List DWord
  close : Bool
  lo : Nat
  hi : Nat
  wrote : Bool
  values : List DWord
  tile : Nat
  chan : Nat
  targets : List Word
  unit : Nat
  ctl : Word
  startAt : Nat
  issuedAt : Nat
  waitFor : List Nat
  cal : Option Nat
  sent : List Nat
  recv : List Nat
  parkedE : List Nat
  deriving DecidableEq, Repr

/-- A format channel (R321). -/
structure Chan where
  ty : Ty
  bscaled : Bool
  scale : Word
  deriving DecidableEq, Repr

/-- The contents of a B-quarter buffer (R144): element bytes ([] for zeros), the channel it was loaded under and
the scales. -/
structure BQuarter where
  data : List Byte
  chan : Chan
  scales : List Byte
  deriving DecidableEq, Repr

/-- A row packet (R234) with its target core; a 6-bit row takes two entries (R232). -/
structure RowPacket where
  src : Nat
  dst : Nat
  rin : Nat
  ch : Nat
  tile : Nat
  arow : Nat
  seq : Nat
  stop : Nat
  poison : Bool
  graph : Nat
  scales : List Byte
  payload : List Byte
  two : Bool
  deriving DecidableEq, Repr

/-- What an instruction does at commit after step 1 (R33, R239, R336), with the values it read at issue. -/
inductive AtCommit where
  | syswr (sysn : Nat) (v : Word)
  | falloc (lane target nb block slot pos : Nat)
  | spawn (lane target nb block slot : Nat) (payload : DWord) (pos : Nat) (scope : Scope) (edge : Nat) (spill : Bool)
  | engine (c : EngCmd)
  | mxcfg (words : List Word)
  | bldq (quarters : List (Nat × BQuarter))
  | rowp (pkts : List RowPacket)
  | accz (tile : Nat)
  | accwb (tile addr stride flags : Nat)
  | accst (tile addr row flags pc : Nat)
  | iscfg (unit : Nat) (cfg reply : Word)
  | sacci (acc : Nat) (pairs : List (Word × Word))
  | saccf (acc caddr vaddr : Nat) (ctl : Word) (flags : Nat)
  | fchbind (ch : Nat) (cfg scale : Word)
  | mxseq (tile : Nat) (frame reply ctl : Word) (flags : Nat)
  | hbind (ch filter : Nat)
  | hbindRelease (ch : Nat)
  | hclr (mask : Nat)
  | tron (addr len : Nat)
  | troff
  | trmark (imm : Nat) (v : Word)
  | srseed (v : DWord)
  | gload (desc : List Word) (imm : Nat)
  | gunld (g imm : Nat)
  | launch (desc : List Word) (imm : Nat)
  | tgen (asid imm : Nat)
  | dirfl (desc : List Word) (imm : Nat)
  | preempt (g imm : Nat)
  | resume (g imm : Nat)
  | tret (action : Nat) (desc : List Word) (imm : Nat)
  | jrnl (code : Nat) (v : DWord)
  deriving DecidableEq, Repr

/-- What a warp took at issue and gives back at abort (R233, R269, R271, R241). -/
inductive Taken where
  | task
  | spill
  | engine (c : Charge)
  | infl (c : Charge)
  | credit (target rin n : Nat)
  | rowEngine
  deriving DecidableEq, Repr

/-- How far a warp has come: issuing, or in its commit with what is still to be sent (R33, R266). -/
inductive Phase where
  | issuing
  | stopped (code : Nat)
  | committing (rest : List AtCommit) (sends : List Emitted) (cid : Nat)
  deriving DecidableEq, Repr

/-- A resident warp (R29, R31, R141), with a number of its own; `edge` says that it stalls on a row credit or on the engine queue
(R329). -/
structure Warp where
  num : Nat
  graph : Nat
  block : Nat
  insts : List Inst
  v : Map Word
  k : Map Word
  p : Map Bool
  pc : Nat
  gran : Nat
  pouredAt : Nat
  ended : Bool
  loads : List PendLoad
  stores : List StoreSlot
  acts : List AtCommit
  emits : List Emitted
  offers : Map Nat
  taken : List Taken
  fences : List (Nat × Scope)
  stall : Option Nat
  edge : Bool
  spawnPos : Nat
  acqWait : List Nat
  stashWait : List Nat
  brk : Option Nat
  phase : Phase
  deriving DecidableEq, Repr

/-- A record of a ready instance in a carafe (R23, R265). -/
structure CarafeRec where
  frame : Nat
  entry : Nat
  iter : Nat
  age : Nat
  order : Nat
  deriving DecidableEq, Repr

/-- A carafe (R23, R24, R26): the binding, the records in age order, the end of the brew period while the timer
runs, whether it has expired, the end of the linger, since when it has held instances without a pour. -/
structure Carafe where
  graph : Nat
  block : Nat
  recs : List CarafeRec
  timer : Option Nat
  expired : Bool
  linger : Option Nat
  heldSince : Option Nat
  promoted : Bool
  deriving DecidableEq, Repr

/-! ### Core memories and engines -/

/-- A stash window (R203). -/
structure Window where
  vbase : Nat
  lines : Nat
  sofs : Nat
  wr : Bool
  asid : Nat
  deriving DecidableEq, Repr

/-- A stash line (R203): its address, data, per-word present mask and dirty flag; `wrote` is the mask of the bytes written since
it was last clean, `elems` of those that engine elements wrote (R137). -/
structure StashLine where
  asid : Nat
  line : Nat
  data : List Byte
  poison : List Nat
  present : Nat
  dirty : Bool
  wrote : Nat
  elems : Nat
  deriving DecidableEq, Repr

/-- An edge descriptor (R97): SCOPE, and the release word that its LIST and IDS bytes are. -/
structure Edge where
  scope : Nat
  list : RelWord
  deriving DecidableEq, Repr

/-- A task entry (R423), with the LIST byte and the region ids of the edge of its entry token. -/
structure TaskEntry where
  id : Nat
  payload : DWord
  parent : Nat
  parentSerial : DWord
  target : Nat
  block : Nat
  slot : Nat
  slotblk : Nat
  ordinal : Nat
  rel : Scope
  relWord : RelWord
  edge : Edge
  graph : Nat
  prio : Nat
  depth : Nat
  launch : Option Nat
  cid : Option Nat
  asked : Bool
  deriving DecidableEq, Repr

/-- An operand buffer (R272, R297). -/
structure OpBuf where
  first : Nat
  lines : Nat
  len : Nat
  data : List Byte
  poison : List Nat
  filled : Bool
  refill : Option Nat
  waitFor : List Nat
  deriving DecidableEq, Repr

/-- An entry of a row input (R233, R260): its packet, whether it has fired, its number, and the quarters whose pending
swap waits until it has fired again (R144). -/
structure RowEntry where
  pkt : RowPacket
  fired : Bool
  num : Nat
  old : List Nat
  deriving DecidableEq, Repr

/-- A row input (R233). -/
structure RowInput where
  src : Nat
  depth : Nat
  entries : List RowEntry
  deriving DecidableEq, Repr

/-- A partial in a reorder slot (R235). -/
structure Partial where
  tile : Nat
  arow : Nat
  seq : Nat
  vals : List (Option Word)
  isInt : Bool
  poison : Bool
  input : Nat
  num : Nat
  reserved : Bool
  deriving DecidableEq, Repr

/-- The drain state of a tile (R246). -/
structure Drain where
  count : Nat
  ends : Nat
  rows : Nat
  reply : Reply
  deriving DecidableEq, Repr

/-- An accumulator tile (R232, R235, R238): elements that are not +0, poisoned elements, expected sequences, drain
state, and whether a read-out holds it. -/
structure Tile where
  elems : Map Word
  poison : List Nat
  seqs : Map Nat
  drain : Option Drain
  reading : Bool
  deriving DecidableEq, Repr

/-- A grant of row credits at the source (R233). -/
structure Credit where
  target : Nat
  rin : Nat
  depth : Nat
  avail : Nat
  deriving DecidableEq, Repr

/-- One entry of an intersect unit's queue (R251, R253). -/
structure FibEntry where
  stop : Option Nat
  coord : Nat
  val : Val
  poisonC : Bool
  poisonV : Bool
  eid : Nat
  last : Bool
  deriving DecidableEq, Repr

/-- One side of an intersect unit: its queue, the last coordinate of the fibre, and the skip that a poisoned
coordinate started (R254, R258). -/
structure FibSide where
  queue : List FibEntry
  prev : Option Nat
  skipping : Bool
  deriving DecidableEq, Repr

/-- An intersect unit (R252, R254). -/
structure IsUnit where
  scale : Bool
  acc : Nat
  notify : Nat
  reply : Option Reply
  o : Nat
  sum : Val
  matched : Bool
  sumPoison : Bool
  a : FibSide
  b : FibSide
  popped : Nat
  fibPoison : Bool
  deriving DecidableEq, Repr

/-- A sparse accumulator (R251). -/
structure Sacc where
  base : Nat
  ents : Map Word
  poison : List Nat
  fibPoison : Bool
  deriving DecidableEq, Repr

/-- An insert on its way to a sparse accumulator (R251). -/
structure Insert where
  acc : Nat
  coord : Nat
  val : Val
  poison : Bool
  fibPoison : Bool
  deriving DecidableEq, Repr

/-- A notify token that waits for the inserts before it (R254). -/
structure Notify where
  after : Nat
  token : Token
  deriving DecidableEq, Repr

/-- The row engine of a core, with the sparse units (R144, R232 to R258). -/
structure RowEngine where
  owner : Option Nat
  resv : Option Nat
  waiters : List Nat
  inputs : List RowInput
  bq : Map BQuarter
  loading : Map BQuarter
  inPlace : List Nat
  tiles : Map Tile
  pool : List Partial
  rotate : Nat
  nextNum : Nat
  units : Map IsUnit
  saccs : Map Sacc
  inserts : List Insert
  notifies : List Notify
  chans : Map Chan
  deriving DecidableEq, Repr, Inhabited

/-- A histogram channel (R330); `added` is what was added in the cycle `addedAt`, which a clear in that cycle keeps (R335). -/
structure Hist where
  valid : Bool
  graph : Nat
  filter : Nat
  bins : Map Nat
  added : Map Nat
  addedAt : Nat
  deriving DecidableEq, Repr

/-- A word of a trace buffer: the graph that traces it, the word, and whether a packet begins with it (R277). -/
structure TraceWord where
  graph : Nat
  word : DWord
  first : Bool
  deriving DecidableEq, Repr

/-- The trace unit of a core (R277, R278). -/
structure Trace where
  buf : List TraceWord
  last : Nat
  since : Nat
  lost : Nat
  deriving DecidableEq, Repr

/-- Priority of a graph on a core (R26): its level and since when it has poured nothing while ready. -/
structure CorePrio where
  level : Nat
  since : Option Nat
  deriving DecidableEq, Repr

/-- A compute core (R190, R262). `landed` names the frame and the cycle of the last landing (R14), `poured` the cycle of
the last pour (R27), `passed` the SLOT and GRANULES counters whose conditions held before it (R329), `issuedAt` the cycle in which
each partition last issued (R30), `watched` the cycle in which a commit last evaluated a watch of each frame (R289). `represent` names
the frames whose deferred tokens are being presented again, and `presented` the log records that their passes have presented (R18);
`used` are the frame indices that have been handed out at any time (R36). Of the injection queues (R262), `memQueue` holds the numbers of
the memory requests in theirs, `rowQueued` says how many of the core's row packets are still in theirs. -/
structure Core where
  sramPart : Word
  pendingPart : Option Word
  syswrStatus : Word
  frames : Map Frame
  creations : List Creation
  logTop : Nat
  logFree : List Nat
  heldToken : Option Packet
  represent : List Nat
  presented : List Nat
  used : List Nat
  lastOwner : Map Nat
  ghosts : List (Nat × Frame)
  carafes : Map Carafe
  warps : Map Warp
  lastIssued : Map Nat
  prios : Map CorePrio
  inject : List Packet
  memQueue : List Nat
  rowQueued : Nat
  matchIn : List Packet
  tasks : List TaskEntry
  taskResv : Nat
  spillResv : Map Nat
  engines : Map EngCmd
  nextEng : Nat
  engResv : Nat
  opbufs : Map OpBuf
  windows : Map Window
  stash : Map StashLine
  row : RowEngine
  credits : List Credit
  grantWait : List Credit
  hists : Map Hist
  counters : Map Nat
  stalls : Map Nat
  trace : Trace
  order : Nat
  landed : Option (Nat × Nat)
  poured : Option Nat
  passed : List Nat
  watched : Map Nat
  issuedAt : Map Nat
  cyclesAt : Nat
  deriving DecidableEq, Repr

/-! ### Dies, caches and homes -/

/-- A cache line (R197): a home line (tags only, the data stands in memory) or a copy with its data. -/
structure Line where
  asid : Nat
  line : Nat
  region : Nat
  rgen : Nat
  stamp : Nat
  tgen : Nat
  home : Bool
  dirty : Bool
  data : List Byte
  poison : List Nat
  version : Nat
  used : Nat
  keep : Bool
  deriving DecidableEq, Repr

/-- A translation held by a home TLB (R319). -/
structure TlbEntry where
  asid : Nat
  vpn : Nat
  log2 : Nat
  tgen : Nat
  ident : Nat
  frame : Nat
  read : Bool
  write : Bool
  used : Nat
  deriving DecidableEq, Repr

/-- A page walk in flight (R207, R318), with the requests that it serves, its own first. -/
structure Walk where
  asid : Nat
  va : Nat
  tgen : Nat
  reqs : List Nat
  deriving DecidableEq, Repr

/-- A fault-queue entry (R207, R274, R360); `since` is the cycle at which its first request came. -/
structure FaultEntry where
  since : Nat
  asid : Nat
  va : Nat
  log2 : Nat
  code : Nat
  reqs : List Nat
  graphs : List Nat
  deriving DecidableEq, Repr

/-- An owner-directory entry (R320). -/
structure Owner where
  asid : Nat
  line : Nat
  owner : Nat
  inc : Nat
  version : Nat
  recalled : Bool
  granted : Nat
  deriving DecidableEq, Repr

/-- An ownership request or upgrade (R205, R367): `had` says whether the requester held a copy, `needed` is the mark
data needed. -/
structure OwnReq where
  die : Nat
  core : Nat
  asid : Nat
  line : Nat
  inc : Nat
  version : Nat
  had : Bool
  needed : Bool
  granted : Bool
  withData : Bool
  deriving DecidableEq, Repr

/-- A line recalled from a stash by its die directory (R204). -/
structure DieRecall where
  core : Nat
  asid : Nat
  line : Nat
  deriving DecidableEq, Repr

/-- Sweeps that run on a die: of a region's copies (R200), and of its remote-data cache (R202). -/
structure Sweep where
  asid : Nat
  region : Nat
  deriving DecidableEq, Repr

/-- States of a die (R148). -/
inductive DieState where
  | off | quarantined | attesting | active | draining | halted
  deriving DecidableEq, Repr

/-- A region-table entry (R312). -/
structure Region where
  base : Nat
  limit : Nat
  homeChip : Nat
  stack : Nat
  pinned : Bool
  kind : Nat
  valid : Bool
  reserved : Nat
  deriving DecidableEq, Repr

/-- A slot of a die's certificate table (R326): the chain, and its SHA-384 digest. -/
structure CertSlot where
  chain : List Byte
  digest : List Word
  deriving DecidableEq, Repr

/-- One of the nineteen dies (R2, R147, R197, R207, R324, R326, R333). `sess` says that its session with the root stands, and
`sessGen` how often that session's keys were updated (R389); of a base die `rdcGiB` is the size of the remote-data
cache that its stack gives, in GiB (R202); `owned` are the lines homed on other stacks whose ownership has been granted to the die and
has arrived, by their directory keys (R205, R367). Keys of views, generations and rounds are
asid × 256 + region. -/
structure Die where
  state : DieState
  incarnation : Nat
  resets : Nat
  attFail : Nat
  lastErr : Nat
  attTry : Nat
  attStep : Nat
  attAt : Nat
  roundView : Map Nat
  regionGen : Map Nat
  genBase : Map Nat
  lines : List Line
  rdc : List Line
  rdcBusy : List Sweep
  sweeps : List Sweep
  dieDir : Map Nat
  recalls : List DieRecall
  regTab : Map (List Region)
  tgens : Map Nat
  tlb : List TlbEntry
  walks : List Walk
  faultq : Map FaultEntry
  owners : List Owner
  owned : List Nat
  rounds : Map Nat
  streams : List (Nat × Nat)
  streamsOn : List (Nat × Nat)
  certs : List CertSlot
  measures : List Word
  newMeasures : List Word
  blocks : List (Nat × List Word)
  newBlocks : List (Nat × List Word)
  sess : Bool
  sessGen : Nat
  errors : Map Nat
  heldSince : Option Nat
  rdcGiB : Nat
  deriving DecidableEq, Repr

/-- A fill on its way to a die's cache (R198). -/
structure Fill where
  die : Nat
  line : Line
  hint : Hint
  toRdc : Bool
  deriving DecidableEq, Repr

/-- Writes of one instruction that end together: how many still stand, the token and the charges that then follow
(R249, R256). -/
structure Batch where
  left : Nat
  token : Option Token
  cid : Option Nat
  core : Nat
  charges : List Charge
  deriving DecidableEq, Repr

/-- A fill of a stash line (R203), with the loads and stores that wait for it, each counted on path S (R13): the warp, the
lane and the charge; `engine` is the command and the part for whose element it is made, `since` the cycle in which it began. -/
structure StashFillReq where
  index : Nat
  asid : Nat
  line : Nat
  graph : Nat
  waiters : List (Nat × Nat × Charge)
  fault : Option Nat
  engine : Option (Nat × Nat)
  since : Nat
  deriving DecidableEq, Repr

/-- A fault that a request met for which someone asks who holds no warp's load: its core, graph, address space and address
(R213, R376). -/
structure AskFault where
  core : Nat
  graph : Nat
  asid : Nat
  va : Nat
  code : Nat
  deriving DecidableEq, Repr

/-! ### Graphs, launches and address spaces -/

/-- A block header (R71, R72). -/
structure Header where
  len : Nat
  arity : Nat
  ibase : Nat
  fill : Nat
  brewE : Nat
  brewM : Nat
  gran : Nat
  wlog : Nat
  span : Nat
  prio : Nat
  free : Bool
  gate : Bool
  gpath : Nat
  gslot : Nat
  hch : Nat
  trace : Bool
  comb : Bool
  supv : Bool
  smask : Nat
  ccount : Nat
  maxEmit : Nat
  deriving DecidableEq, Repr

/-- A block of a loaded graph (R97, R308). -/
structure Block where
  hdr : Header
  edges : List Edge
  rects : List Nat
  code : List Nat
  deriving DecidableEq, Repr

/-- A rectangle (R91). -/
structure Rect where
  first : Nat
  last : Nat
  row0 : Nat
  col0 : Nat
  rows : Nat
  cols : Nat
  deriving DecidableEq, Repr

/-- States of a graph (R307). -/
inductive GraphState where
  | loading | loaded | preempted | unloading
  deriving DecidableEq, Repr

/-- The spawn spill ring of a graph on a core (R269, R270): the position of its oldest entry and its entries, each
with the request that still parks its write. -/
structure SpillRing where
  head : Nat
  ents : List (TaskEntry × Bool)
  deriving DecidableEq, Repr

/-- A loaded graph (R307, R309, R345, R96). `level` is the launch priority in effect (R26). `troffAt` is the cycle in which TROFF
ended its tracing (R343), `resumedAt` that of its last RESUME (R265), `privRegion` the region id of its private region. `saver` names the command whose pre-emption or unload of it is under way. -/
structure Graph where
  state : GraphState
  supv : Bool
  firmware : Bool
  identity : Nat
  asid : Nat
  privBase : Nat
  hwm : List Nat
  privRegion : Nat
  dlogBase : Nat
  dlogSeq : Nat
  traceRing : Nat
  tracing : Bool
  troffAt : Option Nat
  resumedAt : Option Nat
  launches : Nat
  round : Nat
  trap : Word
  seed : DWord
  width : Nat
  prio : Nat
  level : Nat
  entry : Nat
  consts : List Word
  blocks : List Block
  rects : List Rect
  refs : List (Nat × Nat)
  brk : Bool
  spills : Map SpillRing
  saved : Map RowEngine
  savedEng : Map (Map EngCmd)
  resumeWait : List Nat
  saver : Option Nat
  deriving DecidableEq, Repr

/-- An address-space entry (R311). -/
structure Space where
  regtab : Nat
  root : Nat
  tgen : Nat
  deriving DecidableEq, Repr

/-- A launch in flight (R9, R264, R345). -/
structure Launch where
  graph : Nat
  width : Nat
  key : DWord
  seedGiven : Bool
  round : Nat
  roundGiven : Bool
  prio : Nat
  next : Nat
  live : Nat
  queued : Bool
  delivering : Bool
  seq : Nat
  host : Bool
  reply : Option (Reply × Charge)
  hb : List Nat
  deriving DecidableEq, Repr

/-- A pending reply of a system instruction that waits for a happening (R337). -/
structure SysReply where
  asid : Nat
  dies : List Nat
  gen : Nat
  reply : Reply
  charge : Charge
  cid : Nat
  deriving DecidableEq, Repr

/-- What a GUNLD, a PREEMPT or a RESUME asks of the control die. -/
inductive ServiceOp where
  | gunld | preempt | resume
  deriving DecidableEq, Repr

/-- A GUNLD, a PREEMPT or a RESUME that the control die serves (R349, R353, R362): the graph, who asks, the core and the slot of the
warp, its commit, and the reply with its charge. -/
structure Service where
  op : ServiceOp
  graph : Nat
  asker : Nat
  core : Nat
  slot : Nat
  cid : Nat
  reply : Reply
  charge : Charge
  deriving DecidableEq, Repr

/-- Why a commit still holds something back (R33, R129, R132, R138). -/
structure HeldToken where
  pkt : Emitted
  scope : Scope
  src : Nat
  below : Option Nat
  deriving DecidableEq, Repr

/-- A commit whose writes or tokens are not all out (R33, R129, R132): core, graph, block, the requests of each
fence group with its scope, the group that may perform, the tokens it holds back, and the commits before it. -/
structure CommitRec where
  core : Nat
  graph : Nat
  ident : Nat
  asid : Nat
  group : Nat
  groups : List Scope
  later : List (Nat × Req)
  held : List HeldToken
  hb : List Nat
  launch : List Nat
  deriving DecidableEq, Repr

/-- A ROUNDA that waits for the views of its scope (R229). -/
structure RoundWait where
  req : Nat
  group : Nat
  asid : Nat
  region : Nat
  round : Nat
  dies : List Nat
  charge : Option Charge
  deriving DecidableEq, Repr

/-- A round on its way to a die's view (R229). -/
structure ViewMsg where
  die : Nat
  asid : Nat
  region : Nat
  round : Nat
  deriving DecidableEq, Repr

/-! ### Events, host, journal and fabric -/

/-- A fault record (R358); `src` is the core that reported it (R333). -/
structure FaultRec where
  addr : Nat
  aux : Nat
  fp : Nat
  iter : Nat
  block : Nat
  graph : Nat
  asid : Nat
  ident : Nat
  kind : Nat
  code : Nat
  serial : Nat
  die : Nat
  core : Nat
  entry : Nat
  src : Nat
  deriving DecidableEq, Repr

/-- The state of a host command (R375, R380). -/
inductive CmdState where
  | accepted | started | completed | discarded | failed
  deriving DecidableEq, Repr

/-- A host command in the device (R373, R375): `waits` names the commands it waits for; `ready` says that its effect
has been made and it may end; `step` how far a command of several steps has come. -/
structure Cmd where
  cmd : HostCommand
  session : Nat
  state : CmdState
  waits : List Nat
  ready : Bool
  fails : Bool
  cause : Nat
  result : DWord
  launch : Option Nat
  step : Nat
  deriving DecidableEq, Repr

/-- A journal record (R380). -/
structure JRec where
  tag : DWord
  result : DWord
  tEnd : Nat
  tStart : Nat
  tAccept : Nat
  seq : Nat
  asid : Nat
  cause : Nat
  state : CmdState
  queue : Nat
  kind : Nat
  command : Nat
  deriving DecidableEq, Repr

/-- A status message (R378). -/
structure Status where
  seq : Nat
  tag : DWord
  result : DWord
  queue : Nat
  state : Nat
  credits : Nat
  session : Nat
  deriving DecidableEq, Repr

/-- A host session (R372): its number, how far its SPDM exchange has come, and how often its keys were updated (R389). -/
structure Session where
  id : Nat
  step : Nat
  live : Bool
  keyGen : Nat
  credits : Map Nat
  deriving DecidableEq, Repr

/-- What the control die answers to a host's SPDM request (R389, R390): the session, whether the request is served, or
which ERROR answers it, the measurement blocks by their index, and what it carries; or what another die `by'` answers to the
root. -/
inductive SpdmCode where
  | served | versionMismatch | unsupportedRequest
  deriving DecidableEq, Repr

/-- The capabilities of R389. -/
inductive SpdmCap where
  | cert | chal | measSig | keyEx | encrypt | mac | keyUpd
  deriving DecidableEq, Repr

/-- The algorithms of R389. -/
inductive SpdmAlg where
  | ecdsaP384 | sha384Base | sha384Meas | secp384r1 | aes256Gcm | keySchedule
  deriving DecidableEq, Repr

/-- What an answer carries (R326, R389, R390): measurement blocks as their bytes. -/
inductive SpdmContent where
  | empty
  | version (v : Nat)
  | capabilities (l : List SpdmCap)
  | algorithms (l : List SpdmAlg)
  | digests (d : List Word)
  | certificate (c : List Byte)
  | measurements (bs : List (List Byte))
  deriving DecidableEq, Repr

structure SpdmReply where
  session : Nat
  code : SpdmCode
  blocks : List (Nat × List Word)
  content : SpdmContent
  by' : Nat
  deriving DecidableEq, Repr

/-- A phase of a calendar (R323): its length, and for each source the destination it is granted. -/
structure CalPhase where
  len : Nat
  grant : List (Option Nat)
  deriving DecidableEq, Repr

/-- An exchange calendar (R323, R387): its id, the phases not ended, those ended, the running phase's start, the
sources whose marker has come, the demand it was computed from, whether the standby is in charge, and in `base` what this chip's
DXCH had received as the running phase started. -/
structure Calendar where
  id : Nat
  phases : List CalPhase
  ended : Nat
  started : Option Nat
  markers : List Nat
  demand : List (List Nat)
  left : List (List Nat)
  standby : Bool
  used : List Nat
  unused : Nat
  base : List Nat
  deriving DecidableEq, Repr

/-- A grant of a phase in a port's grant queue (R279, R387): phase number, source and destination chip, units, calendar id, epoch. -/
structure Grant where
  phase : Nat
  src : Nat
  dst : Nat
  units : Nat
  cal : Nat
  epoch : Bool
  deriving DecidableEq, Repr

/-- An exchange group as a fabric die's barista holds it (R322, R323, R388); `down` says that the barista in charge, on this chip, has
failed. -/
structure Group where
  members : List Nat
  primary : Nat
  primaryDie : Nat
  standby : Nat
  standbyDie : Nat
  timeout : Nat
  nextCal : Nat
  posts : Map (List Nat)
  cals : List Calendar
  failed : Bool
  beat : Nat
  inCharge : Bool
  noticed : Bool
  issued : Nat
  waiters : List (Nat × Nat)
  grants : List Grant
  down : Bool
  deriving DecidableEq, Repr

/-- One direction of a boundary (R325, R393): key serials, counters and rollovers at both ends, and the rollover's step. -/
structure LinkDir where
  txIdx : Nat
  txKey : Nat
  txCount : Nat
  rxIdx : Nat
  rxKeys : Map Nat
  rxCounts : Map Nat
  drainPend : Bool
  rolls : Nat
  rxRolls : Nat
  step : Nat
  newKey : Nat
  stopped : Bool
  up : Bool
  deriving DecidableEq, Repr

/-- A token that crosses a boundary, with the boundary directions whose credits it holds (R266). -/
structure Crossing where
  pkt : Packet
  dirs : List Nat
  deriving DecidableEq, Repr

/-- The control die's own state (R358, R372 to R380, R394 to R396). `journal` holds the ring's records, `journalBad` the copies of
them whose CHECK fails: stack, 0 or 4, and slot; `mirrorFrom` is the oldest number that its SRAM mirrors, if it is among the newest
4,096 and not in `mirrorLost`, which holds those that the ring had lost when the mirror was rebuilt from it (R371, R379).
`trained` says that a fabric port has trained since power-on or a package reset (R394). `freeRounds` holds GRAPH.ROUND of ids that no graph has. `junction` is the hottest junction last sampled, in °C;
`signed` says whether the stored firmware's signature is good (DESIGN CHOICE, assumption 105). -/
structure Control where
  powered : Bool
  ready : Bool
  seq : Nat
  recSerial : Nat
  recQueue : List FaultRec
  openRecs : List FaultRec
  queues : Map (List Nat)
  queuePrio : Map Nat
  cmds : Map Cmd
  binds : Map Nat
  bindLost : List Nat
  sessions : List Session
  statusOut : List Status
  statusHeld : List Status
  journal : Map JRec
  journalBad : List (Nat × Nat)
  mirrorFrom : Nat
  mirrorLost : List Nat
  reads : List (List Byte)
  spdmOut : List SpdmReply
  hostData : List (Nat × List Byte)
  launchQ : List Nat
  launchWait : List Nat
  launches : Map Launch
  nextLaunch : Nat
  turn : Nat
  paused : Bool
  mgmtBeat : Nat
  samples : List (Nat × Nat)
  junction : Nat
  signed : Bool
  withheld : Nat
  hot : Bool
  chipSet : Bool
  trained : Bool
  freeRounds : Map Nat
  deriving DecidableEq, Repr

/-- What the schedule names next: a warp's issue, or a device step (R14 to R33, spec/95). -/
inductive Act where
  | issue (core slot : Nat)
  | happen (i : Instr)
  deriving DecidableEq, Repr

/-- One entry of the schedule: the cycles that pass, then what acts. -/
structure Item where
  wait : Nat
  act : Act
  deriving DecidableEq, Repr

/-- The whole package. `eventAt` names, for a register that SYSWR writes, the cycle after the one in which an event last changed
it (R146). `poison` lists poisoned bytes; in the stacks of `lost` every byte is poisoned but those of `covered`. -/
structure State where
  agenda : List Item
  now : Nat
  cur : Option (Nat × Nat)
  next : Nat
  cores : Map Core
  dies : Map Die
  graphs : Map Graph
  spaces : Map Space
  mem : List Host.Cell
  poison : List Nat
  versions : Map Nat
  lost : List Nat
  covered : List Nat
  full : Map Nat
  reqs : Map Req
  fills : List Fill
  stashFills : List (Nat × StashFillReq)
  asksFailed : List AskFault
  splits : Map Split
  batches : Map Batch
  owns : List OwnReq
  commits : Map CommitRec
  decrs : List Charge
  retires : List (Nat × DWord × Nat)
  crossings : List Crossing
  credits : Map Nat
  rowPkts : List RowPacket
  rowReturns : List (Nat × Nat × Nat × Nat)
  views : List ViewMsg
  roundWaits : List RoundWait
  sysReplies : List SysReply
  services : List Service
  links : Map LinkDir
  keySerial : Nat
  ports : Map Bool
  reachable : List Nat
  chipId : Nat
  domainKeys : Map (BitVec 256)
  sendKey : Nat
  portCount : Map Nat
  fabricOut : List FabricPacket
  fabricSent : List WirePacket
  exchange : Map Group
  powerCap : Nat
  drainLimit : Nat
  debugHold : List Nat
  eventAt : Map Nat
  control : Control
  deriving DecidableEq, Repr

/-! ### Reset -/

/-- No release word. -/
def RelWord.none : RelWord := ⟨0, 0⟩

/-- The release word of every region: LIST with ALL and its declared bit set (R97). -/
def RelWord.every : RelWord := ⟨0x88, 0⟩

/-- Whether a release word names every region: bit 3 of LIST (R97). -/
def RelWord.all (r : RelWord) : Bool := r.byte / 8 % 2 == 1

/-- The regions that a release word lists: as many IDS bytes as LIST counts, at most four (R97). -/
def RelWord.ids (r : RelWord) : List Nat := (List.range (min 4 (r.byte % 8))).map (fun i => r.idBytes / 2 ^ (8 * i) % 256)

/-- f16, not block-scaled, scale 1.0 (R117, R321). -/
def Chan.reset : Chan := ⟨.f16, false, 0x3F800000⟩

/-- A zero buffer under ch0 as it stands at core reset (R144). -/
def BQuarter.reset : BQuarter := ⟨[], Chan.reset, []⟩

def FibSide.reset : FibSide := ⟨[], none, false⟩

/-- Intersect mode, target 0, notify level 0, o = 0, empty queues (R252). -/
def IsUnit.reset : IsUnit :=
  ⟨false, 0, 0, none, 0, .zero false, false, false, FibSide.reset, FibSide.reset, 0, false⟩

def Sacc.reset : Sacc := ⟨0, [], [], false⟩

/-- All elements +0, all sequences 0, no drain state (R190, R235, R246). -/
def Tile.reset : Tile := ⟨[], [], [], none, false⟩

/-- Eight inputs of depth 0, no owner, tiles zero (R144, R190, R233). -/
def RowEngine.reset : RowEngine :=
  ⟨none, none, [], List.replicate 8 ⟨0, 0, []⟩, [], [], [], [], [], 0, 0, [], [], [], [], []⟩

def Hist.reset : Hist := ⟨false, 0, 0, [], [], 0⟩

def Carafe.free : Carafe := ⟨0, 0, [], none, false, none, none, false⟩

/-- A core right after reset (R147, R190, R262). -/
def Core.reset : Core :=
  { sramPart := 0x040C1010, pendingPart := none, syswrStatus := 0, frames := [], creations := [], logTop := 0,
    logFree := [], heldToken := none, represent := [], presented := [], used := [], lastOwner := [], ghosts := [], carafes := [], warps := [], lastIssued := [], prios := [], inject := [], memQueue := [], rowQueued := 0,
    matchIn := [], tasks := [], taskResv := 0, spillResv := [], engines := [], nextEng := 0, engResv := 0,
    opbufs := [], windows := [], stash := [], row := RowEngine.reset, credits := [], grantWait := [], hists := [],
    counters := [], stalls := [], trace := ⟨[], 0, 0, 0⟩, order := 0, landed := none, poured := none, passed := [], watched := [], issuedAt := [], cyclesAt := 0 }

/-- A die right after power-on: OFF, every counter 0, every store empty (R147, R324). -/
def Die.reset : Die :=
  { state := .off, incarnation := 0, resets := 0, attFail := 0, lastErr := 0, attTry := 0, attStep := 0, attAt := 0,
    roundView := [], regionGen := [], genBase := [], lines := [], rdc := [], rdcBusy := [], sweeps := [],
    dieDir := [], recalls := [], regTab := [], tgens := [], tlb := [], walks := [], faultq := [], owners := [], owned := [],
    rounds := [], streams := [], streamsOn := [], certs := List.replicate 8 ⟨[], []⟩, measures := [], newMeasures := [], blocks := [], newBlocks := [],
    sess := false, sessGen := 0, errors := [], heldSince := none, rdcGiB := 4 }

def LinkDir.reset : LinkDir := ⟨0, 0, 0, 0, [], [], false, 0, 0, 0, 0, false, false⟩

/-- The control die before bring-up (R394): no sessions, empty queues, sequence counter 1 (R334). -/
def Control.reset : Control :=
  { powered := false, ready := false, seq := 1, recSerial := 0, recQueue := [], openRecs := [], queues := [],
    queuePrio := [], cmds := [], binds := [], bindLost := [], sessions := [], statusOut := [], statusHeld := [],
    journal := [], journalBad := [], mirrorFrom := 1, mirrorLost := [], reads := [], spdmOut := [], hostData := [], launchQ := [], launchWait := [], launches := [],
    nextLaunch := 0, turn := 0, paused := false, mgmtBeat := 0, samples := [], junction := 0, signed := true, withheld := 0, hot := false,
    chipSet := false, trained := false, freeRounds := [] }

/-- The package right after reset, before the bring-up of R394: nothing loaded, every die OFF, nothing scheduled. -/
def State.reset : State :=
  { agenda := [], now := 0, cur := none, next := 1, cores := [], dies := [], graphs := [], spaces := [], mem := [],
    poison := [], versions := [], lost := [], covered := [], full := [], reqs := [], fills := [], stashFills := [], asksFailed := [], splits := [], batches := [], owns := [],
    commits := [], decrs := [], retires := [], crossings := [], credits := [], rowPkts := [], rowReturns := [],
    views := [], roundWaits := [], sysReplies := [], services := [], links := [], keySerial := 0, ports := [], reachable := [],
    chipId := 0, domainKeys := [], sendKey := 0, portCount := [], fabricOut := [], fabricSent := [], exchange := [],
    powerCap := 3800, drainLimit := 1000, debugHold := [], eventAt := [], control := Control.reset }

end Sys2Proof.Machine
end

