-- ==== Sys2Proof/Machine/Operands.lean ====
section
/-! DEFINITION. The parts of the state by their numbers, and the operand selectors: what each reads and writes for
a lane (R52 to R54, R143, R170). -/
namespace Sys2Proof.Machine

/-! ### Parts of the state -/

/-- Core c (die × 64 + core); a core that nothing has touched is as at reset. -/
def State.core (s : State) (c : Nat) : Core := Map.getD s.cores c Core.reset

def State.setCore (s : State) (c : Nat) (k : Core) : State := { s with cores := Map.put s.cores c k }

/-- Die d (R2). -/
def State.die (s : State) (d : Nat) : Die := Map.getD s.dies d Die.reset

def State.setDie (s : State) (d : Nat) (x : Die) : State := { s with dies := Map.put s.dies d x }

/-- A loaded graph. -/
def State.graph? (s : State) (g : Nat) : Option Graph := Map.find? s.graphs g

def State.setGraph (s : State) (g : Nat) (x : Graph) : State := { s with graphs := Map.put s.graphs g x }

def State.warp? (s : State) (c k : Nat) : Option Warp := Map.find? (s.core c).warps k

def State.setWarp (s : State) (c k : Nat) (w : Warp) : State :=
  s.setCore c { s.core c with warps := Map.put (s.core c).warps k w }

def State.frame? (s : State) (c i : Nat) : Option Frame := Map.find? (s.core c).frames i

def State.setFrame (s : State) (c i : Nat) (f : Frame) : State :=
  s.setCore c { s.core c with frames := Map.put (s.core c).frames i f }

/-- A block of a loaded graph. -/
def State.block? (s : State) (g b : Nat) : Option Block :=
  match s.graph? g with
  | none => none
  | some x => x.blocks[b]?

/-- Frame pointer of frame index i on core c (R11, R164). -/
def fpOf (c i : Nat) : Nat := c * 2 ^ 23 + i * 2 ^ 9

/-- The core that a frame pointer names: die × 64 + core. -/
def fpCore (fp : Nat) : Nat := bits fp 23 9

/-- The frame index that a frame pointer names. -/
def fpIndex (fp : Nat) : Nat := bits fp 9 14

/-- Lanes below wpop (R29). -/
def Warp.lanes (w : Warp) : List Nat := List.range w.insts.length

/-- The number of poured lanes (R25). -/
def Warp.wpop (w : Warp) : Nat := w.insts.length

/-- Lane register n of a lane; 0 since pour until written (R29). -/
def Warp.reg (w : Warp) (lane n : Nat) : Nat := (Map.getD w.v (lane * 64 + n) 0).toNat

/-- Predicate n of a lane; p7 reads 1 (R29, R53). -/
def Warp.pred (w : Warp) (lane n : Nat) : Bool := n == 7 || Map.getD w.p (lane * 8 + n) false

/-- Uniform register n. -/
def Warp.uni (w : Warp) (n : Nat) : Nat := (Map.getD w.k n 0).toNat

/-- Whether a lane's guard is true (R52). -/
def Warp.guard (w : Warp) (g : Guard) (lane : Nat) : Bool := w.pred lane g.pred != g.neg

/-- The lanes below wpop whose guard is true (R165). -/
def Warp.active (w : Warp) (g : Guard) : List Nat := w.lanes.filter (w.guard g)

/-- n words from consecutive registers, the first lowest. -/
def readWords (f : Nat → Nat) : Nat → Nat → Nat
  | 0, _ => 0
  | n + 1, i => f i % 2 ^ 32 + 2 ^ 32 * readWords f n (i + 1)

/-- A slot of the lane's own frame; beyond its own slots it reads 0 (R54). -/
def frameSlot (fr : Map Frame) (w : Warp) (lane n : Nat) : Nat :=
  match w.insts[lane]? with
  | none => 0
  | some i =>
    match Map.find? fr i.frame with
    | none => 0
    | some f => (Map.getD f.slots n 0).toNat

/-- What n words of an operand read in a lane (R53, R54). -/
def readSel (c : Nat) (fr : Map Frame) (w : Warp) (lane n : Nat) : Sel → Nat
  | .v r => readWords (w.reg lane) n r
  | .k r => readWords w.uni n r
  | .f r => readWords (frameSlot fr w lane) n r
  | .zero => 0
  | .lane => lane
  | .fp => match w.insts[lane]? with | none => 0 | some i => fpOf c i.frame
  | .iter => match w.insts[lane]? with | none => 0 | some i => i.iter
  | .act => match w.insts[lane]? with | none => 0 | some i => i.serial.toNat % 2 ^ (32 * n)
  | .wpop => w.wpop
  | .p r => b2n (w.pred lane r)

/-- n words written to consecutive lane registers of a lane. -/
def Warp.setRegs (w : Warp) (lane r : Nat) : Nat → Nat → Warp
  | 0, _ => w
  | n + 1, x => Warp.setRegs { w with v := Map.putD 0 w.v (lane * 64 + r) (BitVec.ofNat 32 x) } lane (r + 1) n (x / 2 ^ 32)

/-- n words written to consecutive uniform registers. -/
def Warp.setUni (w : Warp) (r : Nat) : Nat → Nat → Warp
  | 0, _ => w
  | n + 1, x => Warp.setUni { w with k := Map.putD 0 w.k r (BitVec.ofNat 32 x) } (r + 1) n (x / 2 ^ 32)

/-- A predicate p0 to p6 of a lane written; p7 is never written (R53). -/
def Warp.setPred (w : Warp) (lane r : Nat) (b : Bool) : Warp :=
  if r < 7 then { w with p := Map.putD false w.p (lane * 8 + r) b } else w

/-- A result of n words written by lanes: each to its own register or predicate, the lowest lane's to a uniform
register, nowhere for zero (R54, R143). `lanes` are the lanes that write, ascending. -/
def Warp.write (w : Warp) (lanes : List Nat) (d : Sel) (n : Nat) (f : Nat → Nat) : Warp :=
  match d with
  | .v r => lanes.foldl (fun a l => a.setRegs l r n (f l)) w
  | .p r => lanes.foldl (fun a l => a.setPred l r (f l != 0)) w
  | .k r =>
    match lanes with
    | [] => w
    | l :: _ => if 16 ≤ r then w.setUni r n (f l) else w
  | .zero | .lane | .fp | .iter | .act | .wpop | .f _ => w

/-- The launch of a lane's activation. -/
def State.launchOf (s : State) (c : Nat) (w : Warp) (lane : Nat) : Option Launch :=
  match w.insts[lane]? with
  | none => none
  | some i =>
    match s.frame? c i.frame with
    | none => none
    | some f =>
      match f.launch with
      | none => none
      | some l => Map.find? s.control.launches l

/-- What one instruction of a warp sees: its core, the core's frames, the warp, and for each lane the key and the
default rounding mode in effect for its activation's launch. -/
structure View where
  c : Nat
  fr : Map Frame
  w : Warp
  key : Nat → DWord
  dflt : Nat → Nat

/-- n words of an operand in a lane. -/
def View.rd (x : View) (lane n : Nat) (o : Sel) : Nat := readSel x.c x.fr x.w lane n o

/-- The key of a lane's draws: its launch's, or its graph's default seed where no launch made it (R109, R345; DESIGN CHOICE, assumption 104). -/
def State.laneKey (s : State) (c : Nat) (w : Warp) (lane : Nat) : DWord :=
  match s.launchOf c w lane with
  | some l => l.key
  | none => match s.graph? w.graph with | some g => g.seed | none => 0

/-- The default rounding mode of a lane: its launch's, or its graph's (R107, R149; DESIGN CHOICE, assumption 104). -/
def State.laneRound (s : State) (c : Nat) (w : Warp) (lane : Nat) : Nat :=
  match s.launchOf c w lane with
  | some l => l.round
  | none => match s.graph? w.graph with | some g => g.round | none => 0

/-- What the warp of core c sees. -/
def State.view (s : State) (c : Nat) (w : Warp) : View :=
  { c := c, fr := (s.core c).frames, w := w, key := s.laneKey c w, dflt := s.laneRound c w }

/-- The 32 draw bits of draw number n, taken from a lane's serial and iteration (R108, R109). -/
def View.draw (x : View) (lane n : Nat) : Nat :=
  match x.w.insts[lane]? with
  | none => 0
  | some i => grind (x.key lane) i.serial x.w.block x.w.pc i.iter n

/-- The rounding mode of an instruction in a lane, dyn resolved (R107). -/
def View.mode (x : View) (lane : Nat) (r : Rnd) : Rnd := r.resolve (x.dflt lane)

end Sys2Proof.Machine
end

