-- ==== Sys2Proof/Machine/Lanes.lean ====
section
/-! DEFINITION. How an instruction that acts on the warp's own registers takes its step: per lane, per warp, and the
histogram offers of floating results (R142, R151, R165, R174). -/
namespace Sys2Proof.Machine

/-- The next word of a warp: from its block's code (R308); none past its end. -/
def State.fetch (s : State) (w : Warp) : Option Nat :=
  match s.block? w.graph w.block with
  | none => none
  | some b => b.code[w.pc]?

/-- Whether a warp's last instruction has issued and its synchronous loads have returned (R33). -/
def State.issuedAll (s : State) (w : Warp) : Bool :=
  (w.ended || (match s.block? w.graph w.block with | some b => decide (b.code.length ≤ w.pc) | none => true)) && w.loads.isEmpty

/-- The lane registers that an operand covers. -/
def selRegs (o : Sel) (n : Nat) : List Nat :=
  match o with
  | .v r => (List.range n).map (fun i => r + i)
  | _ => []

/-- Words that an operand covers at most, by its role. -/
def roleWords : Role → Nat
  | .src n | .reg n | .dst n | .dstLane n | .dstK n | .dstLoad n => n
  | .val | .evenPair => 2
  | .quad => 4
  | .octet => 8
  | .pred | .carry | .dstPred | .desc | .targets | .kbase _ | .unused => 1

/-- The lane registers that an instruction reads or writes. -/
def instrRegs (i : Instr) : List Nat :=
  ((i.form ⟨4, 4096, [], true⟩).ops).flatMap (fun p => selRegs p.2 (roleWords p.1))

/-- The frame slots that an instruction reads (R54). -/
def instrSlots (i : Instr) : List Nat :=
  ((i.form ⟨4, 4096, [], true⟩).ops).flatMap (fun p =>
    match p.1, p.2 with
    | .dstLoad _, _ => []
    | r, .f n => (List.range (roleWords r)).map (fun k => n + k)
    | _, _ => [])

/-- A per-core counter of R333 raised by n: 64-bit performance counters wrap, error counters saturate. -/
def Core.count (k : Core) (sysn index n : Nat) : Core :=
  let key := sysn * 4096 + index
  let v := Map.getD k.counters key 0
  { k with counters := Map.put k.counters key (if ctrWide sysn then (v + n) % 2 ^ 64 else satAdd (2 ^ 32 - 1) v n) }

def State.count (s : State) (c sysn index n : Nat) : State := s.setCore c ((s.core c).count sysn index n)

/-- The partition of a warp slot: 16 slots each (R3). -/
def slotPartition (k : Nat) : Nat := k / Config.slotsPerPartition

/-- An instruction has issued: the warp goes to the next word, the issue is counted (R333), any stall ends, and the
partition remembers the warp and the cycle (R30). -/
def State.issued (s : State) (c k : Nat) (w : Warp) : State :=
  let s1 := s.setWarp c k { w with pc := w.pc + 1, stall := none, edge := false }
  let q := s1.core c
  (s1.setCore c { q with
    lastIssued := Map.put q.lastIssued (slotPartition k) k, issuedAt := Map.put q.issuedAt (slotPartition k) s.now }).count c 0x022 0 1

/-- The warp waits at this instruction on a synchronous resource (R34), or goes on waiting; `edge` says that it waits on a row
credit or on the engine queue (R329). -/
def State.stalledOn (s : State) (c k : Nat) (w : Warp) (edge : Bool) : State :=
  s.setWarp c k { w with stall := some (w.stall.getD s.now), edge := edge }

/-- The warp waits at this instruction on another resource. -/
def State.stalled (s : State) (c k : Nat) (w : Warp) : State := s.stalledOn c k w false

/-- The warp in turn, for an instruction that needs the whole state. -/
def withWarp (s : State) (f : Nat → Nat → Warp → Host.Outcome State Fault Refusal) :
    Host.Outcome State Fault Refusal :=
  match s.cur with
  | none => .fault .noWarp
  | some (c, k) =>
    match s.warp? c k with
    | none => .fault .noWarp
    | some w => f c k w

/-- An instruction that changes only its warp's registers (R142): it acts at issue and issue goes on. -/
def warpStep (s : State) (f : View → Warp) : Host.Outcome State Fault Refusal :=
  withWarp s (fun c k w => .next (s.issued c k (f (s.view c w))))

/-- Every active lane writes n words of its own value (R151). -/
def laneStep (s : State) (g : Guard) (d : Sel) (n : Nat) (f : View → Nat → Nat) : Host.Outcome State Fault Refusal :=
  warpStep s (fun x => x.w.write (x.w.active g) d n (f x))

/-- Offers of floating elements written to a lane register (R174). -/
def Warp.offer (w : Warp) (d : Sel) (vals : List Val) : Warp :=
  match d with
  | .v _ => { w with offers := vals.foldl (fun m v => Map.put m (offerKey v) (Map.getD m (offerKey v) 0 + 1)) w.offers }
  | .k _ | .zero | .lane | .fp | .iter | .act | .wpop | .p _ | .f _ => w

/-- Active lanes write one word each, made of elements of a floating type: the encodings, lowest first (R170, R174). -/
def floatStep (s : State) (g : Guard) (d : Sel) (t : Ty) (f : View → Nat → List Nat) :
    Host.Outcome State Fault Refusal :=
  warpStep s (fun x =>
    let ls := x.w.active g
    let w1 := x.w.write ls d 1 (fun l => ((f x l).zipIdx).foldl (fun a p => a + p.1 * 2 ^ (t.width * p.2)) 0)
    w1.offer d (ls.flatMap (fun l => (f x l).map (decodeF t))))

end Sys2Proof.Machine
end

