-- ==== Sys2Proof/Machine/Mem.lean ====
section
/-! DEFINITION. Memory: cells and their canonical form, homes, regions, translation, die-cache copies, generations
and rounds (R195 to R208, R310 to R319). -/
namespace Sys2Proof.Machine

/-! ### Cells -/

/-- What an address holds; an unlisted one reads as Config.emptyByte. -/
def memRead (m : List Host.Cell) (a : Nat) : Byte := Map.getD m a Config.emptyByte

/-- One byte written, the canonical form kept. -/
def memWrite (m : List Host.Cell) (a : Nat) (b : Byte) : List Host.Cell := Map.putD Config.emptyByte m a b

/-- n consecutive bytes. -/
def memReads (m : List Host.Cell) (a : Nat) : Nat → List Byte
  | 0 => []
  | n + 1 => memRead m a :: memReads m (a + 1) n

/-- Consecutive bytes written. -/
def memWrites (m : List Host.Cell) (a : Nat) : List Byte → List Host.Cell
  | [] => m
  | b :: t => memWrites (memWrite m a b) (a + 1) t

/-- The canonical form of memory: addresses strictly rising, nothing listed that reads as the empty byte. -/
def Memory.wf (m : List Host.Cell) : Bool := Map.wf m && m.all (fun c => c.2 != Config.emptyByte)

/-- A little-endian number of n bytes (R6). -/
def memNat (m : List Host.Cell) (a n : Nat) : Nat := ofBytes (memReads m a n)

/-! ### Homes (R195, R196) -/

/-- xor of n fields of `w` bits of va, from bit lo upward. -/
def foldXor (va lo w : Nat) : Nat → Nat
  | 0 => 0
  | n + 1 => foldXor va lo w n ^^^ bits va (lo + w * n) w

/-- The home stack of a striped address (R195). -/
def stripeStack (va : Nat) : Nat := foldXor (va % 2 ^ 56) 12 3 15

/-- slice_of (R195). -/
def sliceOf (va : Nat) : Nat := foldXor (va % 2 ^ 56) 7 4 13

/-- The 128-byte line of an address: VA[55:7] (R197). -/
def lineOf (va : Nat) : Nat := va % 2 ^ 56 / 128

def Region.empty : Region := ⟨0, 0, 0, 0, false, 0, false, 0⟩

/-- A region-table entry from its 16 bytes (R312). -/
def Region.parse (w : Nat) : Region :=
  ⟨bits w 84 44, bits w 40 44, bits w 28 12, bits w 25 3, bitOf w 24, bits w 22 2, bitOf w 21, bits w 0 21⟩

/-- The lowest entry from index q on that holds a granule; 0 when none does (R313). -/
def regionFrom (granule : Nat) : List Region → Nat → Nat
  | [], _ => 0
  | r :: t, q => if r.valid && r.base ≤ granule && granule ≤ r.limit then q else regionFrom granule t (q + 1)

/-- region_of of R313. -/
def regionOf (tab : List Region) (va : Nat) : Nat := regionFrom (va % 2 ^ 56 / 4096) (tab.drop 1) 1

/-- The region table of an address space as a die has taken it up (R314). -/
def State.regTab (s : State) (d asid : Nat) : List Region := Map.getD (s.die d).regTab asid []

/-- The region of an address on a die: its number and entry. -/
def State.region (s : State) (d asid va : Nat) : Nat × Region :=
  let tab := s.regTab d asid
  let q := regionOf tab va
  (q, nthD Region.empty tab q)

/-- The home of an address as a die classifies it: chip and stack (R195). -/
def State.homeOf (s : State) (d asid va : Nat) : Nat × Nat :=
  let r := (s.region d asid va).2
  (r.homeChip, if r.pinned then r.stack else stripeStack va)

/-- The compute die of a core. -/
def dieOf (c : Nat) : Nat := c / 64

/-- The path of an access of core c (R196). -/
def State.pathOf (s : State) (c asid va : Nat) : Path :=
  let h := s.homeOf (dieOf c) asid va
  if h.1 = s.chipId && h.2 = dieOf c then .l else .f

/-- The parts of a byte range, one for each line. -/
def lineRun (va n : Nat) : Nat → Nat → List (Nat × Nat × Nat)
  | 0, _ => []
  | f + 1, ofs =>
    if n ≤ ofs then []
    else
      let a := (va + ofs) % 2 ^ 56
      let k := min (n - ofs) (128 - a % 128)
      (ofs, a, k) :: lineRun va n f (ofs + k)

/-! ### Page tables (R316 to R318) -/

/-- A valid leaf as a walk finds it. -/
structure Leaf where
  log2 : Nat
  ident : Nat
  frame : Nat
  read : Bool
  write : Bool
  deriving DecidableEq, Repr

/-- Bytes of remote-data cache that a stack gives (R202). -/
def State.rdcBytes (s : State) (stack : Nat) : Nat := (s.die (8 + stack)).rdcGiB * 2 ^ 30

/-- Bytes carved at the top of a stack (R202, R206, R207, R379, R310). -/
def State.carved (s : State) (stack : Nat) : Nat :=
  s.rdcBytes stack + 64 * 2 ^ 20 + 256 * 2 ^ 20 + (if stack % 4 = 0 then 256 * 2 ^ 20 else 0)

/-- Whether a stack-local byte range reaches into bytes carved at the stack's top (R310). -/
def hitsCarved (cv lo len : Nat) : Bool := decide (2 ^ 36 - cv < lo + len)

/-- VA bits that index a level and the entries' page size if a leaf stands there (R316). -/
def levelIndex (level va : Nat) : Nat :=
  match level with
  | 0 => bits va 48 8
  | 1 => bits va 39 9
  | 2 => bits va 30 9
  | 3 => bits va 21 9
  | _ => bits va 16 5

def levelLog (level : Nat) : Nat :=
  match level with
  | 2 => 30
  | 3 => 21
  | 4 => 16
  | _ => 0

/-- The table size in bytes at a level. -/
def levelSize (level : Nat) : Nat :=
  match level with
  | 0 => 2048
  | 4 => 256
  | _ => 4096

/-- A leaf entry's fields, if it is well formed at its level. -/
def leafOf (level w : Nat) : Option Leaf :=
  if level < 2 || bits w 36 12 != 0 || bits w 5 8 != 0 || bitOf w 2 then none
  else some ⟨levelLog level, bits w 48 16, bits w 13 23, bitOf w 3, bitOf w 4⟩

/-- The walk from a level's table (R316), with the bytes carved from each stack. Each word is read as it stands in memory. -/
def walkFrom (m : List Host.Cell) (cv : Nat → Nat) (va table : Nat) : Nat → Nat → Option Leaf
  | 0, _ => none
  | fuel + 1, level =>
    if hitsCarved (cv (table / 2 ^ 36)) (table % 2 ^ 36) (levelSize level) then none
    else
      let w := memNat m (table + 8 * levelIndex level va) 8
      if !bitOf w 0 then none
      else if bitOf w 1 then leafOf level w
      else if level == 4 || bits w 39 25 != 0 || bits w 2 6 != 0 then none
      else walkFrom m cv va (bits w 8 31 * 256) fuel (level + 1)

/-- translate of R317: the stack-local byte address. -/
def localAddr (va : Nat) (l : Leaf) (pinned : Bool) : Nat :=
  let f := l.frame * 2 ^ 13
  if pinned then f / 2 ^ l.log2 * 2 ^ l.log2 + bits va 0 l.log2
  else f / 2 ^ (l.log2 - 3) * 2 ^ (l.log2 - 3) + bits va 15 (l.log2 - 15) * 4096 + bits va 0 12

/-- The current translation generation of an address space on a die (R311, R314). -/
def State.tgenOf (s : State) (d asid : Nat) : Nat := Map.getD (s.die d).tgens asid 0

/-- A TLB hit: the entry of the page with the current generation (R319). -/
def State.tlbHit (s : State) (d asid va : Nat) : Option TlbEntry :=
  (s.die d).tlb.find? (fun e => e.asid == asid && e.vpn == va % 2 ^ 56 / 2 ^ e.log2 && e.tgen == s.tgenOf d asid)

def TlbEntry.leaf (e : TlbEntry) : Leaf := ⟨e.log2, e.ident, e.frame, e.read, e.write⟩

/-- The first and last stack-local bytes of a leaf's page, or of its share on a stack (R317): base and length. -/
def Leaf.extent (l : Leaf) (pinned : Bool) : Nat × Nat :=
  let n := if pinned then l.log2 else l.log2 - 3
  (l.frame * 2 ^ 13 / 2 ^ n * 2 ^ n, 2 ^ n)

/-- The walk of an address space for an address, from its root (R316). -/
def State.walk (s : State) (asid va : Nat) : Option Leaf :=
  match Map.find? s.spaces asid with
  | none => none
  | some sp =>
    walkFrom s.mem s.carved (va % 2 ^ 56) sp.root 5 0

/-- The physical address (R310) of an address under a leaf. -/
def State.physOf (s : State) (d asid va : Nat) (l : Leaf) : Nat :=
  (s.homeOf d asid va).2 * 2 ^ 36 + localAddr va l (s.region d asid va).2.pinned

/-! ### Generations, views and acquires (R124, R134, R200, R201) -/

def regionKey (asid q : Nat) : Nat := asid * 256 + q

/-- DIE.REGION_GEN of a region: the offset of the region plus the raises over every region. -/
def Die.gen (d : Die) (asid q : Nat) : Nat :=
  (Map.getD d.regionGen (regionKey asid q) 0 + Map.getD d.genBase asid 0) % 16

/-- DIE.ROUND_VIEW of a region. -/
def Die.view (d : Die) (asid q : Nat) : Nat := Map.getD d.roundView (regionKey asid q) 0

/-- Whether round n is ahead of round v modulo 2^32 (R328: rises only). -/
def ahead (n v : Nat) : Bool := let k := (n + 2 ^ 32 - v % 2 ^ 32) % 2 ^ 32; decide (0 < k) && decide (k < 2 ^ 31)

/-- The copies of a region whose lag a passing view sweeps (R201). -/
def keepLag (asid q view : Nat) (l : Line) : Bool :=
  l.home || l.asid != asid || l.region != q || decide ((view + 256 - l.stamp % 256) % 256 ≤ 15)

/-- A round reaches a die's view, which only rises (R134, R201, R229). At a multiple of 64 the remote-data cache is swept as the
slices are (DESIGN CHOICE, assumption 86). -/
def Die.raiseView (d : Die) (asid q n : Nat) : Die :=
  let v := d.view asid q
  if ahead n v then
    let d1 := { d with roundView := Map.putD 0 d.roundView (regionKey asid q) (n % 2 ^ 32) }
    if n / 64 == v / 64 then d1
    else { d1 with lines := d1.lines.filter (keepLag asid q n), rdc := d1.rdc.filter (keepLag asid q n) }
  else d

/-- The home rounds of an address space on this package: region and round (R315). -/
def State.rounds (s : State) (asid : Nat) : List (Nat × Nat) :=
  (List.range 8).flatMap (fun i =>
    (s.die (8 + i)).rounds.filterMap (fun p => if p.1 / 256 == asid then some (p.1 % 256, p.2) else none))

/-- The home round of region q (R315). -/
def State.homeRound (s : State) (asid q : Nat) : Nat := Map.getD (s.die (8 + q % 8)).rounds (regionKey asid q) 0

/-- The regions of an address space of which a die holds copies. -/
def Die.copyRegions (d : Die) (asid : Nat) : List Nat :=
  uniSet [] (((d.lines ++ d.rdc).filter (fun l => !l.home && l.asid == asid)).map (fun l => l.region))

/-- Sweeps that start for the regions that have just wrapped from 15 to 0 (R200, R202). -/
def Die.wrapSweeps (d : Die) (asid : Nat) (qs : List Nat) : Die :=
  let ws := (qs.filter (fun q => d.gen asid q == 0)).map (fun q => ⟨asid, q⟩)
  { d with sweeps := d.sweeps ++ ws.filter (fun w => !d.sweeps.contains w),
           rdcBusy := d.rdcBusy ++ ws.filter (fun w => !d.rdcBusy.contains w) }

/-! ### Requests -/

/-- A request of a core, before anything but its address, size and kind is said of it. -/
def Req.bare (c g asid ident va n : Nat) (kind : ReqKind) (now : Nat) : Req :=
  { core := c, graph := g, asid := asid, ident := ident, va := va, size := n, kind := kind, charge := none, cid := none, group := 0,
    lsid := 0, lane := 0, reply := none, warp := none, split := none, issuedAt := now, state := .moving, hint := .normal, ldc := false,
    local' := false, hw := false, fresh := false, back := none, elem := none, batch := none, rgen := 0, stamp := 0, tgen := 0,
    blk := none, lda := false, acq := false, wb := false, sync := false, elemIn := false, bads := [], priv := false, ask := false, fillIn := false }

/-- A request sent toward its home by what is no core: the control die, another chip's packet, a die's views. -/
def State.putReq (s : State) (r : Req) : State := { s with reqs := Map.put s.reqs s.next r, next := s.next + 1 }

/-- A request sent toward its home by a core: it passes the core's memory injection queue, and waits at its producer beyond the 64
places (R262, R266). -/
def State.addReq (s : State) (r : Req) : State :=
  let s1 := s.putReq r
  s1.setCore r.core { s1.core r.core with memQueue := (s1.core r.core).memQueue ++ [s.next] }

/-- Whether a request is still in its core's memory injection queue (R262). -/
def State.inQueue (s : State) (rid : Nat) (r : Req) : Bool := r.back.isNone && (s.core r.core).memQueue.contains rid

/-- Room in a core's memory injection queue (R262). -/
def State.memRoom (s : State) (c : Nat) : Bool := decide ((s.core c).memQueue.length < 64)

/-- Room for n packets in a core's row injection queue (R262). -/
def State.rowRoom (s : State) (c n : Nat) : Bool := decide ((s.core c).rowQueued + n ≤ 64)

/-- Row packets leave a core, through its row injection queue (R234, R262). -/
def State.sendRows (s : State) (c : Nat) (ps : List RowPacket) : State :=
  { s.setCore c { s.core c with rowQueued := (s.core c).rowQueued + ps.length } with rowPkts := s.rowPkts ++ ps }

/-- Whether the k-th row packet is still in its core's injection queue: those that the core sent last are (R262). -/
def State.rowWaits (s : State) (k : Nat) (p : RowPacket) : Bool :=
  decide (((s.rowPkts.drop k).filter (fun q => q.src == p.src)).length ≤ (s.core p.src).rowQueued)

/-- Row packets are dropped, in injection queues and beyond. -/
def State.dropRows (s : State) (gone : RowPacket → Bool) : State :=
  let left := fun (c n : Nat) => (((s.rowPkts.filter (fun p => p.src == c)).reverse.take n).filter (fun p => !gone p)).length
  { s with cores := Map.mapVals (fun c k => { k with rowQueued := left c k.rowQueued }) s.cores, rowPkts := s.rowPkts.filter (fun p => !gone p) }

/-! ### Write-back of stash lines (R203 to R205) -/

def dirKey (asid line : Nat) : Nat := asid * 2 ^ 49 + line

/-- The runs of a mask's set bits below n, from bit i on: first bit and length. -/
def maskRuns (m : Nat) : Nat → Nat → List (Nat × Nat)
  | 0, _ => []
  | n + 1, i =>
    if bitOf m i then
      match maskRuns m n (i + 1) with
      | (j, k) :: t => if j = i + 1 then (i, k + 1) :: t else (i, 1) :: (j, k) :: t
      | [] => [(i, 1)]
    else maskRuns m n (i + 1)

/-- A dirty stash line sent to its home: the bytes that its core or its core's engines have written, those that are poisoned as
poison, those of engine elements as such (R137, R203, R214). -/
def State.writeBack (s : State) (c g : Nat) (cid : Option Nat) (l : StashLine) : State :=
  let runs := (maskRuns (l.wrote &&& l.elems) 128 0).map (fun p => (p, true)) ++ (maskRuns (l.wrote &&& (l.wrote ^^^ l.elems)) 128 0).map (fun p => (p, false))
  runs.foldl (fun a q =>
    let p := q.1
    a.addReq { Req.bare c g l.asid (match a.graph? g with | some y => y.identity | none => 0) (l.line * 128 + p.1) p.2
      (.store ((l.data.drop p.1).take p.2) false) a.now with
        cid := cid, hw := true, wb := true, elemIn := q.2
        bads := (l.poison.filter (fun i => p.1 ≤ i && i < p.1 + p.2)).map (fun i => i - p.1) }) s

/-- The graph whose window holds a stash line of a core. -/
def Core.stashGraph (k : Core) (idx : Nat) : Nat :=
  match List.find? (fun p => p.2.sofs ≤ idx && idx < p.2.sofs + p.2.lines) k.windows with
  | some p => p.1 / 16
  | none => 256

/-- A die and its home give up a line's ownership (R204, R205). -/
def State.disown (s : State) (d asid line : Nat) : State :=
  let st := (s.homeOf d asid (line * 128)).2
  let s1 := s.setDie d { s.die d with
    dieDir := Map.del (s.die d).dieDir (dirKey asid line), owned := delSet (s.die d).owned (dirKey asid line) }
  if st = d then s1
  else s1.setDie (8 + st) { s1.die (8 + st) with
    owners := (s1.die (8 + st)).owners.filter (fun o => !(o.asid == asid && o.line == line && o.owner == d)) }

/-- A stash line of a core leaves the stash: written back if it is dirty and asked, invalidated, disowned. -/
def State.dropStash (s : State) (c idx : Nat) (write : Bool) (cid : Option Nat) : State :=
  let k := s.core c
  match Map.find? k.stash idx with
  | none => s
  | some l =>
    let s1 := if write && l.dirty then s.writeBack c (k.stashGraph idx) cid l else s
    (s1.setCore c { s1.core c with stash := Map.del (s1.core c).stash idx }).disown (dieOf c) l.asid l.line

/-! ### Acquires (R124, R134, R200, R367) -/

/-- A stash line that stands for a copy of another chip's line: a home there keeps no owner for it, so an acquire of its region
discards it, and a later access fills it again (R124; DEDUCED, assumption 88). -/
def State.staleStash (s : State) (d : Nat) (all : Bool) (ids : List Nat) (asid : Nat) (l : StashLine) : Bool :=
  l.asid == asid && (s.homeOf d asid (l.line * 128)).1 != s.chipId
    && (all || ids.contains (s.region d asid (l.line * 128)).1)

/-- The stash lines of a die that an acquire over some regions discards: the bytes that their cores wrote go home (R124). -/
def State.acquireStash (s : State) (d asid : Nat) (all : Bool) (ids : List Nat) : State :=
  (s.cores.filter (fun p => dieOf p.1 == d)).foldl (fun a p =>
    (p.2.stash.filter (fun q => s.staleStash d all ids asid q.2)).foldl (fun b q => b.dropStash p.1 q.1 true none) a) s

/-- The bounded regions of an address space whose home is another chip, as a die has taken up its table: number and an address
of each. -/
def State.farRegions (s : State) (d asid : Nat) : List (Nat × Nat) :=
  let tab := s.regTab d asid
  (tab.zipIdx).filterMap (fun p =>
    if p.1.valid && p.1.kind == 1 && p.1.homeChip != s.chipId && regionOf tab (p.1.base * 4096) == p.2 then some (p.2, p.1.base * 4096)
    else none)

/-- A die asks the homes of bounded regions on other chips for their rounds: its views follow when the answers come (R134, R150,
R315; DEDUCED, assumption 108). -/
def State.askRounds (s : State) (d asid : Nat) (qs : List (Nat × Nat)) : State :=
  qs.foldl (fun a q => a.putReq { Req.bare (64 * d) 256 asid 0 q.2 4 .roundv a.now with ask := true, rgen := q.1 }) s

/-- Whether a request asks for the round of a region for a die's view. -/
def Req.forView (r : Req) : Bool := r.ask && (match r.kind with | .roundv => true | _ => false)

/-- An acquire at package or domain scope over some regions on a die: each generation rises by 1, each view reaches
the home's round, and upgrades whose copies it retires are marked data needed (R124, R134, R200, R367). -/
def State.acquireOver (s : State) (d asid : Nat) (all : Bool) (ids : List Nat) : State :=
  let x := s.die d
  let x1 : Die :=
    if all then { x with genBase := Map.put x.genBase asid ((Map.getD x.genBase asid 0 + 1) % 16) }
    else ids.foldl (fun y q =>
      { y with regionGen := Map.put y.regionGen (regionKey asid q) ((Map.getD y.regionGen (regionKey asid q) 0 + 1) % 16) }) x
  let qs := if all then x.copyRegions asid else ids
  let rs := (s.rounds asid).filter (fun p => all || ids.contains p.1)
  let s0 := s.setDie d (rs.foldl (fun y p => y.raiseView asid p.1 p.2) (x1.wrapSweeps asid qs))
  let s1 := (s0.acquireStash d asid all ids).askRounds d asid ((s.farRegions d asid).filter (fun p => all || ids.contains p.1))
  { s1 with owns := s1.owns.map (fun o =>
      if o.die == d && o.asid == asid && o.had && (all || ids.contains (s.region d asid (o.line * 128)).1)
      then { o with needed := true } else o) }

/-- An acquire over the regions of a release word (R130). -/
def State.acquire (s : State) (d asid : Nat) (w : RelWord) : State := s.acquireOver d asid w.all w.ids

/-- A load whose bytes, when they come from another chip, fill no copy: its tag has grown stale (R198). -/
def Req.staleFill (r : Req) : Req :=
  match r.kind with
  | .load => { r with rgen := 16 }
  | .store _ _ | .atomic _ _ | .full _ _ | .rounda _ | .roundv | .stashStore _ | .smap _ _ | .swb | .sinv => r

/-- The acquire of an LDA lasts until its load has performed: copies that came to the die since it issued go too, those on their
way are stale when they come, and no generation rises again (R133, R216; DEDUCED, assumption 109). -/
def State.endLda (s : State) (d asid : Nat) : State :=
  let x := s.die d
  let stays := fun l : Line => l.home || l.asid != asid
  let s1 := (s.setDie d { x with lines := x.lines.filter stays, rdc := x.rdc.filter stays }).acquireStash d asid true []
  { s1 with
    fills := s1.fills.filter (fun f => f.die != d || f.line.asid != asid)
    reqs := Map.mapVals (fun _ r => if decide (r.state = .remote) && dieOf r.core == d && r.asid == asid then r.staleFill else r) s1.reqs }

/-- Whether an acquire over some regions still waits: for a sweep of R200, or for the round of a region homed on another chip
(R134). -/
def State.sweepingOver (s : State) (d asid : Nat) (all : Bool) (ids : List Nat) : Bool :=
  (s.die d).sweeps.any (fun x => x.asid == asid && (all || ids.contains x.region))
    || s.reqs.any (fun p => p.2.forView && dieOf p.2.core == d && p.2.asid == asid && (all || ids.contains p.2.rgen))

/-- Whether the acquire of a release word still waits for a sweep of R200. -/
def State.sweeping (s : State) (d asid : Nat) (w : RelWord) : Bool := s.sweepingOver d asid w.all w.ids

/-! ### High-water marks (R194, R211) -/

/-- Private areas with a high-water mark: offset and size, in the order of the marks (R194, R307). -/
def hwmAreas : List (Nat × Nat) :=
  [(0, 2 ^ 29), (0x40000000, 2 ^ 35), (0x1000000000, 2 ^ 36), (0x2000000000, 2 ^ 40 - 0x2000000000)]

/-- Whether an access of a graph reaches to or above a high-water mark of the graph's own private region; the offset of an LDP or
STP (`priv`) counts from the start of the data area, however far it reaches (R194, R211). -/
def State.aboveMark (s : State) (g asid va n : Nat) (priv : Bool := false) : Bool :=
  match s.graph? g with
  | none => false
  | some x =>
    if priv then decide (nthD 0 x.hwm 3 < (va + 2 ^ 56 - (x.privBase + 0x2000000000) % 2 ^ 56) % 2 ^ 56 + n) else
    x.asid == asid && decide (x.privBase ≤ va) && decide (va < x.privBase + 2 ^ 40)
      && (hwmAreas.zipIdx).any (fun p =>
        let ofs := va - x.privBase
        decide (p.1.1 ≤ ofs) && decide (ofs < p.1.1 + p.1.2) && decide (nthD 0 x.hwm p.2 < ofs - p.1.1 + n))

/-! ### Die-cache lines (R197 to R199) -/

/-- Whether a line of a die hits (R197); `ldc` disregards the region generation (R216). -/
def State.lineHits (s : State) (d asid va : Nat) (ldc : Bool) (l : Line) : Bool :=
  l.asid == asid && l.line == lineOf va && l.tgen == s.tgenOf d asid
    && (l.home || ldc || l.rgen == (s.die d).gen asid l.region)

/-- Whether a copy is within the bound of an LDB (R134, R217). -/
def State.withinBound (s : State) (d asid bound : Nat) (l : Line) : Bool :=
  decide (((s.die d).view asid l.region + 256 - l.stamp % 256) % 256 ≤ bound)

/-- A copy that may serve a load on a die: the die cache first, then the remote-data cache (R202). -/
def State.findCopy (s : State) (d asid va : Nat) (ldc noRdc : Bool) (bound : Option Nat) : Option Line :=
  let ok := fun l => !l.home && s.lineHits d asid va ldc l
    && (match bound with | none => true | some b => s.withinBound d asid b l)
  match (s.die d).lines.find? ok with
  | some l => some l
  | none =>
    if noRdc then none
    else (s.die d).rdc.find? (fun l => ok l && !((s.die d).rdcBusy.any (fun w => w.asid == asid && w.region == l.region)))

/-- Whether a request serves an element of a gather or scatter. -/
def State.ofIndexed (s : State) (r : Req) : Bool :=
  match r.elem with
  | none => false
  | some (c, eid, _, _) => match Map.find? (s.core c).engines eid with
    | none => false
    | some e => decide (e.kind = .gath) || decide (e.kind = .scat)

/-- Whether a write of the token network or of an engine, or an element of a gather or scatter, is on its way to a line (R199). -/
def State.aimedAt (s : State) (l : Line) : Bool :=
  s.reqs.any (fun p =>
    (((match p.2.kind with | .store _ _ => true | _ => false) && (p.2.hw || p.2.elem.isSome || p.2.elemIn || p.2.batch.isSome))
      || s.ofIndexed p.2)
    && !p.2.wb && p.2.asid == l.asid && lineOf p.2.va == l.line
    && (match p.2.state with | .moving | .walking | .port | .remote => true | .parked _ | .reader => false))

/-- Whether a line may be no victim (R199): what is on its way to it, deferred readers and an ownership recall pin it. -/
def State.pinned (s : State) (d : Nat) (l : Line) : Bool :=
  s.aimedAt l || l.home && ((s.die (8 + d)).owners.any (fun o => o.asid == l.asid && o.line == l.line && o.recalled)
    || s.reqs.any (fun p => (match p.2.state with | .reader => true | _ => false)
        && p.2.asid == l.asid && lineOf p.2.va == l.line))

/-- The least recently used of some lines, those without the hint keep first (R199, R218). -/
def lruLine : List Line → Option Line
  | [] => none
  | l :: t =>
    match lruLine t with
    | none => some l
    | some m => if (l.keep, m.keep) == (false, true) || (l.keep == m.keep && l.used ≤ m.used) then some l else some m

/-- The set of a line: its slice and VA[17:7] (R195). -/
def lineSet (line : Nat) : Nat := sliceOf (line * 128) * 2048 + line % 2048

/-- A line installed in a die's cache: in place of its older self, or of the set's victim when its 12 ways are in
use; nothing when every way is pinned (R199). -/
def State.installLine (s : State) (d : Nat) (l : Line) : State :=
  let x := s.die d
  let others := x.lines.filter (fun m => !(m.asid == l.asid && m.line == l.line && m.home == l.home))
  let mates := others.filter (fun m => lineSet m.line == lineSet l.line)
  if mates.length < 12 then s.setDie d { x with lines := l :: others }
  else match lruLine (mates.filter (fun m => !s.pinned d m)) with
    | none => s.setDie d { x with lines := others }
    | some v => s.setDie d { x with lines := l :: others.filter (fun m => decide (m ≠ v)) }

/-- A copy installed in the remote-data cache of a die, direct-mapped over the lines that its stack gives (R202); a stack
that gives none keeps none. -/
def State.installRdc (s : State) (d : Nat) (l : Line) : State :=
  let x := s.die d
  let n := s.rdcBytes d / 128
  if n = 0 then s else s.setDie d { x with rdc := l :: x.rdc.filter (fun m => m.line % n != l.line % n) }

/-- A copy of a die has served an access: it is the most recently used of its set (R199). -/
def State.useCopy (s : State) (d : Nat) (l : Line) : State :=
  s.setDie d { s.die d with lines := (s.die d).lines.map (fun m => if m = l then { l with used := s.now } else m) }

/-- Bytes replaced inside a line's data. -/
def patch (data : List Byte) (ofs : Nat) (new : List Byte) : List Byte :=
  data.take ofs ++ new ++ data.drop (ofs + new.length)

/-- A store's effect on the copies of the writing die (R197, R219): updated, or for STL invalidated. The bytes lie
within one line. -/
def State.touchCopies (s : State) (d asid va : Nat) (data : List Byte) (poison : List Nat) (drop : Bool) : State :=
  let x := s.die d
  let mine := fun l : Line => !l.home && l.asid == asid && l.line == lineOf va
  let upd := fun l : Line =>
    { l with data := patch l.data (va % 128) data,
             poison := uniSet (l.poison.filter (fun i => !(va % 128 ≤ i && i < va % 128 + data.length))) poison }
  let f := fun ls : List Line =>
    if drop then ls.filter (fun l => !mine l) else ls.map (fun l => if mine l then upd l else l)
  let s1 := s.setDie d { x with lines := f x.lines, rdc := f x.rdc }
  if drop then { s1 with fills := s1.fills.filter (fun q => !(q.die == d && mine q.line)) }
  else { s1 with fills := s1.fills.map (fun q => if q.die == d && mine q.line then { q with line := upd q.line } else q) }

/-- The home line of an address marked present, and dirty by a write (R197); a fill takes the access's hint (R218). -/
def State.touchHome (s : State) (d asid va : Nat) (write : Bool) (hint : Hint) : State :=
  let x := s.die d
  let old := x.lines.find? (fun l => l.home && l.asid == asid && l.line == lineOf va)
  if decide (hint = .noAlloc) && old.isNone then s else
  s.installLine d
    { asid := asid, line := lineOf va, region := (s.region d asid va).1, rgen := 0, stamp := 0,
      tgen := s.tgenOf d asid, home := true, dirty := write || (match old with | some l => l.dirty | none => false),
      data := [], poison := [], version := 0, used := if decide (hint = .streaming) && old.isNone then 0 else s.now
      keep := decide (hint = .keep) || (match old with | some l => l.keep | none => false) }

/-! ### Home accesses on physical bytes -/

/-- Bytes of a physical range written at the home: poison cleared from exactly them, or set, and the line's version
raised (R205, R214); the bytes at the offsets `skip` are written as they stand, and their poison stays (R7). -/
def State.homeWrite (s : State) (pa : Nat) (data : List Byte) (poison : Bool) (skip : List Nat := []) : State :=
  let addrs := ((List.range data.length).filter (fun i => !skip.contains i)).map (fun i => pa + i)
  { s with
    mem := memWrites s.mem pa data
    poison := if poison then uniSet s.poison addrs else s.poison.filter (fun a => !addrs.contains a)
    covered := if !s.lost.contains (pa / 2 ^ 36) then s.covered
      else if poison then s.covered.filter (fun a => !addrs.contains a) else uniSet s.covered addrs
    versions := Map.put s.versions (pa / 128) ((Map.getD s.versions (pa / 128) 0 + 1) % 65536) }

/-- Some bytes, given by their offsets from a physical address, poisoned as they stand (R214). -/
def State.poisonAt (s : State) (pa : Nat) (ofs : List Nat) : State :=
  if ofs.isEmpty then s
  else
    let addrs := ofs.map (fun i => pa + i)
    { s with poison := uniSet s.poison addrs, covered := s.covered.filter (fun a => !addrs.contains a) }

/-- Offsets of poisoned bytes in a physical range. -/
def State.poisonIn (s : State) (pa n : Nat) : List Nat :=
  if s.poison.isEmpty && s.lost.isEmpty then []
  else (List.range n).filter (fun i => s.poison.contains (pa + i) || (s.lost.contains ((pa + i) / 2 ^ 36) && !s.covered.contains (pa + i)))

/-- Whether a physical range holds a poisoned byte. -/
def State.poisoned (s : State) (pa n : Nat) : Bool := !(s.poisonIn pa n).isEmpty

/-- Bytes of a physical range poisoned as they stand (R205, R368). -/
def State.poisonRange (s : State) (pa n : Nat) : State :=
  let addrs := (List.range n).map (fun i => pa + i)
  { s with poison := uniSet s.poison addrs, covered := s.covered.filter (fun a => !addrs.contains a) }

/-- The new value of an atomic read-modify-write on n bytes (R223). -/
def atomNew (op : AtomOp) (n old x : Nat) : Nat :=
  let w := 8 * n
  match op with
  | .add => (old + x) % 2 ^ w
  | .fadd => roundF .f32 .rne false 0 false (Val.sum false [decodeF .f32 old, decodeF .f32 x])
  | .smin => if toSigned w old ≤ toSigned w x then old else x
  | .smax => if toSigned w x ≤ toSigned w old then old else x
  | .umin => min old x
  | .umax => max old x
  | .and => old &&& x
  | .or => old ||| x
  | .xor => old ^^^ x
  | .xchg => x

/-- An atomic on n bytes with its operand words: the new value if it writes, and whether it failed (R223 to R225). -/
def atomAct (k : AtomKind) (n old : Nat) (operand : Nat) : Option Nat × Bool :=
  let w := 8 * n
  let a := operand % 2 ^ w
  let b := operand / 2 ^ w % 2 ^ w
  match k with
  | .rmw op => (some (atomNew op n old a), false)
  | .cas => (if old = a then some b else none, false)
  | .incw => (some (if a ≤ old then 0 else old + 1), false)
  | .decw => (some (if old = 0 || a < old then a else old - 1), false)
  | .faddb => if old + a ≤ b then (some (old + a), false) else (none, true)

end Sys2Proof.Machine
end

