-- ==== Sys2Proof/Machine/Tokens.lean ====
section
/-! DEFINITION. Tokens: the network, fault records, in-flight counters, watches, readiness, landing and deferral
(R13 to R22, R48, R192, R193, R266, R289, R358). -/
namespace Sys2Proof.Machine

/-! ### Fault records -/

/-- A fault record of a graph before the control die numbers it (R358). -/
def State.mkRec (s : State) (g kind code : Nat) : FaultRec :=
  let x := s.graph? g
  { addr := 0, aux := 0, fp := 0, iter := 0, block := 0, graph := g,
    asid := (match x with | some y => y.asid | none => 0), ident := (match x with | some y => y.identity | none => 0),
    kind := kind, code := code, serial := 0, die := 0, core := 0, entry := 0, src := 0 }

/-- The trap register of a graph, if valid (R148). -/
def State.trapOf (s : State) (g : Nat) : Option (Nat × Nat) :=
  match s.graph? g with
  | none => none
  | some x => if bitOf x.trap.toNat 31 then some (bits x.trap.toNat 20 8, bits x.trap.toNat 0 12) else none

/-- A fault record goes to the control die, or is dropped and counted on core c where its graph names no trap block
(R290, R358). -/
def State.report (s : State) (c : Nat) (r : FaultRec) : State :=
  match s.trapOf r.graph with
  | none => s.count c 0x043 0 1
  | some _ => { s with control := { s.control with recQueue := s.control.recQueue ++ [{ r with src := c }] } }

/-! ### Token words (R73, R97, R130) -/

def Scope.code : Scope → Nat
  | .auto => 0
  | .core => 1
  | .die => 2
  | .package => 3

def Comb.code : Comb → Nat
  | .none => 0
  | .addI32 => 1
  | .addF32 => 2
  | .minI32 => 3
  | .maxI32 => 4
  | .or => 5
  | .and => 6
  | .addI64 => 7

/-- The 128 bits of a token (R73). -/
def Token.word (t : Token) : Nat :=
  t.payload.toNat + t.stop % 8 * 2 ^ 64 + b2n t.poison * 2 ^ 67 + Scope.code t.rel * 2 ^ 68 + Comb.code t.comb * 2 ^ 70 + b2n t.bad73 * 2 ^ 73
    + b2n t.null * 2 ^ 74 + t.iter % 1024 * 2 ^ 75 + t.slot % 256 * 2 ^ 85 + t.block % 4096 * 2 ^ 93 + t.fp / 2 ^ 9 % 2 ^ 23 * 2 ^ 105

/-- The IDS and LIST bytes of a release word (R97, R130). -/
def RelWord.bytes (r : RelWord) : List Byte :=
  toBytes 4 r.idBytes ++ toBytes 1 r.byte

/-! ### Packets off the chip (R283, R381, R382, R384) -/

/-- The fabric die that keeps the counts for a chip (R381, R384). -/
def State.fabricDieOf (s : State) (chip : Nat) : Nat :=
  let live := (s.ports.filter (fun p => p.2)).map (fun p => p.1)
  match live[chip % live.length]? with
  | none => 16
  | some p => if p < 18 then 16 else 17

def Die.countError (d : Die) (i n : Nat) : Die :=
  { d with errors := Map.put d.errors i (satAdd (2 ^ 32 - 1) (Map.getD d.errors i 0) n) }

def State.countDie (s : State) (d i n : Nat) : State := s.setDie d ((s.die d).countError i n)

/-- A packet waits for its fabric port (R381, R382). -/
def State.fabric (s : State) (chip cls : Nat) (payload : List Byte) (sentIn : Option (Nat × Nat × Nat) := none) : State :=
  { s with fabricOut := s.fabricOut ++
      [(FabricPacket.mk chip s.chipId cls s.sendKey (payload.length / 16 - 1) 0 0 0 payload true sentIn)] }

/-- The payload of a class-0 packet: token, release word, sending identity, zeros (R382). -/
def Token.payloadOff (t : Token) : List Byte :=
  toBytes 16 t.word ++ t.relWord.bytes ++ toBytes 2 t.ident ++ List.replicate 9 0

/-- A token leaves for a chip, or is dropped and counted where the chip cannot be reached (R283, R384). -/
def State.sendOff (s : State) (chip : Nat) (t : Token) : State :=
  if s.reachable.contains chip && s.ports.any (fun p => p.2) then s.fabric chip 0 t.payloadOff
  else s.countDie (s.fabricDieOf chip) 0 1

/-! ### The network (R45 to R48, R266) -/

/-- The 22 boundaries in the order of R45: lower die id, higher die id. -/
def boundaries : List (Nat × Nat) :=
  [(0, 1), (1, 2), (2, 3), (4, 5), (5, 6), (6, 7), (0, 4), (1, 5), (2, 6), (3, 7)] ++
  [(0, 8), (1, 9), (2, 10), (3, 11), (4, 12), (5, 13), (6, 14), (7, 15)] ++ [(0, 16), (4, 16), (3, 17), (7, 17)]

/-- The boundary direction from one die to a neighbour (R148). -/
def dirOf (a b : Nat) : Option Nat :=
  match findIdx (fun p => p == (min a b, max a b)) boundaries with
  | none => none
  | some (n, _) => some (2 * n + b2n (decide (b < a)))

/-- East-west steps along a row of dies, then one north-south step (R47): the dies after the first. -/
def walkDies (a b : Nat) : Nat → List Nat
  | 0 => []
  | f + 1 =>
    if a = b then []
    else if a % 4 < b % 4 then (a + 1) :: walkDies (a + 1) b f
    else if b % 4 < a % 4 then (a - 1) :: walkDies (a - 1) b f
    else [b]

/-- The directions that a path of dies crosses. -/
def pathDirs : Nat → List Nat → List Nat
  | _, [] => []
  | a, b :: t => (match dirOf a b with | some d => [d] | none => []) ++ pathDirs b t

/-- The compute die that touches a die (R45). Two touch a fabric die: the one in the row of a compute die `near` is
taken (DESIGN CHOICE, assumption 78). -/
def touching (d near : Nat) : Nat :=
  if d < 8 then d else if d < 16 then d - 8 else (if d = 17 then 3 else 0) + 4 * (near / 4)

/-- The boundary directions that a packet crosses from one die to another (R47): over the compute dies between those that touch
its ends, the control die by X0. From a fabric die it enters the compute dies in the row of its destination, and it leaves them
for one in the row where it entered (DESIGN CHOICE, assumption 78). -/
def routeDirs (src dst : Nat) : List Nat :=
  let p := if src = 18 then 16 else src
  let q := if dst = 18 then 16 else dst
  if p = q then []
  else
    let a := touching p (touching q 0)
    let b := touching q a
    pathDirs p ((if p = a then [] else [a]) ++ walkDies a b 5 ++ (if q = b then [] else [q]))

/-- The mesh cores after the first on the way from one core of a die to another (R46, R47): along its row, then along the column.
Which way a packet takes in a die shows in time only: no step reads it. -/
def meshPath (a b : Nat) : Nat → List Nat
  | 0 => []
  | f + 1 =>
    if a = b then []
    else
      let n := if a % 8 < b % 8 then a + 1 else if b % 8 < a % 8 then a - 1 else if a < b then a + 8 else a - 8
      n :: meshPath n b f

/-- Sources of packets that no core sends: die d is 1000 + d. -/
def dieSource (d : Nat) : Nat := 1000 + d

/-- The die a packet starts on. -/
def srcDie (src : Nat) : Nat := if src < 1000 then src / 64 else src - 1000

def creditKey (dir dst : Nat) : Nat := dir * 32 + dst

/-- The sending die and the receiving die of a boundary direction (R148). -/
def senderOf (n : Nat) : Nat := let p := nthD (0, 0) boundaries (n / 2); if n % 2 = 0 then p.1 else p.2
def receiverOf (n : Nat) : Nat := let p := nthD (0, 0) boundaries (n / 2); if n % 2 = 0 then p.2 else p.1

/-- Whether a die's boundaries carry data: those of a QUARANTINED or ATTESTING die carry management flits only (R392). -/
def Die.carriesData (x : Die) : Bool :=
  match x.state with
  | .active | .halted | .draining => true
  | .off | .quarantined | .attesting => false

/-- Whether a boundary direction carries data and still runs (R49, R325, R392). -/
def State.dirUp (s : State) (d : Nat) : Bool :=
  (Map.getD s.links d LinkDir.reset).up && !(Map.getD s.links d LinkDir.reset).stopped
    && (s.die (senderOf d)).carriesData && (s.die (receiverOf d)).carriesData

/-- Whether every boundary of a route carries data and still runs (R49, R325, R392). -/
def State.pathUp (s : State) (dirs : List Nat) : Bool := dirs.all s.dirUp

/-- Whether a route is up and every boundary of it has a token credit for a die (R262, R266). -/
def State.creditFree (s : State) (dirs : List Nat) (dst : Nat) : Bool :=
  s.pathUp dirs && dirs.all (fun d => decide (Map.getD s.credits (creditKey d dst) 0 < 8))

/-- Flits pass a direction: the counters at both ends rise, and a sender that reaches 2^48 stops (R325). -/
def LinkDir.pass (x : LinkDir) (n : Nat) : LinkDir :=
  { x with txCount := x.txCount + n, stopped := x.stopped || decide (2 ^ 48 ≤ x.txCount + n)
           rxCounts := Map.put x.rxCounts x.txIdx (Map.getD x.rxCounts x.txIdx 0 + n) }

/-- The sender stops where its counter stands at 2^48 or above (R325). -/
def LinkDir.atLimit (x : LinkDir) : LinkDir := { x with stopped := x.stopped || decide (2 ^ 48 ≤ x.txCount) }

/-- A packet of a read or write of several lines that a step makes in one piece: whether the sender has reached its limit is looked at
as the cycle ends (R325; DESIGN CHOICE, assumption 87). -/
def State.countTogether (s : State) (dirs : List Nat) (n : Nat) : State :=
  { s with links := dirs.foldl (fun m d =>
      let x := Map.getD m d LinkDir.reset
      Map.put m d { x.pass (Config.flitsOf n) with stopped := x.stopped }) s.links }

/-- A packet with a payload of n bytes crosses the boundaries of a route (R49, R325). -/
def State.countFlits (s : State) (dirs : List Nat) (n : Nat) : State :=
  { s with links := dirs.foldl (fun m d => Map.put m d ((Map.getD m d LinkDir.reset).pass (Config.flitsOf n))) s.links }

/-- Credits of a route taken (true) or returned. -/
def State.moveCredits (s : State) (dirs : List Nat) (dst : Nat) (take : Bool) : State :=
  { s with credits := dirs.foldl (fun m d =>
      let k := creditKey d dst
      Map.putD 0 m k (if take then Map.getD m k 0 + 1 else Map.getD m k 0 - 1)) s.credits }

/-- A packet put at the matching unit of its target core (R14), or sent off the chip at its fabric die (R283). -/
def State.arrive (s : State) (p : Packet) : State :=
  match p.body with
  | .out chip t => s.sendOff chip t
  | .token _ | .free _ _ => s.setCore p.dst { s.core p.dst with matchIn := (s.core p.dst).matchIn ++ [p] }

/-- The chip, if it is another's name, and the core that a packet goes to (R48). -/
def Packet.goal (p : Packet) : Option Nat × Nat :=
  match p.body with
  | .out chip t => (some chip, fpCore t.fp)
  | .token _ | .free _ _ => (none, p.dst)

/-- Waiting crossings of a list take the credits that they can, in order (R266). -/
def grantCrossings : List Crossing → State → State
  | [], s => s
  | x :: t, s =>
    let dst := dieOf x.pkt.dst
    let dirs := routeDirs (srcDie x.pkt.src) dst
    if x.dirs = [] && s.creditFree dirs dst then
      let s1 := (s.moveCredits dirs dst true).countFlits dirs 24
      grantCrossings t { s1 with crossings := s1.crossings ++ [(Crossing.mk x.pkt dirs)] }
    else grantCrossings t { s with crossings := s.crossings ++ [x] }

def State.settle (s : State) : State := grantCrossings s.crossings { s with crossings := [] }

/-- A packet leaves its source die: to the core at once on the same die, over the boundaries otherwise. -/
def State.launchPkt (s : State) (p : Packet) : State :=
  if routeDirs (srcDie p.src) (dieOf p.dst) = [] then s.arrive p
  else State.settle { s with crossings := s.crossings ++ [Crossing.mk p []] }

/-- A packet placed in a core's token injection queue (R266); beyond its 64 places it waits at its producer. -/
def State.inject (s : State) (c : Nat) (p : Packet) : State :=
  let k := s.core c
  s.setCore c { k with inject := k.inject ++ [p] }

/-- A token sent by a core. -/
def State.sendToken (s : State) (c : Nat) (t : Token) : State := s.inject c ⟨c, fpCore t.fp, .token t⟩

/-- A token sent by a die that is no core: a home's reply, the control die. -/
def State.sendFrom (s : State) (d : Nat) (t : Token) : State := s.launchPkt ⟨dieSource d, fpCore t.fp, .token t⟩

/-- A token for another chip leaves a core, or a die, for the fabric die that serves the chip (R283, R381). -/
def State.sendChip (s : State) (src chip : Nat) (t : Token) : State :=
  let p : Packet := ⟨src, 64 * s.fabricDieOf chip, .out chip t⟩
  if src < 1000 then s.inject src p else s.launchPkt p

/-- The place of the first packet that may leave: its core takes it, and no earlier packet goes to the same core. -/
def movable (s : State) (before : List (Option Nat × Nat)) : List Packet → Nat → Option Nat
  | [], _ => none
  | p :: t, i =>
    let here := (routeDirs (srcDie p.src) (dieOf p.dst)).isEmpty
    if !before.contains p.goal && (!here || decide ((s.core p.dst).matchIn.length < 32)) then some i
    else movable s (p.goal :: before) t (i + 1)

/-- A core's injection queue drains for some cycles, one packet a cycle (R266). -/
def State.drainInject (s : State) (c : Nat) : Nat → State
  | 0 => s
  | n + 1 =>
    let k := s.core c
    match movable s [] (k.inject.take 64) 0 with
    | none => s
    | some i =>
      match k.inject[i]? with
      | none => s
      | some p => ((s.setCore c { k with inject := dropNth k.inject i }).launchPkt p).drainInject c n

/-! ### Writes of the hardware, frame images and log records (R11, R12, R192 to R194) -/

/-- The boundaries between the base die that homes a line, or the fabric die by which its chip is reached, and a die: the way of
a fill (R47). -/
def State.homeDie (s : State) (d asid line : Nat) : Nat :=
  let h := s.homeOf d asid (line * 128)
  if h.1 = s.chipId then 8 + h.2 else s.fabricDieOf h.1

def ReqKind.isStore : ReqKind → Bool
  | .store _ _ => true
  | .load | .atomic _ _ | .full _ _ | .rounda _ | .roundv | .stashStore _ | .smap _ _ | .swb | .sinv => false

def ReqState.isParked : ReqState → Bool
  | .parked _ => true
  | .moving | .walking | .port | .remote | .reader => false

/-- One write that the hardware makes in a graph's private memory (R194), within a line: sent toward its home. -/
def State.hwStore (s : State) (c g va : Nat) (data : List Byte) : State :=
  match s.graph? g with
  | none => s
  | some x =>
    s.addReq { Req.bare c g x.asid x.identity va data.length (.store data false) s.now with hw := true }

/-- Bytes that the hardware writes from an address on: one write for each line. -/
def State.hwWrite (s : State) (c g va : Nat) (data : List Byte) : State :=
  (lineRun va data.length (data.length / 128 + 2) 0).foldl (fun a p => a.hwStore c g p.2.1 ((data.drop p.1).take p.2.2)) s

def EntryState.code : EntryState → Nat
  | .free => 0
  | .matching => 1
  | .recorded => 2
  | .waiting => 3

/-- The 42 bits of a readiness entry (R12). -/
def Entry.word (x : Entry) : Nat :=
  x.block % 4096 * 2 ^ 30 + x.iter % 1024 * 2 ^ 20 + x.remain % 16 * 2 ^ 16 + b2n x.nullSeen * 2 ^ 15
    + x.state.code * 2 ^ 13 + b2n x.poisonSeen * 2 ^ 12 + x.cremain % 4096

/-- The 1,024 bits of a frame header (R11). -/
def Frame.header (f : Frame) : Nat :=
  f.serial.toNat + f.parent % 2 ^ 32 * 2 ^ 64 + f.graph % 256 * 2 ^ 96 + f.depth % 16 * 2 ^ 104 + f.prio % 4 * 2 ^ 108
    + b2n f.closing * 2 ^ 110 + f.slotblk % 16 * 2 ^ 112 + f.join % 2 ^ 32 * 2 ^ 128 + f.ordinal % 2 ^ 26 * 2 ^ 160
    + f.infl.l * 2 ^ 192 + f.infl.f * 2 ^ 208 + f.infl.s * 2 ^ 224 + f.infl.e * 2 ^ 240
    + f.presence.foldl (fun a n => a + 2 ^ (256 + n)) 0
    + (f.entries.zipIdx).foldl (fun a p => a + p.1.word * 2 ^ (512 + 42 * p.2)) 0

/-- A frame's image: the header, then its slots (R192). -/
def Frame.image (f : Frame) : List Byte :=
  toBytes 128 f.header ++ (List.range (16 * (f.slotblk + 1))).flatMap (fun n => toBytes 4 (Map.getD f.slots n 0).toNat)

/-- backing(fp) of R192. -/
def backing (privBase fp : Nat) : Nat := privBase + bits fp 23 9 * 2 ^ 20 + bits fp 9 14 * 2 ^ 6

/-- Whether a write of a frame's image still stands (R192, R194). -/
def State.imageBusy (s : State) (c i : Nat) (f : Frame) : Bool :=
  match s.graph? f.graph with
  | none => false
  | some g =>
    let base := backing g.privBase (fpOf c i)
    s.reqs.any (fun p => p.2.hw && p.2.core == c && p.2.graph == f.graph && p.2.kind.isStore
      && decide (base ≤ p.2.va) && decide (p.2.va < base + 128 + 64 * (f.slotblk + 1)))

/-- Whether a write of a frame's image is parked at its home (R194). -/
def State.imageParked (s : State) (c i : Nat) (f : Frame) : Bool :=
  match s.graph? f.graph with
  | none => false
  | some g =>
    let base := backing g.privBase (fpOf c i)
    s.reqs.any (fun p => p.2.hw && p.2.core == c && p.2.graph == f.graph && p.2.state.isParked
      && decide (base ≤ p.2.va) && decide (p.2.va < base + 128 + 64 * (f.slotblk + 1)))

/-- The lines of a frame's image that differ from what they were are written to its backing store (R37, R192). -/
def State.writeImage (s : State) (c i : Nat) (old : List Byte) (f : Frame) : State :=
  match s.graph? f.graph with
  | none => s
  | some g =>
    let new := f.image
    (lineRun (backing g.privBase (fpOf c i)) new.length (new.length / 128 + 2) 0).foldl (fun a p =>
      if (old.drop p.1).take p.2.2 = (new.drop p.1).take p.2.2 then a
      else a.hwStore c f.graph p.2.1 ((new.drop p.1).take p.2.2)) s

/-- A frame changes where it is (R15, R36): in frame memory, or in its backing image, whose bytes change with it. -/
def State.storeFrame (s : State) (c i : Nat) (f : Frame) : State :=
  let s1 := s.setFrame c i f
  if f.resident then s1
  else s1.writeImage c i (match s.frame? c i with | some o => o.image | none => []) f

/-- Virtual address of a token-log record (R194). -/
def logAddr (g : Graph) (c n : Nat) : Nat := g.privBase + 0x40000000 + c * 2 ^ 26 + 32 * n

/-- The log record of a chain record. -/
def ChainRec.log : ChainRec → Nat
  | .deferred n _ => n
  | .watch n _ _ => n

def ChainRec.isWatch : ChainRec → Bool
  | .watch _ _ _ => true
  | .deferred _ _ => false

/-- Numbers of the in-flight counters (R71). -/
def Path.code : Path → Nat
  | .l => 0
  | .f => 1
  | .s => 2
  | .e => 3

/-- The 32 bytes of a log record (R192): the token, the release word, the sending identity, the link to the next record,
and a watch's condition. The places are the model's. -/
def ChainRec.bytes (r : ChainRec) (link : Option Nat) : List Byte :=
  let t := match r with | .deferred _ t => t | .watch _ _ t => t
  let cond := match r with
    | .deferred _ _ => 0
    | .watch _ .join _ => 1
    | .watch _ (.gate p n) _ => 2 + Path.code p * 2 ^ 8 + n % 65536 * 2 ^ 16
  toBytes 16 t.word ++ t.relWord.bytes ++ toBytes 2 t.ident
    ++ toBytes 4 (match link with | some n => n | none => 2 ^ 32 - 1) ++ toBytes 5 cond

/-- The records of a chain with their bytes, each linked to the next. -/
def chainBytes : List ChainRec → List (Nat × List Byte)
  | [] => []
  | r :: t => (r.log, r.bytes ((t.head?).map ChainRec.log)) :: chainBytes t

/-- A frame's chain changes, and the records whose bytes change are written (R192, R193). -/
def State.setChain (s : State) (c i : Nat) (chain : List ChainRec) : State :=
  match s.frame? c i with
  | none => s
  | some f =>
    let s1 := s.setFrame c i { f with chain := chain }
    match s.graph? f.graph with
    | none => s1
    | some g => (chainBytes chain).foldl (fun a p =>
        if (chainBytes f.chain).contains p then a else a.hwWrite c f.graph (logAddr g c p.1) p.2) s1

/-- Whether the write of a chain record is still parked at its home (R194): the record is held in the write. -/
def State.recordParked (s : State) (c : Nat) (g : Graph) (n : Nat) : Bool :=
  s.reqs.any (fun p => p.2.hw && p.2.core == c && p.2.va == logAddr g c n && p.2.state.isParked)

/-! ### In-flight counters, gates and watches (R13, R21, R289) -/

def InFlight.get (f : InFlight) : Path → Nat
  | .l => f.l
  | .f => f.f
  | .s => f.s
  | .e => f.e

def InFlight.set (f : InFlight) (p : Path) (n : Nat) : InFlight :=
  match p with
  | .l => { f with l := n }
  | .f => { f with f := n }
  | .s => { f with s := n }
  | .e => { f with e := n }

def Path.ofCode : Nat → Path
  | 0 => .l
  | 1 => .f
  | 2 => .s
  | _ => .e

/-- Charge one access of a frame on a path; none when the counter stands at 65,535 (R13). -/
def State.charge (s : State) (c i : Nat) (p : Path) : Option (State × Charge) :=
  match s.frame? c i with
  | none => some (s, ⟨fpOf c i, 0, p⟩)
  | some f =>
    if f.infl.get p = 65535 then none
    else some (s.storeFrame c i { f with infl := f.infl.set p (f.infl.get p + 1) }, ⟨fpOf c i, f.serial, p⟩)

/-- Whether a core (die × 64 + core) lies in a rectangle (R9, R91). -/
def Rect.holds (r : Rect) (c : Nat) : Bool :=
  let row := c % 64 / 8
  let col := c % 8
  decide (r.first ≤ c / 64) && decide (c / 64 ≤ r.last) && decide (r.row0 ≤ row) && decide (row < r.row0 + r.rows)
    && decide (r.col0 ≤ col) && decide (col < r.col0 + r.cols)

/-- The cores of a rectangle in order: lowest die first, then row-major within each die (R9). -/
def Rect.cores (r : Rect) : List Nat :=
  (List.range (r.last + 1 - r.first)).flatMap (fun d => (List.range r.rows).flatMap (fun y =>
    (List.range r.cols).map (fun x => (r.first + d) * 64 + (r.row0 + y) * 8 + r.col0 + x)))

/-- Whether a core lies in the rectangles of a block (R10). -/
def State.inBlockRects (s : State) (g b c : Nat) : Bool :=
  match s.graph? g, s.block? g b with
  | some x, some y => y.rects.any (fun n => match x.rects[n]? with | some r => r.holds c | none => false)
  | _, _ => false

/-- A graph begins to hold ready instances on a core (R26). -/
def Core.startAging (k : Core) (g dflt now : Nat) : Core :=
  let p := Map.getD k.prios g ⟨dflt, none⟩
  { k with prios := Map.put k.prios g { p with since := some (p.since.getD now) } }

/-- A graph's ready instance on a core makes its priority age there (R26). -/
def State.startAging (s : State) (c g : Nat) : State :=
  match s.graph? g with
  | none => s
  | some x => s.setCore c ((s.core c).startAging g x.level s.now)

/-- An entry becomes ready (R10, R21, R22): held and reported when it is poisoned, or when its core lies outside its
block's rectangles; else waiting to be recorded. One that is poisoned and lies outside reports its poison only
(DESIGN CHOICE, assumption 72). -/
def State.becomeReady (s : State) (c i j : Nat) : State :=
  match s.frame? c i with
  | none => s
  | some f =>
    match f.entries[j]? with
    | none => s
    | some x =>
      let k := s.core c
      let s1 := s.setCore c { k with order := k.order + 1 }
      let outside := !s.inBlockRects f.graph x.block c
      if x.poisonSeen || outside then
        let y := { x with state := EntryState.recorded, held := true, readyAt := s.now, order := k.order }
        let s2 := s1.storeFrame c i { f with entries := setNth f.entries j y }
        s2.report c { s2.mkRec f.graph 0 (if x.poisonSeen then 0x04 else 0x05) with
          fp := fpOf c i, iter := x.iter, block := x.block, die := dieOf c, core := c % 64, entry := j }
      else
        let y := { x with state := EntryState.waiting, readyAt := s.now, order := k.order }
        (s1.storeFrame c i { f with entries := setNth f.entries j y }).startAging c f.graph

/-- Whether a block's counter gate lets an instance of a frame become ready (R21). -/
def gateOpen (h : Header) (f : Frame) : Bool :=
  !h.gate || decide (f.infl.get (Path.ofCode h.gpath) ≤ (Map.getD f.slots h.gslot 0).toNat)

/-- The gated entries of a frame whose inputs are all present are evaluated (R21), from entry j on. -/
def State.evalGates (s : State) (c i : Nat) (p : Path) : Nat → Nat → State
  | 0, _ => s
  | n + 1, j =>
    let s1 :=
      match s.frame? c i with
      | none => s
      | some f =>
        match f.entries[j]? with
        | none => s
        | some x =>
          match s.block? f.graph x.block with
          | none => s
          | some b =>
            if decide (x.state = EntryState.matching) && x.remain == 0 && b.hdr.gate && decide (Path.ofCode b.hdr.gpath = p)
                && gateOpen b.hdr f then s.becomeReady c i j
            else s
    s1.evalGates c i p n (j + 1)

/-- A log record goes back to the head of the core's free list (R193). -/
def State.freeLog (s : State) (c n : Nat) : State :=
  let k := s.core c
  s.setCore c { k with logFree := n :: k.logFree, presented := delSet k.presented n }

/-- A frame's deferred tokens are to be presented again, from the first of its chain (R18). -/
def State.askPass (s : State) (c i : Nat) : State :=
  match s.frame? c i with
  | none => s
  | some f =>
    let k := s.core c
    let mine := f.chain.map ChainRec.log
    s.setCore c { k with represent := insSet k.represent i, presented := k.presented.filter (fun n => !mine.contains n) }

/-- The next deferred token of a frame's pass: the first of its chain that the pass has not presented, with its record (R18). -/
def State.nextDeferred (s : State) (c i : Nat) : Option (Nat × Token) :=
  List.findSome? (fun (r : ChainRec) => match r with
    | .deferred n t => if (s.core c).presented.contains n then none else some (n, t)
    | .watch _ _ _ => none) (match s.frame? c i with | some f => f.chain | none => [])

/-- Whether a watch's condition holds, and its payload where the condition supplies it (R289). -/
def watchHolds (f : Frame) : WatchCond → Bool × Option Nat
  | .join => (f.join == 0, none)
  | .gate p t => (decide (f.infl.get p ≤ t), some (f.infl.get p))

/-- The watches of a chain that a change may satisfy send their tokens and leave it (R289); one whose record's write is
parked stays held in it (R194). -/
def State.runWatches (s : State) (c i : Nat) (p : Option Path) : List ChainRec → State
  | [] => s
  | r :: t =>
    let s1 :=
      match r, s.frame? c i with
      | .watch n w tok, some f =>
        let asked : Bool := match w, p with
          | .join, none => true
          | .gate q _, some q' => decide (q = q')
          | _, _ => false
        let h := watchHolds f w
        let parked := match s.graph? f.graph with | none => false | some g => s.recordParked c g n
        if asked && h.1 && !parked then
          let s2 := (s.setChain c i (f.chain.filter (fun x => decide (x ≠ r)))).freeLog c n
          s2.sendToken c { tok with payload := match h.2 with | none => tok.payload | some v => BitVec.ofNat 64 v }
        else s
      | _, _ => s
    s1.runWatches c i p t

/-- A charge ends: the counter falls by one, then gates and watches on it are evaluated (R13, R21, R289). -/
def State.discharge (s : State) (x : Charge) : State :=
  let c := fpCore x.fp
  let i := fpIndex x.fp
  match s.frame? c i with
  | none => s
  | some f =>
    if f.serial ≠ x.serial then s
    else
      let s1 := s.storeFrame c i { f with infl := f.infl.set x.path (f.infl.get x.path - 1) }
      (s1.evalGates c i x.path f.entries.length 0).runWatches c i (some x.path) f.chain

def State.dischargeAll (s : State) (xs : List Charge) : State := xs.foldl State.discharge s

/-- A charge that ends by a message on its way (R13). -/
def State.later (s : State) (x : Option Charge) : State :=
  match x with
  | none => s
  | some y => { s with decrs := s.decrs ++ [y] }

/-- A log record whose write has performed: its watch is tried on every condition (R194, R289). -/
def State.recordDone (s : State) (c va : Nat) (i : Nat) (f : Frame) : State :=
  match s.graph? f.graph with
  | none => s
  | some g =>
    let mine := f.chain.filter (fun r => r.isWatch && logAddr g c r.log == va)
    (none :: [Path.l, .f, .s, .e].map some).foldl (fun a p => a.runWatches c i p mine) s

/-- A write of the hardware has performed (R38, R194): a watch held in it is tried, and a frame whose image it ends has
moved, so that its deferred tokens are presented again. -/
def State.hwDone (s : State) (c va : Nat) : State :=
  (s.core c).frames.foldl (fun a p =>
    let b := a.recordDone c va p.1 p.2
    match b.frame? c p.1 with
    | none => b
    | some f =>
      if f.moving && !b.imageBusy c p.1 f then
        (b.setFrame c p.1 { f with moving := false }).askPass c p.1
      else b) s

/-! ### Landing (R15 to R19) -/

/-- A block is iterated exactly when SPAN is not 0 (R71). -/
def Header.iterated (h : Header) : Bool := h.span != 0
def Header.window (h : Header) : Nat := 2 ^ h.wlog

/-- The shift of an iteration (R15). -/
def Header.shift (h : Header) (iter : Nat) : Nat := if h.iterated then iter % h.window * h.span else 0

/-- The effective slot of a token (R15). -/
def effSlot (h : Header) (t : Token) : Nat := t.slot + h.shift t.iter

/-- The slots of an instance's inputs (R15). -/
def inputSlots (h : Header) (iter : Nat) : List Nat := (List.range h.arity).map (fun n => h.ibase + h.shift iter + n)

def inInputs (h : Header) (t : Token) : Bool :=
  let lo := h.ibase + h.shift t.iter
  decide (lo ≤ effSlot h t) && decide (effSlot h t < lo + h.arity)

def isInput0 (h : Header) (t : Token) : Bool := effSlot h t == h.ibase + h.shift t.iter

/-- Whether an entry is the one a token matches (R15, R16). -/
def keyMatches (h : Header) (t : Token) (x : Entry) : Bool :=
  decide (x.state = .matching) && x.block == t.block && (!h.iterated || x.iter == t.iter)

/-- Whether an entry holds the token's block and window position (R15). -/
def holdsPlace (h : Header) (t : Token) (x : Entry) : Bool :=
  decide (x.state ≠ .free) && x.block == t.block && (!h.iterated || x.iter % h.window == t.iter % h.window)

/-- Whether a die is halted by the debugger (R267, R364). -/
def State.halted (s : State) (d : Nat) : Bool := s.debugHold.contains d

/-- Whether a token has landed at a frame in this cycle: every other happening of the cycle at the frame came before (R14). -/
def State.landedNow (s : State) (c i : Nat) : Bool := (s.core c).landed == some (i, s.now)

/-- Whether a retirement or a decrement comes too late for a frame in this cycle: behind the landing (R14), or behind a commit that
has evaluated a watch there (R289). -/
def State.lateAt (s : State) (c i : Nat) : Bool := s.landedNow c i || Map.find? (s.core c).watched i == some s.now

/-- A core's matching unit has handled this cycle's token, which went to a frame (R14). -/
def State.markLanded (s : State) (c i : Nat) : State := s.setCore c { s.core c with landed := some (i, s.now) }

/-- Whether a core's matching unit is free in this cycle: its die runs, and it has handled no token (R14, R364). -/
def State.unitFree (s : State) (c : Nat) : Bool :=
  !s.halted (dieOf c) && !(match (s.core c).landed with | some (_, t) => t == s.now | none => false)

/-- Whether a record of a frame's chain is held in a write of it that is parked (R194). -/
def State.heldRecord (s : State) (c i n : Nat) : Bool :=
  match (s.frame? c i).bind (fun f => s.graph? f.graph) with
  | none => false
  | some g => s.recordParked c g n

/-- Whether a frame's pass has a token that it can present now (R18, R194). -/
def State.presentable (s : State) (c i : Nat) : Bool :=
  match s.nextDeferred c i with
  | none => false
  | some (n, _) => !s.heldRecord c i n

/-- Whether a core's matching unit may handle a token for a frame that is no deferred one: the unit is free, no pass of the frame
stands, and no pass of another frame has a token that it can present (R14, R18). -/
def State.mayLand (s : State) (c i : Nat) : Bool :=
  s.unitFree c && !(s.core c).represent.contains i && !(s.core c).represent.any (s.presentable c)

/-- Where a token goes; a deferral names the entry that the token has opened. -/
inductive Landing where
  | stray
  | defer (opened : Option (Nat × Entry))
  | land (h : Header) (entry : Option Nat) (fresh : Bool)
  deriving DecidableEq, Repr

def Entry.empty : Entry := ⟨.free, 0, 0, 0, false, false, 0, 0, 0, 0, [], false⟩

/-- The entry that a first token opens (R15, R19). -/
def Entry.open' (h : Header) (t : Token) : Entry :=
  { Entry.empty with state := .matching, block := t.block, remain := h.arity,
                     iter := if h.iterated then t.iter else 0, cremain := if h.comb then h.ccount else 0 }

/-- The first steps of land in R15; a frame that is being moved defers its tokens (R38). -/
def State.landing (s : State) (c : Nat) (t : Token) : Landing :=
  match s.frame? c (fpIndex t.fp) with
  | none => .stray
  | some f =>
    match s.graph? f.graph, s.block? f.graph t.block with
    | some g, some b =>
      let h := b.hdr
      let e := effSlot h t
      if f.closing || t.ident != g.identity || 16 * (f.slotblk + 1) ≤ e then .stray
      else if f.moving then .defer none
      else
        let hit := findIdx (keyMatches h t) f.entries
        let inr := inInputs h t
        let busy := f.presence.contains e
        let comb0 := h.comb && inr && isInput0 h t
        match hit with
        | some (j, x) => if busy && !(comb0 && decide (0 < x.cremain)) then .defer none else .land h (if inr then some j else none) false
        | none =>
          if !inr then (if busy then .defer none else .land h none false)
          else if f.entries.any (holdsPlace h t) then .defer none
          else match findIdx (fun x => decide (x.state = .free)) f.entries with
            | none => .defer none
            | some (j, _) =>
              if busy && !(comb0 && decide (0 < h.ccount)) then .defer (some (j, Entry.open' h t)) else .land h (some j) true
    | _, _ => .stray

/-- A stray token or free request (R15, R17, R288): counted, and noticed to the graph that owns the frame, or that
last owned its indices while it is loaded. -/
def State.stray (s : State) (c fp block iter ident : Nat) : State :=
  let s1 := s.count c 0x040 0 1
  let owner : Option Nat := match s.frame? c (fpIndex fp) with
    | some f => some f.graph
    | none => Map.find? (s.core c).lastOwner (fpIndex fp)
  match owner with
  | none => s1
  | some g =>
    match s.graph? g with
    | none => s1
    | some _ => s1.report c { s1.mkRec g 2 0x09 with fp := fp, block := block, iter := iter, ident := ident }

/-- The merge of a later combining token into a slot (R19): the new value on 32 bits, or 64 for add.i64. -/
def combine (op : Comb) (slot : Nat) (payload : Nat) : Nat :=
  let a := slot % 2 ^ 32
  let b := payload % 2 ^ 32
  match op with
  | .none => b
  | .addI32 => (a + b) % 2 ^ 32
  | .minI32 => if toSigned 32 a ≤ toSigned 32 b then a else b
  | .maxI32 => if toSigned 32 b ≤ toSigned 32 a then a else b
  | .or => a ||| b
  | .and => a &&& b
  | .addF32 => roundF .f32 .rne false 0 false (Val.sum false [decodeF .f32 a, decodeF .f32 b])
  | .addI64 => (slot + payload) % 2 ^ 64

def Comb.is64 : Comb → Bool
  | .addI64 => true
  | _ => false

/-- A token lands (R15, R19) at a frame and entry: slots, presence, entry, and readiness (R21). -/
def State.landAt (s : State) (c : Nat) (t : Token) (h : Header) (entry : Option Nat) (fresh : Bool) : State :=
  let i := fpIndex t.fp
  match s.frame? c i with
  | none => s
  | some f =>
    let e := effSlot h t
    let x0 := match entry with
      | none => Entry.empty
      | some j => if fresh then Entry.open' h t else nthD Entry.empty f.entries j
    let comb0 := h.comb && entry.isSome && isInput0 h t
    let first := !comb0 || x0.cremain == h.ccount
    let wide := comb0 && Comb.is64 t.comb
    let room := decide (e < 255) && decide (e + 1 < 16 * (f.slotblk + 1))
    let old := (Map.getD f.slots e 0).toNat + (if room then (Map.getD f.slots (e + 1) 0).toNat * 2 ^ 32 else 0)
    let new := if first then t.payload.toNat else combine t.comb old t.payload.toNat
    let lowSlots := Map.putD 0 f.slots e (BitVec.ofNat 32 new)
    let slots := if wide && room then Map.putD 0 lowSlots (e + 1) (BitVec.ofNat 32 (new / 2 ^ 32)) else lowSlots
    let noRoom := wide && !room
    let s1 := if noRoom then s.count c 0x040 0 1 else s
    let s2 := s1.count c 0x023 0 1
    let busy := f.presence.contains e
    let f1 := { f with slots := slots, presence := insSet f.presence e }
    match entry with
    | none => s2.storeFrame c i f1
    | some j =>
      let cr := if comb0 then x0.cremain - 1 else x0.cremain
      let x1 := { x0 with
        iter := if !h.iterated && isInput0 h t && !busy then t.iter else x0.iter
        nullSeen := x0.nullSeen || t.null
        poisonSeen := x0.poisonSeen || t.poison || noRoom
        cremain := cr
        remain := if !comb0 || cr == 0 then x0.remain - 1 else x0.remain
        hb := uniSet x0.hb t.hb }
      let f2 := { f1 with entries := setNth f1.entries j x1 }
      let s3 := s2.storeFrame c i f2
      if x1.remain = 0 && gateOpen h f2 then s3.becomeReady c i j else s3

/-- Whether a token's landing acquires, and over what (R73, R124, R130). -/
def Token.acquires (t : Token) : Bool := decide (t.rel = .package)

/-- The next free record of a core's token log: the head of the free list, then records never used (R193). -/
def Core.takeLog (k : Core) : Option (Nat × Core) :=
  match k.logFree with
  | n :: t => some (n, { k with logFree := t })
  | [] => if k.logTop < Config.logRecords then some (k.logTop, { k with logTop := k.logTop + 1 }) else none

/-- A log record taken for a chain record of a frame, at the tail of its chain (R192, R193). -/
def State.appendChain (s : State) (c i : Nat) (mk : Nat → ChainRec) : Option State :=
  match (s.core c).takeLog, s.frame? c i with
  | some (n, k), some f => some ((s.setCore c k).setChain c i (f.chain ++ [mk n]))
  | _, _ => none

/-- The charge that a token ends is ended (R13). -/
def State.endCharge (s : State) (t : Token) : State :=
  s.dischargeAll t.charges

/-- A token at the head of the matching unit: none when it must wait for an acquire's sweep or a log record. -/
inductive Handled where
  | done (s : State)
  | again (s : State) (t : Token)
  | wait
  deriving DecidableEq, Repr

/-- A token of another frame's instance addresses a frame that is not resident (R37). -/
def State.address (s : State) (c : Nat) (t : Token) : State :=
  match s.frame? c (fpIndex t.fp), t.sender with
  | some f, some own => if f.resident || own = t.fp then s else s.setFrame c (fpIndex t.fp) { f with addressed := true }
  | _, _ => s

/-- The entry that a deferred token has opened stands (R15). -/
def State.openEntry (s : State) (c i : Nat) (o : Option (Nat × Entry)) : State :=
  match o, s.frame? c i with
  | some (j, x), some f => s.storeFrame c i { f with entries := setNth f.entries j x }
  | _, _ => s

/-- The matching unit handles a token (R14, R15, R18, R130). `log` says that a deferral takes a new record. -/
def State.handleToken (s0 : State) (c : Nat) (t : Token) (log : Bool) : Handled :=
  match s0.landing c t with
  | .stray => .done ((s0.stray c t.fp t.block t.iter t.ident).endCharge t)
  | .defer o =>
    if !log then .wait
    else match ((s0.address c t).openEntry c (fpIndex t.fp) o).appendChain c (fpIndex t.fp) (fun n => .deferred n t) with
      | none => .wait
      | some s1 => .done (s1.count c 0x024 0 1)
  | .land h entry fresh =>
    let s := s0.address c t
    let asid := match s.frame? c (fpIndex t.fp) with
      | none => 0
      | some f => match s.graph? f.graph with | none => 0 | some g => g.asid
    if t.acquires then
      let s1 := s.acquire (dieOf c) asid t.relWord
      if s1.sweeping (dieOf c) asid t.relWord then .again s1 { t with rel := .auto }
      else .done ((s1.landAt c t h entry fresh).endCharge t)
    else if decide (t.rel = Scope.auto) && s.sweeping (dieOf c) asid t.relWord then .again s t
    else .done ((s.landAt c t h entry fresh).endCharge t)

/-- A frame's chain with one deferred token in its record replaced, or taken out of it. -/
def swapDeferred (n : Nat) (want : Option Token) (chain : List ChainRec) : List ChainRec :=
  chain.filterMap (fun r => match r with
    | .deferred m t => if m = n then want.map (ChainRec.deferred n) else some (.deferred m t)
    | .watch m w t => some (.watch m w t))

/-- The matching unit presents a deferred token of a frame again (R18): it stays in its place where it is deferred anew; one whose
acquire waits for a sweep is the next once more. -/
def State.presentOne (s : State) (c i n : Nat) (t : Token) : State :=
  let again := s.setCore c { s.core c with presented := insSet (s.core c).presented n }
  match s.landing c t with
  | .defer o => again.openEntry c i o
  | .stray | .land _ _ _ =>
    match s.handleToken c t false with
    | .wait => again
    | .again s1 t1 => s1.setChain c i (swapDeferred n (some t1) (match s1.frame? c i with | some f => f.chain | none => []))
    | .done s1 => (s1.setChain c i (swapDeferred n none (match s1.frame? c i with | some f => f.chain | none => []))).freeLog c n

/-- A pass ends once every deferred token of its frame has been presented (R18). -/
def State.endPass (s : State) (c i : Nat) : State :=
  if (s.nextDeferred c i).isSome then s
  else s.setCore c { s.core c with represent := delSet (s.core c).represent i }

end Sys2Proof.Machine
end

