-- ==== Sys2Proof/Machine/Ops.lean ====
section
/-! DEFINITION. The shared operations on warps: trace packets, carafes, aborts, taking an instance fault and the
return from it (R22 to R26, R34, R265, R271, R277, R278, R359). -/
namespace Sys2Proof.Machine

/-! ### Trace (R277, R278) -/

/-- The first word of a packet: type, cycles since the previous packet, body. -/
def packetWord (ty delta body : Nat) : DWord := BitVec.ofNat 64 (ty * 2 ^ 60 + delta % 4096 * 2 ^ 48 + body % 2 ^ 48)

/-- SYNC (R277): two words. Its delta is 0 where the true one would not fit its field. -/
def Trace.sync (t : Trace) (g c now : Nat) : Trace :=
  let d := now - t.last
  { t with
    buf := t.buf ++ [TraceWord.mk g (packetWord 1 (if d < 4096 then d else 0) (c * 2 ^ 39)) true, TraceWord.mk g (BitVec.ofNat 64 now) false]
    last := now, since := 0 }

/-- A SYNC that is due, lost where the buffer has no room for two words (R278). -/
def Trace.syncDue (t : Trace) (g c now : Nat) : Trace :=
  if 1024 < t.buf.length + 2 then { t with lost := t.lost + 1 } else t.sync g c now

/-- LOSS and then SYNC, once three words have room (R278). LOSS comes first whatever time has passed, its delta 4,095 at most (R277;
DESIGN CHOICE, assumption 119). -/
def Trace.resume (t : Trace) (g c now : Nat) : Trace :=
  if t.lost = 0 || 1024 < t.buf.length + 3 then t
  else ({ t with
    buf := t.buf ++ [TraceWord.mk g (packetWord 0xF (min 4095 (now - t.last)) (min (2 ^ 32 - 1) t.lost)) true]
    last := now, lost := 0 }).sync g c now

/-- A packet is written, with the SYNC that must stand before it and the one after every 256, or dropped and counted (R277,
R278). -/
def Trace.write (t : Trace) (g c now ty body : Nat) : Trace :=
  let t1 := t.resume g c now
  let far := decide (4095 < now - t1.last)
  if t1.lost != 0 || 1024 < t1.buf.length + (if far then 3 else 1) then { t1 with lost := t1.lost + 1 }
  else
    let t2 := if far then t1.sync g c now else t1
    let t3 := { t2 with buf := t2.buf ++ [TraceWord.mk g (packetWord ty (now - t2.last) body) true], last := now, since := t2.since + 1 }
    if t3.since < 256 then t3 else t3.syncDue g c now

def State.trace (s : State) (c g ty body : Nat) : State :=
  let k := s.core c
  s.setCore c { k with trace := k.trace.write g c s.now ty body }

/-- Whether a graph is traced in a cycle: that of its TROFF is the last (R343). -/
def Graph.traces (g : Graph) (now : Nat) : Bool := g.tracing || g.troffAt == some now

/-- Whether a warp is traced: its block's TRACE bit and its graph's tracing (R277). -/
def State.traced (s : State) (w : Warp) : Bool :=
  match s.graph? w.graph, s.block? w.graph w.block with
  | some g, some b => g.traces s.now && b.hdr.trace
  | _, _ => false

/-- The fields [47:20] of WARP and ABORT packets (R277). -/
def warpBody (k : Nat) (w : Warp) : Nat :=
  w.block % 4096 * 2 ^ 36 + w.graph % 256 * 2 ^ 28 + (w.wpop - 1) % 32 * 2 ^ 23 + slotPartition k % 8 * 2 ^ 20

/-! ### Carafes (R22 to R25, R265) -/

/-- The brew period of a block (R24). -/
def brewPeriod (h : Header) : Nat := (16 + h.brewM) * 2 ^ h.brewE

/-- A record placed by age, then by the order in which instances became ready. -/
def insertRec (r : CarafeRec) : List CarafeRec → List CarafeRec
  | [] => [r]
  | x :: t => if r.age < x.age || (r.age == x.age && r.order < x.order) then r :: x :: t else x :: insertRec r t

/-- The carafe bound to a block, or the lowest free one (R23). -/
def Core.carafeFor (k : Core) (g b : Nat) : Option Nat :=
  match List.find? (fun p => p.2.graph == g && p.2.block == b) k.carafes with
  | some (n, _) => some n
  | none => Map.firstFree k.carafes 64 0

/-- A record enters a carafe: the carafe is bound, and the brew timer starts when it was empty and stopped (R23, R24). -/
def Core.addRec (k : Core) (n g b period now : Nat) (r : CarafeRec) : Core :=
  let y := Map.getD k.carafes n { Carafe.free with graph := g, block := b }
  let wasEmpty := y.recs.isEmpty
  let y' := { y with
    recs := insertRec r y.recs, linger := none
    timer := if wasEmpty && y.timer.isNone then some (now + period) else y.timer
    expired := if wasEmpty then false else y.expired
    heldSince := if wasEmpty then some now else y.heldSince }
  { k with carafes := Map.put k.carafes n y' }

/-- Whether the power manager withholds a slot of a core in this cycle: 0 to 7 the issue slots of its partitions, 8 the row
engine's firing slot (R395; DESIGN CHOICE, assumption 9). -/
def State.slotWithheld (s : State) (c n : Nat) : Bool :=
  s.control.withheld != 0 && Config.slotWithheld s.control.withheld s.now c n

/-- A carafe that has emptied: its timers stop, and it stays bound for one brew period (R23, R24). The spec says so of a
pour; a carafe that a drain empties stays bound as long (DESIGN CHOICE, assumption 74). -/
def Carafe.emptied (y : Carafe) (period now : Nat) : Carafe :=
  { y with recs := [], timer := none, expired := false, linger := some (now + period), heldSince := none, promoted := false }

/-- The records of a core's carafes that a test keeps (R24, R361). -/
def State.keepRecs (s : State) (c : Nat) (keep : CarafeRec → Bool) : State :=
  let k := s.core c
  s.setCore c { k with carafes := k.carafes.map (fun y =>
    let rest := y.2.recs.filter keep
    let period := match s.block? y.2.graph y.2.block with | some b => brewPeriod b.hdr | none => 0
    (y.1, if rest.isEmpty && !y.2.recs.isEmpty then y.2.emptied period s.now else { y.2 with recs := rest })) }

/-- The state of a readiness entry set. -/
def State.setEntry (s : State) (c i j : Nat) (f : Entry → Entry) : State :=
  match s.frame? c i with
  | none => s
  | some x => s.storeFrame c i { x with entries := setNth x.entries j (f (nthD Entry.empty x.entries j)) }

/-- An instance goes into its carafe if there is room, else its entry waits in state 0b11 (R22, R34). A pre-empted
graph's records are discarded, so its entries keep waiting (R265), and so do those of a frame that is being drained or is
not resident (R361). -/
def State.enterCarafe (s : State) (c i j : Nat) : State :=
  match s.frame? c i with
  | none => s
  | some f =>
    let x := nthD Entry.empty f.entries j
    let wait := (s.setEntry c i j (fun e => { e with state := .waiting, held := false })).startAging c f.graph
    if !f.resident || f.drained.any (fun x => x % 2 == 1) then wait
    else match s.graph? f.graph, s.block? f.graph x.block with
    | some g, some b =>
      if decide (g.state = .loaded) then
        match (s.core c).carafeFor f.graph x.block with
        | none => wait
        | some n =>
          if 256 ≤ (Map.getD (s.core c).carafes n Carafe.free).recs.length then wait
          else
            let s1 := s.setEntry c i j (fun e => { e with state := .recorded, held := false })
            (s1.setCore c ((s1.core c).addRec n f.graph x.block (brewPeriod b.hdr) s.now ⟨i, j, x.iter, x.readyAt, x.order⟩)).startAging c f.graph
      else wait
    | _, _ => wait

/-! ### Aborts (R34, R35) -/

/-- A spill slot of a graph's ring is reserved (true) or given back (R269). -/
def Core.reserveSpill (k : Core) (g : Nat) (take : Bool) : Core :=
  let n := Map.getD k.spillResv g 0
  { k with spillResv := Map.putD 0 k.spillResv g (if take then n + 1 else n - 1) }

/-- What a warp took at issue is given back (R233, R241, R269, R271). -/
def State.giveBack (s : State) (c g : Nat) : Taken → State
  | .task => s.setCore c { s.core c with taskResv := (s.core c).taskResv - 1 }
  | .spill => s.setCore c ((s.core c).reserveSpill g false)
  | .engine x => (s.setCore c { s.core c with engResv := (s.core c).engResv - 1 }).later (some x)
  | .infl x => s.later (some x)
  | .credit target rin n =>
    let k := s.core c
    s.setCore c { k with credits := k.credits.map (fun y =>
      if y.target == target && y.rin == rin then { y with avail := min y.depth (y.avail + n) } else y) }
  | .rowEngine =>
    let k := s.core c
    if k.row.resv == some g && !(k.warps.any (fun p => p.2.graph == g && p.2.taken.contains .rowEngine)) then
      s.setCore c { k with row := { k.row with resv := none } }
    else s

/-- What a graph's instructions on a core have asked for beside their warps' loads is told to nobody any more. -/
def State.dropAsks (s : State) (c g : Nat) : State :=
  { s with
    asksFailed := s.asksFailed.filter (fun x => !(x.core == c && x.graph == g))
    reqs := Map.mapVals (fun _ r => if r.ask && r.core == c && r.graph == g then { r with ask := false } else r) s.reqs }

/-- Requests that would have filled a warp's registers fill nothing (R35). -/
def State.forgetWarp (s : State) (c k : Nat) : State :=
  { s with reqs := s.reqs.map (fun p => (p.1,
      match p.2.warp with
      | some (c', k', _, _) => if c' == c && k' == k then { p.2 with warp := none } else p.2
      | none => p.2)) }

/-- A warp aborts before its commit point (R34): its buffer is discarded, its slot freed, what it took given back,
and every instance but those of the lanes in `held` returns to its carafe. The cause is as in R277; any but a refetch (3) ends
its instances' counts of refetch aborts in a row (R217). -/
def State.abort (s : State) (c k : Nat) (w : Warp) (cause : Nat) (held : List Nat) : State :=
  let s1 := ((s.setCore c { s.core c with warps := Map.del (s.core c).warps k }).forgetWarp c k).dropAsks c w.graph
  let s2 := w.taken.foldl (fun a t => a.giveBack c w.graph t) s1
  let s3 := (s2.count c 0x027 cause 1)
  let s4 := if s.traced w then s3.trace c w.graph 4 (warpBody k w + cause * 2 ^ 16) else s3
  let s5 := w.loads.foldl (fun a l => l.charges.foldl (fun b x => b.later (some x)) a) s4
  (w.insts.zipIdx).foldl (fun a p =>
    if held.contains p.2 then a.setEntry c p.1.frame p.1.entry (fun e => { e with state := .recorded, held := true, refetch := 0 })
    else (if cause = 3 then a else a.setEntry c p.1.frame p.1.entry (fun e => { e with refetch := 0 })).enterCarafe c p.1.frame p.1.entry) s5

/-! ### Taking an instance fault (R34, R359) -/

/-- What one lane met: the fault's code and the faulting address. -/
structure LaneFault where
  lane : Nat
  code : Nat
  addr : Nat
  deriving DecidableEq, Repr

/-- The KIND 0 record of a faulting instance (R358). -/
def State.instRec (s : State) (c : Nat) (w : Warp) (x : LaneFault) : FaultRec :=
  let r := s.mkRec w.graph 0 x.code
  match w.insts[x.lane]? with
  | none => r
  | some i => { r with addr := x.addr, aux := 2 ^ x.lane, fp := fpOf c i.frame, iter := i.iter, block := w.block,
                       die := dieOf c, core := c % 64, entry := i.entry }

/-- The lanes of a warp take instance faults: the warp aborts, the faulting instances are held and reported, and the
others return to their carafe (R34, R359). -/
def State.takeFault (s : State) (c k : Nat) (w : Warp) (xs : List LaneFault) : State :=
  xs.foldl (fun a x => a.report c (a.instRec c w x)) (s.abort c k w 0 (xs.map (fun x => x.lane)))

/-- A check made once for the warp counts as a fault of lane 0 (R359). -/
def State.takeWarpFault (s : State) (c k : Nat) (w : Warp) (code addr : Nat) : State := s.takeFault c k w [⟨0, code, addr⟩]

/-! ### The return from an instance fault (R354, R359) -/

/-- A frame's entry freed and its instance's input presence bits cleared (R33, R359). -/
def State.clearInputs (s : State) (c i j : Nat) : State :=
  match s.frame? c i with
  | none => s
  | some f =>
    let x := nthD Entry.empty f.entries j
    match s.block? f.graph x.block with
    | none => s.storeFrame c i { f with entries := setNth f.entries j Entry.empty }
    | some b =>
      let ins := inputSlots b.hdr x.iter
      let s1 := s.storeFrame c i { f with
        presence := f.presence.filter (fun e => !ins.contains e), entries := setNth f.entries j Entry.empty }
      if f.chain.any (fun r => match r with | .deferred _ _ => true | .watch _ _ _ => false) then s1.askPass c i else s1

/-- An instance is held, and reported with a code (R10, R22, R359). -/
def State.holdInst (s : State) (c i j code : Nat) : State :=
  match s.frame? c i with
  | none => s
  | some f =>
    let x := nthD Entry.empty f.entries j
    let s1 := s.setEntry c i j (fun e => { e with held := true, state := .recorded })
    s1.report c { s1.mkRec f.graph 0 code with
      fp := fpOf c i, iter := x.iter, block := x.block, die := dieOf c, core := c % 64, entry := j }

/-- A held instance returns to its carafe in its age place, and pours again (R34, R359); one that lies outside its block's
rectangles can never pour, and is held anew (R10). -/
def State.resumeHeld (s : State) (c i j : Nat) : State :=
  let s1 := s.setEntry c i j (fun e => { e with poisonSeen := false })
  match s.frame? c i with
  | none => s1
  | some f => if s.inBlockRects f.graph (nthD Entry.empty f.entries j).block c then s1.enterCarafe c i j else s1.holdInst c i j 0x05

/-- A held instance is poisoned, and reported anew (R22, R359). -/
def State.poisonHeld (s : State) (c i j : Nat) : State :=
  (s.setEntry c i j (fun e => { e with poisonSeen := true })).holdInst c i j 0x04

end Sys2Proof.Machine
end

