-- ==== Sys2Proof/Machine/Frames.lean ====
section
/-! DEFINITION. Frames: indices, images, creation, release and retirement, residency, children and the task queue, and
when a commit's writes have performed (R11, R36 to R41, R124, R129, R191, R192, R269, R270, R423). -/
namespace Sys2Proof.Machine

/-! ### Indices and room -/

/-- 64-byte blocks of a frame: the header and its slot blocks (R191). -/
def frameBlocks (slotblk : Nat) : Nat := 2 + slotblk + 1

/-- Whether a drain of a frame is under way (R361). -/
def Frame.draining (f : Frame) : Bool := f.drained.any (fun x => x % 2 == 1)

/-- The lowest run of n free indices at or above `pos`, among runs in use that rise (R191). -/
def freeRun (n : Nat) : List (Nat × Nat) → Nat → Option Nat
  | [], pos => if pos + n ≤ 16384 then some pos else none
  | (i, len) :: t, pos => if pos + n ≤ i then some pos else freeRun n t (max pos (i + len))

def Core.freeRun (k : Core) (n : Nat) : Option Nat :=
  Machine.freeRun n (k.frames.map (fun p => (p.1, frameBlocks p.2.slotblk))) 0

/-- 64-byte blocks of the frame partition (R148, R190). -/
def Core.frameRoom (k : Core) : Nat := bits k.sramPart.toNat 0 8 * 1024

def Core.residentBlocks (k : Core) : Nat :=
  k.frames.foldl (fun a p => if p.2.resident then a + frameBlocks p.2.slotblk else a) 0

/-- A frame may not be evicted while an instance of it is in a carafe, in a warp or ready (R37). -/
def Frame.busy (f : Frame) : Bool := f.entries.any (fun x => decide (x.state = .recorded) || decide (x.state = .waiting))

/-- The frame of some that was created last. -/
def lastCreated : List (Nat × Frame) → Option (Nat × Frame)
  | [] => none
  | p :: t =>
    match lastCreated t with
    | none => some p
    | some q => if (q.2.created, q.1) = (max p.2.created q.2.created, max p.1 q.1) || p.2.created < q.2.created then some q else some p

/-- A frame leaves frame memory (R37, R361): its image is written, and its tokens are deferred until it has been (R38). -/
def State.evict (s : State) (c i : Nat) (f : Frame) : State :=
  ((s.setFrame c i { f with resident := false, moving := (s.graph? f.graph).isSome }).writeImage c i [] f).count c 0x025 0 1

/-- Frames are evicted, the one created most recently first, until n blocks fit (R37); none when they cannot. A frame at which a token
has landed in this cycle stays (R14). -/
def State.makeRoom (s : State) (c n : Nat) : Nat → Option State
  | 0 => none
  | fuel + 1 =>
    let k := s.core c
    if k.residentBlocks + n ≤ k.frameRoom then some s
    else match lastCreated (k.frames.filter (fun p => p.2.resident && !p.2.busy && !p.2.draining && !s.landedNow c p.1)) with
      | none => none
      | some (i, f) => (s.evict c i f).makeRoom c n fuel

/-! ### Tokens that frames cause -/

/-- A plain token of a graph: no combine, no release, no null (R15). -/
def plainToken (fp block slot iter ident payload : Nat) : Token :=
  { fp := fp, block := block, slot := slot, iter := iter, null := false, bad73 := false, comb := .none, rel := .auto,
    poison := false, stop := 0, payload := BitVec.ofNat 64 payload, ident := ident, relWord := RelWord.none,
    crossed := false, sender := none, hb := [], charges := [] }

/-! ### When a commit's writes have performed (R124, R129, R132, R138) -/

/-- Whether a release reaches beyond its core (R124). -/
def Scope.beyondCore : Scope → Bool
  | .die | .package => true
  | .auto | .core => false

/-- Whether a request still keeps a release waiting: until its home has accepted it, whatever the scope, since until then
it may park (R138; DEDUCED, assumption 77). A deferred reader has performed (R226). -/
def Req.blocks (r : Req) : Bool :=
  match r.state with
  | .reader => false
  | .parked _ | .moving | .walking | .port | .remote => true

/-- Whether every write of a commit has performed; those of its scans count among them (R257). -/
def State.performed (s : State) (cid : Nat) : Bool :=
  (match Map.find? s.commits cid with | none => true | some r => r.later.isEmpty)
    && s.reqs.all (fun p => !(p.2.cid == some cid && p.2.blocks))
    && s.cores.all (fun q => q.2.engines.all (fun p => !(decide (p.2.kind = .nzscan) && p.2.cid == some cid)))

/-- Whether a line written back from a core's stash, whatever recalled it, is still on its way home (R124, R203). -/
def State.writesBack (s : State) (c : Nat) : Bool := s.reqs.any (fun p => p.2.wb && p.2.core == c)

/-- Whether a release of a commit may leave: its own writes and those before it have performed, and beyond core scope no
stash line of its core is on its way home (R124, R129). -/
def State.released (s : State) (cid : Nat) (scope : Scope) : Bool :=
  s.performed cid
    && (match Map.find? s.commits cid with
        | none => true
        | some r => r.hb.all s.performed && !(Scope.beyondCore scope && s.writesBack r.core))

/-- A commit whose writes and tokens are all out is forgotten. -/
def State.retireCommit (s : State) (cid : Nat) : State :=
  match Map.find? s.commits cid with
  | none => s
  | some r =>
    if r.held.isEmpty && s.performed cid && !(s.batches.any (fun b => b.2.cid == some cid))
        && !(s.services.any (fun y => y.cid == cid))
        && !(s.cores.any (fun k => k.2.tasks.any (fun t => t.cid == some cid)))
        && !(s.cores.any (fun k => k.2.warps.any (fun w => match w.2.phase with | .committing _ _ x => x == cid | _ => false)))
    then { s with commits := Map.del s.commits cid } else s

/-- The commits that a token's consumer comes after, as long as they are not forgotten (R125, R129). -/
def State.chainHb (s : State) (cid : Nat) : List Nat :=
  match Map.find? s.commits cid with
  | none => []
  | some r => insSet (r.hb.filter (fun h => (Map.find? s.commits h).isSome)) cid

/-! ### Creation (R191) -/

/-- A new frame (R11, R36): header at its reset values, slots 0, nothing present. -/
def newFrame (cr : Creation) (now : Nat) (ident : Nat) (resident : Bool) : Frame :=
  { serial := cr.serial, parent := cr.parent, graph := cr.graph, ident := ident, depth := cr.depth, prio := cr.prio,
    closing := false, slotblk := cr.slotblk, join := 0, ordinal := cr.ordinal, infl := ⟨0, 0, 0, 0⟩, presence := [],
    entries := List.replicate 11 Entry.empty, slots := [], chain := [], resident := resident, created := now,
    broughtAt := now, released := false, launch := cr.launch, drained := [],
    addressed := false, moving := false }

/-- The entry token of a dispatched child leaves the spawning core, and the task entry leaves its queue (R270). -/
def State.sendEntry (s : State) (c task : Nat) (t : Token) : State :=
  let k := s.core c
  let s1 := (s.setCore c { k with tasks := k.tasks.filter (fun x => x.id != task) }).sendToken c t
  match (k.tasks.find? (fun x => x.id == task)).bind (fun x => x.cid) with
  | some cid => s1.retireCommit cid
  | none => s1

/-- What follows the creation of a frame with frame pointer fp (R191, R264, R270, R286, R358). -/
def State.created (s : State) (c : Nat) (cr : Creation) (fp ident : Nat) : State :=
  match cr.what with
  | .root _ => cr.tokens.foldl (fun a t => a.sendFrom 18 { t with fp := fp }) s
  | .trap _ _ => cr.tokens.foldl (fun a t => a.sendFrom 18 { t with fp := fp }) s
  | .falloc own block slot iter _ => s.sendToken c (plainToken own block slot iter ident fp)
  | .spawn task =>
    let src := fpCore cr.parent
    match (s.core src).tasks.find? (fun x => x.id == task) with
    | none => s
    | some e =>
      let t0 := { plainToken fp e.block e.slot 0 ident e.payload.toNat with
        rel := e.rel, relWord := e.relWord, sender := some cr.parent }
      match e.cid with
      | none => s.sendEntry src task t0
      | some cid =>
        if Scope.isAuto e.rel then s.sendEntry src task t0
        else
          let t := { t0 with hb := s.chainHb cid }
          if s.released cid e.rel then s.sendEntry src task t
          else match Map.find? s.commits cid with
            | none => s.sendEntry src task t
            | some r =>
              let r1 := { r with held := r.held ++ [HeldToken.mk (.entry task t) e.rel src none] }
              { s with commits := Map.put s.commits cid r1 }

/-- A new frame's backing image is cleared where the frame stands in it, and where its indices have been used and their
pages are mapped (R36; DEDUCED, assumption 73). -/
def State.clearImage (s : State) (c i : Nat) (f : Frame) : State :=
  let used := (List.range (frameBlocks f.slotblk)).any (fun n => (s.core c).used.contains (i + n))
  let mapped := match s.graph? f.graph with
    | none => false
    | some g => decide (backing g.privBase (fpOf c i) - g.privBase + 128 + 64 * (f.slotblk + 1) ≤ nthD 0 g.hwm 0)
  if !f.resident || (used && mapped) then s.writeImage c i [] f else s

/-- The die that asks for a frame, and gets the answer (R191, R264, R270, R286, R358). -/
def CreateFor.die (w : CreateFor) (parent : Nat) : Nat :=
  match w with
  | .root _ | .trap _ _ => 18
  | .falloc fp _ _ _ _ => dieOf (fpCore fp)
  | .spawn _ => dieOf (fpCore parent)

/-- The boundaries that a request for a frame on a core crosses (R47). -/
def Creation.dirs (cr : Creation) (c : Nat) : List Nat := routeDirs (cr.what.die cr.parent) (dieOf c)

/-- A request for a frame goes to a core, behind those that came before (R47, R191); none while its way is down (R49). -/
def State.askFrame (s : State) (c : Nat) (cr : Creation) : Option State :=
  if !s.pathUp (cr.dirs c) then none
  else
    let s1 := s.countFlits (cr.dirs c) 16
    some (s1.setCore c { s1.core c with creations := (s1.core c).creations ++ [cr] })

/-- The boundaries that the answer to a request crosses; FALLOC's is a token, which has its own way (R47, R286). -/
def Creation.answerDirs (cr : Creation) (c : Nat) : List Nat :=
  match cr.what with
  | .falloc _ _ _ _ _ => []
  | .root _ | .spawn _ | .trap _ _ => routeDirs (dieOf c) (cr.what.die cr.parent)

/-- FRAME_CREATE (R36, R47, R191): the creation at the head of a core's order takes the lowest run of free indices, whose
images are cleared; without a run, or while the way of its answer is down, it waits. -/
def execFrameCreate (c : Nat) (s : State) : Host.Outcome State Fault Refusal :=
  let k := s.core c
  match k.creations with
  | [] => .next s
  | cr :: rest =>
    match k.freeRun (frameBlocks cr.slotblk) with
    | none => .next s
    | some i =>
      if !s.pathUp (cr.answerDirs c) then .next s else
      let ident := match s.graph? cr.graph with | some g => g.identity | none => 0
      let fits := decide (k.residentBlocks + frameBlocks cr.slotblk ≤ k.frameRoom)
      let f := newFrame cr s.now ident fits
      let s1 := (s.clearImage c i f).countFlits (cr.answerDirs c) 16
      let q := s1.core c
      let places := (List.range (frameBlocks cr.slotblk)).map (fun n => i + n)
      .next ((s1.setCore c { q with
        creations := rest, frames := Map.put q.frames i f
        lastOwner := places.foldl (fun m n => Map.put m n cr.graph) q.lastOwner
        used := places.foldl insSet q.used }).created c cr (fpOf c i) ident)

/-! ### Closing, release and retirement (R39, R288) -/

/-- A launch's root has retired (R9). -/
def State.rootRetired (s : State) (l : Option Nat) : State :=
  match l with
  | none => s
  | some n =>
    match Map.find? s.control.launches n with
    | none => s
    | some x => { s with control := { s.control with launches := Map.put s.control.launches n { x with live := x.live - 1 } } }

/-- An activation retires (R39): its parent's JOIN falls by a message, or its launch has one root less. -/
def State.retire (s : State) (c : Nat) (f : Frame) (parentSerial : DWord) : State :=
  if f.depth = 0 then s.rootRetired f.launch
  else { s with retires := s.retires ++ [(f.parent, parentSerial, c)] }

/-- The serial that a child's parent had, kept with the child: the frame the parent pointer names, if it is there. -/
def State.parentSerial (s : State) (f : Frame) : DWord :=
  match s.frame? (fpCore f.parent) (fpIndex f.parent) with
  | some p => if serialMix p.serial f.ordinal = f.serial then p.serial
    else match (s.core (fpCore f.parent)).ghosts.find? (fun g => g.1 == fpIndex f.parent && decide (serialMix g.2.serial f.ordinal = f.serial)) with
      | some g => g.2.serial
      | none => 0
  | none =>
    match (s.core (fpCore f.parent)).ghosts.find? (fun g => g.1 == fpIndex f.parent && decide (serialMix g.2.serial f.ordinal = f.serial)) with
    | some g => g.2.serial
    | none => 0

/-- A free of a frame sets CLOSING (R39). -/
def State.closeFrame (s : State) (c i : Nat) : State :=
  match s.frame? c i with
  | none => s
  | some f => s.storeFrame c i { f with closing := true }

/-- A frame's memory is released (R39, R193, R289): its chain is discarded, its watches counted, its indices free. -/
def State.releaseFrame (s : State) (c i : Nat) (f : Frame) : State :=
  let s1 := f.chain.foldl (fun a r => (if r.isWatch then a.count c 0x040 0 1 else a).freeLog c r.log) s
  let k := s1.core c
  let k1 := { k with frames := Map.del k.frames i, represent := delSet k.represent i }
  if f.join = 0 then (s1.setCore c k1).retire c f (s.parentSerial f)
  else s1.setCore c { k1 with ghosts := k1.ghosts ++ [(i, { f with released := true, chain := [], entries := [] })] }

/-- FRAME_RELEASE (R39): a closing frame with no instance left gives its memory back. -/
def execFrameRelease (c i : Nat) (s : State) : Host.Outcome State Fault Refusal :=
  match s.frame? c i with
  | none => .next s
  | some f => .next (if f.closing && !f.busy && !f.moving && !s.landedNow c i then s.releaseFrame c i f else s)

/-- JOIN falls by one; at 0 the JOIN watches are evaluated (R39, R289). -/
def State.joinFalls (s : State) (c i : Nat) (f : Frame) : State :=
  let s1 := s.storeFrame c i { f with join := f.join - 1 }
  if f.join = 1 then s1.runWatches c i none f.chain else s1

/-- CHILD_RETIREMENT (R39, R47): the k-th message crosses to the parent over boundaries that are up; the parent may retire in turn. -/
def execChildRetirement (k : Nat) (s : State) : Host.Outcome State Fault Refusal :=
  match s.retires[k]? with
  | none => .next s
  | some (fp, serial, src) =>
    let c := fpCore fp
    let dirs := routeDirs (dieOf src) (dieOf c)
    let s1 := ({ s with retires := dropNth s.retires k } : State).countFlits dirs 16
    let i := fpIndex fp
    let here := match s1.frame? c i with | some f => decide (f.serial = serial) | none => false
    if !s.pathUp dirs then .next s
    else match s1.frame? c i, here with
    | some f, true => .next (if s.lateAt c i then s else s1.joinFalls c i f)
    | _, _ =>
      match findIdx (fun g => g.1 == i && decide (g.2.serial = serial)) (s1.core c).ghosts with
      | none => .next s1
      | some (n, (_, g)) =>
        let q := s1.core c
        if g.join ≤ 1 then
          .next ((s1.setCore c { q with ghosts := dropNth q.ghosts n }).retire c g (s1.parentSerial g))
        else .next (s1.setCore c { q with ghosts := setNth q.ghosts n (i, { g with join := g.join - 1 }) })

/-- The k-th packet on its way to a core's matching unit, if none of its source stands before it, there or in the unit's
hold for a log record (R48, R193). -/
def Core.firstOf (q : Core) (k : Nat) : Option Packet :=
  match q.matchIn[k]? with
  | none => none
  | some p =>
    let held := match q.heldToken with | some x => x.src == p.src | none => false
    if held || (q.matchIn.take k).any (fun x => x.src == p.src) then none else some p

/-- FREE_REQUEST (R288): a free request reaches its frame. In a cycle it acts before the landing at the frame (R14), and not
while the die is halted (R267, R364). -/
def execFreeRequest (c k : Nat) (s : State) : Host.Outcome State Fault Refusal :=
  let q := s.core c
  match q.firstOf k with
  | some ⟨_, _, .free fp ident⟩ =>
    if s.halted (dieOf c) || s.landedNow c (fpIndex fp) then .next s else
    let s1 := s.setCore c { q with matchIn := dropNth q.matchIn k }
    let ok := match s1.frame? c (fpIndex fp) with
      | none => false
      | some f => !f.closing && (match s1.graph? f.graph with | some g => g.identity == ident | none => false)
    .next (if ok then s1.closeFrame c (fpIndex fp) else s1.stray c fp 0 0 ident)
  | _ => .next s

/-! ### Residency (R37) -/

/-- Whether a non-resident frame is to be brought in: an instance of it is ready, or an instance of another frame has
addressed it. -/
def Frame.wants (f : Frame) : Bool := !f.resident && (f.addressed || f.entries.any (fun x => decide (x.state = .waiting)))

/-- Whether a frame comes before another in creation order (R22). -/
def createdBefore (a b : Nat × Frame) : Bool := decide (a.2.created < b.2.created) || (a.2.created == b.2.created && decide (a.1 < b.1))

/-- Whether a frame may be brought into frame memory before every other that waits (R37, R38, R194): it waits, its graph is
loaded, no write of its image stands, and no earlier one in creation order waits. -/
def State.nextIn (s : State) (c i : Nat) (f : Frame) : Bool :=
  let live := fun (g : Nat) => match s.graph? g with | some x => decide (x.state = .loaded) | none => false
  f.wants && live f.graph && !f.moving && !s.imageBusy c i f
    && !(s.core c).frames.any (fun p => p.2.wants && live p.2.graph && createdBefore p (i, f))

/-- Whether a frame cannot be brought in until a parked write of its image performs, or a commit makes room (R37, R194). -/
def State.stuckOut (s : State) (c i : Nat) (f : Frame) : Bool :=
  s.imageParked c i f || (s.makeRoom c (frameBlocks f.slotblk) 16385).isNone

/-- Whether a frame will be brought in without a commit or a replay: neither it nor one that comes in before it is stuck (R37). -/
def State.comesIn (s : State) (c i : Nat) (f : Frame) : Bool :=
  f.wants && !s.stuckOut c i f
    && !(s.core c).frames.any (fun p => p.2.wants && (match s.graph? p.2.graph with | some x => decide (x.state = .loaded) | none => false)
      && createdBefore p (i, f) && s.stuckOut c p.1 p.2)

/-- FRAME_BRING_IN (R37, R361): a frame of a loaded graph comes into frame memory, after those earlier in creation
order that wait for it, once no write of its image stands (R38, R194); the drain clocks of its requests start again. -/
def execFrameBringIn (c i : Nat) (s : State) : Host.Outcome State Fault Refusal :=
  match s.frame? c i with
  | none => .next s
  | some f =>
    if !s.nextIn c i f || s.landedNow c i || s.halted (dieOf c) then .next s
    else match s.makeRoom c (frameBlocks f.slotblk) 16385 with
      | none => .next s
      | some s1 => .next ((s1.setFrame c i { f with resident := true, broughtAt := s.now, drained := [], addressed := false }).count c 0x026 0 1)

/-! ### Task queue and spill (R269, R270, R423) -/

/-- The 32 bytes of a task entry (R423). -/
def TaskEntry.bytes (e : TaskEntry) : List Byte :=
  toBytes 32 (e.payload.toNat + e.parent % 2 ^ 32 * 2 ^ 64 + e.target * 2 ^ 119 + e.block % 4096 * 2 ^ 128
    + e.slot % 256 * 2 ^ 140 + e.slotblk % 16 * 2 ^ 148 + e.ordinal % 2 ^ 26 * 2 ^ 152 + Scope.code e.rel * 2 ^ 178
    + e.edge.list.byte % 256 * 2 ^ 184 + e.edge.list.idBytes % 2 ^ 32 * 2 ^ 192)

/-- Virtual address of a ring position of the spawn spill (R194, R269). -/
def spillAddr (g : Graph) (c i : Nat) : Nat := g.privBase + 0x1000000000 + c * 2 ^ 27 + 32 * (i % Config.spillEntries)

def State.spill (s : State) (g c : Nat) : SpillRing :=
  match s.graph? g with
  | none => ⟨0, []⟩
  | some x => Map.getD x.spills c ⟨0, []⟩

def State.setSpill (s : State) (g c : Nat) (r : SpillRing) : State :=
  match s.graph? g with
  | none => s
  | some x => s.setGraph g { x with spills := Map.put x.spills c r }

/-- A task entry goes to the tail of its graph's spill ring, and its write is sent (R194, R269). -/
def State.spillTask (s : State) (c : Nat) (e : TaskEntry) : State :=
  let r := s.spill e.graph c
  match s.graph? e.graph with
  | none => s
  | some g =>
    (s.setSpill e.graph c { r with ents := r.ents ++ [(e, true)] }).hwWrite c e.graph
      (spillAddr g c (r.head + r.ents.length)) e.bytes

/-- TASK_DISPATCH (R47, R270): the first entry that no earlier one for its target core holds back, and whose way there is up, asks for
its frame. -/
def execTaskDispatch (c : Nat) (s : State) : Host.Outcome State Fault Refusal :=
  let k := s.core c
  let pick := findIdx (fun p => !p.1.asked && s.pathUp (routeDirs (dieOf (fpCore p.1.parent)) (dieOf p.1.target)) && !((k.tasks.take p.2).any (fun y => y.target == p.1.target && y.asked
      && !(s.core y.target).creations.all (fun q => match q.what with | .spawn n => n != y.id | _ => true)))) k.tasks.zipIdx
  match pick with
  | none => .next s
  | some (n, (e, _)) =>
    let s1 := s.setCore c { k with tasks := setNth k.tasks n { e with asked := true } }
    let cr : Creation :=
      { what := .spawn e.id, graph := e.graph, slotblk := e.slotblk, serial := serialMix e.parentSerial e.ordinal,
        parent := e.parent, depth := e.depth + 1, prio := e.prio, ordinal := e.ordinal, launch := e.launch, tokens := [] }
    .next ((s1.askFrame e.target cr).getD s)

/-- SPILL_DRAIN (R270): the oldest spill entry of a graph enters the task queue while 256 places are free, once its
write has performed. -/
def execSpillDrain (c g : Nat) (s : State) : Host.Outcome State Fault Refusal :=
  let k := s.core c
  let r := s.spill g c
  match r.ents, s.graph? g with
  | (e, _) :: t, some x =>
    let held := s.reqs.any (fun p => p.2.hw && p.2.core == c && p.2.graph == g && p.2.va == spillAddr x c r.head)
    if 512 - k.tasks.length - k.taskResv < 256 || held || decide (x.state ≠ .loaded) then .next s
    else .next ((s.setSpill g c ⟨r.head + 1, t⟩).setCore c { k with tasks := k.tasks ++ [e] })
  | _, _ => .next s

end Sys2Proof.Machine
end

