-- ==== Sys2Proof/Machine/Pour.lean ====
section
/-! DEFINITION. The matching unit's turns, the recording of ready instances, carafe timers, priorities and the pour
(R14, R18, R22 to R29, R34, R193). -/
namespace Sys2Proof.Machine

/-! ### The matching unit -/

/-- TOKEN_LAND (R14, R15): the k-th packet on its way reaches the matching unit, which handles it in this cycle. Packets
arrive in the order in which the schedule names them, those of one source in the order they were sent (R48). The unit handles
one token a cycle, none while it holds one, and deferred tokens of the frame first (R18). A token whose acquire waits for the sweep of
a wrapped generation goes back to its place, and later arrivals may land before it (R130, R200; DESIGN CHOICE, assumption 99). -/
def execTokenLand (c k : Nat) (s : State) : Host.Outcome State Fault Refusal :=
  let q := s.core c
  if q.heldToken.isSome then .next s
  else match q.firstOf k with
    | some ⟨src, dst, .token t⟩ =>
      if !s.mayLand c (fpIndex t.fp) then .next s
      else
        let s1 := (s.setCore c { q with matchIn := dropNth q.matchIn k }).markLanded c (fpIndex t.fp)
        if t.bad73 then .next (s1.count c 0x040 0 1)
        else match s1.handleToken c t true with
          | .done s2 => .next s2
          | .wait => .next (s1.setCore c { s1.core c with heldToken := some ⟨src, dst, .token t⟩ })
          | .again s2 t2 =>
            let q2 := s2.core c
            .next (s2.setCore c { q2 with matchIn := q2.matchIn.take k ++ [Packet.mk src dst (.token t2)] ++ q2.matchIn.drop k })
    | _ => .next s

/-- DEFERRED_TOKEN_REPRESENT (R14, R18): after a commit's clear the frame's deferred tokens are presented in order, one a cycle; one
whose record's write is parked stays held (R194). -/
def execDeferredTokenRepresent (c i : Nat) (s : State) : Host.Outcome State Fault Refusal :=
  if !s.unitFree c || !(s.core c).represent.contains i then .next s
  else match s.nextDeferred c i with
    | none => .next (s.endPass c i)
    | some (n, t) =>
      if s.heldRecord c i n then .next s
      else .next (((s.markLanded c i).presentOne c i n t).endPass c i)

/-- TOKEN_LOG_WAIT_RESUME (R193): the token that waited for a log record is handled once one is free. -/
def execTokenLogWaitResume (c : Nat) (s : State) : Host.Outcome State Fault Refusal :=
  let q := s.core c
  match q.heldToken with
  | some ⟨src, dst, .token t⟩ =>
    if !s.mayLand c (fpIndex t.fp) then .next s else
    let s1 := (s.setCore c { q with heldToken := none }).markLanded c (fpIndex t.fp)
    match s1.handleToken c t true with
    | .done s2 => .next s2
    | .wait => .next s
    | .again s2 t2 => .next (s2.setCore c { s2.core c with matchIn := Packet.mk src dst (.token t2) :: (s2.core c).matchIn })
  | _ => .next s

/-! ### Recording (R22) -/

/-- A waiting instance: frame, entry, the entry itself, the frame's creation. -/
structure Waiting where
  frame : Nat
  entry : Nat
  x : Entry
  created : Nat
  graph : Nat
  deriving DecidableEq, Repr

/-- Whether an entry of a graph that was ready at its RESUME in cycle t still waits to be recorded (R265): in a frame that is
there, or for which there can be room (DESIGN CHOICE, assumption 48: else it waits for a commit, R37). -/
def State.savedFirst (s : State) (c g t : Nat) : Bool :=
  (s.core c).frames.any (fun p => p.2.graph == g && p.2.entries.any (fun x => decide (x.state = .waiting) && decide (x.readyAt ≤ t))
    && (p.2.resident || s.comesIn c p.1 p.2))

/-- Whether an entry that became ready in a cycle comes after entries of its graph's RESUME that still wait (R265). -/
def State.afterSaved (s : State) (c g readyAt : Nat) : Bool :=
  match (s.graph? g).bind (fun x => x.resumedAt) with
  | none => false
  | some t => decide (t < readyAt) && s.savedFirst c g t

/-- The entries of resident frames of loaded graphs in state 0b11, ready before this cycle, whose carafe has room. -/
def State.recordable (s : State) (c : Nat) : List Waiting :=
  (s.core c).frames.flatMap (fun p =>
    let live := match s.graph? p.2.graph with | some g => decide (g.state = .loaded) | none => false
    if !p.2.resident || p.2.draining || !live then [] else (p.2.entries.zipIdx).filterMap (fun e =>
      let room := match (s.core c).carafeFor p.2.graph e.1.block with
        | none => false
        | some n => decide ((Map.getD (s.core c).carafes n Carafe.free).recs.length < 256)
      if decide (e.1.state = .waiting) && decide (e.1.readyAt < s.now) && room && !s.afterSaved c p.2.graph e.1.readyAt then
        some ⟨p.1, e.2, e.1, p.2.created, p.2.graph⟩
      else none))

/-- The order in which waiting entries are recorded (R22): creation order, then readiness. -/
def recordBefore (a b : Waiting) : Bool :=
  decide (a.created < b.created) || (a.created == b.created && (decide (a.frame < b.frame)
    || (a.frame == b.frame && decide (a.x.order < b.x.order))))

/-- RECORD_INSTANCE (R22): in a cycle it acts before the landing at the frame (R14), and not while the die is halted (R364). -/
def execRecordInstance (c i j : Nat) (s : State) : Host.Outcome State Fault Refusal :=
  let ws := s.recordable c
  match ws.find? (fun w => w.frame == i && w.entry == j) with
  | none => .next s
  | some w =>
    .next (if ws.any (fun y => recordBefore y w) || s.landedNow c i || s.halted (dieOf c) then s else s.enterCarafe c i j)

/-! ### Timers and priorities (R23, R24, R26) -/

/-- BREW_TIMER_EXPIRY (R24): a carafe's timer has run out. -/
def execBrewTimerExpiry (c n : Nat) (s : State) : Host.Outcome State Fault Refusal :=
  let k := s.core c
  match Map.find? k.carafes n with
  | some y =>
    (match y.timer with
    | some t => .next (if t ≤ s.now && !s.halted (dieOf c) then
        s.setCore c { k with carafes := Map.put k.carafes n { y with timer := none, expired := true } } else s)
    | none => .next s)
  | none => .next s

/-- CARAFE_LINGER_EXPIRY (R23): an empty carafe is free again after one brew period. -/
def execCarafeLingerExpiry (c n : Nat) (s : State) : Host.Outcome State Fault Refusal :=
  let k := s.core c
  match Map.find? k.carafes n with
  | some y =>
    (match y.linger with
    | some t => .next (if t ≤ s.now && y.recs.isEmpty && !s.halted (dieOf c) then
        s.setCore c { k with carafes := Map.del k.carafes n } else s)
    | none => .next s)
  | none => .next s

/-- Whether a core holds a ready instance of a graph, in a carafe or waiting for one (R26). -/
def Core.holdsReady (k : Core) (g : Nat) : Bool :=
  k.carafes.any (fun q => q.2.graph == g && !q.2.recs.isEmpty)
    || k.frames.any (fun q => q.2.graph == g && q.2.entries.any (fun x => decide (x.state = .waiting)))

/-- PRIORITY_AGING (R26): 65,536 cycles with a ready instance and without a pour raise the graph's priority on the core. -/
def execPriorityAging (c g : Nat) (s : State) : Host.Outcome State Fault Refusal :=
  let k := s.core c
  match Map.find? k.prios g with
  | some p =>
    (match p.since with
    | some t => .next (if t + 65536 ≤ s.now && k.holdsReady g && !s.halted (dieOf c) then
        s.setCore c { k with prios := Map.put k.prios g ⟨min 3 (p.level + 1), some (t + 65536)⟩ } else s)
    | none => .next s)
  | none => .next s

/-- AGE_PROMOTION (R26): a carafe that has held instances for more than four brew periods goes to its level's head. -/
def execAgePromotion (c n : Nat) (s : State) : Host.Outcome State Fault Refusal :=
  let k := s.core c
  match Map.find? k.carafes n with
  | some y =>
    (match y.heldSince, s.block? y.graph y.block with
    | some t, some b => .next (if t + 4 * brewPeriod b.hdr < s.now && !y.recs.isEmpty && !s.halted (dieOf c) then
        s.setCore c { k with carafes := Map.put k.carafes n { y with promoted := true } } else s)
    | _, _ => .next s)
  | none => .next s

/-! ### The pour (R25 to R29) -/

/-- Whether a carafe is eligible (R25). -/
def eligible (h : Header) (y : Carafe) : Bool :=
  decide (h.fill + 1 ≤ y.recs.length) || (y.expired && !y.recs.isEmpty)

/-- Resident warps of a partition. -/
def Core.residents (k : Core) (p : Nat) : List (Nat × Warp) := k.warps.filter (fun x => slotPartition x.1 == p)

/-- Free granules of a partition (R27). -/
def Core.freeGranules (k : Core) (p : Nat) : Nat :=
  Config.granulesPerPartition - (k.residents p).foldl (fun a x => a + x.2.gran) 0

def Core.freeSlots (k : Core) (p : Nat) : Nat := Config.slotsPerPartition - (k.residents p).length

/-- Whether a warp of n granules fits on a partition (R27). -/
def Core.fitsOn (k : Core) (n p : Nat) : Bool := decide (0 < k.freeSlots p) && decide (n ≤ k.freeGranules p)

/-- Whether the reserve of R28 still stands after a pour of n granules on partition p. -/
def Core.keepsReserve (k : Core) (n p : Nat) : Bool :=
  (List.range Config.partitions).any (fun q =>
    decide ((if q = p then 1 else 0) < k.freeSlots q) && decide ((if q = p then n else 0) + 4 ≤ k.freeGranules q))

/-- The partition of fewest resident warps, the lowest number on a tie (R27). -/
def Core.leastBusy (k : Core) : List Nat → Option Nat
  | [] => none
  | p :: t =>
    match k.leastBusy t with
    | none => some p
    | some q => if (k.residents p).length ≤ (k.residents q).length then some p else some q

/-- The partition that a pour of n granules takes, within or with the reserve (R27, R28). -/
def Core.place (k : Core) (n : Nat) (reserve : Bool) : Option Nat :=
  k.leastBusy ((List.range Config.partitions).filter (fun p => k.fitsOn n p && (reserve || k.keepsReserve n p)))

/-- Age of the oldest ready instance of the core: recorded, or waiting, whatever keeps it waiting (R28; DESIGN CHOICE,
assumption 75). -/
def Core.oldestReady (k : Core) : Option (Nat × Nat) :=
  let recs := k.carafes.flatMap (fun p => p.2.recs.map (fun r => (r.age, r.order)))
  let waits := k.frames.flatMap (fun p => (p.2.entries.filter (fun x => decide (x.state = .waiting))).map (fun x => (x.readyAt, x.order)))
  (recs ++ waits).foldl (fun a x => match a with
    | none => some x
    | some y => if x.1 < y.1 || (x.1 == y.1 && x.2 < y.2) then some x else some y) none

/-- The level of a carafe (R26). -/
def State.levelOf (s : State) (c : Nat) (y : Carafe) : Nat :=
  match s.graph? y.graph, s.block? y.graph y.block with
  | some g, some b => max b.hdr.prio (Map.getD (s.core c).prios y.graph ⟨g.level, none⟩).level
  | _, _ => 0

/-- The order of eligible carafes (R26): level, promoted ones first, then the age of the oldest instance. -/
def State.pourBefore (s : State) (c : Nat) (a b : Nat × Carafe) : Bool :=
  let la := s.levelOf c a.2
  let lb := s.levelOf c b.2
  let oa := (a.2.recs.headD ⟨0, 0, 0, 0, 0⟩)
  let ob := (b.2.recs.headD ⟨0, 0, 0, 0, 0⟩)
  decide (lb < la) || (la == lb && ((a.2.promoted && !b.2.promoted) || (a.2.promoted == b.2.promoted &&
    (decide (oa.age < ob.age) || (oa.age == ob.age && decide (oa.order < ob.order))))))

/-- Carafes in the order of R26. -/
def State.pourOrder (s : State) (c : Nat) : List (Nat × Carafe) → List (Nat × Carafe)
  | [] => []
  | x :: t =>
    let r := s.pourOrder c t
    (r.takeWhile (fun y => !s.pourBefore c x y)) ++ [x] ++ (r.dropWhile (fun y => !s.pourBefore c x y))

/-- The first carafe of an order that fits, with its partition; `reserve` names the carafe that may use the reserve. -/
def State.choosePour (s : State) (c : Nat) (reserve : Option Nat) : List (Nat × Carafe) → Option (Nat × Carafe × Block × Nat)
  | [] => none
  | (n, y) :: t =>
    match s.block? y.graph y.block with
    | none => s.choosePour c reserve t
    | some b =>
      match (s.core c).place (b.hdr.gran + 1) (reserve == some n) with
      | some p => some (n, y, b, p)
      | none => s.choosePour c reserve t

/-- An instance on a lane of a new warp. -/
def State.instOf (s : State) (c : Nat) (r : CarafeRec) : Inst :=
  match s.frame? c r.frame with
  | none => ⟨r.frame, r.entry, r.iter, 0, r.age, r.order, false, []⟩
  | some f =>
    let x := nthD Entry.empty f.entries r.entry
    ⟨r.frame, r.entry, r.iter, f.serial, r.age, r.order, x.nullSeen, x.hb⟩

/-- The warp that a pour makes (R29). -/
def newWarp (num : Nat) (y : Carafe) (b : Block) (consts : List Word) (insts : List Inst) (now : Nat) : Warp :=
  { num := num, graph := y.graph, block := y.block, insts := insts, v := []
    k := ((consts.take 16).zipIdx).foldl (fun m p => Map.putD 0 m p.2 p.1) []
    p := (insts.zipIdx).foldl (fun m q => Map.putD false m (q.2 * 8 + 6) q.1.nullSeen) []
    pc := 0, gran := b.hdr.gran + 1, pouredAt := now, ended := false, loads := [], stores := [], acts := [], emits := [],
    offers := [], taken := [], fences := [], stall := none, edge := false, spawnPos := 0, acqWait := [], stashWait := [], brk := none,
    phase := .issuing }

/-- The lowest free warp slot of a partition. -/
def Core.freeSlotOf (k : Core) (p : Nat) : Option Nat := Map.firstFree k.warps Config.slotsPerPartition (p * Config.slotsPerPartition)

/-- The carafe after a pour that leaves some records (R23, R24). -/
def pouredCarafe (y : Carafe) (rest : List CarafeRec) (period now : Nat) : Carafe :=
  if rest.isEmpty then y.emptied period now
  else { y with recs := rest, timer := some (now + period), expired := false, heldSince := some now, promoted := false }

/-- A carafe pours on a partition (R25, R29). -/
def State.pourOn (s : State) (c n : Nat) (y : Carafe) (b : Block) (p : Nat) : State :=
  let k := s.core c
  match k.freeSlotOf p, s.graph? y.graph with
  | some slot, some g =>
    let take := y.recs.take (b.hdr.fill + 1)
    let rest := y.recs.drop (b.hdr.fill + 1)
    let w := newWarp s.next y b g.consts (take.map (s.instOf c)) s.now
    let k1 := { k with
      warps := Map.put k.warps slot w
      carafes := Map.put k.carafes n (pouredCarafe y rest (brewPeriod b.hdr) s.now) }
    ({ s with next := s.next + 1 }.setCore c { k1 with poured := some s.now, prios := Map.put k1.prios y.graph ⟨g.level, if k1.holdsReady y.graph then some s.now else none⟩ }).count c 0x021 0 1
  | _, _ => s

/-- Whether an entry of a graph that was ready at its RESUME still has to be recorded on a core before the graph pours (R362): it
can be recorded, or its frame can be brought in, now or once the writes of its image that are on their way have performed. -/
def State.savedPending (s : State) (c g t : Nat) : Bool :=
  (s.recordable c).any (fun w => w.graph == g && decide (w.x.readyAt ≤ t))
    || (s.core c).frames.any (fun p => p.2.graph == g && s.comesIn c p.1 p.2
        && p.2.entries.any (fun x => decide (x.state = .waiting) && decide (x.readyAt ≤ t)))

/-- Whether the pours of a graph that was resumed may begin: every saved entry that can be recorded is, on every core that runs
(R362). -/
def State.poursBegun (s : State) (g : Nat) (x : Graph) : Bool :=
  match x.resumedAt with
  | none => true
  | some t => !s.cores.any (fun k => !s.halted (dieOf k.1) && s.savedPending k.1 g t)

/-- The eligible carafes of a core. -/
def State.eligibles (s : State) (c : Nat) : List (Nat × Carafe) :=
  (s.core c).carafes.filter (fun p =>
    match s.graph? p.2.graph, s.block? p.2.graph p.2.block with
    | some g, some b => decide (g.state = .loaded) && s.poursBegun p.2.graph g && eligible b.hdr p.2
    | _, _ => false)

/-- The carafe that holds the core's oldest ready instance among those it would pour (R28). -/
def State.oldestCarafe (s : State) (c : Nat) (es : List (Nat × Carafe)) : Option Nat :=
  match (s.core c).oldestReady with
  | none => none
  | some a => (es.find? (fun p => match p.2.recs with | [] => false | r :: _ => (r.age, r.order) == a)).map (fun p => p.1)

/-- Whether a carafe is eligible in a graph that is loaded (R25). -/
def State.eligibleNow (s : State) (y : Carafe) : Bool :=
  match s.graph? y.graph, s.block? y.graph y.block with
  | some x, some b => eligible b.hdr y && decide (x.state = .loaded)
  | _, _ => false

/-- Whether some partition has a warp slot for a carafe, the reserve counted as unavailable to all but the oldest (R28, R329). -/
def Core.slotOk (k : Core) (reserve : Bool) : Bool :=
  (List.range Config.partitions).any (fun p => decide (0 < k.freeSlots p)
    && (reserve || (List.range Config.partitions).any (fun q => decide ((if q = p then 1 else 0) < k.freeSlots q))))

/-- The stall counter of R329 in which a carafe counts for want of room: 3 SLOT, 4 GRANULES. -/
def State.roomStall (s : State) (c n : Nat) (y : Carafe) : Option Nat :=
  if !s.eligibleNow y then none
  else
    let reserve := s.oldestCarafe c [(n, y)] == some n
    match s.block? y.graph y.block with
    | none => none
    | some b =>
      if !(s.core c).slotOk reserve then some 3
      else if ((s.core c).place (b.hdr.gran + 1) reserve).isNone then some 4 else none

/-- The key of a stall counter of a block. -/
def stallKey (g b j : Nat) : Nat := (g * 4096 + b) * 8 + j

/-- The SLOT and GRANULES counters whose conditions hold on a core. -/
def State.roomStalls (s : State) (c : Nat) : List Nat :=
  (s.core c).carafes.filterMap (fun p => (s.roomStall c p.1 p.2).map (stallKey p.2.graph p.2.block))

/-- POUR (R27, R28), at most one a cycle: the pour of the oldest ready instance first, which may use the reserve; else the first eligible
carafe that fits. -/
def execPour (c : Nat) (s : State) : Host.Outcome State Fault Refusal :=
  if s.halted (dieOf c) || (s.core c).poured == some s.now then .next s
  else
    let es := s.eligibles c
    let old := s.oldestCarafe c es
    let order := es.filter (fun p => old == some p.1) ++ s.pourOrder c (es.filter (fun p => old != some p.1))
    match s.choosePour c old order with
    | none => .next s
    | some (n, y, b, p) =>
      let s1 := s.pourOn c n y b p
      .next (s1.setCore c { s1.core c with passed := s.roomStalls c })

/-- SYNC_STALL_TIMEOUT (R34): 1,024 cycles on a synchronous resource abort the warp. -/
def execSyncStallTimeout (c k : Nat) (s : State) : Host.Outcome State Fault Refusal :=
  match s.warp? c k with
  | none => .next s
  | some w =>
    match w.stall, w.phase with
    | some t, .issuing => .next (if t + 1024 ≤ s.now && !s.halted (dieOf c) then s.abort c k w 1 [] else s)
    | _, _ => .next s

end Sys2Proof.Machine
end

