-- ==== Sys2Proof/Machine/MemOps.lean ====
section
/-! DEFINITION. Memory instructions at issue, rows 0x8_ and 0x9_: addresses, loads with forwarding, the commit buffer,
stash windows, fences, acquires and rounds (R32, R209 to R230). -/
namespace Sys2Proof.Machine

/-! ### Addresses and replies (R62, R63, R211, R215) -/

/-- Frame index of a lane's instance. -/
def Warp.frameOf (w : Warp) (lane : Nat) : Nat := match w.insts[lane]? with | some i => i.frame | none => 0


/-- The signed byte offset of an instruction whose OFS is a reply word, or is not (R62, R63). -/
def FmtM.offset (m : FmtM) (reply : Bool) : Int :=
  if reply then toSigned 11 (m.ofs % 2048) else toSigned 16 (m.ofs % 65536)

/-- Whether a load replies by token: its DATA is a frame slot (R63, R209). -/
def FmtM.splits (m : FmtM) : Bool := m.data.isSlot

/-- ea of R211 before any alignment. -/
def View.ea (x : View) (lane : Nat) (m : FmtM) (reply : Bool) : Nat :=
  wrapTo 56 ((x.rd lane 2 m.base : Int) + FmtM.offset m reply)

/-- The private address of LDP and STP (R211). -/
def View.privEa (x : View) (lane : Nat) (m : FmtM) (reply : Bool) (privBase : Nat) : Nat :=
  (privBase + 0x2000000000 + wrapTo 40 ((x.rd lane 2 m.base : Int) + FmtM.offset m reply)) % 2 ^ 56

/-- An address with the low bits of its size cleared (R211). -/
def alignTo (n ea : Nat) : Nat := ea / n * n

/-- Tokens of a reply of n bytes (R215). -/
def replyTokens (n : Nat) : Nat := if n ≤ 4 then 1 else n / 4

/-- Where a lane's reply goes, or none where the reply word or the slots are bad: first at the DATA slot of a split-phase load,
at RK[7:0] otherwise (R63, R215). -/
def State.replyOf (s : State) (x : View) (lane : Nat) (m : FmtM) (split : Bool) (n : Nat) (rel : Scope) : Option Reply :=
  let rk := x.w.uni (bits m.ofs 11 5)
  let slot := match m.data with | .f r => if split then r else bits rk 0 8 | _ => bits rk 0 8
  match x.w.insts[lane]? with
  | none => none
  | some i =>
    if bits rk 20 12 != 0 || 255 < slot + replyTokens n - 1 then none
    else some { fp := fpOf x.c i.frame, block := bits rk 8 12, slot := slot, iter := i.iter
                ident := (match s.graph? x.w.graph with | some g => g.identity | none => 0), rel := rel }

/-- The parts of an access, one for each 128-byte line (R211): offset in the access, address, length. -/
def lineParts (va n : Nat) : List (Nat × Nat × Nat) :=
  let room := 128 - va % 128
  if n ≤ room then [(0, va, n)] else [(0, va, room), (room, (va + room) % 2 ^ 56, n - room)]

/-! ### Requests -/

/-- A request of a core on behalf of a warp's graph. -/
def State.mkReq (s : State) (c : Nat) (w : Warp) (va n : Nat) (kind : ReqKind) : Req :=
  let g := s.graph? w.graph
  let asid := match g with | some y => y.asid | none => 0
  let d := s.die (dieOf c)
  let q := (s.region (dieOf c) asid va).1
  { Req.bare c w.graph asid (match g with | some y => y.identity | none => 0) va n kind s.now with
    rgen := d.gen asid q, stamp := d.view asid q % 256, tgen := s.tgenOf (dieOf c) asid, blk := some w.num }

/-! ### Reply tokens (R215) -/

/-- The tokens of a reply: 4 bytes each, the lowest first; the last ends the access's charges. -/
def replyToks (r : Reply) (data : List Byte) (poison null : Bool) (charges : List Charge) (hb : List Nat) : List Token :=
  let n := replyTokens data.length
  (List.range n).map (fun j =>
    { plainToken r.fp r.block (r.slot + j) r.iter r.ident (ofBytes ((data.drop (4 * j)).take 4)) with
      null := null, poison := poison, rel := r.rel, hb := hb
      relWord := if Scope.isAuto r.rel then RelWord.none else RelWord.every
      charges := if j + 1 = n then charges else [] })

/-- Reply tokens leave a die. -/
def State.sendAll (s : State) (d : Nat) (ts : List Token) : State := ts.foldl (fun a t => a.sendFrom d t) s

/-- Bytes come into a list of bytes still missing, from an offset on; bytes that are there stay (R32). -/
def fillBytes (have' : List (Option Byte)) (ofs : Nat) (data : List Byte) : List (Option Byte) :=
  (have'.zipIdx).map (fun p => match p.1 with
    | some b => some b
    | none => if ofs ≤ p.2 && p.2 < ofs + data.length then some (nthD 0 data (p.2 - ofs)) else none)

/-- Whether one of some poisoned offsets in a part falls on a byte that is still missing: what a lane's own store forwards is none
of the load's reading (R32, R214). -/
def poisonLands (have' : List (Option Byte)) (ofs : Nat) (poison : List Nat) : Bool :=
  poison.any (fun i => (nthD none have' (ofs + i)).isNone)

/-- The bytes of a part reach a synchronous load of a warp; `poison` are the offsets of poisoned ones in the part. -/
def State.fillLoad (s : State) (c k id ofs : Nat) (data : List Byte) (poison : List Nat) (ch : Option Charge) : State :=
  match s.warp? c k with
  | none => s.later ch
  | some w =>
    if !w.loads.any (fun l => l.id == id) then s.later ch
    else s.setWarp c k { w with loads := w.loads.map (fun l => if l.id == id then
        { l with bytes := fillBytes l.bytes ofs data, poison := l.poison || poisonLands l.bytes ofs poison, charges := l.charges ++ ch.toList } else l) }

/-- The bytes of a part reach a split-phase load; when none is missing its reply leaves die d (R215). -/
def State.fillSplit (s : State) (d id ofs : Nat) (data : List Byte) (poison : List Nat) (ch : Option Charge) : State :=
  match Map.find? s.splits id with
  | none => s.later ch
  | some x =>
    let y := { x with bytes := fillBytes x.bytes ofs data, poison := x.poison || poisonLands x.bytes ofs poison, charges := x.charges ++ ch.toList }
    if y.bytes.all Option.isSome then
      ({ s with splits := Map.del s.splits id }).sendAll d (replyToks y.reply (y.bytes.map (fun b : Option Byte => b.getD 0)) y.poison false y.charges [])
    else { s with splits := Map.put s.splits id y }

/-! ### Loads (R216, R217) -/

/-- What distinguishes the load forms. -/
structure LoadHow where
  ldc : Bool := false
  noCopy : Bool := false
  bound : Option Nat := none
  lda : Bool := false
  priv : Bool := false
  acq : Bool := false
  deriving DecidableEq, Repr

/-- The byte that a store of some bytes at an address leaves at another, addresses wrapping at 2^56 (R211). -/
def storedByte (base : Nat) (data : List Byte) (va : Nat) : Option Byte :=
  data[(va + 2 ^ 56 - base % 2 ^ 56) % 2 ^ 56]?

/-- The byte of an address that an earlier store of the same lane wrote in the block: of the highest LSID below the
load's own (R32). -/
def forwarded (stores : List StoreSlot) (lane lsid va : Nat) : Option Byte :=
  let hits := stores.filterMap (fun x =>
    if x.lane == lane && x.lsid < lsid then
      match x.kind with
      | .store data _ | .stashStore data => (storedByte x.va data va).map (fun b => (x.lsid, b))
      | _ => none
    else none)
  (hits.foldl (fun a h => match a with | none => some h | some b => if b.1 ≤ h.1 then some h else some b) none).map (fun p => p.2)

/-- Who receives a load's bytes: a synchronous load of the warp, or a split-phase load, by its number. -/
inductive LoadTo where
  | warp (id : Nat)
  | split (id : Nat)
  | nobody
  deriving DecidableEq, Repr

/-- Whether a store of a die to a line is on its way to its home: the die's loads go behind it (R124, R197). -/
def State.storeUnderWay (s : State) (d asid va : Nat) : Bool :=
  s.reqs.any (fun p => dieOf p.2.core == d && p.2.asid == asid && lineOf p.2.va == lineOf va
    && (match p.2.kind with | .store _ _ | .atomic _ _ | .full _ _ => true | _ => false)
    && (match p.2.state with | .parked _ | .reader => false | _ => true))

/-- Whether a fill of a line is on its way to a die: what it brings is newer than any copy there (R126). -/
def State.fillUnderWay (s : State) (d asid va : Nat) : Bool :=
  s.fills.any (fun f => f.die == d && f.line.asid == asid && f.line.line == lineOf va)

/-- Whether a load that a lane of a warp issued before is on its way to some of a load's bytes: the later one may not go before it
(R125, R126). -/
def State.loadUnderWay (s : State) (w : Warp) (lane asid va n : Nat) : Bool :=
  s.reqs.any (fun p => p.2.blk == some w.num && p.2.lane == lane && p.2.asid == asid
    && (match p.2.kind with | .load => p.2.warp.isSome || p.2.split.isSome | _ => false)
    && decide (p.2.va < va + n) && decide (va < p.2.va + p.2.size))

/-- A copy on the issuing die that serves a part of a load (R197, R204, R216, R217). -/
def State.copyFor (s : State) (c asid va : Nat) (hint : Hint) (how : LoadHow) : Option Line :=
  let d := dieOf c
  if how.noCopy || s.storeUnderWay d asid va || s.fillUnderWay d asid va || (Map.find? (s.die d).dieDir (asid * 2 ^ 49 + lineOf va)).isSome then none
  else s.findCopy d asid va how.ldc (decide (hint = .noRdc)) how.bound

/-- The offsets of a line's poisoned bytes among n from an address on, counted from there. -/
def partPoison (poison : List Nat) (va n : Nat) : List Nat :=
  (poison.filter (fun i => va % 128 ≤ i && i < va % 128 + n)).map (fun i => i - va % 128)

/-- One part of a load: charged on its path, served from a copy or sent to the home; none when the counter is
saturated (R13, R216). No copy serves an address at or above a high-water mark (R213). A hit in the remote-data cache leaves the die cache as it is (R202; DESIGN CHOICE, assumption 30). -/
def State.loadPart (s : State) (c k lane : Nat) (w : Warp) (hint : Hint) (how : LoadHow) (dest : LoadTo) (p : Nat × Nat × Nat) :
    Option State :=
  let r := s.mkReq c w p.2.1 p.2.2 .load
  match s.charge c (w.frameOf lane) (s.pathOf c r.asid p.2.1) with
  | none => none
  | some (s1, ch) =>
    match (if s1.loadUnderWay w lane r.asid p.2.1 p.2.2 || s1.aboveMark w.graph r.asid p.2.1 p.2.2 how.priv then none
        else s1.copyFor c r.asid p.2.1 hint how), dest with
    | some l, .warp id =>
      some ((s1.useCopy (dieOf c) l).fillLoad c k id p.1 ((l.data.drop (p.2.1 % 128)).take p.2.2) (partPoison l.poison p.2.1 p.2.2) (some ch))
    | some l, .split id =>
      some ((s1.useCopy (dieOf c) l).fillSplit (dieOf c) id p.1 ((l.data.drop (p.2.1 % 128)).take p.2.2) (partPoison l.poison p.2.1 p.2.2) (some ch))
    | some l, .nobody => some ((s1.useCopy (dieOf c) l).later (some ch))
    | none, _ =>
      some (s1.addReq { r with
        charge := some ch, lane := lane, hint := hint, ldc := how.ldc, lda := how.lda, acq := how.acq, priv := how.priv
        warp := (match dest with | .warp id => some (c, k, id, p.1) | _ => none)
        split := (match dest with | .split id => some (id, p.1) | _ => none) })

/-- A part of a load that its lane's own stores give whole: it counts on its path as any other, until the load is back (R32, R216). -/
def State.forwardPart (s : State) (c k lane : Nat) (w : Warp) (dest : LoadTo) (p : Nat × Nat × Nat) : Option State :=
  (s.charge c (w.frameOf lane) (s.pathOf c (match s.graph? w.graph with | some g => g.asid | none => 0) p.2.1)).map (fun x =>
    match dest with
    | .warp id => x.1.fillLoad c k id p.1 [] [] (some x.2)
    | .split id => x.1.fillSplit (dieOf c) id p.1 [] [] (some x.2)
    | .nobody => x.1.later (some x.2))

/-- The parts of a lane's load that its own stores do not give whole. -/
def missingParts (fw : List (Option Byte)) (ps : List (Nat × Nat × Nat)) : List (Nat × Nat × Nat) :=
  ps.filter (fun p => ((fw.drop p.1).take p.2.2).any Option.isNone)

/-- One lane's load at an address (R32, R211, R216); none when a counter is saturated. -/
def State.loadLane (s : State) (c k lane : Nat) (m : FmtM) (va : Nat) (how : LoadHow) (reply : Option Reply) : Option State :=
  match s.warp? c k with
  | none => some s
  | some w =>
    let n := m.size.bytes
    let fw := (List.range n).map (fun i => forwarded w.stores lane m.lsid ((va + i) % 2 ^ 56))
    let id := s.next
    let s0 := { s with next := s.next + 1 }
    let start : State × LoadTo :=
      match reply, m.data with
      | some r, _ => ({ s0 with splits := Map.put s0.splits id ⟨r, fw, [], false⟩ }, .split id)
      | none, .v reg =>
        (s0.setWarp c k { w with loads := w.loads ++ [⟨id, [], lane, va, reg, m.size.words, fw, false⟩] }, .warp id)
      | none, _ => (s0, .nobody)
    (lineParts va n).foldl (fun a p => a.bind (fun t =>
      if (missingParts fw [p]).isEmpty then t.forwardPart c k lane w start.2 p else t.loadPart c k lane w m.hint how start.2 p)) (some start.1)

/-- Lanes in turn, each able to find its counter saturated. -/
def overLanes (f : State → Nat → Option State) : List Nat → State → Option State
  | [], s => some s
  | l :: t, s =>
    match f s l with
    | none => none
    | some s1 => overLanes f t s1

/-- After an access instruction: the warp, as it now stands, has issued it; or it waits where a counter was saturated. -/
def afterLanes (s : State) (c k : Nat) (w : Warp) (r : Option State) : Host.Outcome State Fault Refusal :=
  match r with
  | none => .next (s.stalled c k w)
  | some s1 => .next (match s1.warp? c k with | none => s1 | some w1 => s1.issued c k w1)

/-- Replies of the active lanes, with the lanes whose reply word is bad (R63, R215). -/
def State.badReplies (s : State) (x : View) (m : FmtM) (split : Bool) (n : Nat) (ls : List Nat) : List LaneFault :=
  (ls.filter (fun l => (s.replyOf x l m split n .auto).isNone)).map (fun l => ⟨l, 0x05, 0⟩)

/-- A load form (R216): the addresses of its active lanes, synchronous or split-phase. -/
def loadForm (s : State) (m : FmtM) (c k : Nat) (w : Warp) (ea : View → Nat → Nat) (how : Nat → LoadHow) :
    Host.Outcome State Fault Refusal :=
  let x := s.view c w
  let ls := w.active m.g
  let bad := if m.data.isSlot then s.badReplies x m true m.size.bytes ls else []
  if !bad.isEmpty then .next (s.takeFault c k w bad)
  else afterLanes s c k w (overLanes (fun a l => a.loadLane c k l m (ea x l) (how (ea x l))
    (if m.data.isSlot then s.replyOf x l m true m.size.bytes .auto else none)) ls s)

/-- LDG (R216). -/
def execLdg (m : FmtM) (s : State) : Host.Outcome State Fault Refusal :=
  withWarp s (fun c k w => loadForm s m c k w (fun x l => x.ea l m (FmtM.splits m)) (fun _ => {}))

/-- LDC: a copy hits whatever its region generation (R216). -/
def execLdc (m : FmtM) (s : State) : Host.Outcome State Fault Refusal :=
  withWarp s (fun c k w => loadForm s m c k w (fun x l => x.ea l m (FmtM.splits m)) (fun _ => { ldc := true }))

/-- The private base of a warp's graph. -/
def State.privBase (s : State) (w : Warp) : Nat := match s.graph? w.graph with | some g => g.privBase | none => 0

/-- LDP: at the private address (R211, R216). -/
def execLdp (m : FmtM) (s : State) : Host.Outcome State Fault Refusal :=
  withWarp s (fun c k w => loadForm s m c k w
    (fun x l => x.privEa l m (FmtM.splits m) (s.privBase w)) (fun _ => { priv := true }))

/-- The address space of a warp's graph. -/
def State.asidOf (s : State) (w : Warp) : Nat := match s.graph? w.graph with | some g => g.asid | none => 0

/-- The warp waits for an acquire's sweep (R200, R228). -/
def State.waitAcquire (s : State) (c k : Nat) (ids : List Nat) : State :=
  match s.warp? c k with
  | none => s
  | some w => s.setWarp c k { w with acqWait := uniSet w.acqWait ids }

/-- LDA (R133, R216): an acquire over every region first, once for the instruction, then the load, which later accesses of the
warp wait for: what it synchronises with happens before each of them. The acquire lasts until the load has performed
(State.endLda). -/
def execLda (m : FmtM) (s : State) : Host.Outcome State Fault Refusal :=
  withWarp s (fun c k w =>
    let wide := decide (m.scope = .auto ∨ m.scope = .package)
    let x := s.view c w
    let bad := if m.data.isSlot then s.badReplies x m true m.size.bytes (w.active m.g) else []
    let acts := wide && !(w.active m.g).isEmpty && bad.isEmpty
    let s1 := if acts then (s.acquire (dieOf c) (s.asidOf w) RelWord.every).waitAcquire c k [256] else s
    match s1.warp? c k with
    | none => .next s1
    | some w1 => match loadForm s1 m c k w1 (fun x l => x.ea l m (FmtM.splits m)) (fun _ => { noCopy := acts, lda := true, acq := acts }) with
      | .next s2 =>
        -- where a counter was saturated nothing has issued, and the acquire is made when the load is
        (match s2.warp? c k with
          | some w2 => if w2.stall.isSome then .next (s.stalled c k w) else .next s2
          | none => .next s2)
      | .fault r => .fault r
      | .refused r => .refused r)

/-- Whether an address is homed at the issuing die's own stack: the home line serves it, and no copy (R197). -/
def State.homedHere (s : State) (c asid va : Nat) : Bool := decide (s.homeOf (dieOf c) asid va = (s.chipId, dieOf c))

/-- Whether an LDB of a lane needs a refresh (R217): no copy within its bound serves a part that is homed elsewhere. -/
def State.needsRefresh (s : State) (c : Nat) (w : Warp) (m : FmtM) (lane va : Nat) (how : LoadHow) : Bool :=
  let n := m.size.bytes
  let fw := (List.range n).map (fun i => forwarded w.stores lane m.lsid ((va + i) % 2 ^ 56))
  (missingParts fw (lineParts va n)).any (fun p => !s.homedHere c (s.asidOf w) p.2.1 && (s.findCopy (dieOf c) (s.asidOf w) p.2.1 how.ldc (decide (m.hint = .noRdc)) how.bound).isNone)

/-- The count of refetch aborts in a row of a lane's instance (R217). -/
def State.refetches (s : State) (c : Nat) (w : Warp) (lane : Nat) : Nat :=
  match w.insts[lane]? with
  | none => 0
  | some i => match s.frame? c i.frame with | none => 0 | some f => (nthD Entry.empty f.entries i.entry).refetch

/-- How an LDB looks for copies: within its bound in a bounded region, as LDG elsewhere (R217). -/
def State.boundHow (s : State) (c : Nat) (w : Warp) (m : FmtM) (va : Nat) : LoadHow :=
  if (s.region (dieOf c) (s.asidOf w) va).2.kind == 1 then { bound := some m.bound } else {}

/-- The refresh requests of an LDB that then aborts its warp: they fill copies and no register (R35, R217). -/
def State.refreshLane (s : State) (c k lane : Nat) (m : FmtM) (va : Nat) (how : LoadHow) : Option State :=
  match s.warp? c k with
  | none => some s
  | some w => (lineParts va m.size.bytes).foldl (fun a p => a.bind (fun t => t.loadPart c k lane w m.hint how .nobody p)) (some s)

/-- LDB (R217). -/
def execLdb (m : FmtM) (s : State) : Host.Outcome State Fault Refusal :=
  withWarp s (fun c k w =>
    let x := s.view c w
    let need := (w.active m.g).filter (fun l =>
      (s.region (dieOf c) (s.asidOf w) (x.ea l m (FmtM.splits m))).2.kind == 1
        && s.needsRefresh c w m l (x.ea l m (FmtM.splits m)) (s.boundHow c w m (x.ea l m (FmtM.splits m))) && decide (s.refetches c w l < 4))
    if m.bmode && !m.data.isSlot && !need.isEmpty then
      match overLanes (fun a l => a.refreshLane c k l m (x.ea l m (FmtM.splits m)) (s.boundHow c w m (x.ea l m (FmtM.splits m)))) need s with
      | none => .next (s.stalled c k w)
      | some s1 =>
        match s1.warp? c k with
        | none => .next s1
        | some w1 =>
          let s2 := s1.abort c k w1 3 []
          .next (w1.insts.foldl (fun a i => a.setEntry c i.frame i.entry (fun e => { e with refetch := e.refetch + 1 })) s2)
    else loadForm s m c k w (fun x l => x.ea l m (FmtM.splits m)) (s.boundHow c w m))

/-! ### Stash windows (R203, R216, R220, R221) -/

/-- The window of a graph that maps an address: key graph × 16 + window. Of two that map it the lowest serves it (R220; DESIGN
CHOICE, assumption 35). -/
def Core.windowOf (k : Core) (g asid va : Nat) : Option (Nat × Window) :=
  List.find? (fun p => p.1 / 16 == g && p.2.asid == asid && p.2.lines != 0 && p.2.vbase ≤ va && va < p.2.vbase + 128 * p.2.lines) k.windows

/-- The stash line of an address within a window (R203). -/
def Window.index (w : Window) (va : Nat) : Nat := w.sofs + (va - w.vbase) / 128

/-- Whether a stash line holds an address's line with the 8-byte words of a range present (R203). -/
def StashLine.holds (l : StashLine) (asid va n : Nat) : Bool :=
  l.asid == asid && l.line == lineOf va && (List.range n).all (fun i => bitOf l.present ((va + i) % 128 / 8))

/-- Whether a range within one line is there in the stash of a core. -/
def Core.stashHas (k : Core) (idx asid va n : Nat) : Bool :=
  match Map.find? k.stash idx with
  | none => false
  | some l => l.holds asid va n

/-- The fill of a stash line that is under way on a core. -/
def isFillOf (c idx asid line : Nat) (p : Nat × StashFillReq) : Bool :=
  p.1 == c && p.2.index == idx && p.2.asid == asid && p.2.line == line

/-- A lane of a warp waits for the fill of a stash line, which starts unless one is under way; the lane is counted on path S
once, until the fill ends (R13, R196, R203, R216). -/
def State.startFill (s : State) (c g asid idx va : Nat) (w : Warp) (lane : Nat) : Option State :=
  let mine := isFillOf c idx asid (lineOf va)
  if s.stashFills.any (fun p => mine p && p.2.waiters.any (fun x => x.1 == w.num && x.2.1 == lane)) then some s
  else match s.charge c (match w.insts[lane]? with | some i => i.frame | none => 0) .s with
    | none => none
    | some (s1, ch) =>
      some { s1 with stashFills :=
        if s1.stashFills.any mine then
          s1.stashFills.map (fun p => if mine p then (p.1, { p.2 with waiters := p.2.waiters ++ [(w.num, lane, ch)] }) else p)
        else s1.stashFills ++ [(c, ⟨idx, asid, lineOf va, g, [(w.num, lane, ch)], none, none, s.now⟩)] }

/-- The charges of those that wait for a fill end with it (R13). -/
def State.endFill (s : State) (f : StashFillReq) : State := f.waiters.foldl (fun a x => a.later (some x.2.2)) s

/-- The parts of an access that windows of the graph map, with their stash lines. -/
def Core.stashParts (k : Core) (g asid va n : Nat) : List (Nat × Nat × Nat) :=
  (lineRun va n (n / 128 + 2) 0).filterMap (fun p => (k.windowOf g asid p.2.1).map (fun w => (w.2.index p.2.1, p.2.1, p.2.2)))

/-- The fault that a line's fill met, for a part of a lane's stash access (R213). -/
def State.fillFault (s : State) (c g asid va n : Nat) : Option Nat :=
  ((s.core c).stashParts g asid va n).findSome? (fun p =>
    (s.stashFills.find? (fun q => q.1 == c && q.2.index == p.1 && q.2.asid == asid && q.2.line == lineOf p.2.1)).bind (fun q => q.2.fault))

/-- Fills that met a fault are given up; their charges end. -/
def State.dropFaulted (s : State) (c g : Nat) : State :=
  let gone := s.stashFills.filter (fun q => q.1 == c && q.2.graph == g && q.2.fault.isSome)
  (gone.foldl (fun a q => a.endFill q.2) { s with stashFills := s.stashFills.filter (fun q => !(q.1 == c && q.2.graph == g && q.2.fault.isSome)) })

/-- The lanes of an LDS or STS whose fill met a fault. -/
def State.fillFaults (s : State) (c g asid : Nat) (m : FmtM) (x : View) (ls : List Nat) : List LaneFault :=
  ls.filterMap (fun l => (s.fillFault c g asid (x.ea l m false) m.size.bytes).map (fun code => ⟨l, code, x.ea l m false⟩))

/-- The fills that a lane's stash access still needs, started (R216, R219). -/
def State.fillLane (s : State) (c asid va n : Nat) (w : Warp) (lane : Nat) : Option (State × List Nat) :=
  let need := ((s.core c).stashParts w.graph asid va n).filter (fun p => !(s.core c).stashHas p.1 asid p.2.1 p.2.2)
  need.foldl (fun a p => a.bind (fun t => (t.1.startFill c w.graph asid p.1 p.2.1 w lane).map (fun u => (u, t.2 ++ [p.1])))) (some (s, []))

/-- One lane of LDS whose lines are there: its bytes come from the stash where a window maps them, and as LDG's
elsewhere. -/
def State.ldsLane (s : State) (c k lane : Nat) (m : FmtM) (va : Nat) : Option State :=
  match s.warp? c k with
  | none => some s
  | some w =>
    let n := m.size.bytes
    let asid := s.asidOf w
    let fw := (List.range n).map (fun i => forwarded w.stores lane m.lsid ((va + i) % 2 ^ 56))
    let id := s.next
    let reg := match m.data with | .v r => r | _ => 0
    let s0 := ({ s with next := s.next + 1 }).setWarp c k { w with loads := w.loads ++ [PendLoad.mk id [] lane va reg m.size.words fw false] }
    (lineParts va n).foldl (fun a p => a.bind (fun t =>
      if (missingParts fw [p]).isEmpty then t.forwardPart c k lane w (.warp id) p
      else match (t.core c).windowOf w.graph asid p.2.1 with
      | none => t.loadPart c k lane w m.hint {} (.warp id) p
      | some (_, win) =>
        match Map.find? (t.core c).stash (win.index p.2.1) with
        | none => some t
        | some l => (t.charge c (w.frameOf lane) (t.pathOf c asid p.2.1)).map (fun x =>
            x.1.fillLoad c k id p.1 ((l.data.drop (p.2.1 % 128)).take p.2.2) (partPoison l.poison p.2.1 p.2.2) (some x.2)))) (some s0)

/-- Whether a load that a lane issued before is still on its way to bytes of a range that a window of its graph maps: an LDS issues
behind it (R125, R126, R128; DEDUCED, assumption 110). -/
def State.loadBefore (s : State) (c : Nat) (w : Warp) (lane va n : Nat) : Bool :=
  ((s.core c).stashParts w.graph (s.asidOf w) va n).any (fun p => s.loadUnderWay w lane (s.asidOf w) p.2.1 p.2.2)

/-- LDS (R216): absent lines are filled first, and the warp waits for them. -/
def execLds (m : FmtM) (s : State) : Host.Outcome State Fault Refusal :=
  withWarp s (fun c k w =>
    let x := s.view c w
    let asid := s.asidOf w
    let ls := w.active m.g
    let met := s.fillFaults c w.graph asid m x ls
    if !met.isEmpty then .next ((s.takeFault c k w met).dropFaulted c w.graph) else
    let fills := ls.foldl (fun (a : Option (State × List Nat)) l => a.bind (fun t =>
      (t.1.fillLane c asid (x.ea l m false) m.size.bytes w l).map (fun u => (u.1, t.2 ++ u.2)))) (some (s, []))
    match fills with
    | none => .next (s.stalled c k w)
    | some (s1, []) => afterLanes s c k w (overLanes (fun a l => a.ldsLane c k l m (x.ea l m false)) ls s1)
    | some (s1, _ :: _) => .next (s1.stalled c k w))

/-- A line of the remote-data cache comes into the die cache as a prefetch's fill does (R199, R202, R218). -/
def State.takeIn (s : State) (d : Nat) (l : Line) (hint : Hint) : State :=
  if hint = .noAlloc then s
  else s.installLine d { l with used := if hint = .streaming then 0 else s.now, keep := decide (hint = .keep) }

/-- PREF (R218): a line is asked for, with no destination, reply or charge; one that the remote-data cache holds comes from there. -/
def execPref (m : FmtM) (s : State) : Host.Outcome State Fault Refusal :=
  withWarp s (fun c k w =>
    let x := s.view c w
    let s1 := (w.active m.g).foldl (fun a l =>
      let va := alignTo 128 (x.ea l m false)
      match (a.core c).windowOf w.graph (s.asidOf w) va with
      | some (_, win) =>
        if (a.core c).stashHas (win.index va) (s.asidOf w) va 128
            || a.stashFills.any (fun p => p.1 == c && p.2.index == win.index va) then a
        else { a with stashFills := a.stashFills ++ [(c, ⟨win.index va, s.asidOf w, lineOf va, w.graph, [], none, none, a.now⟩)] }
      | none =>
        match a.copyFor c (s.asidOf w) va m.hint {} with
        | some y => if (a.die (dieOf c)).lines.contains y then a.useCopy (dieOf c) y else a.takeIn (dieOf c) y m.hint
        | none => a.addReq { a.mkReq c w va 1 .load with hint := m.hint, fillIn := true }) s
    .next (s1.issued c k w))

/-! ### The commit buffer (R31, R210) -/

/-- Places in the commit buffer added by the active lanes, at issue. -/
def bufferStep (s : State) (c k : Nat) (w : Warp) (slots : List StoreSlot) : Host.Outcome State Fault Refusal :=
  .next (s.issued c k { w with stores := w.stores ++ slots })

/-- A plain store form (R219): the source is read at issue. -/
def storeForm (s : State) (m : FmtM) (local' priv : Bool) (ea : View → Nat → Nat) : Host.Outcome State Fault Refusal :=
  withWarp s (fun c k w =>
    let x := s.view c w
    bufferStep s c k w ((w.active m.g).map (fun l =>
      ⟨m.lsid, l, ea x l, m.size.bytes, .store (toBytes m.size.bytes (x.rd l m.size.words m.data)) false, none, local', m.hint, priv⟩)))

/-- STG (R219). -/
def execStg (m : FmtM) (s : State) : Host.Outcome State Fault Refusal := storeForm s m false false (fun x l => x.ea l m false)
/-- STL (R219). -/
def execStl (m : FmtM) (s : State) : Host.Outcome State Fault Refusal := storeForm s m true false (fun x l => x.ea l m false)
/-- STP (R219). -/
def execStp (m : FmtM) (s : State) : Host.Outcome State Fault Refusal :=
  withWarp s (fun _ _ w => storeForm s m false true (fun x l => x.privEa l m false (s.privBase w)))

/-- STS (R219): through a writable window, whose absent lines start to fill; as STG elsewhere. -/
def execSts (m : FmtM) (s : State) : Host.Outcome State Fault Refusal :=
  withWarp s (fun c k w =>
    let x := s.view c w
    let asid := s.asidOf w
    let ls := w.active m.g
    let bad := ls.filter (fun l => (lineParts (x.ea l m false) m.size.bytes).any (fun p =>
      match (s.core c).windowOf w.graph asid p.2.1 with | some (_, win) => !win.wr | none => false))
    if !bad.isEmpty then .next (s.takeFault c k w (bad.map (fun l => ⟨l, 0x02, x.ea l m false⟩)))
    else
      let fills := ls.foldl (fun (a : Option (State × List Nat)) l => a.bind (fun t =>
        (t.1.fillLane c asid (x.ea l m false) m.size.bytes w l).map (fun u => (u.1, t.2 ++ u.2)))) (some (s, []))
      match fills with
      | none => .next (s.stalled c k w)
      | some (s1, waits) =>
        let slots : List StoreSlot := ls.flatMap (fun l =>
          let va := x.ea l m false
          let data := toBytes m.size.bytes (x.rd l m.size.words m.data)
          (lineParts va m.size.bytes).map (fun p =>
            let part := (data.drop p.1).take p.2.2
            let kind : ReqKind := if ((s.core c).windowOf w.graph asid p.2.1).isSome then .stashStore part else .store part false
            StoreSlot.mk m.lsid l p.2.1 p.2.2 kind none false m.hint false))
        bufferStep s1 c k { w with stashWait := uniSet w.stashWait waits } slots)

/-- Lines of the stash partition (R190). -/
def Core.stashLines (k : Core) : Nat := bits k.sramPart.toNat 8 8 * 512

/-- A window from its 128-bit descriptor (R203); all 56 bits of VBASE hold, also where it is not 128-byte aligned (DESIGN CHOICE,
assumption 35). -/
def windowOfDesc (d : Nat) : Window := ⟨bits d 72 56, bits d 57 15, bits d 42 15, bitOf d 41, bits d 29 12⟩

/-- Whether SMAP's descriptor is refused at issue (R220). A VBASE that is not 128-byte aligned is none of R220's causes: it is accepted,
and lines count from it (DESIGN CHOICE, assumption 35). -/
def Core.badWindow (k : Core) (g w asid d : Nat) : Bool :=
  let x := windowOfDesc d
  (x.lines != 0 && k.stashLines < x.sofs + x.lines) || bits d 0 29 != 0 || x.asid != asid
    || (x.lines != 0 && k.windows.any (fun p => p.1 != g * 16 + w && p.2.lines != 0 && x.sofs < p.2.sofs + p.2.lines
      && p.2.sofs < x.sofs + x.lines))

/-- SMAP (R220). -/
def execSmap (m : FmtM) (s : State) : Host.Outcome State Fault Refusal :=
  withWarp s (fun c k w =>
    let x := s.view c w
    let win := m.ofs % 16
    let ls := w.active m.g
    let bad := ls.filter (fun l => (s.core c).badWindow w.graph win (s.asidOf w) (x.rd l 4 m.data))
    if !bad.isEmpty then .next (s.takeFault c k w (bad.map (fun l => ⟨l, 0x02, 0⟩)))
    else bufferStep s c k w (ls.map (fun l => ⟨m.lsid, l, 0, 0, .smap win (x.rd l 4 m.data), none, false, .normal, false⟩)))

/-- A commit-buffered access without data (R210). -/
def bareForm (s : State) (m : FmtM) (n : Nat) (kind : ReqKind) : Host.Outcome State Fault Refusal :=
  withWarp s (fun c k w =>
    let x := s.view c w
    bufferStep s c k w ((w.active m.g).map (fun l => ⟨m.lsid, l, alignTo (max n 1) (x.ea l m false), n, kind, none, false, .normal, false⟩)))

/-- SWB (R221). -/
def execSwb (m : FmtM) (s : State) : Host.Outcome State Fault Refusal := bareForm s m 0 .swb
/-- SINV (R221). -/
def execSinv (m : FmtM) (s : State) : Host.Outcome State Fault Refusal := bareForm s m 0 .sinv
/-- SETE (R226). -/
def execSete (m : FmtM) (s : State) : Host.Outcome State Fault Refusal := bareForm s m 8 (.full .sete 0)

/-- PUTF (R226). -/
def execPutf (m : FmtM) (s : State) : Host.Outcome State Fault Refusal :=
  withWarp s (fun c k w =>
    let x := s.view c w
    bufferStep s c k w ((w.active m.g).map (fun l =>
      ⟨m.lsid, l, alignTo 8 (x.ea l m false), 8, .full .putf (BitVec.ofNat 64 (x.rd l 2 m.data)), none, false, .normal, false⟩)))

/-- A commit-buffered access that replies by token (R215, R222, R226): a bad reply word faults at issue. -/
def replyForm (s : State) (m : FmtM) (opWords : Nat) (kind : List Word → ReqKind) : Host.Outcome State Fault Refusal :=
  withWarp s (fun c k w =>
    let x := s.view c w
    let n := m.size.bytes
    let ls := w.active m.g
    let bad := s.badReplies x m false n ls
    if !bad.isEmpty then .next (s.takeFault c k w bad)
    else bufferStep s c k w (ls.map (fun l =>
      ⟨m.lsid, l, alignTo n (x.ea l m true), n,
        kind ((List.range opWords).map (fun j => BitVec.ofNat 32 (x.rd l opWords m.data / 2 ^ (32 * j)))),
        s.replyOf x l m false n m.scope, false, .normal, false⟩)))

/-- Format M without the fields that ATOM reuses. -/
def FmtAtom.toM (a : FmtAtom) : FmtM := ⟨a.g, a.lsid, a.scope, 0, a.bmode, a.size, a.data, a.base, a.hint, a.ofs⟩

/-- ATOM (R223): nothing returns. -/
def execAtom (a : FmtAtom) (s : State) : Host.Outcome State Fault Refusal :=
  withWarp s (fun c k w =>
    let x := s.view c w
    let m := FmtAtom.toM a
    let n := a.size.bytes
    bufferStep s c k w ((w.active a.g).map (fun l =>
      ⟨a.lsid, l, alignTo n (x.ea l m false), n, .atomic (.rmw a.op)
        ((List.range a.size.words).map (fun j => BitVec.ofNat 32 (x.rd l a.size.words a.data / 2 ^ (32 * j)))), none, false, .normal, false⟩)))

/-- ATOMR (R223). -/
def execAtomr (a : FmtAtom) (s : State) : Host.Outcome State Fault Refusal :=
  replyForm s (FmtAtom.toM a) a.size.words (fun ws => .atomic (.rmw a.op) ws)
/-- CAS (R224). -/
def execCas (m : FmtM) (s : State) : Host.Outcome State Fault Refusal := replyForm s m (2 * m.size.words) (fun ws => .atomic .cas ws)
/-- CAS128 (R224). -/
def execCas128 (m : FmtM) (s : State) : Host.Outcome State Fault Refusal := replyForm s m 8 (fun ws => .atomic .cas ws)
/-- INCW (R225). -/
def execIncw (m : FmtM) (s : State) : Host.Outcome State Fault Refusal := replyForm s m m.size.words (fun ws => .atomic .incw ws)
/-- DECW (R225). -/
def execDecw (m : FmtM) (s : State) : Host.Outcome State Fault Refusal := replyForm s m m.size.words (fun ws => .atomic .decw ws)
/-- FADDB (R225). -/
def execFaddb (m : FmtM) (s : State) : Host.Outcome State Fault Refusal :=
  replyForm s m (2 * m.size.words) (fun ws => .atomic .faddb ws)
/-- TAKE (R226). -/
def execTake (m : FmtM) (s : State) : Host.Outcome State Fault Refusal := replyForm s m 0 (fun _ => .full .take 0)
/-- READF (R226). -/
def execReadf (m : FmtM) (s : State) : Host.Outcome State Fault Refusal := replyForm s m 0 (fun _ => .full .readf 0)

/-! ### Fences, acquires and rounds (R132, R133, R227 to R230) -/

/-- FENCE: a boundary among the block's commit-buffered accesses (R132, R227). -/
def execFence (m : FmtM) (s : State) : Host.Outcome State Fault Refusal :=
  withWarp s (fun c k w => .next (s.issued c k { w with fences := w.fences ++ [(m.lsid, if Scope.isAuto m.scope then .package else m.scope)] }))

/-- ROUNDA: an advance in commit order at its LSID (R229). -/
def execRounda (m : FmtM) (s : State) : Host.Outcome State Fault Refusal :=
  withWarp s (fun c k w =>
    let x := s.view c w
    bufferStep s c k w ((w.active m.g).map (fun l =>
      ⟨m.lsid, l, x.ea l m false, 0, .rounda (if Scope.isAuto m.scope then .package else m.scope), none, false, .normal, false⟩)))

/-- ROUNDV: the home round is asked for at issue (R230). -/
def execRoundv (m : FmtM) (s : State) : Host.Outcome State Fault Refusal :=
  withWarp s (fun c k w =>
    let x := s.view c w
    let ls := w.active m.g
    let bad := s.badReplies x m false 4 ls
    if !bad.isEmpty then .next (s.takeFault c k w bad)
    else afterLanes s c k w (overLanes (fun a l =>
      let va := alignTo 4 (x.ea l m true)
      (a.charge c (w.frameOf l) (a.pathOf c (s.asidOf w) va)).map (fun p =>
        p.1.addReq { p.1.mkReq c w va 4 .roundv with charge := some p.2, lane := l, reply := s.replyOf x l m false 4 .auto })) ls s))

/-- ACQ (R228): at package scope the generations of the regions addressed rise, each once. -/
def execAcq (m : FmtM) (s : State) : Host.Outcome State Fault Refusal :=
  withWarp s (fun c k w =>
    let x := s.view c w
    let asid := s.asidOf w
    let wide := decide (m.scope = .auto ∨ m.scope = .package)
    let qs := uniSet [] ((w.active m.g).map (fun l => (s.region (dieOf c) asid (x.ea l m false)).1))
    let s1 := if wide && !qs.isEmpty then s.acquireOver (dieOf c) asid false qs else s
    .next (s1.issued c k { w with acqWait := if wide then uniSet w.acqWait qs else w.acqWait }))

end Sys2Proof.Machine
end

