-- ==== Sys2Proof/Machine/Home.lean ====
section
/-! DEFINITION. What happens to a request at its home and on its way back: recalls, checks, parking, performing,
replies, fills and ownership (R195 to R208, R213 to R226, R319, R320, R360, R367). -/
namespace Sys2Proof.Machine

/-! ### Checks (R194, R207, R213) -/

/-- What an access asks of its page and region. -/
structure Want where
  rd : Bool
  wr : Bool
  kind : Option Nat
  noIdent : Bool := false
  deriving DecidableEq, Repr

/-- The identity of accesses made for control firmware, which skip the identity check (R207). -/
def hostIdent : Nat := 65536

/-- The checks of an access at its home stack, in order (R194, R207, R213): the fault's code, if it fails. -/
def State.faultOf (s : State) (st g asid ident va n : Nat) (w : Want) (l : Option Leaf) (priv : Bool := false) : Option Nat :=
  if s.aboveMark g asid va n priv then some 0x08
  else match l with
    | none => some 0x01
    | some x =>
      let r := (s.region (8 + st) asid va).2
      if hitsCarved (s.carved st) (x.extent r.pinned).1 (x.extent r.pinned).2 then some 0x01
      else if (w.rd && !x.read) || (w.wr && !x.write) then some 0x02
      else if !w.noIdent && x.ident != 0 && x.ident != ident && ident != hostIdent then some 0x03
      else match w.kind with
        | none => none
        | some k => if r.kind = k then none else some 0x02

/-- The fault-queue entry of a page, if one is open. -/
def Die.faultEntryOf (d : Die) (asid va : Nat) : Option (Nat × FaultEntry) :=
  List.find? (fun p => p.2.asid == asid && p.2.va ≤ va && va < p.2.va + 2 ^ p.2.log2) d.faultq

/-- The leaf for an address at its home stack: from its TLB, or by a walk. -/
def State.leafAt (s : State) (st asid va : Nat) (fresh : Bool) : Option Leaf :=
  match (if fresh then none else s.tlbHit (8 + st) asid va) with
  | some e => some e.leaf
  | none => s.walk asid va

/-- The set of a TLB entry (R319). -/
def TlbEntry.set (e : TlbEntry) : Nat := Config.tlbHash e.asid e.vpn e.log2 % 4096

/-- An entry put before the others of a TLB, which are in the order of their last use; of a set of 8 ways in use, the least
recently used leaves (R319). -/
def tlbInsert (e : TlbEntry) (old : List TlbEntry) : List TlbEntry :=
  if old.length < 8 then e :: old
  else
    let mates := old.filter (fun x => x.set == e.set)
    if mates.length < 8 then e :: old else e :: old.filter (fun x => some x != mates.getLast?)

/-- A TLB hit makes its entry the most recently used (R319). -/
def State.tlbUse (s : State) (st : Nat) (e : TlbEntry) : State :=
  let d := s.die (8 + st)
  s.setDie (8 + st) { d with tlb := { e with used := s.now } :: d.tlb.filter (fun x => decide (x ≠ e)) }

/-- A translation enters a home TLB in place of older ones of the page (R319). -/
def State.tlbPut (s : State) (st asid va : Nat) (l : Leaf) : State :=
  let d := s.die (8 + st)
  let e : TlbEntry := ⟨asid, va % 2 ^ 56 / 2 ^ l.log2, l.log2, s.tgenOf (8 + st) asid, l.ident, l.frame, l.read, l.write, s.now⟩
  let old := d.tlb.filter (fun x => !(x.asid == asid && x.vpn / 2 ^ (max l.log2 x.log2 - x.log2) == va % 2 ^ 56 / 2 ^ (max l.log2 x.log2)))
  s.setDie (8 + st) { d with tlb := tlbInsert e old }

/-- Whether requests of a page's fault-queue entry are replayed: they go before any new request to the page (R208, R360). -/
def State.pageReplays (s : State) (st asid va : Nat) : Bool :=
  match (s.die (8 + st)).faultEntryOf asid va with
  | none => false
  | some (_, x) => x.reqs.any (fun q => match Map.find? s.reqs q with | some y => y.fresh | none => false)

/-- Whether an address's page finds the fault queue of its home full (R207, R360). -/
def State.queueFull (s : State) (st asid va : Nat) : Bool :=
  decide (1024 ≤ (s.die (8 + st)).faultq.length) && ((s.die (8 + st)).faultEntryOf asid va).isNone

/-- The translation that a home makes for a read or write which the model performs in one piece: a hit is used, a miss walks and
fills the TLB; none while the page's parked requests replay, while a walk for the page is in flight, with whose end it merges, while 64 walks run, or at a
full fault queue (R207, R208, R319). -/
def State.translate (s : State) (st asid va : Nat) : Option (State × Option Leaf) :=
  let d := s.die (8 + st)
  if s.pageReplays st asid va then none
  else match s.tlbHit (8 + st) asid va with
  | some e => some (s.tlbUse st e, some e.leaf)
  | none =>
    if 64 ≤ d.walks.length || s.queueFull st asid va
        || d.walks.any (fun w => w.asid == asid && w.va == va / 65536 * 65536 && w.tgen == s.tgenOf (8 + st) asid) then none
    else match s.walk asid va with
      | none => some (s, none)
      | some l => some (s.tlbPut st asid va l, some l)

/-- What a request asks of its page and region (R213, R226, R229, R316). -/
def ReqKind.want : ReqKind → Want
  | .load => ⟨true, false, none, false⟩
  | .store _ _ => ⟨false, true, none, false⟩
  | .atomic _ _ => ⟨true, true, none, false⟩
  | .full op _ =>
    (match op with
      | .putf | .sete => ⟨false, true, some 2, false⟩
      | .take | .readf => ⟨true, true, some 2, false⟩)
  | .rounda _ => ⟨false, false, some 1, false⟩
  | .roundv | .stashStore _ | .smap _ _ | .swb | .sinv => ⟨false, false, none, false⟩

/-- Whether a request acts on a round counter, at M(q mod 8), not on bytes (R229, R230, R315). -/
def ReqKind.isRound : ReqKind → Bool
  | .rounda _ | .roundv => true
  | .load | .store _ _ | .atomic _ _ | .full _ _ | .stashStore _ | .smap _ _ | .swb | .sinv => false

/-- The chip and stack at which a request performs. -/
def State.reqHome (s : State) (r : Req) : Nat × Nat :=
  let q := s.region (dieOf r.core) r.asid r.va
  if ReqKind.isRound r.kind then (q.2.homeChip, q.1 % 8) else s.homeOf (dieOf r.core) r.asid r.va

/-- The boundary directions from one die to another and back. -/
def roundTrip (a b : Nat) : List Nat := routeDirs a b ++ routeDirs b a

/-- A way to or from a base die. While the compute die of its stack carries no data, the stack is served through the base die itself:
the boundaries of that compute die do not count on the way (R365; DEDUCED, assumption 114). -/
def State.homeWay (s : State) (m : Nat) (dirs : List Nat) : List Nat :=
  let c := m - 8
  if m < 8 || 16 ≤ m || (s.die c).carriesData || !(s.die m).carriesData then dirs
  else dirs.filter (fun n => senderOf n != c && receiverOf n != c)

/-- The boundaries on the way from a die to a home and back (R47, R365). -/
def State.trip (s : State) (d m : Nat) : List Nat := s.homeWay m (roundTrip d m)

/-- The boundary directions that a request crosses to its home, and its answer on the way back (R47, R207): from the die of its
core, or the fabric die by which it came, to the base die of its home, or the fabric die by which it leaves the chip. -/
def State.reqDirs (s : State) (r : Req) : List Nat :=
  let h := s.reqHome r
  match r.back with
  | some (chip, _) => s.trip (s.fabricDieOf chip) (8 + h.2)
  | none => s.trip (dieOf r.core) (if h.1 = s.chipId then 8 + h.2 else s.fabricDieOf h.1)

/-! ### Recall of stash lines (R203 to R205) -/

/-- Dirty lines of some places of a core's stash are written back and stay, clean and valid. -/
def State.cleanLines (s : State) (c : Nat) (cid : Option Nat) (idxs : List Nat) : State :=
  idxs.foldl (fun a i =>
    let k := a.core c
    match Map.find? k.stash i with
    | none => a
    | some l =>
      if !l.dirty then a
      else
        let b := a.writeBack c (k.stashGraph i) cid l
        b.setCore c { b.core c with stash := Map.put (b.core c).stash i { l with dirty := false, wrote := 0, elems := 0 } }) s

/-- Every dirty line of a core, written back before a release or fence beyond core scope (R124). -/
def State.cleanCore (s : State) (c : Nat) (cid : Option Nat) : State := s.cleanLines c cid ((s.core c).stash.map (fun p => p.1))

/-- The places of the dirty stash lines that a graph's windows hold on a core. -/
def Core.dirtyOf (k : Core) (g : Nat) : List Nat :=
  (k.stash.filter (fun p => p.2.dirty && k.stashGraph p.1 == g)).map (fun p => p.1)

/-- The stash line of a core that holds a line. -/
def Core.stashOf (k : Core) (asid line : Nat) : Option Nat :=
  (List.find? (fun p => p.2.asid == asid && p.2.line == line) k.stash).map (fun p => p.1)

/-- The core of a die that its die directory names for a line gives it up; a die without such a core, its ownership. -/
def State.recallFrom (s : State) (d asid line : Nat) : State :=
  match Map.find? (s.die d).dieDir (dirKey asid line) with
  | none => s.disown d asid line
  | some c =>
    match (s.core c).stashOf asid line with
    | none => s.disown d asid line
    | some idx => s.dropStash c idx true none

/-- DIE_DIRECTORY_RECALL (R204): a recalled line is written back and invalidated. -/
def execDieDirectoryRecall (die k : Nat) (s : State) : Host.Outcome State Fault Refusal :=
  let x := s.die die
  match x.recalls[k]? with
  | none => .next s
  | some r => .next ((s.setDie die { x with recalls := dropNth x.recalls k }).recallFrom die r.asid r.line)

/-- OWNER_RECALL (R47, R205, R320): the recall crosses to the owner of an entry, which writes the line back; the entry leaves. A
grant of the line that has not arrived yet arrives first (R327). -/
def execOwnerRecall (die k : Nat) (s : State) : Host.Outcome State Fault Refusal :=
  let x := s.die die
  match x.owners[k]? with
  | none => .next s
  | some o =>
    if !o.recalled || s.owns.any (fun p => p.granted && p.die == o.owner && p.asid == o.asid && p.line == o.line)
        || !s.pathUp (s.homeWay die (roundTrip die o.owner)) then .next s
    else
      let s1 := (s.countFlits (s.homeWay die (roundTrip die o.owner)) 16).recallFrom o.owner o.asid o.line
      .next (s1.setDie die { s1.die die with owners := (s1.die die).owners.filter (fun p => !(p.asid == o.asid && p.line == o.line)) })

/-- A recall asked of a die's directory for a line that a stash holds, unless it is under way (R204). -/
def State.askRecall (s : State) (d asid line : Nat) : Option State :=
  let x := s.die d
  match Map.find? x.dieDir (dirKey asid line) with
  | none => none
  | some c =>
    if x.recalls.any (fun r => r.asid == asid && r.line == line) then some s
    else some (s.setDie d { x with recalls := x.recalls ++ [(DieRecall.mk c asid line)] })

/-- A recall asked of the owner that a base die's directory names (R205). -/
def State.askOwner (s : State) (st asid line keep : Nat) : Option State :=
  let x := s.die (8 + st)
  if x.owners.any (fun o => o.asid == asid && o.line == line && o.owner != keep) then
    some (s.setDie (8 + st) { x with owners := x.owners.map (fun o =>
      if o.asid == asid && o.line == line && o.owner != keep then { o with recalled := true } else o) })
  else none

/-- The recall that an access of die d to a line homed at stack st must wait for, if any. -/
def State.recallFor (s : State) (d st asid line : Nat) : Option State :=
  match s.askRecall d asid line with
  | some s1 => some s1
  | none =>
    match (if st = d then none else s.askRecall st asid line) with
    | some s1 => some s1
    | none => s.askOwner st asid line 99

/-! ### Parking (R207, R360) -/

/-- The frame of the activation that a request belongs to: the one it is charged to, its engine command's, or its batch's
(R13, R358). -/
def State.reqFp (s : State) (r : Req) : Nat :=
  match r.charge, r.elem, r.batch with
  | some c, _, _ => c.fp
  | none, some (c, eid, _, _), _ => (match Map.find? (s.core c).engines eid with | some e => e.fp | none => 0)
  | none, none, some b => (match (Map.find? s.batches b).bind (fun x => x.charges.head?) with | some c => c.fp | none => 0)
  | none, none, none => 0

/-- The KIND 1 record of a graph's first request in an entry (R358, R360). -/
def State.reportHome (s : State) (st entry : Nat) (r : Req) (code : Nat) : State :=
  s.report r.core { s.mkRec r.graph 1 code with
    addr := r.va, fp := s.reqFp r, asid := r.asid, ident := r.ident, die := 8 + st, entry := entry }

/-- Requests parked in a stack's parking area: it holds 4,194,304 (R262, R274). -/
def Die.parked (d : Die) : Nat := d.faultq.foldl (fun a p => a + p.2.reqs.length) 0

/-- The element that a request serves has been parked: its command's entry does not wait for it again (R271). -/
def State.markParked (s : State) (r : Req) : State :=
  match r.elem with
  | none => s
  | some (c, eid, i, _) =>
    match Map.find? (s.core c).engines eid with
    | none => s
    | some e => s.setCore c { s.core c with engines := Map.put (s.core c).engines eid { e with parkedE := insSet e.parkedE (i / 8) } }

/-- A request parks at its home, in its place when it has parked there before, or waits at the port while all 1,024
entries, or all places of the parking area, are in use (R262, R360). -/
def State.park (s : State) (rid : Nat) (r : Req) (st code : Nat) (l : Option Leaf) : State :=
  let d := s.die (8 + st)
  if 4194304 ≤ d.parked && !d.faultq.any (fun p => p.2.reqs.contains rid) then { s with reqs := Map.put s.reqs rid { r with state := .port } } else
  let log2 := if code = 0x08 || code = 0x01 then 16 else match l with | some x => x.log2 | none => 16
  match d.faultEntryOf r.asid r.va with
  | some (e, x) =>
    let y := { x with reqs := if x.reqs.contains rid then x.reqs else x.reqs ++ [rid], graphs := insSet x.graphs r.graph }
    let s1 := (s.setDie (8 + st) { d with faultq := Map.put d.faultq e y }).markParked r
    let s2 := { s1 with reqs := Map.put s1.reqs rid { r with state := .parked e, fresh := false } }
    if x.graphs.contains r.graph then s2 else s2.reportHome st e r code
  | none =>
    match Map.firstFree d.faultq 1024 0 with
    | none => { s with reqs := Map.put s.reqs rid { r with state := .port } }
    | some e =>
      let y : FaultEntry := ⟨s.now, r.asid, r.va / 2 ^ log2 * 2 ^ log2, log2, code, [rid], [r.graph]⟩
      let s1 := (s.setDie (8 + st) { d with faultq := Map.put d.faultq e y }).markParked r
      ({ s1 with reqs := Map.put s1.reqs rid { r with state := .parked e, fresh := false } }).reportHome st e r code

/-- A request leaves the fault-queue entry it is in; the entry is freed with its last request (R360). -/
def Die.unpark (d : Die) (rid : Nat) : Die :=
  { d with faultq := (d.faultq.map (fun p => (p.1, { p.2 with reqs := delSet p.2.reqs rid }))).filter (fun p => !p.2.reqs.isEmpty) }

/-- A core's token that carries a release leaves once its commit's writes have performed, else is held (R129). Beyond core
scope the dirty lines of the core go home first (R203). -/
def State.sendHeld (s : State) (c : Nat) (cid : Option Nat) (t : Token) : State :=
  match cid with
  | none => s.sendToken c t
  | some x =>
    if Scope.isAuto t.rel then s.sendToken c t
    else
      let s1 := if Scope.beyondCore t.rel then s.cleanCore c (some x) else s
      let t1 := { t with hb := s1.chainHb x }
      match Map.find? s1.commits x with
      | none => s1.sendToken c t1
      | some r =>
        if s1.released x t.rel then (s1.sendToken c t1).retireCommit x
        else
          let h := HeldToken.mk (.token 0 0 none t.rel t1) t.rel c none
          { s1 with commits := Map.put s1.commits x { r with held := r.held ++ [h] } }

/-- One write of a batch is done; with the last the batch ends (R249, R256). -/
def State.batchStep (s : State) (b : Option Nat) : State :=
  match b with
  | none => s
  | some n =>
    match Map.find? s.batches n with
    | none => s
    | some x =>
      if 1 < x.left then { s with batches := Map.put s.batches n { x with left := x.left - 1 } }
      else
        let s1 := x.charges.foldl (fun a y => a.later (some y)) { s with batches := Map.del s.batches n }
        match x.token with
        | none => s1
        | some t => s1.sendHeld x.core x.cid t

/-- A request is over: it has crossed the boundaries there and back, and leaves the list and any fault-queue entry. With the load of
an LDA its acquire is complete (R133). -/
def State.endReq (s : State) (rid st : Nat) (r : Req) : State :=
  let s0 := (({ s with reqs := Map.del s.reqs rid } : State).countFlits (s.reqDirs r) r.size).batchStep r.batch
  let s1 := if r.hw then s0.hwDone r.core r.va else if r.acq then s0.endLda (dieOf r.core) r.asid else s0
  let s2 := s1.setDie (8 + st) ((s1.die (8 + st)).unpark rid)
  match r.cid with
  | none => s2
  | some cid => s2.retireCommit cid

/-! ### Answers (R214, R215) -/

/-- Whether the writes of a commit below an LSID, and those before the commit, have performed at a scope (R215). -/
def State.releasedBelow (s : State) (cid lsid : Nat) (scope : Scope) : Bool :=
  s.reqs.all (fun p => !(p.2.cid == some cid && decide (p.2.lsid < lsid) && p.2.blocks))
    && (match Map.find? s.commits cid with
        | none => true
        | some r => r.later.all (fun q => decide (lsid ≤ q.2.lsid))
            && r.hb.all s.performed && !(Scope.beyondCore scope && s.writesBack r.core))

/-- Reply tokens leave die d, or are held until the reply's release allows (R129, R215). -/
def State.sendReply (s : State) (d : Nat) (cid : Option Nat) (lsid : Nat) (ts : List Token) : State :=
  match cid with
  | none => s.sendAll d ts
  | some x =>
    match Map.find? s.commits x with
    | none => s.sendAll d ts
    | some _ =>
      ts.foldl (fun a t =>
        if Scope.isAuto t.rel then a.sendFrom d t
        else
          let t1 := { t with hb := a.chainHb x }
          if a.releasedBelow x lsid t.rel then a.sendFrom d t1
          else match Map.find? a.commits x with
            | none => a.sendFrom d t1
            | some r1 =>
              let h := HeldToken.mk (.token 0 0 none t.rel t1) t.rel (dieSource d) (some lsid)
              { a with commits := Map.put a.commits x { r1 with held := r1.held ++ [h] } }) s

/-- Bytes that a request over the fabric answers with: its number, a status (1: null, 2: it waits as a deferred reader,
0x80 and a fault's code), the poisoned bytes, the data. The layout is the model's. -/
def answerBytes (id : Nat) (poison : List Nat) (status : Nat) (data : List Byte) : List Byte :=
  let body := toBytes 8 id ++ [BitVec.ofNat 8 status, BitVec.ofNat 8 data.length]
    ++ toBytes 16 (poison.foldl (fun a i => a + 2 ^ (i % 128)) 0) ++ data
  body ++ List.replicate (ceilDiv body.length 16 * 16 - body.length) 0

/-- Bytes read for an engine's element, or one of its writes done (R293); i is 8 × element + stage. -/
def State.feedElem (s : State) (c eid i ofs : Nat) (r : Req) (data : List Byte) (poison : List Nat) : State :=
  let k := s.core c
  match Map.find? k.engines eid with
  | none => s
  | some e =>
    match Map.find? e.parts i with
    | none => s
    | some p =>
      let p1 : EngPart := match r.kind with
        | .load => { p with bytes := fillBytes p.bytes ofs data, poison := uniSet p.poison (poison.map (fun n => n + ofs)) }
        | _ => { p with left := p.left - 1 }
      let e1 := match r.kind with
        | .load => { e with parts := Map.put e.parts i p1 }
        | _ => if p1.left = 0 then { e with parts := Map.del e.parts i, doneE := insSet e.doneE (i / 8) } else { e with parts := Map.put e.parts i p1 }
      s.setCore c { k with engines := Map.put k.engines eid e1 }

/-- A request that has performed gives its value back: to an engine's element, the warp's load, a split-phase load, by
token, or over the fabric; and its charge ends with it (R13, R215). Die d is where the answer leaves; `poison` are the
offsets of poisoned bytes. -/
def State.answer (s : State) (d : Nat) (r : Req) (data : List Byte) (poison : List Nat) (null : Bool) : State :=
  let bad := !poison.isEmpty
  match r.back, r.elem with
  | some (chip, id), _ => s.fabric chip 2 (answerBytes id poison (b2n null) data)
  | none, some (c, eid, i, ofs) => (s.feedElem c eid i ofs r data poison).later r.charge
  | none, none =>
    match r.warp, r.split, r.reply with
    | some (c, k, id, ofs), _, _ => s.fillLoad c k id ofs data poison r.charge
    | none, some (id, ofs), _ => s.fillSplit d id ofs data poison r.charge
    | none, none, some rp => s.sendReply d r.cid r.lsid (replyToks rp data bad null r.charge.toList [])
    | none, none, none => s.later r.charge

/-- A fill leaves for the requesting die's cache (R197, R198, R202, R218). -/
def State.startFillOf (s : State) (r : Req) (pa : Nat) : State :=
  let d := dieOf r.core
  let line := pa / 128 * 128
  let l : Line :=
    { asid := r.asid, line := lineOf r.va, region := (s.region d r.asid r.va).1, rgen := r.rgen, stamp := r.stamp, tgen := r.tgen,
      home := false, dirty := false, data := memReads s.mem line 128, poison := s.poisonIn line 128,
      version := Map.getD s.versions (pa / 128) 0, used := if r.hint = .streaming then 0 else s.now, keep := r.hint = .keep }
  if 8 ≤ d then s
  else { s with fills := s.fills ++ [⟨d, l, r.hint, decide (r.hint ≠ .noRdc)⟩] }

/-! ### Performing (R206, R214, R219 to R226) -/

/-- The home line of an access, unless its compute die is not active, nor halted: then it performs at DRAM (R199, R365, R392); STL
marks it only where it is. -/
def State.atSlice (s : State) (st asid va : Nat) (write onlyPresent : Bool) (hint : Hint := .normal) : State :=
  let d := s.die st
  let active := decide (d.state = .active ∨ d.state = .halted)
  let present := d.lines.any (fun l => l.home && l.asid == asid && l.line == lineOf va)
  if active && (present || !onlyPresent) then s.touchHome st asid va write hint else s

def State.isFull (s : State) (pa : Nat) : Bool := Map.getD s.full (pa / 8) 0 == 1
def State.setFull (s : State) (pa : Nat) (b : Bool) : State := { s with full := Map.putD 0 s.full (pa / 8) (b2n b) }

/-- The deferred readers of a word, in their order of arrival. -/
def State.readersOf (s : State) (asid va : Nat) : List (Nat × Req) :=
  sortBy (fun a b => decide (a.2.stamp ≤ b.2.stamp))
    (s.reqs.filter (fun p => p.2.asid == asid && p.2.va == va && (match p.2.state with | .reader => true | _ => false)))

/-- A word that is full serves its deferred readers: each READF, and the first TAKE, which empties it (R226); a poisoned one answers
each with poison and stays as it is (R214). From a reader on whose answer has no way back, they come to the word anew (R49; DESIGN
CHOICE, assumption 29). -/
def State.serveReaders (s : State) (st pa : Nat) : List (Nat × Req) → State
  | [] => s
  | (rid, r) :: t =>
    if !s.pathUp (s.reqDirs r) then ((rid, r) :: t).foldl (fun a q => { a with reqs := Map.put a.reqs q.1 { q.2 with state := .moving } }) s
    else
      let bad := s.poisonIn pa 8
      let s1 := (s.answer st r (memReads s.mem pa 8) bad false).endReq rid st r
      match r.kind, bad with
      | .full .take _, [] => s1.setFull pa false
      | _, _ => s1.serveReaders st pa t

/-- A READF or TAKE of an empty word leaves a deferred reader, of which its own chip is told: there it has performed (R226). -/
def State.deferReader (s : State) (rid : Nat) (r : Req) : State :=
  let s1 := { s with reqs := Map.put s.reqs rid { r with state := .reader, stamp := s.next }, next := s.next + 1 }
  match r.back with
  | some (chip, id) => s1.fabric chip 2 (answerBytes id [] 2 [])
  | none => s1

/-- The bytes of an address space that only the device writes: every byte but READ's of a trace ring's header, every byte but
HEAD's of a dirty-range log (R7, R276, R342). -/
def State.deviceByte (s : State) (asid va : Nat) : Bool :=
  s.graphs.any (fun p => p.2.asid == asid
    && ((p.2.traceRing != 0 && p.2.traceRing ≤ va && va < p.2.traceRing + 64 && !(p.2.traceRing + 8 ≤ va && va < p.2.traceRing + 16))
      || (p.2.dlogBase != 0 && p.2.dlogBase + 8 ≤ va && va < p.2.dlogBase + 64 + 32 * 4096)))

/-- Whether a request is a write of a closing stream's log engine, which comes after the stream's own elements (R275). -/
def State.byLogEngine (s : State) (r : Req) : Bool :=
  match r.elem with
  | none => false
  | some (c, eid, i, _) => match Map.find? (s.core c).engines eid with
    | none => false
    | some e => decide (e.kind = .strm) && decide (8 * e.total ≤ i)

/-- The offsets of the bytes among n from an address on that only the device writes. -/
def State.deviceOfs (s : State) (asid va n : Nat) : List Nat := (List.range n).filter (fun i => s.deviceByte asid ((va + i) % 2 ^ 56))

/-- New bytes, but at some offsets the old ones. -/
def keepAt (ofs : List Nat) (old new : List Byte) : List Byte :=
  if ofs.isEmpty then new else (new.zipIdx).map (fun p => if ofs.contains p.2 then nthD 0 old p.2 else p.1)

/-- The offsets of the bytes that an access leaves as they are, though it names them: those that only the device writes, but for the
device's own writes. What a core wrote into its stash is none of these (R7; DEDUCED, assumption 92). -/
def State.skipped (s : State) (r : Req) : List Nat :=
  if (r.hw && !r.wb) || s.byLogEngine r then [] else s.deviceOfs r.asid r.va r.size

/-- What an access writes (R7). -/
def State.writable (s : State) (r : Req) (pa : Nat) (data : List Byte) : List Byte :=
  keepAt (s.skipped r) (memReads s.mem pa data.length) data

/-- A full/empty operation on a word that is not poisoned (R226). -/
def State.fullAct (s : State) (st rid : Nat) (r : Req) (op : FullOp) (data : DWord) (pa : Nat) : State :=
  let word := memReads s.mem pa 8
  match op with
  | .putf =>
    let bytes := s.writable r pa (toBytes 8 data.toNat)
    let s1 := ((s.homeWrite pa bytes false (s.skipped r)).touchCopies (dieOf r.core) r.asid r.va bytes [] false).setFull pa true
    let s2 := (s1.answer st r [] [] false).endReq rid st r
    if s.isFull pa then s2 else s2.serveReaders st pa (s2.readersOf r.asid r.va)
  | .sete => ((s.setFull pa false).answer st r [] [] false).endReq rid st r
  | .readf =>
    if s.isFull pa then (s.answer st r word [] false).endReq rid st r else s.deferReader rid r
  | .take =>
    if s.isFull pa then ((s.setFull pa false).answer st r word [] false).endReq rid st r else s.deferReader rid r

/-- The word operand of an atomic. -/
def operandNat (ws : List Word) : Nat := ws.foldr (fun w a => w.toNat + 2 ^ 32 * a) 0

def ReqKind.isAtomic : ReqKind → Bool
  | .atomic _ _ => true
  | .load | .store _ _ | .full _ _ | .rounda _ | .roundv | .stashStore _ | .smap _ _ | .swb | .sinv => false

/-- The notice of poison that an ATOM meets: it holds no instance (R214, R358). -/
def State.poisonNotice (s : State) (r : Req) : State :=
  s.report r.core { s.mkRec r.graph 2 0x04 with addr := r.va, fp := s.reqFp r, asid := r.asid, ident := r.ident }

/-- The dies that a ROUNDA's scope takes in (R134, R229). -/
def roundDies (scope : Scope) (d : Nat) : List Nat :=
  match scope with
  | .core | .die => [d]
  | .auto | .package => List.range 8

/-- A round that the home has raised is sent to the views of its scope (R229). -/
def State.spreadRound (s : State) (rid : Nat) (r : Req) (scope : Scope) (q n : Nat) : State :=
  let ds := roundDies scope (dieOf r.core)
  let s1 := { s with views := s.views ++ ds.map (fun d => ViewMsg.mk d r.asid q n) }
  { s1 with
    roundWaits := s1.roundWaits ++ [RoundWait.mk rid r.group r.asid q n ds r.charge]
    reqs := Map.put s1.reqs rid { r with state := .remote } }

/-- A request whose checks have passed performs at physical address pa of stack st. -/
def State.performReq (s : State) (rid : Nat) (r : Req) (st pa : Nat) : State :=
  let d := dieOf r.core
  match r.kind with
  | .load =>
    let s1 := s.atSlice st r.asid r.va false false r.hint
    let s2 := (s1.answer st r (memReads s1.mem pa r.size) (s1.poisonIn pa r.size) false).endReq rid st r
    if st = d || r.back.isSome || r.elem.isSome then s2 else s2.startFillOf r pa
  | .store new bad =>
    let data := s.writable r pa new
    let s1 := s.atSlice st r.asid r.va true r.local' r.hint
    let bads := (if bad then List.range data.length else r.bads).filter (fun i => !(s.skipped r).contains i)
    let s2 := ((s1.homeWrite pa data bad (s.skipped r)).poisonAt pa bads).touchCopies d r.asid r.va data (bads.map (fun i => r.va % 128 + i)) r.local'
    let s3 := (s2.answer st r [] [] false).endReq rid st r
    if (r.elem.isSome || r.elemIn) && (s.region (8 + st) r.asid r.va).2.kind = 2 then
      (uniSet [] ((List.range data.length).map (fun i => (pa + i) / 8))).foldl (fun a w =>
        if a.isFull (8 * w) then a
        else (a.setFull (8 * w) true).serveReaders st (8 * w) (a.readersOf r.asid (r.va / 8 * 8 + (8 * w - pa / 8 * 8)))) s3
    else s3
  | .atomic k ws =>
    let n := r.size
    let s1 := s.atSlice st r.asid r.va true false
    let old := memReads s1.mem pa n
    if s1.poisoned pa n then
      let s2 := if r.reply.isNone && r.back.isNone then s1.poisonNotice r else s1
      (s2.answer st r old [0] false).endReq rid st r
    else
      let a := atomAct k n (ofBytes old) (operandNat ws)
      let s2 := match a.1 with
        | none => s1
        | some new =>
          let bytes := s1.writable r pa (toBytes n new)
          (s1.homeWrite pa bytes false (s1.skipped r)).touchCopies d r.asid r.va bytes [] false
      (s2.answer st r old [] a.2).endReq rid st r
  | .full op data =>
    let s1 := s.atSlice st r.asid r.va true false
    let bad := s1.poisoned pa 8
    (match op with
      | .putf | .sete => s1.fullAct st rid r op data pa
      | .take | .readf =>
        if bad then (s1.answer st r (memReads s1.mem pa 8) [0] false).endReq rid st r else s1.fullAct st rid r op data pa)
  | .rounda scope =>
    let q := (s.region (8 + st) r.asid r.va).1
    let x := s.die (8 + st)
    let n := (Map.getD x.rounds (regionKey r.asid q) 0 + 1) % 2 ^ 32
    let s1 := s.setDie (8 + st) { x with rounds := Map.put x.rounds (regionKey r.asid q) n }
    if r.back.isSome then (s1.answer st r (toBytes 4 n) [] false).endReq rid st r
    else (s1.setDie (8 + st) ((s1.die (8 + st)).unpark rid)).spreadRound rid r scope q n
  | .roundv =>
    let q := s.region (8 + st) r.asid r.va
    let n := if q.2.kind = 1 then Map.getD (s.die (8 + st)).rounds (regionKey r.asid q.1) 0 else 0
    (s.answer st r (toBytes 4 n) [] false).endReq rid st r
  | .stashStore _ | .smap _ _ | .swb | .sinv => (s.answer st r [] [] false).endReq rid st r

/-- Whoever asked for what a request brings, and holds no warp's load, is told of its fault. -/
def State.failAsk (s : State) (r : Req) (code : Nat) : State :=
  if r.ask then { s with asksFailed := s.asksFailed ++ [⟨r.core, r.graph, r.asid, r.va, code⟩] } else s

/-- A synchronous load faults: its warp aborts and its lane's instance is held (R34, R213, R359). A warp on a halted die stands
where it is, and its load meets the fault after the release (R364). -/
def State.loadFault (s : State) (rid st : Nat) (r : Req) (code : Nat) : State :=
  match r.warp with
  | none => ((s.failAsk r code).later r.charge).endReq rid st r
  | some (c, k, id, _) =>
    match s.warp? c k with
    | none => (s.later r.charge).endReq rid st r
    | some w =>
      if s.halted (dieOf c) then { s with reqs := Map.put s.reqs rid { r with state := .moving } } else
      match w.loads.find? (fun l => l.id == id) with
      | none => (s.later r.charge).endReq rid st r
      | some l => ((s.later r.charge).takeFault c k w [⟨l.lane, code, r.va⟩]).endReq rid st r

/-- Whether a load fills only copies: a prefetch, a refresh, or the load of a warp that has aborted (R35, R217, R218). -/
def Req.isFillOnly (r : Req) : Bool :=
  match r.kind with
  | .load => r.warp.isNone && r.split.isNone && r.back.isNone && r.elem.isNone && !r.hw
  | _ => false

/-- A prefetch that meets a full fault queue is dropped, on its own chip or told so (R218); a fill of the stash that it made is told too. -/
def State.dropPrefetch (s : State) (rid st : Nat) (r : Req) : State :=
  match r.back with
  | some (chip, id) => (s.fabric chip 2 (answerBytes id [] 0x80 [])).endReq rid st r
  | none => (s.failAsk r 0).endReq rid st r

/-- Whether a request is of a graph that has been unloaded: it does not park any more (R363). -/
def State.unloaded (s : State) (r : Req) : Bool := r.back.isNone && decide (r.graph < 256) && (s.graph? r.graph).isNone

/-- A request meets a fault at its home: a synchronous load aborts its warp, a fill-only load is dropped, each on its own
chip, and so is a request of an unloaded graph (R363); every other request parks (R207, R213, R218, R360). -/
def State.faultReq (s : State) (rid : Nat) (r : Req) (st code : Nat) (l : Option Leaf) : State :=
  if r.isFillOnly || s.unloaded r then ((s.failAsk r code).later r.charge).endReq rid st r
  else match r.warp, r.back with
    | some _, _ => s.loadFault rid st r code
    | none, some (chip, id) =>
      if r.sync then (s.fabric chip 2 (answerBytes id [] (0x80 + code) [])).endReq rid st r else s.park rid r st code l
    | none, none => s.park rid r st code l

/-- Whether an earlier access of the same warp to overlapping bytes is parked: the coherence order of the block's accesses
holds it back (R125, R127, R128). -/
def State.parkedBefore (s : State) (rid : Nat) (r : Req) : Bool :=
  r.blk.isSome && s.reqs.any (fun p => decide (p.1 < rid) && p.2.blk == r.blk && p.2.asid == r.asid && p.2.state.isParked
    && decide (p.2.va < r.va + max r.size 1) && decide (r.va < p.2.va + max p.2.size 1) && !p.2.isFillOnly
    && (match p.2.kind, r.kind with | .load, .load => p.2.lane == r.lane | _, _ => true))

/-- The graph whose high-water marks bound a request: a request of another chip has met its graph's marks there (R194). -/
def Req.markGraph (r : Req) : Nat := if r.back.isSome then 256 else r.graph

/-- A request with its leaf: checked, then performed or faulted. -/
def State.finishReq (s : State) (rid : Nat) (r : Req) (st : Nat) (l : Option Leaf) : State :=
  if ReqKind.isRound r.kind then
    (match r.kind with
      | .rounda _ => if (s.region (8 + st) r.asid r.va).2.kind = 1 then s.performReq rid r st 0 else s.faultReq rid r st 0x02 none
      | _ => s.performReq rid r st 0)
  else match s.faultOf st r.markGraph r.asid r.ident r.va r.size r.kind.want l r.priv, l with
    | some code, _ => s.faultReq rid r st code l
    | none, none => s.faultReq rid r st 0x01 none
    | none, some x =>
      if s.parkedBefore rid r then { s with reqs := Map.put s.reqs rid { r with state := .moving } }
      else s.performReq rid { r with fresh := false } st (st * 2 ^ 36 + localAddr r.va x (s.region (8 + st) r.asid r.va).2.pinned)

/-! ### Requests homed on other chips (R382, R384) -/

def FullOp.code : FullOp → Nat
  | .putf => 0
  | .take => 1
  | .readf => 2
  | .sete => 3

def AtomOp.codeOf : AtomOp → Nat
  | .add => 0
  | .fadd => 1
  | .smin => 2
  | .smax => 3
  | .umin => 4
  | .umax => 5
  | .and => 6
  | .or => 7
  | .xor => 8
  | .xchg => 9

def atomOpOf : Nat → AtomOp
  | 0 => .add
  | 1 => .fadd
  | 2 => .smin
  | 3 => .smax
  | 4 => .umin
  | 5 => .umax
  | 6 => .and
  | 7 => .or
  | 8 => .xor
  | _ => .xchg

/-- The kind of a request as its packet says it: two code bytes and the data. The layout is the model's. -/
def ReqKind.pack : ReqKind → Nat × Nat × List Byte
  | .load => (0, 0, [])
  | .store data bad => (1, b2n bad, data)
  | .atomic k ws =>
    (2, (match k with | .rmw op => AtomOp.codeOf op | .cas => 16 | .incw => 17 | .decw => 18 | .faddb => 19), ws.flatMap (fun w => toBytes 4 w.toNat))
  | .full op d => (3, FullOp.code op, toBytes 8 d.toNat)
  | .rounda _ => (4, 0, [])
  | .roundv => (5, 0, [])
  | .stashStore _ | .smap _ _ | .swb | .sinv => (0, 0, [])

def wordsOf (data : List Byte) : List Word :=
  (List.range (data.length / 4)).map (fun i => BitVec.ofNat 32 (ofBytes ((data.drop (4 * i)).take 4)))

def kindOf (op sub : Nat) (data : List Byte) : ReqKind :=
  match op with
  | 0 => .load
  | 1 => .store data (sub == 1)
  | 2 => .atomic (match sub with | 16 => .cas | 17 => .incw | 18 => .decw | 19 => .faddb | n => .rmw (atomOpOf n)) (wordsOf data)
  | 3 => .full (match sub with | 0 => .putf | 1 => .take | 2 => .readf | _ => .sete) (BitVec.ofNat 64 (ofBytes data))
  | 4 => .rounda .package
  | _ => .roundv

/-- The payload of a class-1 packet: number, address, space, identity, graph, kind, sizes, marks, poisoned bytes and data (the
model's layout). -/
def Req.bytes (rid : Nat) (r : Req) : List Byte :=
  let k := ReqKind.pack r.kind
  let body := toBytes 8 rid ++ toBytes 8 r.va ++ toBytes 2 r.asid ++ toBytes 4 r.ident ++ toBytes 2 r.graph
    ++ toBytes 1 k.1 ++ toBytes 1 k.2.1 ++ toBytes 1 r.size ++ toBytes 1 k.2.2.length
    ++ toBytes 1 (b2n (r.warp.isSome || r.isFillOnly || r.ask) + 2 * b2n (r.elem.isSome || r.elemIn) + 4 * b2n r.fillIn
      + 8 * b2n r.local' + 16 * encHint r.hint)
    ++ toBytes 16 (r.bads.foldl (fun a i => a + 2 ^ (i % 128)) 0) ++ k.2.2
  body ++ List.replicate (ceilDiv body.length 16 * 16 - body.length) 0

/-- A request homed on another chip (R384): over the fabric, or poison and a count where the chip is unreachable. -/
def State.remoteReq (s : State) (rid : Nat) (r : Req) (chip : Nat) : State :=
  if s.reachable.contains chip && s.ports.any (fun p => p.2) then
    ({ s with reqs := Map.put s.reqs rid { r with state := .remote } }).fabric chip 1 ((match r.kind with | .load => { r with va := r.va / 128 * 128, size := 128 } | _ => r).bytes rid)
  else
    let s1 := s.countDie (s.fabricDieOf chip) 4 1
    (s1.answer (s1.fabricDieOf chip) r (List.replicate (if r.kind = .roundv then 4 else r.size) 0)
      (match r.kind with | .store _ _ | .rounda _ => [] | _ => List.range (max r.size 1)) false).endReq rid 0 r

/-! ### HOME_ACCESS (R207) -/

/-- Whether two requests are loads of one lane of one warp (R125, R126). -/
def Req.sameLane (p r : Req) : Bool :=
  r.blk.isSome && p.blk == r.blk && p.lane == r.lane && !p.isFillOnly && !r.isFillOnly
    && (match p.kind, r.kind with | .load, .load => true | _, _ => false)

/-- Whether a replay of the page's fault-queue entry holds a request: requests replay in the order in which they came, and
before any other request to the page (R208, R360). -/
def State.replayHolds (s : State) (st rid : Nat) (r : Req) : Bool :=
  match (s.die (8 + st)).faultEntryOf r.asid r.va with
  | none => false
  | some (_, x) => (x.reqs.takeWhile (fun q => q != rid)).any (fun q => match Map.find? s.reqs q with | some y => y.fresh | none => false)

/-- Whether an earlier access of the same die to overlapping bytes still stands before a request (R125, R126, R128): one of the two
writes, or both are loads of one lane. A write of the hardware goes before every access to its line that has not performed, but
for those that are replayed (R208), and waits for earlier ones of the hardware alone. -/
def State.behind (s : State) (rid : Nat) (r : Req) : Bool :=
  let writes := fun k : ReqKind => match k with
    | .store _ _ | .atomic _ _ | .full _ _ => true
    | _ => false
  s.reqs.any (fun p =>
    (p.2.hw || !r.hw) && (p.1 < rid || (p.2.hw && !r.hw && !r.fresh && lineOf p.2.va == lineOf r.va)) && p.1 != rid && p.2.asid == r.asid
      && (dieOf p.2.core == dieOf r.core || p.2.hw)
      && decide (p.2.va < r.va + max r.size 1) && decide (r.va < p.2.va + max p.2.size 1)
      && (writes p.2.kind || writes r.kind || p.2.sameLane r)
      && (match p.2.state with | .parked _ | .reader => false | _ => true))

/-- A page walk at a stack for a request (R207, R319): walks for one page merge, and 64 run at once. A prefetch that meets a
full fault queue is dropped (R218). -/
def State.startWalk (s : State) (rid : Nat) (r : Req) (st : Nat) : State :=
  let d := s.die (8 + st)
  let va := r.va / 65536 * 65536
  let gen := s.tgenOf (8 + st) r.asid
  let wait := { s with reqs := Map.put s.reqs rid { r with state := .walking } }
  let same := fun w : Walk => !r.fresh && w.asid == r.asid && w.va == va && w.tgen == gen
  if d.walks.any same then
    wait.setDie (8 + st) { d with walks := d.walks.map (fun w => if same w then { w with reqs := w.reqs ++ [rid] } else w) }
  else if 64 ≤ d.walks.length then s
  else if s.queueFull st r.asid r.va then
    if r.fillIn then s.dropPrefetch rid st r else { s with reqs := Map.put s.reqs rid { r with state := .port } }
  else wait.setDie (8 + st) { d with walks := d.walks ++ [⟨r.asid, va, gen, [rid]⟩] }

/-- HOME_ACCESS (R47, R49, R207, R262): a request that nothing stands before, and that has left its core, reaches its home over boundaries that are up; a high-water mark
of its graph is tested first, on this chip (R194, R211; DESIGN CHOICE, assumption 111), recalls come next, then its translation and
checks, and it performs, parks or faults. -/
def execHomeAccess (req : Nat) (s : State) : Host.Outcome State Fault Refusal :=
  match Map.find? s.reqs req with
  | none => .next s
  | some r =>
    match r.state with
    | .parked _ | .reader | .remote | .walking => .next s
    | .moving | .port =>
      if s.behind req r || s.inQueue req r || !s.pathUp (s.reqDirs r) then .next s
      else
        let h := s.reqHome r
        if r.back.isNone && !ReqKind.isRound r.kind && s.aboveMark r.graph r.asid r.va r.size r.priv then .next (s.finishReq req r h.2 none)
        else if h.1 ≠ s.chipId && r.back.isNone then
          .next (match (if r.hw then none else s.askRecall (dieOf r.core) r.asid (lineOf r.va)) with
            | some s1 => s1
            | none => s.remoteReq req r h.1)
        else if s.replayHolds h.2 req r then .next s
        else if ReqKind.isRound r.kind then .next (s.finishReq req r h.2 none)
        else match (if r.hw then none else s.recallFor (dieOf r.core) h.2 r.asid (lineOf r.va)) with
          | some s1 => .next s1
          | none =>
            match (if r.fresh then none else s.tlbHit (8 + h.2) r.asid r.va) with
              | some e => .next ((s.tlbUse h.2 e).finishReq req r h.2 (some e.leaf))
              | none => .next (s.startWalk req r h.2)

/-- Whether a walk found the page of another: one address space, one generation, one page (R319). -/
def Walk.merges (w x : Walk) (l : Option Leaf) : Bool :=
  match l with
  | none => false
  | some y => x.asid == w.asid && x.tgen == w.tgen && x.va / 2 ^ y.log2 == w.va / 2 ^ y.log2

/-- Whether a request waits for a walk; one that asked for a walk afresh waits for its own only (R318). -/
def State.walker (s : State) (own : Bool) (rid : Nat) : Bool :=
  match Map.find? s.reqs rid with
  | none => false
  | some r => (match r.state with | .walking => true | _ => false) && (own || !r.fresh)

/-- A request waits for a walk no more, and something is done with it. -/
def State.wake (s : State) (rid : Nat) (f : State → Req → State) : State :=
  match Map.find? s.reqs rid with
  | none => s
  | some r => f s { r with state := .moving }

/-- The requests that a walk's result serves, in their order: those of the walks for one page; only its own where the
generation has risen since it began (R318, R319). -/
def State.served (s : State) (die : Nat) (w : Walk) (l : Option Leaf) (others : List Walk) : List Nat :=
  if w.tgen ≠ s.tgenOf die w.asid then (w.reqs.take 1).filter (s.walker true)
  else w.reqs.filter (s.walker true) ++ (others.filter (fun x => w.merges x l)).flatMap (fun x => x.reqs.filter (s.walker false))

/-- PAGE_WALK_COMPLETE (R318, R319): a walk ends; while its generation is current its result enters the TLB. The requests
that waited for it and are not served go to their home again, and so do those whose answer has no way back (R49). -/
def execPageWalkComplete (die k : Nat) (s : State) : Host.Outcome State Fault Refusal :=
  let d := s.die die
  match d.walks[k]? with
  | none => .next s
  | some w =>
    let st := die - 8
    let l := s.walk w.asid w.va
    let others := dropNth d.walks k
    let sv := s.served die w l others
    let left := (others.map (fun x => { x with reqs := x.reqs.filter (fun q => !sv.contains q) })).filter (fun x => !x.reqs.isEmpty)
    let s1 := s.setDie die { d with walks := left }
    let s2 := match l with
      | none => s1
      | some x => if w.tgen = s.tgenOf die w.asid then s1.tlbPut st w.asid w.va x else s1
    let again := w.reqs.filter (fun q => s.walker true q && !sv.contains q)
    let s3 := again.foldl (fun a q => a.wake q (fun b r => { b with reqs := Map.put b.reqs q r })) s2
    .next (sv.foldl (fun a q => a.wake q (fun b r =>
      if b.pathUp (b.reqDirs r) then b.finishReq q r st l else { b with reqs := Map.put b.reqs q r })) s3)

/-! ### On the way back -/

/-- LOAD_RETURN (R33, R212): a synchronous load with all its bytes writes its register; one that read poison faults
(R214), but on a halted die only after its release (R364). -/
def execLoadReturn (core slot k : Nat) (s : State) : Host.Outcome State Fault Refusal :=
  match s.warp? core slot with
  | none => .next s
  | some w =>
    match w.loads[k]? with
    | none => .next s
    | some l =>
      if !l.bytes.all Option.isSome || l.charges.any (fun x => s.lateAt (fpCore x.fp) (fpIndex x.fp))
          || (l.poison && s.halted (dieOf core)) then .next s
      else if l.poison then .next (s.takeFault core slot w [⟨l.lane, 0x04, l.addr⟩])
      else
        let v := ofBytes (l.bytes.map (fun b : Option Byte => b.getD 0))
        .next ((s.setWarp core slot ({ w with loads := dropNth w.loads k }.setRegs l.lane l.reg l.words v)).dischargeAll l.charges)

/-- IN_FLIGHT_DECREMENT (R13): the message of an ended access reaches its activation's counter; in a cycle it acts before
the landing at the frame (R14) and before a commit's GATE there (R289). The answer that ends the access has crossed before. -/
def execInFlightDecrement (k : Nat) (s : State) : Host.Outcome State Fault Refusal :=
  match s.decrs[k]? with
  | none => .next s
  | some x =>
    .next (if s.lateAt (fpCore x.fp) (fpIndex x.fp) then s else { s with decrs := dropNth s.decrs k }.discharge x)

/-- The boundaries that a fill crosses (R47). -/
def State.fillDirs (s : State) (f : Fill) : List Nat :=
  let m := s.homeDie f.die f.line.asid f.line.line
  s.homeWay m (routeDirs m f.die)

/-- The copies of a line leave a die. -/
def State.dropCopies (s : State) (d asid line : Nat) : State :=
  let x := s.die d
  let mine := fun l : Line => !l.home && l.asid == asid && l.line == line
  s.setDie d { x with lines := x.lines.filter (fun l => !mine l), rdc := x.rdc.filter (fun l => !mine l) }

/-- CACHE_FILL_ARRIVAL (R47, R49, R198, R199, R202): a fill comes over boundaries that are up, those of one line in the order in which
they left the home, and enters the die cache and the remote-data cache in place of what they held of the line; one whose tag has
grown stale is installed invalid (R126). -/
def execCacheFillArrival (k : Nat) (s : State) : Host.Outcome State Fault Refusal :=
  match s.fills[k]? with
  | none => .next s
  | some f =>
    let dirs := s.fillDirs f
    let l := f.line
    let s1 := (({ s with fills := dropNth s.fills k } : State).countFlits dirs 128).dropCopies f.die l.asid l.line
    if !s.pathUp dirs || (s.fills.take k).any (fun g => g.die == f.die && g.line.asid == l.asid && g.line.line == l.line) then .next s
    else if l.rgen ≠ (s1.die f.die).gen l.asid l.region || l.tgen ≠ s1.tgenOf f.die l.asid || l.stamp ≠ (s1.die f.die).view l.asid l.region % 256
      then .next s1
    else
      let s2 := if f.hint = .noAlloc then s1 else s1.installLine f.die l
      let busy := (s2.die f.die).rdcBusy.any (fun w => w.asid == l.asid && w.region == l.region)
      .next (if f.toRdc && !busy then s2.installRdc f.die l else s2)

/-! ### Stash fills and ownership (R203 to R205, R320, R367) -/

/-- Whether a home's directory names a die, at its incarnation, as the owner of a line, and the die has been granted it (R205, R367). -/
def State.ownsLine (s : State) (st d asid line : Nat) : Bool :=
  (s.die d).owned.contains (dirKey asid line) && (s.die (8 + st)).owners.any (fun o => o.asid == asid && o.line == line && o.owner == d && o.inc == (s.die d).incarnation && !o.recalled)

/-- The copy of a line that a die holds, whatever its tags. -/
def State.copyOf (s : State) (d asid line : Nat) : Option Line :=
  (s.die d).lines.find? (fun l => !l.home && l.asid == asid && l.line == line)

/-- A die asks a home for ownership, unless it has asked (R205, R367). -/
def State.askOwn (s : State) (c asid line : Nat) : State :=
  let d := dieOf c
  if s.owns.any (fun o => o.die == d && o.asid == asid && o.line == line) then s
  else
    let held := s.copyOf d asid line
    { s with owns := s.owns ++ [OwnReq.mk d c asid line (s.die d).incarnation (match held with | some l => l.version | none => 0)
        held.isSome false false false] }

/-- A read that the hardware makes of a line for an engine's element, command and part, which parks where its page faults (R194, R207). -/
def State.hwLoad (s : State) (c g asid ident va : Nat) (elem : Option (Nat × Nat)) : State :=
  s.addReq { Req.bare c g asid ident va 128 .load s.now with hw := true, elem := elem.map (fun p => (c, p.1, p.2, 0)) }

/-- The fault that a line met which a graph's core asked for (R213). -/
def State.askFault (s : State) (c g asid va : Nat) : Option Nat :=
  (s.asksFailed.find? (fun x => x.code != 0 && x.core == c && x.graph == g && x.asid == asid && lineOf x.va == lineOf va)).map (fun x => x.code)

/-- Whether a line that a prefetch asked for has been dropped at its home (R218). -/
def State.askDropped (s : State) (c g asid va : Nat) : Bool :=
  s.asksFailed.any (fun x => x.code == 0 && x.core == c && x.graph == g && x.asid == asid && lineOf x.va == lineOf va)

/-- The fault of a line has been told. -/
def State.clearAsk (s : State) (c g asid va : Nat) : State :=
  { s with asksFailed := s.asksFailed.filter (fun x => !(x.core == c && x.graph == g && x.asid == asid && lineOf x.va == lineOf va)) }

/-- A line asked for from another chip, so that a later read finds a copy, or learns of the fault that the request met; `pref` says
that a prefetch asks. -/
def State.askLine (s : State) (c g asid ident va : Nat) (pref : Bool := false) : State :=
  let d := s.die (dieOf c)
  let q := (s.region (dieOf c) asid va).1
  if s.fillUnderWay (dieOf c) asid va
      || s.reqs.any (fun p => p.2.core == c && p.2.graph == g && p.2.asid == asid && lineOf p.2.va == lineOf va && p.2.isFillOnly && p.2.ask) then s
  else (if s.askDropped c g asid va then s.clearAsk c g asid va else s).addReq { Req.bare c g asid ident (va / 128 * 128) 1 .load s.now with
    ask := true, fillIn := pref, rgen := d.gen asid q, stamp := d.view asid q % 256, tgen := s.tgenOf (dieOf c) asid }

/-- A stash line filled: bytes that have been written stay, the others come from the line's bytes (R203). -/
def StashLine.fill (old : Option StashLine) (asid line : Nat) (data : List Byte) (poison : List Nat) : StashLine :=
  match old with
  | some o =>
    if o.asid == asid && o.line == line then
      { o with data := (List.range 128).map (fun i => if bitOf o.wrote i then nthD 0 o.data i else nthD 0 data i),
               poison := uniSet (o.poison.filter (fun i => bitOf o.wrote i)) (poison.filter (fun i => !bitOf o.wrote i)),
               present := 65535 }
    else ⟨asid, line, data, poison, 65535, false, 0, 0⟩
  | none => ⟨asid, line, data, poison, 65535, false, 0, 0⟩

/-- A fill ends with a line's bytes: the line stands in the stash, and the die directory names the core (R203, R204). -/
def State.stashInstall (s : State) (core : Nat) (f : StashFillReq) (data : List Byte) (poison : List Nat) : State :=
  let d := dieOf core
  let q := s.core core
  let s1 := s.setCore core { q with stash := Map.put q.stash f.index (StashLine.fill (Map.find? q.stash f.index) f.asid f.line data poison) }
  (s1.setDie d { s1.die d with dieDir := Map.put (s1.die d).dieDir (dirKey f.asid f.line) core }).endFill f

/-- A fill meets a fault: those that wait for it learn of it; a fill of an engine ends, and a read of the hardware parks in its
place (R207, R213). -/
def State.fillFaulted (s : State) (core : Nat) (f : StashFillReq) (p : Nat × StashFillReq) (ident code : Nat) : State :=
  let s0 := { s with stashFills := s.stashFills.filter (fun q => decide (q ≠ p)) }
  if f.engine.isSome then s0.hwLoad core f.graph f.asid ident (f.line * 128) f.engine
  else if f.waiters.isEmpty then s0
  else { s0 with stashFills := s0.stashFills ++ [(core, { f with fault := some code })] }

/-- STASH_FILL (R49, R203, R204): a stash line is filled once its core owns the line, on the die and at its home, behind the writes
of the die that are on their way to it, over boundaries that are up; the line of another stack has come with its grant (R367). A line
homed on another chip is asked for there, and filled from the copy that comes. A prefetch is dropped at a full fault queue (R218). -/
def execStashFill (core k : Nat) (s : State) : Host.Outcome State Fault Refusal :=
  match (s.stashFills.filter (fun p => p.1 == core))[k]? with
  | none => .next s
  | some p =>
    let f := p.2
    let d := dieOf core
    let va := f.line * 128
    let h := s.homeOf d f.asid va
    let ident := match s.graph? f.graph with | some g => g.identity | none => 0
    let s0 := { s with stashFills := s.stashFills.filter (fun q => decide (q ≠ p)) }
    let prefetch := f.waiters.isEmpty && f.engine.isNone
    let dirs := s.trip d (8 + h.2)
    if f.fault.isSome then .next s
    else match s.askRecall d f.asid f.line with
      | some s1 => .next s1
      | none =>
        if s.storeUnderWay d f.asid va || s.reqs.any (fun q => q.2.hw && q.2.asid == f.asid && lineOf q.2.va == f.line && !(ReqState.isParked q.2.state)) then .next s
        else if h.1 ≠ s.chipId then
          if s.aboveMark f.graph f.asid va 128 then .next (s.fillFaulted core f p ident 0x08)
          else if prefetch && s.askDropped core f.graph f.asid va then .next (s0.clearAsk core f.graph f.asid va)
          else match s.copyFor core f.asid va .normal {}, s.askFault core f.graph f.asid va with
          | some l, _ => .next ((s0.useCopy d l).stashInstall core f l.data l.poison)
          | none, some code => .next ((s.clearAsk core f.graph f.asid va).fillFaulted core f p ident code)
          | none, none =>
            if s.reachable.contains h.1 && s.ports.any (fun q => q.2) then .next (s.askLine core f.graph f.asid ident va prefetch)
            else .next ((s0.countDie (s.fabricDieOf h.1) 4 1).stashInstall core f (List.replicate 128 0) (List.range 128))
        else if h.2 ≠ d && !s.ownsLine h.2 d f.asid f.line then .next (s.askOwn core f.asid f.line)
        else match (if h.2 = d then s.askOwner h.2 f.asid f.line 99 else s.askRecall h.2 f.asid f.line) with
          | some s1 => .next s1
          | none =>
            if !s.pathUp dirs then .next s
            else match s.translate h.2 f.asid va with
            | none => .next (if prefetch && s.queueFull h.2 f.asid va then s0 else s)
            | some (s2, l) =>
              match s.faultOf h.2 f.graph f.asid ident va 128 ⟨true, false, none, false⟩ l, l with
              | none, some x =>
                let s1 := (({ s2 with stashFills := s0.stashFills } : State).countFlits (if h.2 = d then dirs else []) 128).atSlice h.2 f.asid va false false
                let pa := s.physOf d f.asid va x
                .next (s1.stashInstall core f (memReads s.mem pa 128) (s.poisonIn pa 128))
              | some code, _ => .next (s2.fillFaulted core f p ident code)
              | none, none => .next { s2 with stashFills := s0.stashFills }

/-- The set of a line in an owner directory (R320). -/
def ownerSet (asid line : Nat) : Nat := Config.ownerHash asid line % 4096

/-- The ways of a line's set when all 16 are in use; a directory of fewer than 16 entries has no such set (R320). -/
def Die.fullSet (x : Die) (asid line : Nat) : List Owner :=
  if x.owners.length < 16 then []
  else
    let ways := x.owners.filter (fun o => ownerSet o.asid o.line == ownerSet asid line && !(o.asid == asid && o.line == line))
    if ways.length < 16 then [] else ways

/-- The boundaries that an ownership request, or its grant, crosses (R47). -/
def State.ownDirs (s : State) (o : OwnReq) : List Nat := s.trip o.die (s.homeDie o.die o.asid o.line)

/-- OWNERSHIP_REQUEST (R205, R320): a request from a live incarnation takes the entry, once no other die owns the line
and its set has room. Requests for one line are served in their order of arrival, each once the grant before it has
arrived (R327); a draining die gets none (R392). -/
def execOwnershipRequest (k : Nat) (s : State) : Host.Outcome State Fault Refusal :=
  match s.owns[k]? with
  | none => .next s
  | some o =>
    if o.granted || (s.die o.die).state = .draining || (s.owns.zipIdx).any (fun p => p.2 != k && p.1.asid == o.asid && p.1.line == o.line && (p.2 < k || p.1.granted)) then .next s
    else if o.inc ≠ (s.die o.die).incarnation then .next { s with owns := dropNth s.owns k }
    else
      let st := (s.homeOf o.die o.asid (o.line * 128)).2
      if !s.pathUp (s.trip o.die (8 + st)) then .next s
      else match s.askOwner st o.asid o.line o.die with
      | some s1 => .next s1
      | none =>
        match s.askRecall st o.asid o.line with
        | some s1 => .next s1
        | none =>
          let x := s.die (8 + st)
          match x.fullSet o.asid o.line with
          | y :: t =>
            let oldest := t.foldl (fun a b => if b.granted < a.granted then b else a) y
            .next (s.setDie (8 + st) { x with owners := x.owners.map (fun e => if e = oldest then { e with recalled := true } else e) })
          | [] => match s.translate st o.asid (o.line * 128) with
            | none => .next s
            | some (s0, l) =>
            let pa := match l with
              | some l => s.physOf o.die o.asid (o.line * 128) l
              | none => 0
            let v := Map.getD s.versions (pa / 128) 0
            let e : Owner := ⟨o.asid, o.line, o.die, o.inc, v, false, s.now⟩
            let s1 := (s0.countFlits (s.homeWay (8 + st) (routeDirs o.die (8 + st))) 16).setDie (8 + st) { s0.die (8 + st) with
              owners := x.owners.filter (fun y => !(y.asid == o.asid && y.line == o.line)) ++ [e] }
            .next { s1 with owns := setNth s1.owns k { o with granted := true, withData := !(o.had && v == o.version) } }

/-- UPGRADE_GRANT (R47, R49, R367): a grant arrives over boundaries that are up. With data, or with the mark data needed, the requester's copy is replaced
by the line as the home holds it; else its copy becomes the owner's. -/
def execUpgradeGrant (k : Nat) (s : State) : Host.Outcome State Fault Refusal :=
  match s.owns[k]? with
  | none => .next s
  | some o =>
    let m := s.homeDie o.die o.asid o.line
    let dirs := s.homeWay m (routeDirs m o.die)
    if !o.granted || !s.pathUp dirs then .next s
    else
      let s1 := ({ s with owns := dropNth s.owns k } : State).countFlits dirs (if o.withData then 128 else 16)
      let d := { s1.die o.die with owned := insSet (s1.die o.die).owned (dirKey o.asid o.line) }
      if o.withData || o.needed then
        .next (s1.setDie o.die { d with lines := d.lines.filter (fun l => l.home || l.asid != o.asid || l.line != o.line) })
      else .next (s1.setDie o.die d)

/-- GEN_WRAP_SWEEP (R200): every copy of a region leaves the die's slices. -/
def execGenWrapSweep (die k : Nat) (s : State) : Host.Outcome State Fault Refusal :=
  let d := s.die die
  match d.sweeps[k]? with
  | none => .next s
  | some w => .next (s.setDie die { d with
      sweeps := dropNth d.sweeps k, lines := d.lines.filter (fun l => l.home || l.asid != w.asid || l.region != w.region) })

/-- RDC_SWEEP_WALKER (R202): the walker ends; the remote-data cache holds no copy of the region. -/
def execRdcSweepWalker (die k : Nat) (s : State) : Host.Outcome State Fault Refusal :=
  let d := s.die die
  match d.rdcBusy[k]? with
  | none => .next s
  | some w => .next (s.setDie die { d with
      rdcBusy := dropNth d.rdcBusy k, rdc := d.rdc.filter (fun l => l.asid != w.asid || l.region != w.region) })

/-- The boundaries that a round crosses to a die's view: from base die M(q mod 8), or the fabric die of its region's chip (R47,
R315). -/
def State.viewDirs (s : State) (v : ViewMsg) : List Nat :=
  let chip := (nthD Region.empty (s.regTab v.die v.asid) v.region).homeChip
  let m := if chip = s.chipId then 8 + v.region % 8 else s.fabricDieOf chip
  s.homeWay m (routeDirs m v.die)

/-- ROUND_VIEW_UPDATE (R47, R49, R201, R229): a round reaches a die's view, which only rises, over boundaries that are up. -/
def execRoundViewUpdate (k : Nat) (s : State) : Host.Outcome State Fault Refusal :=
  match s.views[k]? with
  | none => .next s
  | some v =>
    let s1 := ({ s with views := dropNth s.views k } : State).countFlits (s.viewDirs v) 16
    if !s.pathUp (s.viewDirs v) then .next s
    else .next (s1.setDie v.die ((s1.die v.die).raiseView v.asid v.region v.round))

/-- ROUNDA_COMPLETE (R49, R229): every view of the scope is at or beyond the round, and the way back is up. -/
def execRoundaComplete (k : Nat) (s : State) : Host.Outcome State Fault Refusal :=
  match s.roundWaits[k]? with
  | none => .next s
  | some w =>
    if w.dies.any (fun d => ahead w.round ((s.die d).view w.asid w.region)) then .next s
    else
      let s1 := { s with roundWaits := dropNth s.roundWaits k }
      match Map.find? s1.reqs w.req with
      | none => .next (s1.later w.charge)
      | some r => .next (if s.pathUp (s.reqDirs r) then (s1.later w.charge).endReq w.req 0 r else s)

end Sys2Proof.Machine
end

