-- ==== Sys2Proof/Machine/Emit.lean ====
section
/-! DEFINITION. Row 0x0_ at issue: the emits, frames, spawns, watches, traps and warp control (R281 to R292). -/
namespace Sys2Proof.Machine

/-- VAL read as 64 bits (R65): an even register gives its pair, an odd one and a slot their 32 bits, a special its
64-bit read. -/
def View.val64 (x : View) (lane : Nat) (o : Sel) : Nat :=
  match o with
  | .v n | .k n => if n % 2 = 0 then x.rd lane 2 o else x.rd lane 1 o
  | .f _ => x.rd lane 1 o
  | .zero | .lane | .fp | .iter | .act | .wpop | .p _ => x.rd lane 2 o

def Edge.none : Edge := ⟨0, RelWord.none⟩

/-- Edge descriptor e of a warp's block (R97). -/
def State.edge (s : State) (w : Warp) (e : Nat) : Edge :=
  match s.block? w.graph w.block with
  | none => Edge.none
  | some b => nthD Edge.none b.edges e

/-- The narrowest scope that encloses two cores (R123). -/
def narrowest (c d : Nat) : Scope := if c = d then .core else if dieOf c = dieOf d then .die else .package

/-- The release of a token from core c to core d (R281): named, or the edge's default; auto stands for none. -/
def relOf (scope : Scope) (e : Edge) (c d : Nat) : Scope :=
  match scope with
  | .core => .core
  | .die => .die
  | .package => .package
  | .auto =>
    match e.scope with
    | 1 => .core
    | 2 => .die
    | 3 => .package
    | 4 => narrowest c d
    | _ => .auto

def relWordOf (rel : Scope) (e : Edge) : RelWord := if Scope.isAuto rel then RelWord.none else e.list

/-- The iteration of an emitted token (R65, R281). -/
def iterOf (itc : Itc) (own val : Nat) : Nat :=
  match itc with
  | .same => own
  | .next => (own + 1) % 1024
  | .val => bits val 32 10
  | .zero => 0

/-- The graph identity that a warp's tokens carry (R17). -/
def State.identOf (s : State) (w : Warp) : Nat := match s.graph? w.graph with | some g => g.identity | none => 0

/-- The iteration of a lane's instance. -/
def Warp.iterAt (w : Warp) (lane : Nat) : Nat := match w.insts[lane]? with | some i => i.iter | none => 0

/-- A token of format E in a lane, for a frame pointer (R281). -/
def State.tokenE (s : State) (x : View) (lane : Nat) (a : FmtE) (e : Edge) (rel : Scope) (fp val : Nat) (null : Bool) : Token :=
  { plainToken fp a.block a.slot (iterOf a.itc (x.w.iterAt lane) (x.val64 lane a.val)) (s.identOf x.w) (if null then 0 else val) with
    null := null, comb := a.comb, stop := a.stop, rel := rel, relWord := relWordOf rel e, sender := some (fpOf x.c (x.w.frameOf lane)) }

/-- Lanes that place a token: guard true, or null tokens on a false guard (R281). -/
def sendingLanes (w : Warp) (a : FmtE) : List Nat := w.lanes.filter (fun l => w.guard a.g l || a.nullf)

/-- Whether a frame pointer names no frame place: bits [8:0] not 0 (R65). -/
def badFp (fp : Nat) : Bool := bits fp 0 9 != 0

/-- The per-lane emits that stay on the chip (R281, R282). -/
def emitForm (s : State) (a : FmtE) (val : View → Nat → Nat) : Host.Outcome State Fault Refusal :=
  withWarp s (fun c k w =>
    let x := s.view c w
    let ls := sendingLanes w a
    let fp := fun l => x.rd l 1 a.frm
    let bad := ls.filter (fun l => badFp (fp l))
    if !bad.isEmpty then .next (s.takeFault c k w (bad.map (fun l => ⟨l, 0x05, 0⟩)))
    else
      let e := s.edge w a.edge
      let ts := ls.map (fun l =>
        let rel := relOf a.scope e c (fpCore (fp l))
        Emitted.token a.edge l none rel (s.tokenE x l a e rel (fp l) (val x l) (!w.guard a.g l)))
      .next (s.issued c k { w with emits := w.emits ++ ts }))

/-- EMIT (R281, R282). -/
def execEmit (a : FmtE) (s : State) : Host.Outcome State Fault Refusal := emitForm s a (fun x l => x.val64 l a.val)
/-- EMITC (R282). -/
def execEmitc (a : FmtE) (s : State) : Host.Outcome State Fault Refusal := emitForm s a (fun x l => x.val64 l a.val)
/-- EMITE: the payload is the stop level (R281, R282). -/
def execEmite (a : FmtE) (s : State) : Host.Outcome State Fault Refusal := emitForm s a (fun _ _ => a.stop)

/-- EMITX (R283): to a frame on a named chip, at domain scope where it releases. -/
def execEmitx (a : FmtE) (s : State) : Host.Outcome State Fault Refusal :=
  withWarp s (fun c k w =>
    let x := s.view c w
    let ls := sendingLanes w a
    let fq := fun l => x.rd l 2 a.frm
    let bad := ls.filter (fun l => badFp (fq l) || bits (fq l) 44 20 != 0 || 3072 ≤ bits (fq l) 32 12)
    if !bad.isEmpty then .next (s.takeFault c k w (bad.map (fun l => ⟨l, 0x05, 0⟩)))
    else
      let e := s.edge w a.edge
      let rel : Scope := if e.scope = 0 then .auto else .package
      let ts := ls.map (fun l =>
        Emitted.token a.edge l (some (bits (fq l) 32 12)) rel
          (s.tokenE x l a e rel (fq l % 2 ^ 32) (x.val64 l a.val) (!w.guard a.g l)))
      .next (s.issued c k { w with emits := w.emits ++ ts }))

/-- EMITB (R284): one value to the frames that consecutive uniform registers name. -/
def execEmitb (a : FmtE) (s : State) : Host.Outcome State Fault Refusal :=
  withWarp s (fun c k w =>
    let x := s.view c w
    let b := match a.frm with | .k n => n | _ => 0
    let fps := (List.range (a.edge + 1)).map (fun i => w.uni (b + i))
    if fps.any badFp then .next (s.takeWarpFault c k w 0x05 0)
    else
      let e := s.edge w 0
      let ts := fps.map (fun fp =>
        let rel := relOf a.scope e c (fpCore fp)
        Emitted.token 0 0 none rel (s.tokenE x 0 a e rel fp (x.val64 0 a.val) false))
      .next (s.issued c k { w with emits := w.emits ++ ts }))

/-! ### Frames and children (R286 to R288) -/

/-- The nesting depth of a lane's activation. -/
def State.depthOf (s : State) (c : Nat) (w : Warp) (lane : Nat) : Nat :=
  match s.frame? c (w.frameOf lane) with | some f => f.depth | none => 0

/-- FALLOC (R286). -/
def execFalloc (a : FmtSpawn) (s : State) : Host.Outcome State Fault Refusal :=
  withWarp s (fun c k w =>
    let x := s.view c w
    let ls := w.active a.g
    let fp := fun l => x.rd l 1 a.frm
    let bad : List LaneFault := ls.filterMap (fun l =>
      if s.depthOf c w l = 10 then some ⟨l, 0x06, 0⟩ else if badFp (fp l) then some ⟨l, 0x05, 0⟩ else none)
    if !bad.isEmpty then .next (s.takeFault c k w bad)
    else .next (s.issued c k { w with
      acts := w.acts ++ ls.map (fun l => AtCommit.falloc l (fpCore (fp l)) a.nb a.block a.slot w.spawnPos), spawnPos := w.spawnPos + 1 }))

/-- Children of a lane's activation that the warp has asked for in this block, with those of this instruction's lanes up to
it (R287): lanes may hold instances of one activation. -/
def Warp.frameSpawns (w : Warp) (ls : List Nat) (lane : Nat) : Nat :=
  let mine := fun (l : Nat) => w.frameOf l == w.frameOf lane
  (w.acts.filter (fun a => match a with
    | .spawn l _ _ _ _ _ _ _ _ _ => mine l
    | .falloc l _ _ _ _ _ => mine l
    | _ => false)).length + (ls.filter (fun l => decide (l ≤ lane) && mine l)).length

/-- The faults of SPAWN and SPAWNQ in a lane (R287). -/
def State.spawnFault (s : State) (c : Nat) (x : View) (a : FmtSpawn) (lane : Nat) : Option LaneFault :=
  let fp := x.rd lane 1 a.frm
  let join := match s.frame? c (x.w.frameOf lane) with | some f => f.join | none => 0
  if s.depthOf c x.w lane = 10 then some ⟨lane, 0x06, 0⟩
  else if badFp fp || !s.inBlockRects x.w.graph a.block (fpCore fp) then some ⟨lane, 0x05, 0⟩
  else if 2 ^ 32 - 1 < join + x.w.frameSpawns (x.w.active a.g) lane then some ⟨lane, 0x07, 0⟩
  else none

/-- Whether a task-queue entry can be reserved on a core for a graph (R269). -/
def State.taskFree (s : State) (c g : Nat) : Bool :=
  decide ((s.core c).tasks.length + (s.core c).taskResv < 512) && (s.spill g c).ents.isEmpty

/-- Whether the spill ring has room for one more (R269). -/
def State.spillFree (s : State) (c g : Nat) : Bool :=
  decide ((s.spill g c).ents.length + Map.getD (s.core c).spillResv g 0 < Config.spillEntries)

/-- A reservation of one lane: in the task queue, or in the spill ring; none where neither has room. -/
def State.reserveChild (s : State) (c g : Nat) (spill : Bool) : Option (State × Bool) :=
  let k := s.core c
  if s.taskFree c g then some (s.setCore c { k with taskResv := k.taskResv + 1 }, false)
  else if spill && s.spillFree c g then some (s.setCore c (k.reserveSpill g true), true)
  else none

/-- The child of a lane as it is made at commit. -/
def State.childOf (s : State) (c : Nat) (x : View) (a : FmtSpawn) (lane : Nat) (spill : Bool) : AtCommit :=
  let target := fpCore (x.rd lane 1 a.frm)
  .spawn lane target a.nb a.block a.slot (BitVec.ofNat 64 (x.val64 lane a.val)) x.w.spawnPos
    (relOf a.scope (s.edge x.w a.edge) c target) a.edge spill

/-- Lanes reserve in order: the state, the children, and the lanes that got none. -/
def reserveLanes (s : State) (c g : Nat) (mk : Nat → Bool → AtCommit) (spill : Bool) :
    List Nat → State × List AtCommit × List Taken × List Nat
  | [] => (s, [], [], [])
  | l :: t =>
    match s.reserveChild c g spill with
    | none => let r := reserveLanes s c g mk spill t; (r.1, r.2.1, r.2.2.1, l :: r.2.2.2)
    | some (s1, sp) =>
      let r := reserveLanes s1 c g mk spill t
      (r.1, mk l sp :: r.2.1, (if sp then Taken.spill else Taken.task) :: r.2.2.1, r.2.2.2)

/-- SPAWN (R269, R287): a lane that finds neither queue nor ring free faults. -/
def execSpawn (a : FmtSpawn) (s : State) : Host.Outcome State Fault Refusal :=
  withWarp s (fun c k w =>
    let x := s.view c w
    let ls := w.active a.g
    let bad := ls.filterMap (s.spawnFault c x a)
    if !bad.isEmpty then .next (s.takeFault c k w bad)
    else
      let r := reserveLanes s c w.graph (s.childOf c x a) true ls
      let w1 := { w with acts := w.acts ++ r.2.1, taken := w.taken ++ r.2.2.1, spawnPos := w.spawnPos + 1 }
      if r.2.2.2.isEmpty then .next (r.1.issued c k w1)
      else .next (r.1.takeFault c k w1 (r.2.2.2.map (fun l => ⟨l, 0x07, 0⟩))))

/-- SPAWNQ (R269, R287): pF says in each guard-true lane whether no task-queue entry was reserved. -/
def execSpawnq (a : FmtSpawn) (s : State) : Host.Outcome State Fault Refusal :=
  withWarp s (fun c k w =>
    let x := s.view c w
    let ls := w.active a.g
    let bad := ls.filterMap (s.spawnFault c x a)
    if !bad.isEmpty then .next (s.takeFault c k w bad)
    else
      let r := reserveLanes s c w.graph (s.childOf c x a) false ls
      let w1 := { w with acts := w.acts ++ r.2.1, taken := w.taken ++ r.2.2.1, spawnPos := w.spawnPos + 1 }
      .next (r.1.issued c k (ls.foldl (fun b l => b.setPred l a.stop (r.2.2.2.contains l)) w1)))

/-- FFREE (R288): a free request of each guard-true lane, in its place among the block's tokens. -/
def execFfree (a : FmtI) (s : State) : Host.Outcome State Fault Refusal :=
  withWarp s (fun c k w =>
    let x := s.view c w
    let ls := w.active a.g
    let bad := ls.filter (fun l => badFp (x.rd l 1 a.sa))
    if !bad.isEmpty then .next (s.takeFault c k w (bad.map (fun l => ⟨l, 0x05, 0⟩)))
    else .next (s.issued c k { w with emits := w.emits ++ ls.map (fun l => Emitted.free l (x.rd l 1 a.sa)) }))

/-! ### Watches, traps and warp control (R289 to R292) -/

/-- A watch's token goes to the lane's own frame, at its iteration, without release (R289). -/
def State.watchToken (s : State) (c : Nat) (w : Warp) (a : FmtWatch) (lane payload : Nat) : Token :=
  plainToken (fpOf c (w.frameOf lane)) a.block a.slot (w.iterAt lane) (s.identOf w) payload

/-- JOIN (R289). -/
def execJoin (a : FmtWatch) (s : State) : Host.Outcome State Fault Refusal :=
  withWarp s (fun c k w =>
    let x := s.view c w
    .next (s.issued c k { w with emits := w.emits ++ (w.active a.g).map (fun l =>
      Emitted.watch l .join (s.watchToken c w a l (x.rd l 1 a.sa))) }))

/-- GATE (R289). -/
def execGate (a : FmtWatch) (s : State) : Host.Outcome State Fault Refusal :=
  withWarp s (fun c k w =>
    let x := s.view c w
    .next (s.issued c k { w with emits := w.emits ++ (w.active a.g).map (fun l =>
      Emitted.watch l (.gate a.path (x.rd l 1 a.sa)) (s.watchToken c w a l 0)) }))

/-- TRAP (R290): a record sent at commit. -/
def execTrap (a : FmtS) (s : State) : Host.Outcome State Fault Refusal :=
  withWarp s (fun c k w => .next (s.issued c k { w with emits := w.emits ++
    [Emitted.trap (a.imm % 65536) (fpOf c (w.frameOf 0)) (w.iterAt 0) w.block (2 ^ w.wpop - 1)] }))

/-- BRK (R291): the warp will stop at its commit point, if the host has armed breakpoints for its graph
when BRK issues (DESIGN CHOICE, assumption 121). -/
def execBrk (a : FmtS) (s : State) : Host.Outcome State Fault Refusal :=
  withWarp s (fun c k w =>
    let armed := match s.graph? w.graph with | some g => g.brk | none => false
    .next (s.issued c k (if armed then { w with brk := some (w.brk.getD (a.imm % 65536)) } else w)))

/-- NOP (R292). -/
def execNop (_ : FmtS) (s : State) : Host.Outcome State Fault Refusal := withWarp s (fun c k w => .next (s.issued c k w))

/-- DONE (R292): issue ends for the warp. -/
def execDone (_ : FmtS) (s : State) : Host.Outcome State Fault Refusal :=
  withWarp s (fun c k w => .next (s.issued c k { w with ended := true }))

end Sys2Proof.Machine
end

