-- ==== Sys2Proof/Machine/EngineBase.lean ====
section
/-! DEFINITION. What the engines and the row engine share: reading memory as it stands, reservations of the engine
queue, ownership of the row engine, histogram additions, and stores that an instruction sends at commit
(R137, R239, R271, R293, R332). -/
namespace Sys2Proof.Machine

/-! ### Reading memory as it stands -/

/-- What a read of some bytes meets: something it must wait for, a fault, or the bytes with the offsets of poisoned
ones. -/
inductive ReadNow where
  | busy (s : State)
  | fault (s : State) (code va : Nat)
  | data (s : State) (bytes : List Byte) (poison : List Nat)

/-- A part of a read that lies in one line, from the stash window that maps it. -/
def State.readStash (s : State) (c asid va n : Nat) (w : Window) : ReadNow :=
  match Map.find? (s.core c).stash (w.index va) with
  | some l => if l.holds asid va n then .data s ((l.data.drop (va % 128)).take n) (partPoison l.poison va n) else .busy s
  | none => .busy s

/-- A part of a read that lies in one line, from a copy on the die or from the home. An engine reads the home; a home on
another chip is then a fault here, which makes it send a request. Any other read asks such a home for the line, and meets the
fault that the request met (R207, R213). No copy serves an address at or above a high-water mark (R213). The read and its answer cross
boundaries that are up, and the home's translation stays whether or not the read faults (R47, R49, R319). -/
def State.readHome (s : State) (c g asid ident va n : Nat) (eng : Bool) : ReadNow :=
  let d := dieOf c
  if s.aboveMark g asid va n then .fault s 0x08 va
  else match (if eng then none else s.copyFor c asid va .normal {}) with
  | some l => .data (s.useCopy d l) ((l.data.drop (va % 128)).take n) (partPoison l.poison va n)
  | none =>
    if s.storeUnderWay d asid va then .busy s
    else
      let h := s.homeOf d asid va
      let dirs := s.trip d (8 + h.2)
      if h.1 ≠ s.chipId then
        if eng then .fault s 0 va
        else match s.askFault c g asid va with
        | some code => .fault s code va
        | none =>
          if s.reachable.contains h.1 && s.ports.any (fun p => p.2) then .busy (s.askLine c g asid ident va)
          else .data (s.countDie (s.fabricDieOf h.1) 4 1) (List.replicate n 0) (List.range n)
      else if !s.pathUp dirs then .busy s
      else match s.recallFor d h.2 asid (lineOf va) with
        | some s1 => .busy s1
        | none => match s.translate h.2 asid va with
          | none => .busy s
          | some (s1, l) => match s.faultOf h.2 g asid ident va n ⟨true, false, none, false⟩ l, l with
            | none, some x =>
              let pa := s.physOf d asid va x
              .data ((s1.countTogether dirs n).atSlice h.2 asid va false false) (memReads s.mem pa n) (s.poisonIn pa n)
            | some code, _ => .fault s1 code va
            | none, none => .fault s1 0x01 va

/-- A part of a read that lies in one line: from the stash window that maps it, where `stash` asks, else from a copy or its home. -/
def State.readPart (s : State) (c g asid ident : Nat) (stash eng : Bool) (p : Nat × Nat × Nat) : ReadNow :=
  match (if stash then (s.core c).windowOf g asid p.2.1 else none) with
  | some (_, w) => s.readStash c asid p.2.1 p.2.2 w
  | none => s.readHome c g asid ident p.2.1 p.2.2 eng

/-- What the parts of a read that must wait make happen meanwhile, and whether one must. -/
def State.waitParts (s : State) (c g asid ident : Nat) (stash eng : Bool) (ps : List (Nat × Nat × Nat)) : State × Bool :=
  ps.foldl (fun a p => match a.1.readPart c g asid ident stash eng p with
    | .busy s1 => (s1, true)
    | _ => a) (s, false)

/-- A range of bytes as it stands (R32, R137), none of whose parts must wait. -/
def State.readParts (s : State) (c g asid ident : Nat) (stash eng : Bool) : List (Nat × Nat × Nat) → ReadNow
  | [] => .data s [] []
  | p :: t =>
    match s.readPart c g asid ident stash eng p with
    | .busy s1 => .busy s1
    | .fault s1 code va => .fault s1 code va
    | .data s1 bytes poison =>
      match s1.readParts c g asid ident stash eng t with
      | .busy s2 => .busy s2
      | .fault s2 code va => .fault s2 code va
      | .data s2 more bad => .data s2 (bytes ++ more) (poison.map (fun i => i + p.1) ++ bad)

/-- A range of bytes read together, once none of its lines must wait. -/
def State.readNow (s : State) (c g asid ident : Nat) (stash eng : Bool) (va n : Nat) : ReadNow :=
  let ps := lineRun va n (n / 128 + 2) 0
  let x := s.waitParts c g asid ident stash eng ps
  if x.2 then .busy x.1 else s.readParts c g asid ident stash eng ps

/-- A 64-bit little-endian number as it stands, or a wait or fault. -/
def ReadNow.nat (r : ReadNow) : Option (Nat × Bool) :=
  match r with
  | .data _ b p => some (ofBytes b, !p.isEmpty)
  | .busy _ => none
  | .fault _ _ _ => none

/-- The charges that a warp keeps for an instruction of its own that is under way: the reads of one at issue, or a reply at commit
(R13). -/
def Warp.keptAll (w : Warp) : List Charge := w.taken.filterMap (fun t => match t with | .infl x => some x | _ => none)
/-- The charge that a warp keeps for a reply. -/
def Warp.kept (w : Warp) : Option Charge := w.keptAll.head?
/-- The warp without the charge that it keeps. -/
def Warp.dropKept (w : Warp) : Warp := { w with taken := w.taken.filter (fun t => match t with | .infl _ => false | _ => true) }

/-! ### The engine queue (R271) -/

/-- Whether a command still takes its entry: freed once its last element has performed or been parked, for good (R271). A post's one
element is its array, an exchange's last its status array; a stream and its control commands hold theirs until they end
(R299, R300). The number of a part is 8 × element + stage. -/
def EngCmd.takesEntry (e : EngCmd) : Bool :=
  match e.kind with
  | .cpy | .cpy2d | .gath | .scat | .cpyb =>
    !(decide (e.state ≠ .queued) && decide (e.total ≤ (uniSet e.doneE e.parkedE).length))
  | .nzscan => !(decide (e.state = .closing) && e.parts.all (fun p => e.parkedE.contains (p.1 / 8)))
  | .dxch => !(decide (e.state = .closing) && e.parts.all (fun p => e.parkedE.contains (p.1 / 8)))
  | .dpost => decide (e.state = .queued) || (e.targets.isEmpty && e.parkedE.isEmpty)
  | .rows => decide (e.state = .queued) || !(decide (e.total ≤ e.next + 1) && e.parkedE.contains e.next)
  | .isx => decide (e.state = .queued) || !(decide (e.total ≤ e.next)
      || (decide (e.total ≤ e.next + 1) && e.parkedE.contains e.next))
  | .strm | .strmgo | .strmx | .dxq => true

def State.engineEntries (s : State) (c : Nat) : Nat :=
  ((s.core c).engines.filter (fun p => p.2.takesEntry)).length + (s.core c).engResv

/-- Whether a core's engine queue has no free entry (R271). -/
def State.engineFull (s : State) (c : Nat) : Bool := decide (64 ≤ s.engineEntries c)

/-- An engine-queue entry reserved at issue, and its path charged for lane 0's activation (R271). -/
def State.reserveEngine (s : State) (c : Nat) (w : Warp) (p : Path) : Option (State × Charge) :=
  if s.engineFull c then none
  else match s.charge c (w.frameOf 0) p with
    | none => none
    | some (s1, x) => some (s1.setCore c { s1.core c with engResv := (s1.core c).engResv + 1 }, x)

/-- A command as it stands when nothing has begun. -/
def State.blankCmd (s : State) (w : Warp) (kind : EngKind) (x : Charge) (desc : List Word) : EngCmd :=
  { kind := kind, graph := w.graph, ident := s.identOf w, asid := s.asidOf w, fp := x.fp, serial := x.serial, iter := w.iterAt 0,
    path := x.path, desc := desc, flags := 0, subop := 0, rblock := 0, rslot := 0, rscope := .auto, rcomb := .none, cid := none,
    state := .queued, total := 0, next := 0, parts := [], doneE := [], poison := false, run := false, pushes := [], close := false,
    lo := 0, hi := 0, wrote := false, values := [], tile := 0, chan := 0, targets := [], unit := 0, ctl := 0, startAt := 0, issuedAt := s.now,
    waitFor := [], cal := none, sent := [], recv := [], parkedE := [] }

/-- A word of a command's descriptor. -/
def EngCmd.word (e : EngCmd) (i : Nat) : Nat := (nthD 0 e.desc i).toNat
/-- A pair of words of a command's descriptor. -/
def EngCmd.pair (e : EngCmd) (i : Nat) : Nat := e.word i + 2 ^ 32 * e.word (i + 1)

/-- The eight words of a descriptor (R66, R67). -/
def Warp.descriptor (w : Warp) (d : Nat) : List Word := (List.range 8).map (fun i => BitVec.ofNat 32 (w.uni (d + i)))

def Sel.kIndex : Sel → Nat
  | .k n => n
  | .v _ | .zero | .lane | .fp | .iter | .act | .wpop | .p _ | .f _ => 0

/-- A command's entry of a command queue set. -/
def State.setEngine (s : State) (c eid : Nat) (e : EngCmd) : State :=
  let k := s.core c
  s.setCore c { k with engines := Map.put k.engines eid e }

def State.dropEngine (s : State) (c eid : Nat) : State :=
  let k := s.core c
  s.setCore c { k with engines := Map.del k.engines eid }

/-- The charge that a command holds. -/
def EngCmd.charge (e : EngCmd) : Charge := ⟨e.fp, e.serial, e.path⟩

/-- A read of an engine, kept under number i while it waits: memory as it stands (R137); where it would fault, or lies
on another chip, requests are sent that park at their homes or travel, and the engine waits for their bytes (R239,
R293). -/
def State.engRead (s : State) (c eid i : Nat) (e : EngCmd) (va n : Nat) : ReadNow :=
  match Map.find? e.parts i with
  | some p =>
    if p.bytes.all Option.isSome then .data s (p.bytes.map (fun b : Option Byte => b.getD 0)) p.poison else .busy s
  | none =>
    match s.readNow c e.graph e.asid e.ident false true va n with
    | .fault _ _ _ =>
      let s1 := s.setEngine c eid { e with parts := Map.put e.parts i ⟨List.replicate n none, [], false, 0⟩ }
      .busy ((lineRun va n (n / 128 + 2) 0).foldl (fun a p => a.addReq
        { Req.bare c e.graph e.asid e.ident p.2.1 p.2.2 .load s.now with elem := some (c, eid, i, p.1) }) s1)
    | r => r

/-- Bytes that an element has read stay under number i while what the element does next waits: the command with them. -/
def State.keepPart (s : State) (c eid i : Nat) (e : EngCmd) (b : List Byte) (bad : List Nat) : State × EngCmd :=
  let f := { e with parts := Map.put e.parts i ⟨b.map some, bad, true, 0⟩ }
  (s.setEngine c eid f, f)

/-- The command, as it now stands, without the reads it kept under some numbers. -/
def State.readsDone (s : State) (c eid : Nat) (is : List Nat) (e : EngCmd) : EngCmd :=
  let x := Map.getD (s.core c).engines eid e
  { x with parts := Map.keep (fun i _ => !is.contains i) x.parts }

/-! ### Histogram additions (R330, R332) -/

/-- Offers added to the channel of a block's warp, where the channel is bound to its graph. -/
def State.addOffers (s : State) (c g b : Nat) (m : Map Nat) : State :=
  match s.block? g b with
  | none => s
  | some y =>
    let k := s.core c
    let h := Map.getD k.hists y.hdr.hch Hist.reset
    if h.valid && h.graph == g then
      let add := fun (bins : Map Nat) => m.foldl (fun bs p =>
        if offerPasses h.filter p.1 then Map.put bs (offerBin p.1) (satAdd (2 ^ 32 - 1) (Map.getD bs (offerBin p.1) 0) p.2) else bs) bins
      let h1 : Hist := { h with bins := add h.bins, added := add (if h.addedAt = s.now then h.added else []), addedAt := s.now }
      s.setCore c { k with hists := Map.put k.hists y.hdr.hch h1 }
    else s

/-- Offers of some values. -/
def offersOf (vals : List Val) : Map Nat := vals.foldl (fun m v => Map.put m (offerKey v) (Map.getD m (offerKey v) 0 + 1)) []

/-! ### Stores sent at commit (R239) -/

/-- A store that an instruction sends at commit as one of its block's. -/
def State.commitStore (s : State) (c : Nat) (w : Warp) (cid : Nat) (batch : Option Nat) (charge : Option Charge) (va : Nat)
    (data : List Byte) (bad : Bool) : State :=
  (lineRun va data.length (data.length / 128 + 2) 0).foldl (fun a p =>
    a.addReq { a.mkReq c w p.2.1 p.2.2 (.store ((data.drop p.1).take p.2.2) bad) with
      charge := charge, cid := some cid, lsid := 32, batch := batch }) s

/-- Words to be written at consecutive addresses, cut where poison begins or ends: offset, bytes, poison. -/
def cutRuns (w : Nat) : List (Nat × Nat × Bool) → List (Nat × List Byte × Bool)
  | [] => []
  | (ofs, x, bad) :: t =>
    match cutRuns w t with
    | (o, d, b) :: r => if b = bad && o = ofs + w && d.length < 64 then (ofs, toBytes w x ++ d, bad) :: r
                        else (ofs, toBytes w x, bad) :: (o, d, b) :: r
    | [] => [(ofs, toBytes w x, bad)]

/-- How many requests a list of runs makes at an address. -/
def runParts (va : Nat) (rs : List (Nat × List Byte × Bool)) : Nat :=
  (rs.map (fun r => (lineRun (va + r.1) r.2.1.length (r.2.1.length / 128 + 2) 0).length)).foldl (fun a n => a + n) 0

/-- Runs stored at an address. -/
def State.storeRuns (s : State) (c : Nat) (w : Warp) (cid : Nat) (batch : Option Nat) (va : Nat) (rs : List (Nat × List Byte × Bool)) : State :=
  rs.foldl (fun a r => a.commitStore c w cid batch none ((va + r.1) % 2 ^ 56) r.2.1 r.2.2) s

/-- A batch opened for n writes; with none it ends at once. -/
def State.openBatch (s : State) (b : Nat) (x : Batch) : State :=
  if x.left = 0 then ({ s with batches := Map.put s.batches b x }).batchStep (some b)
  else { s with batches := Map.put s.batches b x }

end Sys2Proof.Machine
end

