-- ==== Sys2Proof/Machine/RowIssue.lean ====
section
/-! DEFINITION. Row 0x7_ at issue: ownership of the row engine, its checks and credits, and what an instruction reads
before commit (R239 to R257). -/
namespace Sys2Proof.Machine

/-! ### Geometry and formats (R116, R117, R232) -/

/-- K of a channel's element type (R232). -/
def Ty.rowK : Ty → Nat
  | .f16 | .bf16 => 32
  | .e3m2 | .e2m3 | .e2m1 => 128
  | .e4m3 | .e5m2 | .cf8 | .i8 | .n8 | .i16 | .i32 | .i64 | .n16 | .n32 | .n64 | .f32 | .e8m0 => 64

/-- The 6-bit types, whose rows take two entries (R232). -/
def Ty.isSix : Ty → Bool
  | .e3m2 | .e2m3 => true
  | .f16 | .bf16 | .e2m1 | .e4m3 | .e5m2 | .cf8 | .i8 | .n8 | .i16 | .i32 | .i64 | .n16 | .n32 | .n64 | .f32 | .e8m0 => false

/-- The integer channels (R117). -/
def Ty.isRowInt : Ty → Bool
  | .i8 | .n8 => true
  | .f16 | .bf16 | .e3m2 | .e2m3 | .e2m1 | .e4m3 | .e5m2 | .cf8 | .i16 | .i32 | .i64 | .n16 | .n32 | .n64 | .f32 | .e8m0 => false

def Ty.isCf8 : Ty → Bool
  | .cf8 => true
  | .i8 | .n8 | .f16 | .bf16 | .e3m2 | .e2m3 | .e2m1 | .e4m3 | .e5m2 | .i16 | .i32 | .i64 | .n16 | .n32 | .n64 | .f32 | .e8m0 => false

/-- Bytes of a row's payload (R232). -/
def Ty.rowBytes (t : Ty) : Nat := if Ty.isSix t then 96 else 64

/-- Bytes of a quarter's data (R232). -/
def Ty.quarterBytes (t : Ty) : Nat := if Ty.isSix t then 1536 else 1024

/-- Format channel n of a core (R117). -/
def RowEngine.chan (r : RowEngine) (n : Nat) : Chan := Map.getD r.chans n Chan.reset

/-- The channel that an FCHBIND binds (R242). -/
def boundChan (cfg scale : Word) : Chan := ⟨(decTy (bits cfg.toNat 0 5)).getD .f16, bitOf cfg.toNat 8, scale⟩

/-- Format channel n as an instruction of a warp sees it at issue: after the FCHBINDs that stand before it in the warp, which
bind at commit (R242, R243). DEDUCED: the program of R408 to R412 needs it. -/
def RowEngine.chanFor (r : RowEngine) (w : Warp) (n : Nat) : Chan :=
  w.acts.foldl (fun x a => match a with | .fchbind m cfg sc => if m = n then boundChan cfg sc else x | _ => x) (r.chan n)

/-- One cf8 block by its offsets in the coded data: its elements, the count of decode errors, poison (R115, R116). The
bytes are read by `f`. -/
def cf8Lengths (table : List Nat) : List (Nat × Nat) :=
  match table with
  | a :: b :: t => (a, if a ≤ b then b - a else 0) :: cf8Lengths (b :: t)
  | [_] => []
  | [] => []

/-- Whether a block of this length is read at all (R116). -/
def cf8Readable (len : Nat) : Bool := decide (21 ≤ len) && decide (len ≤ 45)

/-- The index table's entries from its bytes. -/
def cf8Table (bytes : List Byte) : List Nat := (List.range (bytes.length / 4)).map (fun i => ofBytes ((bytes.drop (4 * i)).take 4))

/-! ### Ownership (R144, R239, R241) -/

/-- A warp's graph may use the row engine: it owns it, or the warp has reserved it (R239). -/
def State.mayRow (s : State) (c : Nat) (w : Warp) : Bool :=
  (s.core c).row.owner == some w.graph || w.taken.contains .rowEngine

/-- No other graph owns or has reserved the row engine (R239, R241). -/
def RowEngine.freeFor (r : RowEngine) (g : Nat) : Bool :=
  (r.owner == none || r.owner == some g) && (r.resv == none || r.resv == some g)

/-- The graphs that wait for a core's engine, longest first: those with a stalled warp, and those resumed (R241, R260). -/
def State.rowWaiters (s : State) (c : Nat) : List Nat :=
  (s.core c).row.waiters.filter (fun g =>
    (s.core c).warps.any (fun p => p.2.graph == g && p.2.stall.isSome)
      || (match s.graph? g with | some x => x.resumeWait.contains c | none => false))

/-- A row instruction of a graph that owns the engine; else it waits (R239). -/
def rowForm (s : State) (f : Nat → Nat → Warp → View → Host.Outcome State Fault Refusal) : Host.Outcome State Fault Refusal :=
  withWarp s (fun c k w => if s.mayRow c w then f c k w (s.view c w) else .next (s.stalled c k w))

/-- A sparse-unit instruction: it waits only while another graph owns or has reserved the engine (R239). -/
def sparseForm (s : State) (f : Nat → Nat → Warp → View → Host.Outcome State Fault Refusal) : Host.Outcome State Fault Refusal :=
  withWarp s (fun c k w => if (s.core c).row.freeFor w.graph then f c k w (s.view c w) else .next (s.stalled c k w))

/-- An instruction adds its act to those of commit. -/
def Warp.act (w : Warp) (a : AtCommit) : Warp := { w with acts := w.acts ++ [a] }

/-- MXCFG (R241): waits for the engine, checks its words, reserves. -/
def execMxcfg (a : FmtX) (s : State) : Host.Outcome State Fault Refusal :=
  withWarp s (fun c k w =>
    let q := s.core c
    let ws := w.descriptor (Sel.kIndex a.sa)
    let first := match s.rowWaiters c with | [] => true | g :: _ => g == w.graph
    let mine := q.row.owner == some w.graph || q.row.resv == some w.graph
    if !(q.row.freeFor w.graph && (mine || first)) then
      let s1 := s.stalled c k w
      let k1 := s1.core c
      .next (if k1.row.waiters.contains w.graph then s1
        else s1.setCore c { k1 with row := { k1.row with waiters := k1.row.waiters ++ [w.graph] } })
    else if ws.any (fun x => bits x.toNat 8 15 != 0)
        || decide (bits q.sramPart.toNat 24 8 * 1024 < (ws.map (fun x => x.toNat % 256)).foldl (fun x y => x + y) 0) then
      .next (s.takeWarpFault c k w 0x02 0)
    else
      let s1 := s.setCore c { q with row := { q.row with resv := some w.graph, waiters := delSet q.row.waiters w.graph } }
      .next (s1.issued c k ({ w with taken := w.taken ++ [Taken.rowEngine] }.act (.mxcfg ws))))

/-! ### BLDQ (R243) -/

/-- The ranges of a read at issue, start and length, some line of which a window maps and the stash does not hold yet. -/
def State.unfilled (s : State) (c g asid : Nat) (rs : List (Nat × Nat)) : List (Nat × Nat) :=
  rs.filter (fun r => ((s.core c).stashParts g asid r.1 r.2).any (fun p => !(s.core c).stashHas p.1 asid p.2.1 p.2.2))

/-- The stash lines of some ranges are filled for lane 0, as for an LDS, and the warp waits for them (R203, R216, R243). -/
def fillAtIssue (s : State) (c k : Nat) (w : Warp) (rs : List (Nat × Nat)) : Host.Outcome State Fault Refusal :=
  let asid := s.asidOf w
  match rs.findSome? (fun r => (s.fillFault c w.graph asid r.1 r.2).map (fun code => (code, r.1))) with
  | some x => .next ((s.takeWarpFault c k w x.1 x.2).dropFaulted c w.graph)
  | none =>
    .next (((rs.foldl (fun a r => a.bind (fun t => (t.fillLane c asid r.1 r.2 w 0).map (fun u => u.1))) (some s)).getD s).stalled c k w)

/-- The paths of the accesses that a read of some ranges makes: one for each line (R196). -/
def State.rangePaths (s : State) (c asid : Nat) (rs : List (Nat × Nat)) : List Path :=
  rs.flatMap (fun r => (lineRun r.1 r.2 (r.2 / 128 + 2) 0).map (fun p => s.pathOf c asid p.2.1))

/-- An activation is charged on some paths in turn; none where a counter is saturated (R13). -/
def State.chargeAll (s : State) (c i : Nat) : List Path → Option (State × List Charge)
  | [] => some (s, [])
  | p :: t =>
    match s.charge c i p with
    | none => none
    | some (s1, x) => (s1.chargeAll c i t).map (fun r => (r.1, x :: r.2))

/-- The accesses of a warp's reads at issue, each counted on its path in lane 0's activation, until the reads are over or the warp
aborts: those among some paths that are not counted yet are counted now (R13, R239; DESIGN CHOICE, assumption 97). -/
def State.keepReads (s : State) (c k : Nat) (w : Warp) (ps : List Path) : Option (State × Warp) :=
  (s.chargeAll c (w.frameOf 0) (ps.drop w.keptAll.length)).map (fun r =>
    let w1 := { w with taken := w.taken ++ r.2.map Taken.infl }
    (r.1.setWarp c k w1, w1))

/-- The charges of a warp's reads end: at once, or behind the landing and the commit of this cycle (R13, R14, R289). -/
def State.endReads (s : State) (c : Nat) (w : Warp) : State :=
  if s.lateAt c (w.frameOf 0) then w.keptAll.foldl (fun a x => a.later (some x)) s else s.dischargeAll w.keptAll

/-- A read of some ranges that a block's instruction makes at issue, before its commit: it is counted, then it waits, faults, or goes
on (R239). `before` are the paths of the instruction's reads that went before. -/
def atIssue (s : State) (c k : Nat) (w : Warp) (before : List Path) (rs : List (Nat × Nat)) (rd : State → ReadNow)
    (f : State → Warp → List Byte → Host.Outcome State Fault Refusal) (va : Nat) : Host.Outcome State Fault Refusal :=
  match s.keepReads c k w (before ++ s.rangePaths c (s.asidOf w) rs) with
  | none => .next (s.stalled c k w)
  | some (s0, w1) =>
    match rd s0 with
    | .busy s1 =>
      (match s.unfilled c w.graph (s.asidOf w) rs with
        | [] => .next s1
        | t => fillAtIssue s0 c k w1 t)
    | .fault s1 code bad => .next (s1.takeWarpFault c k w1 code bad)
    | .data s1 bytes poison =>
      match poison with
      | [] => f s1 w1 bytes
      | p :: _ => .next (s1.takeWarpFault c k w1 0x04 ((va + p) % 2 ^ 56))

/-- cf8 blocks read one after another: their elements and the count of decode errors, at most one for a block (R115; DESIGN CHOICE,
assumption 84). -/
def readBlocks (rd : State → Nat → Nat → ReadNow) (base : Nat) : List (Nat × Nat) → State → ReadNow × List Nat × Nat
  | [], s => (.data s [] [], [], 0)
  | (ofs, len) :: t, s =>
    if !cf8Readable len then
      let r := readBlocks rd base t s
      (r.1, List.replicate 32 0x7F ++ r.2.1, r.2.2)
    else match rd s ((base + ofs) % 2 ^ 56) len with
      | .busy s1 => (.busy s1, [], 0)
      | .fault s1 code va => (.fault s1 code va, [], 0)
      | .data s1 bytes poison =>
        let x := cf8Block bytes
        let r := readBlocks rd base t s1
        (match r.1 with
          | .data s2 _ bad => (.data s2 [] (poison ++ bad), x.1 ++ r.2.1, b2n x.2 + r.2.2)
          | .busy s2 => (.busy s2, [], 0)
          | .fault s2 code va => (.fault s2 code va, [], 0))

/-- The row-major bytes of quarter number q of a load from its column-wise cf8 elements: column j is 64 elements. -/
def cf8Quarter (elems : List Nat) (q : Nat) : List Byte :=
  (List.range 64).flatMap (fun k => (List.range 16).map (fun j => BitVec.ofNat 8 (nthD 0x7F elems ((16 * q + j) * 64 + k))))

/-- The quarters that a BLDQ loads. -/
def bldqQuarters (subop : Nat) : List Nat := if subop = 4 then [0, 1, 2, 3] else [subop]

/-- Quarters and their contents, in order. -/
def bldqAct (qs : List Nat) (ch : Chan) (data : Nat → List Byte) (scales : Nat → List Byte) : AtCommit :=
  .bldq ((qs.zipIdx).map (fun p => (p.1, ⟨data p.2, ch, scales p.2⟩)))

/-- BLDQ (R243): the data is read at issue, from the stash window that maps it or as LDG does, each line charged to lane 0's activation
while it is under way (R239), and enters its buffer at commit. -/
def execBldq (a : FmtX) (s : State) : Host.Outcome State Fault Refusal :=
  rowForm s (fun c k w x =>
    let ch := (s.core c).row.chanFor w a.fch
    let qs := bldqQuarters a.subop
    let addr := x.rd 0 2 a.sa % 2 ^ 56
    let aux := x.rd 0 2 a.sb % 2 ^ 56
    let rd := fun (va n : Nat) (t : State) => t.readNow c w.graph (s.asidOf w) (s.identOf w) true false va n
    let paths := s.rangePaths c (s.asidOf w)
    let go := fun (t : State) (v : Warp) (act : AtCommit) => Host.Outcome.next ((t.endReads c v).issued c k (v.dropKept.act act))
    if Ty.isCf8 ch.ty then
      let f := x.rd 0 1 a.sc
      let n := 32 * qs.length
      let at' := (aux + 4 * f) % 2 ^ 56
      let table := [(at', 4 * (n + 1))]
      atIssue s c k w [] table (rd at' (4 * (n + 1))) (fun s1 w1 tab =>
        let blocks := cf8Lengths (cf8Table tab)
        let read := readBlocks (fun t va len => rd va len t) addr blocks
        let ranges := (blocks.filter (fun b => cf8Readable b.2)).map (fun b => ((addr + b.1) % 2 ^ 56, b.2))
        atIssue s1 c k w1 (paths table) ranges (fun t => (read t).1) (fun s2 w2 _ =>
          let r := (read s1).2
          go (s2.count c 0x041 3 r.2) w2 (bldqAct qs ch (cf8Quarter r.1) (fun _ => []))) addr) at'
    else
      let qb := Ty.quarterBytes ch.ty
      let main := [(addr, qb * qs.length)]
      atIssue s c k w [] main (rd addr (qb * qs.length)) (fun s1 w1 data =>
        let part := fun i => (data.drop (qb * i)).take qb
        if ch.bscaled then
          let sb := 16 * (Ty.rowK ch.ty / 32)
          atIssue s1 c k w1 (paths main) [(aux, sb * qs.length)] (rd aux (sb * qs.length)) (fun s2 w2 sc =>
            go s2 w2 (bldqAct qs ch part (fun i => (sc.drop (sb * i)).take sb))) aux
        else go s1 w1 (bldqAct qs ch part (fun _ => []))) addr)

/-! ### Rows (R233, R244, R245) -/

/-- A target word's core and row input (R244). -/
def targetOf (t : Word) : Nat × Nat := (bits t.toNat 23 9, bits t.toNat 20 3)

/-- The valid targets of a quad (R244). -/
def validTargets (ts : List Word) : List (Nat × Nat) := (ts.filter (fun t => bitOf t.toNat 0)).map targetOf

def Core.creditOf (k : Core) (t : Nat × Nat) : Option Credit := k.credits.find? (fun y => y.target == t.1 && y.rin == t.2)

/-- n credits taken for each target in turn; none where one of them lacks them (R233, R244). -/
def takeCredits (n : Nat) : List (Nat × Nat) → Core → Option Core
  | [], k => some k
  | t :: r, k =>
    match k.creditOf t with
    | none => none
    | some y =>
      if y.avail < n then none
      else takeCredits n r { k with credits := k.credits.map (fun z => if z.target == t.1 && z.rin == t.2 then { z with avail := z.avail - n } else z) }

/-- Whether a 6-bit row could never be taken by a valid target (R233). -/
def Core.tooShallow (k : Core) (six : Bool) (ts : List (Nat × Nat)) : Bool :=
  six && ts.any (fun t => match k.creditOf t with | some y => decide (y.depth < 2) | none => false)

/-- A packet to each target, with the header fields of hdr (R234, R244). -/
def rowPackets (src tile ch g : Nat) (ts : List (Nat × Nat)) (arow seq stop : Nat) (poison : Bool) (scales payload : List Byte)
    (two : Bool) : List RowPacket :=
  ts.map (fun t => ⟨src, t.1, t.2, ch, tile, arow, seq, stop, poison, g, scales, payload, two⟩)

/-- ROWP (R244): credits for every valid target at issue; the packets leave at commit. Under a channel of 6-bit elements it takes two,
also with STOP 7 (R233; DESIGN CHOICE, assumption 43). -/
def execRowp (a : FmtX) (s : State) : Host.Outcome State Fault Refusal :=
  rowForm s (fun c k w x =>
    let q := s.core c
    let ch := q.row.chanFor w a.fch
    let six := Ty.isSix ch.ty
    let tq := (Sel.kIndex a.sb)
    let ts := validTargets ((List.range 4).map (fun i => BitVec.ofNat 32 (w.uni (tq + i))))
    let n := if six then 2 else 1
    if q.tooShallow six ts then .next (s.takeWarpFault c k w 0x02 0)
    else match takeCredits n ts q with
      | none => .next (s.stalledOn c k w true)
      | some q1 =>
        let hdr := x.rd 0 1 a.sc
        let lane := fun l => if l < w.wpop then x.rd l 1 a.sa else 0
        let payload := (List.range 32).flatMap (fun l => toBytes (if six then 3 else 2) (lane l))
        let scales := if ch.bscaled then (List.range (Ty.rowK ch.ty / 32)).map (fun l => BitVec.ofNat 8 (bits (lane l) 24 8)) else []
        let ps := rowPackets c a.unit a.fch w.graph ts (bits hdr 0 5) (bits hdr 16 16) (bits hdr 5 3) false scales payload six
        let w1 := { w with taken := w.taken ++ ts.map (fun (t : Nat × Nat) => Taken.credit t.1 t.2 n) }
        .next ((s.setCore c q1).issued c k (w1.act (.rowp ps))))

/-- The type that ROWS's reserved descriptor bits allow: word 2's high half is 0 (R245). -/
def badRows (d : List Word) : Bool := bits (nthD 0 d 2).toNat 16 16 != 0

/-- ROWS (R245): an engine entry and the charge at issue; the engine starts at commit. -/
def execRows (a : FmtX) (s : State) : Host.Outcome State Fault Refusal :=
  rowForm s (fun c k w _ =>
    let q := s.core c
    let d := w.descriptor (Sel.kIndex a.sa)
    let tq := (Sel.kIndex a.sb)
    let targets := (List.range 4).map (fun i => BitVec.ofNat 32 (w.uni (tq + i)))
    if badRows d || q.tooShallow (Ty.isSix (q.row.chanFor w a.fch).ty) (validTargets targets) then .next (s.takeWarpFault c k w 0x02 0)
    else match s.reserveEngine c w .e with
      | none => .next (s.stalledOn c k w (s.engineFull c))
      | some (s1, x) =>
        let e := { s.blankCmd w .rows x d with
          flags := a.flags, tile := a.unit, chan := a.fch, targets := targets, total := bits (nthD 0 d 2).toNat 0 16 }
        .next (s1.issued c k ({ w with taken := w.taken ++ [Taken.engine x] }.act (.engine e))))

/-! ### Sequences and tiles (R246 to R250) -/

/-- Whether a reply word's reserved bits are set (R246, R252). -/
def badReplyWord (r : Nat) : Bool := bits r 20 12 != 0

/-- MXSEQ (R246). -/
def execMxseq (a : FmtX) (s : State) : Host.Outcome State Fault Refusal :=
  rowForm s (fun c k w x =>
    let frame := x.rd 0 1 a.sa
    let reply := x.rd 0 1 a.sb
    if badReplyWord reply || badFp frame then .next (s.takeWarpFault c k w 0x05 0)
    else .next (s.issued c k (w.act
      (.mxseq a.unit (BitVec.ofNat 32 frame) (BitVec.ofNat 32 reply) (BitVec.ofNat 32 (x.rd 0 1 a.sc)) a.flags))))

/-- ACCZ (R247). -/
def execAccz (a : FmtX) (s : State) : Host.Outcome State Fault Refusal :=
  rowForm s (fun c k w _ => .next (s.issued c k (w.act (.accz a.unit))))

/-- A tile of the accumulator area (R190). -/
def RowEngine.tile (r : RowEngine) (t : Nat) : Tile := Map.getD r.tiles t Tile.reset

/-- Element (row, column) of a tile, and whether it is poisoned (R238). -/
def Tile.elem (t : Tile) (r col : Nat) : Nat := (Map.getD t.elems (64 * r + col) 0).toNat
def Tile.bad (t : Tile) (r col : Nat) : Bool := t.poison.contains (64 * r + col)

/-- ACCRD (R248): one accumulator row, two columns to a lane. -/
def execAccrd (a : FmtX) (s : State) : Host.Outcome State Fault Refusal :=
  rowForm s (fun c k w x =>
    let t := (s.core c).row.tile a.unit
    let r := x.rd 0 1 a.sb % 32
    if w.lanes.any (fun l => t.bad r (2 * l) || t.bad r (2 * l + 1)) then .next (s.takeWarpFault c k w 0x04 0)
    else
      let w1 := w.write w.lanes a.sa 2 (fun l => t.elem r (2 * l) + 2 ^ 32 * t.elem r (2 * l + 1))
      .next (s.issued c k (w1.offer a.sa
        (w.lanes.flatMap (fun l => [decodeF .f32 (t.elem r (2 * l)), decodeF .f32 (t.elem r (2 * l + 1))])))))

/-- ACCWB (R249). -/
def execAccwb (a : FmtX) (s : State) : Host.Outcome State Fault Refusal :=
  rowForm s (fun c k w x => .next (s.issued c k (w.act (.accwb a.unit (x.rd 0 2 a.sa) (x.rd 0 1 a.sb) a.flags))))

/-- The FLAGS of an ACCST with dyn resolved as it issues (R107, R250). -/
def View.accstFlags (x : View) (flags : Nat) : Nat :=
  bits flags 0 3 + 8 * (if bits flags 3 3 = 7 then x.dflt 0 else bits flags 3 3)

/-- ACCST (R250): its draws take this instruction's index, and its mode is that of its issue. -/
def execAccst (a : FmtX) (s : State) : Host.Outcome State Fault Refusal :=
  rowForm s (fun c k w x =>
    .next (s.issued c k (w.act (.accst a.unit (x.rd 0 2 a.sa) (x.rd 0 1 a.sb % 32) (x.accstFlags a.flags) w.pc))))

/-- FCHBIND (R242): a bad cfg fails at issue. -/
def badChan (cfg : Nat) : Bool :=
  match decTy (bits cfg 0 5) with
  | none => true
  | some t =>
    let mx := Ty.isMx t
    let ok := mx || (match t with | .f16 | .bf16 | .cf8 | .i8 | .n8 => true | _ => false)
    !ok || (bitOf cfg 8 && !mx) || bits cfg 5 3 != 0 || bits cfg 9 23 != 0

def execFchbind (a : FmtX) (s : State) : Host.Outcome State Fault Refusal :=
  rowForm s (fun c k w x =>
    let cfg := x.rd 0 1 a.sa
    if badChan cfg then .next (s.takeWarpFault c k w 0x02 0)
    else .next (s.issued c k (w.act (.fchbind a.fch (BitVec.ofNat 32 cfg) (BitVec.ofNat 32 (x.rd 0 1 a.sb))))))

/-! ### The sparse units (R252 to R257) -/

/-- ISCFG (R252). -/
def execIscfg (a : FmtX) (s : State) : Host.Outcome State Fault Refusal :=
  sparseForm s (fun c k w x =>
    let cfg := x.rd 0 1 a.sa
    let reply := x.rd 0 1 a.sb
    if bitOf cfg 1 || bits cfg 7 9 != 0 then .next (s.takeWarpFault c k w 0x02 0)
    else if badReplyWord reply then .next (s.takeWarpFault c k w 0x05 0)
    else .next (s.issued c k (w.act (.iscfg a.unit (BitVec.ofNat 32 cfg) (BitVec.ofNat 32 reply)))))

/-- An engine command of path E, checked at issue (R239, R271). -/
def sparseEngine (s : State) (c k : Nat) (w : Warp) (bad : Bool) (mk : Charge → EngCmd) : Host.Outcome State Fault Refusal :=
  if bad then .next (s.takeWarpFault c k w 0x02 0)
  else match s.reserveEngine c w .e with
    | none => .next (s.stalledOn c k w (s.engineFull c))
    | some (s1, x) => .next (s1.issued c k ({ w with taken := w.taken ++ [Taken.engine x] }.act (.engine (mk x))))

/-- Whether ISX's descriptor fails at issue (R253). -/
def badIsx (d : List Word) : Bool :=
  let n := (nthD 0 d 4).toNat
  let t := (nthD 0 d 5).toNat
  decide (65536 < n) || bits t 1 2 == 3 || bits t 3 29 != 0 || (nthD 0 d 6 != 0) || (nthD 0 d 7 != 0)

/-- ISX (R253). -/
def execIsx (a : FmtX) (s : State) : Host.Outcome State Fault Refusal :=
  sparseForm s (fun c k w _ =>
    let d := w.descriptor (Sel.kIndex a.sa)
    sparseEngine s c k w (badIsx d) (fun x => { s.blankCmd w .isx x d with unit := a.unit, total := (nthD 0 d 4).toNat }))

/-- SACCI (R255): one pair for each lane below wpop. -/
def execSacci (a : FmtX) (s : State) : Host.Outcome State Fault Refusal :=
  sparseForm s (fun c k w x =>
    .next (s.issued c k (w.act (.sacci a.unit (w.lanes.map (fun l => (BitVec.ofNat 32 (x.rd l 1 a.sa), BitVec.ofNat 32 (x.rd l 1 a.sb))))))))

/-- SACCF (R256): the flush is made at commit. -/
def execSaccf (a : FmtX) (s : State) : Host.Outcome State Fault Refusal :=
  sparseForm s (fun c k w x =>
    .next (s.issued c k (w.act (.saccf a.unit (x.rd 0 2 a.sa) (x.rd 0 2 a.sb) (BitVec.ofNat 32 (x.rd 0 1 a.sc)) a.flags))))

/-- A source type of NZSCAN (R257). -/
def nzTypeOk (t : Nat) : Bool :=
  match decTy t with
  | some .f32 | some .f16 | some .bf16 | some .e4m3 | some .e5m2 => true
  | some .i8 | some .i16 | some .i32 | some .i64 | some .n8 | some .n16 | some .n32 | some .n64 => true
  | _ => false

/-- Whether NZSCAN fails at issue (R257); so does a source type outside its list (DESIGN CHOICE, assumption 118). -/
def badNzscan (d : List Word) (ctl : Nat) : Bool :=
  let n := (nthD 0 d 2).toNat
  let t := (nthD 0 d 3).toNat
  bits ctl 23 9 != 0 || n == 0 || decide (16777216 < n) || bits t 5 27 != 0 || !nzTypeOk (bits t 0 5)

/-- NZSCAN (R257). -/
def execNzscan (a : FmtX) (s : State) : Host.Outcome State Fault Refusal :=
  sparseForm s (fun c k w x =>
    let d := w.descriptor (Sel.kIndex a.sa)
    let ctl := x.rd 0 1 a.sb
    sparseEngine s c k w (badNzscan d ctl) (fun y =>
      { s.blankCmd w .nzscan y d with
        unit := a.unit, ctl := BitVec.ofNat 32 ctl, total := (nthD 0 d 2).toNat, rblock := bits ctl 8 12, rslot := bits ctl 0 8
        rscope := (match bits a.flags 0 2 with | 1 => .core | 2 => .die | 3 => .package | _ => .auto) }))

end Sys2Proof.Machine
end

