-- ==== Sys2Proof/Machine/RowImage.lean ====
section
/-! DEFINITION. The engine image of a pre-empted graph on a core: what it holds (R260, R362), where each part stands in it (DESIGN
CHOICE, assumption 48), and how it is read back. -/
namespace Sys2Proof.Machine

/-- The virtual address of a core's engine image (R362). -/
def engImageAddr (g : Graph) (c : Nat) : Nat := g.privBase + 0x20000000 + c * 2 ^ 20

/-! ### Elements and bytes of data -/

/-- The bytes of a tile: its elements in order. -/
def Tile.bytes (t : Tile) : List Byte := (List.range 2048).flatMap (fun i => toBytes 4 (Map.getD t.elems i 0).toNat)

def tileAt (n : Nat) : Nat := 8192 * n
def activeAt (q : Nat) : Nat := 0x80000 + 2048 * q
def loadingAt (q : Nat) : Nat := 0x82000 + 2048 * q

/-- Row k of the image: 128 bytes for each entry, 256 for the two of a 6-bit row, counted over all inputs. -/
def rowAt (k : Nat) : Nat := 0xC0000 + 128 * k

/-- The entries of all inputs with the places of their rows. -/
def RowEngine.placed (r : RowEngine) : List (Nat × RowEntry) :=
  ((r.inputs.flatMap (fun x => x.entries)).foldl (fun a e => (a.1 ++ [(rowAt a.2, e)], a.2 + (if e.pkt.two then 2 else 1)))
    (([] : List (Nat × RowEntry)), 0)).1

/-- Tiles, quarters and row payloads with their places. -/
def RowEngine.dataParts (r : RowEngine) : List (Nat × List Byte) :=
  r.tiles.map (fun p => (tileAt p.1, p.2.bytes)) ++ r.bq.map (fun p => (activeAt p.1, p.2.data))
    ++ r.loading.map (fun p => (loadingAt p.1, p.2.data)) ++ r.placed.map (fun p => (p.1, p.2.pkt.payload))

/-! ### Everything else (R260) -/

/-- A reply in 12 bytes: frame, block and slot, iteration, identity, release. -/
def Reply.image (x : Reply) : List Byte :=
  toBytes 4 x.fp ++ toBytes 4 (x.block % 4096 * 2 ^ 8 + x.slot % 256 + Scope.code x.rel * 2 ^ 20) ++ toBytes 2 x.iter ++ toBytes 2 x.ident

/-- An exact value in 128 bytes: its kind and sign, its exponent, its mantissa. -/
def valImage (v : Val) : List Byte :=
  match v with
  | .nan => toBytes 128 3
  | .inf n => toBytes 128 (2 + 4 * b2n n)
  | .zero n => toBytes 128 (4 * b2n n)
  | .fin n m e => toBytes 4 (1 + 4 * b2n n) ++ toBytes 4 (wrapTo 32 e) ++ toBytes 120 m

/-- A channel as R321 lays it out. -/
def Chan.image (x : Chan) : List Byte := toBytes 8 (x.scale.toNat + encTy x.ty * 2 ^ 32 + b2n x.bscaled * 2 ^ 37)

/-- Numbers below n of a set, as bits. -/
def bitmap (n : Nat) (l : List Nat) : List Byte := toBytes (n / 8) (l.foldl (fun a i => a + 2 ^ i) 0)

/-- A tile's poison bits, expected sequences, read-out and drain state, in 352 bytes. -/
def Tile.book (t : Tile) : List Byte :=
  bitmap 2048 t.poison ++ (List.range 32).flatMap (fun i => toBytes 2 (Map.getD t.seqs i 0)) ++ toBytes 4 (b2n t.reading)
    ++ (match t.drain with
      | none => toBytes 28 0
      | some d => toBytes 4 (1 + d.count * 2) ++ toBytes 4 d.ends ++ toBytes 8 d.rows ++ d.reply.image)

/-- A quarter's channel and scales: whether its data is zeros, and whether a load of it is written in place. -/
def BQuarter.book (b : BQuarter) (inPlace : Bool) : List Byte :=
  b.chan.image ++ toBytes 8 (b2n b.data.isEmpty + 2 * b2n inPlace + 4 * b.scales.length) ++ b.scales

/-- A row entry's header, in the 64 bytes after its payload (R233, R234). -/
def RowEntry.book (e : RowEntry) : List Byte :=
  toBytes 4 (e.pkt.src + e.pkt.ch * 2 ^ 16) ++ toBytes 4 (e.pkt.tile + e.pkt.arow * 2 ^ 8 + e.pkt.stop * 2 ^ 16 + b2n e.pkt.poison * 2 ^ 24
    + b2n e.pkt.two * 2 ^ 25) ++ toBytes 4 e.pkt.seq ++ toBytes 8 e.num ++ toBytes 4 (b2n e.fired + 2 * e.old.foldl (fun a q => a + 2 ^ q) 0)
    ++ toBytes 1 e.pkt.scales.length ++ e.pkt.scales

/-- One side of an intersect unit: its position in the fibre and its entries. -/
def FibSide.image (x : FibSide) : List Byte :=
  toBytes 8 (match x.prev with | none => 0 | some c => 2 * c + 1) ++ toBytes 4 (b2n x.skipping) ++ toBytes 4 x.queue.length
    ++ x.queue.flatMap (fun e =>
      toBytes 4 (match e.stop with | some l => 2 ^ 31 + l | none => e.coord) ++ toBytes 4 (roundF .f32 .rne false 0 false e.val)
        ++ toBytes 4 (b2n e.poisonC + 2 * b2n e.poisonV + 4 * b2n e.last) ++ toBytes 4 e.eid)

/-- An intersect unit: settings, position, sum, and both sides. -/
def IsUnit.image (u : IsUnit) : List Byte :=
  toBytes 4 (b2n u.scale + 2 * u.acc + 8 * u.notify + 64 * b2n u.matched + 128 * b2n u.sumPoison + 256 * b2n u.fibPoison + 512 * b2n u.reply.isSome)
    ++ toBytes 4 u.o ++ toBytes 8 u.popped ++ (match u.reply with | none => toBytes 12 0 | some x => x.image) ++ valImage u.sum
    ++ u.a.image ++ u.b.image

/-- A sparse accumulator: base, flag, occupied and poison bits, entries. -/
def Sacc.image (x : Sacc) : List Byte :=
  toBytes 4 x.base ++ toBytes 4 (b2n x.fibPoison) ++ bitmap 4096 (x.ents.map (fun p => p.1)) ++ bitmap 4096 x.poison
    ++ x.ents.flatMap (fun p => toBytes 4 p.2.toNat)

/-- Whether an engine kind belongs to the row engine. -/
def EngKind.isRow : EngKind → Bool
  | .rows | .isx | .nzscan => true
  | .cpy | .cpy2d | .gath | .scat | .strm | .strmgo | .strmx | .dpost | .dxch | .dxq | .cpyb => false

/-- An engine command of the row engine: what it read at issue, and its unread position. -/
def EngCmd.image (e : EngCmd) : List Byte :=
  toBytes 4 (match e.kind with | .rows => 1 | .isx => 2 | .nzscan => 3 | _ => 0) ++ toBytes 4 e.next ++ toBytes 4 e.total
    ++ toBytes 4 (e.tile + 256 * e.chan + 2 ^ 16 * e.unit) ++ toBytes 4 e.flags ++ toBytes 4 e.ctl.toNat ++ toBytes 4 e.fp ++ toBytes 8 e.serial.toNat
    ++ e.desc.flatMap (fun w => toBytes 4 w.toNat) ++ e.targets.flatMap (fun w => toBytes 4 w.toNat)

/-- What the image holds besides data, with its places. -/
def RowEngine.bookParts (r : RowEngine) : List (Nat × List Byte) :=
  r.tiles.map (fun p => (0x84000 + 512 * p.1, p.2.book)) ++ r.chans.map (fun p => (0x8C000 + 8 * p.1, p.2.image))
    ++ r.bq.map (fun p => (0x8C200 + 128 * p.1, p.2.book false))
    ++ r.loading.map (fun p => (0x8C400 + 128 * p.1, p.2.book (r.inPlace.contains p.1)))
    ++ (r.inputs.zipIdx).map (fun p => (0x8C800 + 8 * p.2, toBytes 8 (p.1.src + p.1.depth * 2 ^ 16 + p.1.entries.length * 2 ^ 32)))
    ++ [(0x8C880, toBytes 16 (r.rotate + r.nextNum * 2 ^ 8))]
    ++ r.placed.map (fun p => (p.1 + p.2.pkt.payload.length, p.2.book))
    ++ r.units.map (fun p => (0x8D000 + 4096 * p.1, p.2.image)) ++ r.saccs.map (fun p => (0x98000 + 24576 * p.1, p.2.image))
    ++ (r.inserts.zipIdx).map (fun p => (0xB8000 + 256 * p.2,
      toBytes 8 (p.1.acc + 4 * b2n p.1.poison + 8 * b2n p.1.fibPoison) ++ toBytes 8 p.1.coord ++ valImage p.1.val))

/-- The parts of engine commands of the row engine, in their order. -/
def engineParts (es : List EngCmd) : List (Nat × List Byte) := (es.zipIdx).map (fun p => (0xB0000 + 512 * p.2, p.1.image))

/-- A core's engine image, with the unread positions of its graph's `ROWS`, `ISX` and `NZSCAN` (R260, R362). -/
def RowEngine.imageParts (r : RowEngine) (es : List EngCmd) : List (Nat × List Byte) := r.dataParts ++ r.bookParts ++ engineParts es

/-- A core's row engine is written to its image (R362). -/
def State.writeEngine (s : State) (g c : Nat) (r : RowEngine) (es : List EngCmd) : State :=
  match s.graph? g with
  | none => s
  | some x => (r.imageParts es).foldl (fun a p => a.hwWrite c g (engImageAddr x c + p.1) p.2) s

/-! ### Reading it back (R260, R362) -/

/-- Parts of an image as memory holds them, each with its place and its poisoned bytes. -/
abbrev ImageData := List (Nat × List Byte × List Nat)

/-- The parts of an image read at their homes; none while something must be waited for. -/
def State.readImage (s : State) (c g : Nat) (x : Graph) : List (Nat × List Byte) → State × Option ImageData
  | [] => (s, some [])
  | p :: t =>
    let va := engImageAddr x c + p.1
    let r := match s.readNow c g x.asid x.identity false true va p.2.length with
      | .fault _ 0 _ => s.readNow c g x.asid x.identity false false va p.2.length
      | r => r
    match r with
    | .busy s1 => (s1, none)
    | .fault s1 _ _ => (s1, none)
    | .data s1 b bad =>
      match s1.readImage c g x t with
      | (s2, none) => (s2, none)
      | (s2, some m) => (s2, some ((p.1, b, bad) :: m))

/-- The bytes of a part, and its poisoned ones; a part that was not read has its old bytes. -/
def ImageData.part (m : ImageData) (at' : Nat) (old : List Byte) : List Byte × List Nat :=
  match m.find? (fun p => p.1 == at') with
  | none => (old, [])
  | some p => p.2

/-- A tile with its elements as an image holds them. -/
def Tile.reload (t : Tile) (p : List Byte × List Nat) : Tile :=
  { t with
    elems := (List.range 2048).filterMap (fun i =>
      let w := BitVec.ofNat 32 (ofBytes ((p.1.drop (4 * i)).take 4))
      if w = 0 then none else some (i, w))
    poison := uniSet t.poison (p.2.map (fun i => i / 4)) }

/-- The rows of an input with their payloads as an image holds them. -/
def reloadRows (m : ImageData) (ps : List (Nat × RowEntry)) (x : RowInput) : RowInput :=
  { x with entries := x.entries.map (fun e =>
      match ps.find? (fun p => p.2.num == e.num) with
      | none => e
      | some p =>
        let d := m.part p.1 e.pkt.payload
        { e with pkt := { e.pkt with payload := d.1, poison := e.pkt.poison || !d.2.isEmpty } }) }

/-- Whether an image holds some parts as they were written, none of their bytes poisoned. -/
def ImageData.keeps (m : ImageData) (ps : List (Nat × List Byte)) : Bool := ps.all (fun p => m.part p.1 p.2 == (p.2, []))

/-- A row engine whose image holds other bookkeeping than was written there: a free value. The layout of the image is the
model's own, so what its changed bytes stand for is open (R260, R362; assumption 48). -/
opaque RowEngine.changed : RowEngine → ImageData → RowEngine

/-- The unread position of an engine command whose part of the image holds other bytes than were written there. A free
value (assumption 48). -/
opaque EngCmd.changedNext : EngCmd → ImageData → Nat

/-- A saved row engine as its image holds it: its data, and what the image holds besides. -/
def RowEngine.reload (r : RowEngine) (m : ImageData) : RowEngine :=
  let b := if m.keeps r.bookParts then r else r.changed m
  { b with
    tiles := b.tiles.map (fun p => (p.1, p.2.reload (m.part (tileAt p.1) p.2.bytes)))
    bq := b.bq.map (fun p => (p.1, { p.2 with data := (m.part (activeAt p.1) p.2.data).1 }))
    loading := b.loading.map (fun p => (p.1, { p.2 with data := (m.part (loadingAt p.1) p.2.data).1 }))
    inputs := b.inputs.map (reloadRows m b.placed) }

/-- Saved engine commands with the positions that their image holds. -/
def reloadEngines (m : ImageData) (es : List (Nat × EngCmd)) : List (Nat × EngCmd) :=
  (es.zip (engineParts (es.map (fun p => p.2)))).map (fun p =>
    if m.keeps [p.2] then p.1 else (p.1.1, { p.1.2 with next := min p.1.2.total (p.1.2.changedNext m) }))

end Sys2Proof.Machine
end

