-- ==== Sys2Proof/Machine/RowEngine.lean ====
section
/-! DEFINITION. The row engine at commit and by itself: configuration, quarters, packets, firing, sums, tiles, credits
and ownership (R144, R232 to R250, R260). -/
namespace Sys2Proof.Machine

def State.setRow (s : State) (c : Nat) (r : RowEngine) : State := s.setCore c { s.core c with row := r }

def RowEngine.setTile (r : RowEngine) (n : Nat) (t : Tile) : RowEngine := { r with tiles := Map.put r.tiles n t }

def RowPacket.credits (p : RowPacket) : Nat := if p.two then 2 else 1

/-- Offers that a warp's instruction makes at commit (R249, R250, R332). -/
def State.warpOffer (s : State) (c k : Nat) (vals : List Val) : State :=
  match s.warp? c k with
  | none => s
  | some w => s.setWarp c k (w.offer (.v 0) vals)

/-! ### Entries and credits (R233) -/

def RowInput.reset : RowInput := ⟨0, 0, []⟩

/-- An entry of a row input is freed, and its credit goes back to its source (R233). -/
def State.freeRow (s : State) (c input num : Nat) : State :=
  let r := (s.core c).row
  let x := nthD RowInput.reset r.inputs input
  match x.entries.find? (fun e => e.num == num) with
  | none => s
  | some e =>
    let s1 := s.setRow c { r with inputs := setNth r.inputs input { x with entries := x.entries.filter (fun y => y.num != num) } }
    { s1 with rowReturns := s1.rowReturns ++ [(e.pkt.src, c, input, e.pkt.credits)] }

/-- ROW_CREDIT_RETURN (R47, R49, R233): a returned credit reaches its source over boundaries that are up; it never raises a grant
above its depth. -/
def execRowCreditReturn (k : Nat) (s : State) : Host.Outcome State Fault Refusal :=
  match s.rowReturns[k]? with
  | none => .next s
  | some (src, target, rin, n) =>
    let dirs := routeDirs (dieOf target) (dieOf src)
    let s1 := ({ s with rowReturns := dropNth s.rowReturns k } : State).countFlits dirs 16
    let q := s1.core src
    .next (if !s.pathUp dirs then s else s1.setCore src { q with credits := q.credits.map (fun y =>
      if y.target == target && y.rin == rin then { y with avail := min y.depth (y.avail + n) } else y) })

/-- ROW_CREDIT_GRANT (R47, R49, R233): the first grant that can reach the source, over boundaries that are up, takes an entry of its
credit table. -/
def execRowCreditGrant (c : Nat) (s : State) : Host.Outcome State Fault Refusal :=
  let q := s.core c
  match findIdx (fun y => s.pathUp (routeDirs (dieOf y.target) (dieOf c))) q.grantWait with
  | none => .next s
  | some (n, y) =>
    .next (if q.credits.length < 32 then
      (s.setCore c { q with credits := q.credits ++ [y], grantWait := dropNth q.grantWait n }).countFlits (routeDirs (dieOf y.target) (dieOf c)) 16
      else s)

/-- The boundaries to the cores that hold a consumer's grants, which its revocations cross (R47, R241). -/
def State.revokeDirs (s : State) (c : Nat) : List (List Nat) :=
  (s.cores.filter (fun p => p.2.credits.any (fun y => y.target == c))).map (fun p => routeDirs (dieOf c) (dieOf p.1))

/-- Whether a consumer's revocations can reach its sources (R49). -/
def State.mayRevoke (s : State) (c : Nat) : Bool := (s.revokeDirs c).all s.pathUp

/-- The credit-table entries that a consumer granted are dropped (R241 step 3). -/
def State.revokeGrants (s0 : State) (c : Nat) : State :=
  let s := (s0.revokeDirs c).foldl (fun a d => a.countFlits d 16) s0
  { s with
    cores := s.cores.map (fun p => (p.1, { p.2 with
      credits := p.2.credits.filter (fun y => y.target != c), grantWait := p.2.grantWait.filter (fun y => y.target != c) }))
    rowReturns := s.rowReturns.filter (fun x => x.2.1 != c) }

/-- Grants to the sources of enabled inputs, less what their entries hold (R241 step 7, R260). -/
def grantInputs (c : Nat) : List (RowInput × Nat) → State → State
  | [], s => s
  | (x, i) :: t, s =>
    if x.depth = 0 then grantInputs c t s
    else
      let used := x.entries.foldl (fun a e => a + e.pkt.credits) 0
      let q := s.core x.src
      grantInputs c t (s.setCore x.src { q with grantWait := q.grantWait ++ [⟨c, i, x.depth, x.depth - used⟩] })

/-! ### Ownership (R144, R241) -/

/-- The engine is released: no owner, and the core's own credits are discarded (R233, R241). -/
def State.releaseRow (s : State) (c : Nat) : State :=
  let q := s.core c
  s.setCore c { q with row := { q.row with owner := none }, credits := [] }

/-- A warp's reservation ends with its commit, unless another warp of its graph holds one. -/
def State.endReservation (s : State) (c k g : Nat) : State :=
  let q := s.core c
  if q.warps.any (fun p => p.1 != k && p.2.graph == g && p.2.taken.contains .rowEngine) then s
  else s.setCore c { q with row := { q.row with resv := none } }

/-- An engine command is discarded: its entry leaves and its charge is released (R241, R252). -/
def State.discardEngine (s : State) (c eid : Nat) (e : EngCmd) : State :=
  ({ (s.dropEngine c eid) with
      reqs := s.reqs.filter (fun p => match p.2.elem, p.2.kind with
        | some (c', e', _, _), .load => !(c' == c && e' == eid)
        | _, _ => true) }).later (some e.charge)

/-- The ISX feeds and the running NZSCANs that an MXCFG discards, each counted (R241 step 5). -/
def State.dropFeeds (s : State) (c : Nat) : State :=
  (s.core c).engines.foldl (fun a p =>
    match p.2.kind, p.2.state with
    | .isx, _ => (a.discardEngine c p.1 p.2).count c 0x041 6 1
    | .nzscan, .running => (a.discardEngine c p.1 p.2).count c 0x041 6 1
    | .nzscan, .closing => (a.discardEngine c p.1 p.2).count c 0x041 6 1
    | _, _ => a) s

/-- The row inputs of MXCFG's words (R241). -/
def inputsOf (ws : List Word) : List RowInput := ws.map (fun x => ⟨bits x.toNat 23 9, x.toNat % 256, []⟩)

/-- Four quarters of zeros under channel ch0 as it is bound (R236, R241 step 4). -/
def RowEngine.zeroQuarters (r : RowEngine) : Map BQuarter := (List.range 4).map (fun q => (q, ⟨[], r.chan 0, []⟩))

/-- MXCFG at commit (R241); none while a source whose grants it revokes cannot be reached (R49). -/
def State.mxcfgAct (s : State) (c k g : Nat) (ws : List Word) : Option State :=
  let s0 := s.endReservation c k g
  if ws.all (fun x => x == 0) then some (s0.releaseRow c)
  else if !s.mayRevoke c then none
  else
    let held := (s0.core c).row.inputs.foldl (fun a x => x.entries.foldl (fun b e => b + e.pkt.credits) a) 0
    let s1 := ((s0.count c 0x041 6 held).revokeGrants c).dropFeeds c
    let r := (s1.core c).row
    let r1 : RowEngine :=
      { r with owner := some g, inputs := inputsOf ws, pool := [], bq := r.zeroQuarters, loading := [], inPlace := [], units := [],
               notifies := [], inserts := r.inserts }
    some (grantInputs c (r1.inputs.zipIdx) (s1.setRow c r1))

/-- Whether a write of a core's engine image still stands, or is parked (R194, R362). -/
def State.imageWrites (s : State) (c g : Nat) : Bool :=
  match s.graph? g with
  | none => false
  | some x =>
    let base := engImageAddr x c
    s.reqs.any (fun p => p.2.hw && p.2.core == c && p.2.graph == g && p.2.kind.isStore && decide (base ≤ p.2.va) && decide (p.2.va < base + 2 ^ 20))

/-- ENGINE_OWNERSHIP_TRANSFER (R144, R260): a resumed graph whose turn it is takes the free engine; its image is
reloaded from memory, its engines go on, and its grants are issued again less the entries restored. -/
def execEngineOwnershipTransfer (c : Nat) (s : State) : Host.Outcome State Fault Refusal :=
  let r := (s.core c).row
  match s.rowWaiters c with
  | [] => .next s
  | g :: _ =>
    match s.graph? g with
    | none => .next s
    | some x =>
      if !(r.owner == none && r.resv == none && x.resumeWait.contains c && decide (x.state = .loaded)) then .next s
      else match Map.find? x.saved c with
        | none => .next (s.setGraph g { x with resumeWait := delSet x.resumeWait c })
        | some im =>
          if s.imageWrites c g then .next s
          else
          let all := Map.getD x.savedEng c []
          let mine := all.filter (fun e => e.2.kind.isRow)
          match s.readImage c g x (im.imageParts (mine.map (fun e => e.2))) with
          | (s0, none) => .next s0
          | (s0, some m) =>
          let s1 := (s0.setGraph g { x with
            resumeWait := delSet x.resumeWait c, saved := Map.del x.saved c
            savedEng := Map.put x.savedEng c (all.filter (fun e => !e.2.kind.isRow)) })
          let im1 := im.reload m
          let s2 := s1.setRow c { im1 with owner := some g, resv := none, waiters := delSet r.waiters g }
          let s3 := (reloadEngines m mine).foldl (fun a e => a.setEngine c e.1 e.2) s2
          .next (grantInputs c (im1.inputs.zipIdx) s3)

/-! ### B quarters (R144, R243) -/

/-- Whether rows that a pre-emption rewound still have to fire against a quarter's old contents (R144). -/
def RowEngine.owed (r : RowEngine) (q : Nat) : Bool := r.inputs.any (fun x => x.entries.any (fun e => !e.fired && e.old.contains q))

/-- Whether a row must wait for a quarter (R235, R243): for a swap that is due, and for a 6-bit quarter's write in place
unless the row itself is owed the old contents. -/
def RowEngine.bars (r : RowEngine) (e : RowEntry) : Bool :=
  r.loading.any (fun p => !r.owed p.1 || (r.inPlace.contains p.1 && !e.old.contains p.1))

/-- The loaded contents of a quarter become active. -/
def RowEngine.swap (r : RowEngine) (q : Nat) : RowEngine :=
  match Map.find? r.loading q with
  | none => r
  | some b => { r with bq := Map.put r.bq q b, loading := Map.del r.loading q, inPlace := delSet r.inPlace q }

/-- BLDQ at commit (R243): the data enters the loading buffers; a 6-bit quarter, before or after, is written in place.
It waits where an earlier load still owes rows their old contents. -/
def State.bldqAct (s : State) (c : Nat) (qs : List (Nat × BQuarter)) : Option State :=
  let r := (s.core c).row
  if qs.any (fun p => (Map.find? r.loading p.1).isSome && r.owed p.1) then none
  else some (s.setRow c (qs.foldl (fun a p =>
    let a1 := a.swap p.1
    let six := Ty.isSix p.2.chan.ty || Ty.isSix (Map.getD a1.bq p.1 BQuarter.reset).chan.ty
    { a1 with loading := Map.put a1.loading p.1 p.2, inPlace := if six then insSet a1.inPlace p.1 else a1.inPlace }) r))

/-- BQ_SWAP (R243): every row fired against the old contents has formed its partial; a row forms it as it fires, so a
swap that owes no rewound row its old contents is due at once, and no row fires before it. -/
def execBqSwap (c q : Nat) (s : State) : Host.Outcome State Fault Refusal :=
  let r := (s.core c).row
  .next (if r.owed q then s else s.setRow c (r.swap q))

/-! ### Packets and firing (R234 to R237) -/

/-- ROW_PACKET_ARRIVAL (R49, R234): a packet that none of its stream precedes enters its row input over boundaries that are up;
a packet of a graph that does not own the engine is discarded and counted, and its credit returns. -/
def execRowPacketArrival (k : Nat) (s : State) : Host.Outcome State Fault Refusal :=
  match s.rowPkts[k]? with
  | none => .next s
  | some p =>
    let dirs := routeDirs (dieOf p.src) (dieOf p.dst)
    if (s.rowPkts.take k).any (fun q => q.src == p.src && q.dst == p.dst && q.rin == p.rin) || s.rowWaits k p || !s.pathUp dirs then .next s
    else
      let s1 := ({ s with rowPkts := dropNth s.rowPkts k } : State).countFlits dirs (p.payload.length + p.scales.length)
      let r := (s1.core p.dst).row
      let x := nthD RowInput.reset r.inputs p.rin
      let drop := fun (kind : Nat) =>
        let s2 := s1.count p.dst 0x041 kind 1
        { s2 with rowReturns := s2.rowReturns ++ [(p.src, p.dst, p.rin, p.credits)] }
      if r.owner != some p.graph then .next (drop 0)
      else if x.depth = 0 || x.src != p.src then .next (drop 6)
      else .next (s1.setRow p.dst { r with
        inputs := setNth r.inputs p.rin { x with entries := x.entries ++ [⟨p, false, r.nextNum, []⟩] }, nextNum := r.nextNum + 1 })

/-- Element k of a row as a channel decodes it (R117, R236). -/
def rowElem (ch : Chan) (p : RowPacket) (k : Nat) : Val :=
  let e := packedElem ch.ty.width p.payload k
  if ch.bscaled then decodeMx ch.ty (nthD 0 p.scales (k / 32)).toNat e else decodeF ch.ty e

/-- Element (k, j) of a quarter as it was loaded. -/
def quarterElem (b : BQuarter) (k j : Nat) : Val :=
  let e := packedElem b.chan.ty.width b.data (16 * k + j)
  if b.chan.bscaled then decodeMx b.chan.ty (nthD 0 b.scales (j * (Ty.rowK b.chan.ty / 32) + k / 32)).toNat e else decodeF b.chan.ty e

/-- The partial of one column (R118, R119, R236); none where the formats do not match. -/
def partialCol (ch : Chan) (p : RowPacket) (b : BQuarter) (j : Nat) : Option Word :=
  let ka := Ty.rowK ch.ty
  if Ty.rowK b.chan.ty ≠ ka || Ty.isRowInt ch.ty ≠ Ty.isRowInt b.chan.ty then none
  else if Ty.isRowInt ch.ty then
    some (BitVec.ofNat 32 (wrapTo 32 ((List.range ka).foldl (fun a k =>
      a + decodeI ch.ty (packedElem 8 p.payload k) * decodeI b.chan.ty (packedElem 8 b.data (16 * k + j))) (0 : Int))))
  else
    let sum := Val.sum false ((List.range ka).map (fun k => Val.mul (rowElem ch p k) (quarterElem b k j)))
    some (BitVec.ofNat 32 (roundF .f32 .rne false 0 false
      (Val.mul (Val.mul sum (decodeF .f32 ch.scale.toNat)) (decodeF .f32 b.chan.scale.toNat))))

/-- The 64 columns of a firing row (R236). -/
def RowEngine.partials (r : RowEngine) (p : RowPacket) : List (Option Word) :=
  (List.range 64).map (fun col => partialCol (r.chan p.ch) p (Map.getD r.bq (col / 16) BQuarter.reset) (col % 16))

/-- (SEQ − x) mod 65,536 (R235). -/
def aheadOf (t : Tile) (arow seq : Nat) : Nat := (seq + 65536 - Map.getD t.seqs arow 0) % 65536

/-- Slots of the reorder pool (R235). -/
def Core.poolSize (k : Core) : Nat := bits k.sramPart.toNat 16 8 * 256 - 2560

/-- Whether a row may take a reorder slot, and whether it takes a reserved one (R235). -/
def slotFor (k : Core) (ahead : Nat) : Option Bool :=
  let plain := (k.row.pool.filter (fun p => !p.reserved)).length
  if plain + 4 < k.poolSize then some false
  else if ahead = 0 && decide ((k.row.pool.filter (fun p => p.reserved)).length < 4) then some true
  else none

/-- The row at the head of an input that may fire or be discarded: its place is the first entry that has not fired. -/
def RowInput.head (x : RowInput) : Option RowEntry := x.entries.find? (fun e => !e.fired)

/-- One input's turn in a clock (R235): the state, and whether its row fired. -/
def State.tryFire (s : State) (c i : Nat) : State × Bool :=
  let k := s.core c
  let r := k.row
  let x := nthD RowInput.reset r.inputs i
  match x.head with
  | none => (s, false)
  | some e =>
    if e.pkt.stop = 7 then (s, false)
    else
      let t := r.tile e.pkt.tile
      let a := aheadOf t e.pkt.arow e.pkt.seq
      if 32768 ≤ a then ((s.count c 0x041 1 1).freeRow c i e.num, false)
      else if 8 ≤ a || t.reading || r.bars e then (s, false)
      else match slotFor k a with
        | none => (s, false)
        | some reserved =>
          let vals := r.partials e.pkt
          let p : Partial := ⟨e.pkt.tile, e.pkt.arow, e.pkt.seq, vals, Ty.isRowInt (r.chan e.pkt.ch).ty, e.pkt.poison, i, e.num, reserved⟩
          let x1 := { x with entries := x.entries.map (fun y => if y.num = e.num then { y with fired := true, old := [] } else y) }
          let s1 := s.setRow c { r with inputs := setNth r.inputs i x1, pool := r.pool ++ [p] }
          (((s1.count c 0x028 0 1).count c 0x041 2 (vals.filter Option.isNone).length), true)

/-- The inputs in rotating order; up to `room` rows fire, and the first that fires is remembered (R235). -/
def fireInputs (c : Nat) : List Nat → Nat → Option Nat → State → State × Option Nat
  | [], _, first, s => (s, first)
  | i :: t, room, first, s =>
    if room = 0 then (s, first)
    else
      let r := s.tryFire c i
      fireInputs c t (if r.2 then room - 1 else room) (if r.2 then some (first.getD i) else first) r.1

/-- ROW_FIRE (R235, R395): one clock of the engine, unless the power manager withholds it. -/
def execRowFire (c : Nat) (s : State) : Host.Outcome State Fault Refusal :=
  if s.slotWithheld c 8 then .next s else
  let start := (s.core c).row.rotate
  let r := fireInputs c ((List.range 8).map (fun i => (start + i) % 8)) 4 none s
  match r.2 with
  | none => .next r.1
  | some i => .next (r.1.setRow c { (r.1.core c).row with rotate := (i + 1) % 8 })

/-- One element after a partial's column is added (R118, R236). A format mismatch makes it the canonical NaN, 0x7FC00000, also in a
row of integers (DESIGN CHOICE, assumption 43). -/
def addElem (isInt : Bool) (old : Nat) (p : Option Word) : Nat :=
  match p with
  | none => 0x7FC00000
  | some v =>
    if isInt then (old + v.toNat) % 2 ^ 32
    else roundF .f32 .rne false 0 false (Val.sum false [decodeF .f32 old, decodeF .f32 v.toNat])

/-- A partial added to its accumulator row; the expected sequence rises by 1 (R235, R238). -/
def Tile.add (t : Tile) (p : Partial) : Tile :=
  let base := 64 * p.arow
  { t with
    elems := (p.vals.zipIdx).foldl (fun m q => Map.putD 0 m (base + q.2) (BitVec.ofNat 32 (addElem p.isInt (Map.getD m (base + q.2) 0).toNat q.1))) t.elems
    poison := if p.poison then uniSet t.poison ((List.range 64).map (fun i => base + i)) else t.poison
    seqs := Map.putD 0 t.seqs p.arow ((p.seq + 1) % 65536)
    drain := t.drain.map (fun d => { d with rows := d.rows + 1 }) }

/-- Partials that leave the pool unadded: their entries are freed, their credits return, and they are counted. -/
def State.dropPartials (s : State) (c kind : Nat) (f : Partial → Bool) : State :=
  let r := (s.core c).row
  let gone := r.pool.filter f
  gone.foldl (fun a p => (a.count c 0x041 kind 1).freeRow c p.input p.num) (s.setRow c { r with pool := r.pool.filter (fun p => !f p) })

/-- PARTIAL_ADD (R235): a partial whose SEQ is the expected one is added; those of its row that have become stale are
discarded. -/
def execPartialAdd (c k : Nat) (s : State) : Host.Outcome State Fault Refusal :=
  let r := (s.core c).row
  match r.pool[k]? with
  | none => .next s
  | some p =>
    let t := r.tile p.tile
    if aheadOf t p.arow p.seq ≠ 0 then .next s
    else
      let t1 := t.add p
      let s1 := (s.setRow c { (r.setTile p.tile t1) with pool := dropNth r.pool k }).freeRow c p.input p.num
      .next (s1.dropPartials c 1 (fun q => q.tile == p.tile && q.arow == p.arow && decide (32768 ≤ aheadOf t1 q.arow q.seq)))

/-- A token to a reply's frame. -/
def Reply.token (r : Reply) (payload : Nat) : Token := plainToken r.fp r.block r.slot r.iter r.ident payload

/-- END_PACKET (R237, R246): the end packet at an input's front is freed and counts for its tile; with the last the
drain token is sent. -/
def execEndPacket (c i : Nat) (s : State) : Host.Outcome State Fault Refusal :=
  let r := (s.core c).row
  match (nthD RowInput.reset r.inputs i).entries with
  | [] => .next s
  | e :: _ =>
    if e.pkt.stop ≠ 7 then .next s
    else
      let s1 := s.freeRow c i e.num
      let r1 := (s1.core c).row
      let t := r1.tile e.pkt.tile
      match t.drain with
      | none => .next s1
      | some d =>
        if d.count ≠ 0 && d.ends + 1 = d.count then
          .next ((s1.setRow c (r1.setTile e.pkt.tile { t with drain := none })).sendToken c (d.reply.token d.rows))
        else .next (s1.setRow c (r1.setTile e.pkt.tile { t with drain := some { d with ends := d.ends + 1 } }))

/-! ### Tiles at commit (R246, R247, R249, R250) -/

/-- ACCZ at commit (R247). -/
def State.acczAct (s : State) (c n : Nat) : State :=
  let s1 := s.dropPartials c 6 (fun p => p.tile == n)
  let r := (s1.core c).row
  s1.setRow c (r.setTile n { r.tile n with elems := [], poison := [], seqs := [] })

/-- MXSEQ at commit (R246). -/
def State.mxseqAct (s : State) (c : Nat) (w : Warp) (n frame reply ctl flags : Nat) : State :=
  let r := (s.core c).row
  let t := r.tile n
  s.setRow c (r.setTile n { t with
    seqs := if bitOf flags 0 then (List.range 32).foldl (fun m i => Map.putD 0 m i (bits ctl 16 16)) t.seqs else t.seqs
    drain := some ⟨ctl % 65536, 0, 0, ⟨frame, bits reply 8 12, reply % 256, w.iterAt 0, s.identOf w, .auto⟩⟩ })

/-- ACCWB at commit (R249): one charge for all its writes; none where its counter is saturated. -/
def State.accwbAct (s : State) (c k : Nat) (w : Warp) (cid n addr stride flags : Nat) : Option State :=
  match s.charge c (w.frameOf 0) (Path.ofCode (bits flags 1 2)) with
  | none => none
  | some (s1, x) =>
    let r := (s1.core c).row
    let t := r.tile n
    let rowAt := fun (i : Nat) => wrapTo 56 ((addr : Int) + (i : Int) * toSigned 32 (stride % 2 ^ 32))
    let rows := (List.range 32).map (fun i => (rowAt i, cutRuns 4 ((List.range 64).map (fun col => (4 * col, t.elem i col, t.bad i col)))))
    let left := (rows.map (fun p => runParts p.1 p.2)).foldl (fun a b => a + b) 0
    let t1 : Tile := { t with reading := true, elems := if bitOf flags 0 then [] else t.elems, poison := if bitOf flags 0 then [] else t.poison }
    let s2 := (s1.setRow c (r.setTile n t1)).warpOffer c k
      ((List.range 2048).map (fun i => decodeF .f32 (Map.getD t.elems i 0).toNat))
    let b := s2.next
    let s3 := ({ s2 with next := b + 1 }).openBatch b ⟨left, none, some cid, c, [x]⟩
    some (rows.foldl (fun a p => a.storeRuns c w cid (some b) p.1 p.2) s3)

/-- ACCWB_READOUT_END (R249): the last element has been read out. -/
def execAccwbReadoutEnd (c n : Nat) (s : State) : Host.Outcome State Fault Refusal :=
  let r := (s.core c).row
  .next (s.setRow c (r.setTile n { r.tile n with reading := false }))

/-- Runs stored at an address, each part charged to lane 0's activation on its path; none where a counter is saturated. -/
def State.storeCharged (s : State) (c : Nat) (w : Warp) (cid va : Nat) (rs : List (Nat × List Byte × Bool)) : Option State :=
  rs.foldl (fun a r =>
    (lineRun ((va + r.1) % 2 ^ 56) r.2.1.length (r.2.1.length / 128 + 2) 0).foldl (fun b p =>
      b.bind (fun t => match t.charge c (w.frameOf 0) (t.pathOf c (t.asidOf w) p.2.1) with
        | none => none
        | some (t1, x) => some (t1.commitStore c w cid none (some x) p.2.1 ((r.2.1.drop p.1).take p.2.2) r.2.2))) a) (some s)

/-- The element type of ACCST's FLAGS (R250). -/
def accstType : Nat → Ty
  | 0 => .f32
  | 1 => .f16
  | 2 => .bf16
  | 3 => .e4m3
  | _ => .e5m2

/-- ACCST at commit (R250). -/
def State.accstAct (s : State) (c k : Nat) (w : Warp) (cid n addr row flags pc : Nat) : Option State :=
  let x := s.view c { w with pc := pc }
  let t := (s.core c).row.tile n
  let ty := accstType (bits flags 0 3)
  let mode := x.mode 0 (Rnd.ofCode (bits flags 3 3))
  let enc := fun col => roundF ty mode false (x.draw 0 col) false (decodeF .f32 (t.elem row col))
  let b := ty.width / 8
  let runs := cutRuns b ((List.range 64).map (fun col => (b * col, enc col, t.bad row col)))
  (s.storeCharged c w cid (addr % 2 ^ 56) runs).map (fun s1 =>
    s1.warpOffer c k ((List.range 64).map (fun col => decodeF ty (enc col))))

/-- FCHBIND at commit (R242). -/
def State.fchbindAct (s : State) (c ch : Nat) (cfg scale : Word) : State :=
  let r := (s.core c).row
  s.setRow c { r with chans := Map.putD Chan.reset r.chans ch (boundChan cfg scale) }

/-! ### ROWS (R245) -/

/-- Row i of a ROWS as memory stands: payload, scales, whether poison was read, cf8 decode errors. -/
def State.rowsRead (s : State) (c eid : Nat) (e : EngCmd) (ch : Chan) (i : Nat) : ReadNow × List Byte × Nat :=
  let addr := e.pair 0 % 2 ^ 56
  let aux := e.pair 6 % 2 ^ 56
  if Ty.isCf8 ch.ty then
    match s.engRead c eid (8 * i) e ((aux + 4 * (e.word 5 + 2 * i)) % 2 ^ 56) 12 with
    | .busy s1 => (.busy s1, [], 0)
    | .fault s1 code va => (.fault s1 code va, [], 0)
    | .data s1 tab bad =>
      let x := s1.keepPart c eid (8 * i) e tab bad
      let e := x.2
      let blocks := cf8Lengths (cf8Table tab)
      let first := (addr + (blocks.headD (0, 0)).1) % 2 ^ 56
      let r := readBlocks (fun (t : State) (va n : Nat) => t.engRead c eid (8 * i + 1 + b2n (va != first)) e va n) addr blocks x.1
      (match r.1 with
        | .data s2 _ bad2 => (.data s2 (r.2.1.map (fun x => BitVec.ofNat 8 x)) (bad ++ bad2), [], r.2.2)
        | .busy s2 => (.busy s2, [], 0)
        | .fault s2 code va => (.fault s2 code va, [], 0))
  else
    match s.engRead c eid (8 * i) e (wrapTo 56 ((addr : Int) + (i : Int) * toSigned 32 (e.word 3))) (Ty.rowBytes ch.ty) with
    | .busy s1 => (.busy s1, [], 0)
    | .fault s1 code va => (.fault s1 code va, [], 0)
    | .data s1 data bad =>
      if !ch.bscaled then (.data s1 data bad, [], 0)
      else
        let n := Ty.rowK ch.ty / 32
        let x := s1.keepPart c eid (8 * i) e data bad
        match x.1.engRead c eid (8 * i + 1) x.2 ((aux + i * n) % 2 ^ 56) n with
        | .busy s2 => (.busy s2, [], 0)
        | .fault s2 code va => (.fault s2 code va, [], 0)
        | .data s2 sc bad2 => (.data s2 data (bad ++ bad2), sc, 0)

/-- How many packets a ROWS sends: its rows, and the end packet (R245). -/
def EngCmd.rowsTotal (e : EngCmd) : Nat := e.total + b2n (bitOf e.flags 1)

/-- A ROWS has sent its packets up to its next; with the last its charge is released and it leaves. -/
def State.rowsAdvance (s : State) (c eid : Nat) (e : EngCmd) : State :=
  if e.rowsTotal ≤ e.next then (s.dropEngine c eid).later (some e.charge) else s.setEngine c eid e

/-- ROWS_ROW_SEND (R245): the next row, or the end packet, goes to every valid target once each has credits and the core's queue room
(R262). -/
def execRowsRowSend (c eid : Nat) (s : State) : Host.Outcome State Fault Refusal :=
  match Map.find? (s.core c).engines eid with
  | none => .next s
  | some e =>
    match e.kind, e.state with
    | .rows, .running =>
      let ch := (s.core c).row.chan e.chan
      let six := Ty.isSix ch.ty
      let ts := validTargets e.targets
      let isEnd := decide (e.total ≤ e.next)
      let two := six && !isEnd
      let hdr := e.word 4
      let i := e.next
      let bySeq := bitOf e.flags 0
      let arow := if bySeq then bits hdr 0 5 else (bits hdr 0 5 + i) % 32
      let seq := if bySeq then (bits hdr 16 16 + i) % 65536 else bits hdr 16 16
      let send := fun (a : State) (payload scales : List Byte) (stop : Nat) (bad : Bool) =>
        match takeCredits (if two then 2 else 1) ts (a.core c) with
        | none => a
        | some q =>
          let s1 := a.setCore c q
          let s2 := s1.sendRows c (rowPackets c e.tile e.chan e.graph ts arow seq stop bad scales payload two)
          s2.rowsAdvance c eid { (s2.readsDone c eid [8 * i, 8 * i + 1, 8 * i + 2] e) with next := i + 1 }
      if !s.rowRoom c ts.length then .next s
      else if isEnd then .next (send s (List.replicate 64 0) [] 7 false)
      else if (takeCredits (if two then 2 else 1) ts (s.core c)).isNone then .next s
      else
        let r := s.rowsRead c eid e ch i
        (match r.1 with
          | .busy s1 => .next s1
          | .fault _ _ _ => .next s
          | .data s1 data bad => .next (send (s1.count c 0x041 3 r.2.2) data r.2.1 (bits hdr 5 3) (!bad.isEmpty)))
    | _, _ => .next s

end Sys2Proof.Machine
end

