-- ==== Sys2Proof/Machine/Sparse.lean ====
section
/-! DEFINITION. The sparse units: fibre streams, intersect units, sparse accumulators and scan units (R251 to R258). -/
namespace Sys2Proof.Machine

def State.setUnit (s : State) (c n : Nat) (u : IsUnit) : State :=
  let r := (s.core c).row
  s.setRow c { r with units := Map.put r.units n u }

def RowEngine.unit (r : RowEngine) (n : Nat) : IsUnit := Map.getD r.units n IsUnit.reset
def RowEngine.sacc (r : RowEngine) (n : Nat) : Sacc := Map.getD r.saccs n Sacc.reset

def State.setSacc (s : State) (c n : Nat) (x : Sacc) : State :=
  let r := (s.core c).row
  s.setRow c { r with saccs := Map.put r.saccs n x }

/-! ### Inserts (R251, R255) -/

/-- One insert performs: outside the accumulator's range it is discarded and counted (R251). -/
def State.insert (s : State) (c : Nat) (x : Insert) : State :=
  let a := (s.core c).row.sacc x.acc
  if x.fibPoison then s.setSacc c x.acc { a with fibPoison := true }
  else if x.coord < a.base || a.base + 4095 < x.coord then s.count c 0x041 5 1
  else
    let i := x.coord - a.base
    let v := match Map.find? a.ents i with
      | none => roundF .f32 .rne false 0 false x.val
      | some old => roundF .f32 .rne false 0 false (Val.sum false [decodeF .f32 old.toNat, x.val])
    s.setSacc c x.acc { a with ents := Map.put a.ents i (BitVec.ofNat 32 v), poison := if x.poison then insSet a.poison i else a.poison }

/-- SACCI at commit (R255): one insert per lane, in lane order. -/
def State.sacciAct (s : State) (c acc : Nat) (pairs : List (Word × Word)) : State :=
  pairs.foldl (fun a p => a.insert c ⟨acc, p.1.toNat, decodeF .f32 p.2.toNat, false, false⟩) s

/-- SPARSE_INSERT (R251): an insert that no earlier one to its accumulator precedes performs; notify tokens that
waited only for it leave (R254). -/
def execSparseInsert (c k : Nat) (s : State) : Host.Outcome State Fault Refusal :=
  let r := (s.core c).row
  match r.inserts[k]? with
  | none => .next s
  | some x =>
    if (r.inserts.take k).any (fun y => y.acc == x.acc) then .next s
    else
      let ns := r.notifies.map (fun n => if k < n.after then { n with after := n.after - 1 } else n)
      let s1 := s.setRow c { r with inserts := dropNth r.inserts k, notifies := ns.filter (fun n => n.after != 0) }
      .next ((ns.filter (fun n => n.after == 0)).foldl (fun a n => a.sendToken c n.token) (s1.insert c x))

/-! ### Configuration and flush (R252, R256) -/

/-- ISCFG at commit (R252): the unit is reset; the ISX operations that fed its queues end, and the new settings hold. One of which no
entry is queued goes on and feeds the unit that was reset (DEDUCED, assumption 42). -/
def State.iscfgAct (s : State) (c : Nat) (w : Warp) (n cfg reply : Nat) : State :=
  let u := (s.core c).row.unit n
  let fed := uniSet [] ((u.a.queue ++ u.b.queue).map (fun e => e.eid))
  let s1 := fed.foldl (fun a eid => match Map.find? (a.core c).engines eid with
    | none => a
    | some e => a.discardEngine c eid e) s
  s1.setUnit c n { IsUnit.reset with
    scale := bitOf cfg 0, acc := bits cfg 2 2, notify := bits cfg 4 3, o := bits cfg 16 16
    reply := some ⟨fpOf c (w.frameOf 0), bits reply 8 12, reply % 256, w.iterAt 0, s.identOf w, .auto⟩ }

/-- The scope of a two-bit field. -/
def scopeOf (n : Nat) : Scope :=
  match n with
  | 1 => .core
  | 2 => .die
  | 3 => .package
  | _ => .auto

/-- A stop word (R251). -/
def stopWord (level : Nat) : Nat := 2 ^ 31 + level

/-- SACCF at commit (R256): the occupied entries are written in order, the accumulator is emptied, and the reply
follows the writes; none where counter E is saturated. -/
def State.saccfAct (s : State) (c : Nat) (w : Warp) (cid acc caddr vaddr ctl flags : Nat) : Option State :=
  match s.charge c (w.frameOf 0) .e with
  | none => none
  | some (s1, x) =>
    let a := (s1.core c).row.sacc acc
    let ty : Ty := match bits flags 0 2 with
      | 1 => .f16
      | 2 => .bf16
      | _ => .f32
    let vb := ty.width / 8
    let n := a.ents.length
    let level := bits flags 2 3
    let coords := (a.ents.zipIdx).map (fun p => (4 * p.2, a.base + p.1.1, false))
    let stop := if level = 0 then [] else [(4 * n, stopWord level, a.fibPoison)]
    let vals := (a.ents.zipIdx).map (fun p =>
      (vb * p.2, roundF ty .rne false 0 false (decodeF .f32 p.1.2.toNat), a.poison.contains p.1.1))
    let cr := cutRuns 4 (coords ++ stop)
    let vr := cutRuns vb vals
    let ca := caddr % 2 ^ 56
    let va := vaddr % 2 ^ 56
    let rel := scopeOf (bits flags 6 2)
    let t : Token := { plainToken (fpOf c (w.frameOf 0)) (bits ctl 8 12) (ctl % 256) (w.iterAt 0) (s.identOf w) n with
      poison := a.fibPoison, rel := rel, relWord := if Scope.isAuto rel then RelWord.none else RelWord.every }
    let s2 := s1.setSacc c acc { Sacc.reset with base := bits ctl 20 12 * 4096 }
    let b := s2.next
    let s3 := ({ s2 with next := b + 1 } : State)
    let s4 := { s3 with batches := Map.put s3.batches b ⟨runParts ca cr + runParts va vr + 1, some t, some cid, c, [x]⟩ }
    some (((s4.storeRuns c w cid (some b) ca cr).storeRuns c w cid (some b) va vr).batchStep (some b))

/-! ### ISX feeds (R253) -/

/-- The queue of a unit's side: side 1 is b. -/
def IsUnit.side (u : IsUnit) (b : Bool) : FibSide := if b then u.b else u.a
def IsUnit.setSide (u : IsUnit) (b : Bool) (x : FibSide) : IsUnit := if b then { u with b := x } else { u with a := x }

/-- The side that an ISX feeds, and its value type. -/
def EngCmd.isxSide (e : EngCmd) : Bool := bitOf (e.word 5) 0
def EngCmd.isxType (e : EngCmd) : Ty :=
  match bits (e.word 5) 1 2 with
  | 1 => .f16
  | 2 => .bf16
  | _ => .f32

/-- Whether an earlier ISX still feeds the same side (R253). -/
def Core.isxBefore (k : Core) (eid : Nat) (e : EngCmd) : Bool :=
  k.engines.any (fun p => decide (p.1 < eid) && decide (p.2.kind = .isx) && p.2.unit == e.unit
    && EngCmd.isxSide p.2 == EngCmd.isxSide e && decide (p.2.next < p.2.total))

/-- One entry read into its side's queue (R253, R258). -/
def State.isxFeed (s : State) (c eid : Nat) (e : EngCmd) : State :=
  let u := (s.core c).row.unit e.unit
  let b := EngCmd.isxSide e
  if e.total ≤ e.next || 64 ≤ (u.side b).queue.length || (s.core c).isxBefore eid e then s
  else
    let ty := EngCmd.isxType e
    let vb := ty.width / 8
    let i := e.next
    match s.engRead c eid (8 * i) e ((e.pair 0 + 4 * i) % 2 ^ 56) 4 with
    | .busy s1 => s1
    | .fault _ _ _ => s
    | .data s1 cb cbad =>
      let coord := ofBytes cb
      let stop := bitOf coord 31 && cbad.isEmpty
      let put := fun (t : State) (v : Nat) (vbad : Bool) =>
        let x := (t.core c).row.unit e.unit
        let f : FibEntry := ⟨if stop then some (bits coord 0 3) else none, bits coord 0 31, decodeF ty v, !cbad.isEmpty, vbad, eid, i + 1 == e.total⟩
        let sd := x.side b
        (t.setUnit c e.unit (x.setSide b { sd with queue := sd.queue ++ [f] })).setEngine c eid
          { (t.readsDone c eid [8 * i, 8 * i + 1] e) with next := i + 1 }
      if stop then put s1 0 false
      else let x := s1.keepPart c eid (8 * i) e cb cbad
        match x.1.engRead c eid (8 * i + 1) x.2 ((e.pair 2 + vb * i) % 2 ^ 56) vb with
        | .busy s2 => s2
        | .fault _ _ _ => s1
        | .data s2 v bad => put s2 (ofBytes v) (!bad.isEmpty)

/-! ### Intersect units (R254, R258) -/

/-- The head of a side leaves; with an operation's last entry its charge is released (R253). -/
def State.popSide (s : State) (c n : Nat) (b : Bool) (f : FibSide → FibSide) : State :=
  let u := (s.core c).row.unit n
  let x := u.side b
  match x.queue with
  | [] => s
  | h :: t =>
    let s1 := s.setUnit c n (u.setSide b (f { x with queue := t }))
    if !h.last then s1
    else match Map.find? (s1.core c).engines h.eid with
      | none => s1
      | some e => (s1.dropEngine c h.eid).later (some e.charge)

/-- What the head of a side is, once its checks are made. -/
inductive Head where
  | none
  | skip (count : Bool)
  | poisoned
  | stop (level : Nat)
  | data (e : FibEntry)

/-- The head of a side (R251, R254, R258): a poisoned coordinate starts a skip, in which only the next stop counts; a
level-0 stop and a coordinate that does not rise are skipped and counted. The predecessor of a data word is the last one of its fibre that
was not skipped (DESIGN CHOICE, assumption 117). -/
def FibSide.look (x : FibSide) : Head :=
  match x.queue with
  | [] => .none
  | e :: _ =>
    if e.poisonC then (if x.skipping then .skip false else .poisoned)
    else match e.stop with
      | some 0 => .skip true
      | some l => .stop l
      | none =>
        if x.skipping then .skip false
        else match x.prev with
          | some p => if e.coord ≤ p then .skip true else .data e
          | none => .data e

/-- A side's head leaves as a datum, as a stop, or skipped. -/
def FibSide.passData (coord : Nat) (x : FibSide) : FibSide := { x with prev := some coord }
def FibSide.passStop (x : FibSide) : FibSide := { x with prev := none, skipping := false }

/-- An insert joins those on their way to the accumulators. -/
def State.queueInsert (s : State) (c : Nat) (x : Insert) : State :=
  let r := (s.core c).row
  s.setRow c { r with inserts := r.inserts ++ [x] }

/-- notify of R254: the token waits for the inserts before it. -/
def State.notify (s : State) (c n level : Nat) : State :=
  let r := (s.core c).row
  let u := r.unit n
  if u.notify = 0 || level < u.notify then s
  else
    let s1 := s.setUnit c n { u with popped := 0, fibPoison := false }
    match u.reply with
    | none => s1
    | some p =>
      let t := { p.token (level + 2 ^ 32 * (u.popped % 2 ^ 32)) with poison := u.fibPoison }
      if r.inserts.isEmpty then s1.sendToken c t
      else
        let r1 := (s1.core c).row
        s1.setRow c { r1 with notifies := r1.notifies ++ [⟨r1.inserts.length, t⟩] }

/-- A skip begins on a side: the accumulator's flag is set, and the next notify carries poison (R258). -/
def State.startSkip (s : State) (c n : Nat) (b : Bool) : State :=
  let u := (s.core c).row.unit n
  let s1 := s.popSide c n b (fun x => { x with skipping := true })
  let u1 := (s1.core c).row.unit n
  (s1.setUnit c n { u1 with fibPoison := true }).queueInsert c ⟨u.acc, 0, .zero false, false, true⟩

/-- A head is passed over, counted as a fibre error where it is one, and not counted for the next notify (R254; DEDUCED, assumption
44). -/
def State.passOver (s : State) (c n : Nat) (b count : Bool) : State :=
  let s1 := s.popSide c n b (fun x => x)
  if count then s1.count c 0x041 4 1 else s1

/-- One data entry popped from side a is counted for the next notify. -/
def State.countPop (s : State) (c n : Nat) (b : Bool) : State :=
  let u := (s.core c).row.unit n
  if b then s else s.setUnit c n { u with popped := u.popped + 1 }

/-- A datum leaves a side. -/
def State.popData (s : State) (c n : Nat) (b : Bool) (e : FibEntry) : State := (s.popSide c n b (FibSide.passData e.coord)).countPop c n b

/-- Both fibres close in intersect mode: the sum is inserted, unless a side was skipped (R254, R258). -/
def State.closeBoth (s : State) (c n la lb : Nat) : State :=
  let u := (s.core c).row.unit n
  let skipped := u.a.skipping || u.b.skipping
  let s1 := if u.matched && !skipped then s.queueInsert c ⟨u.acc, u.o, decodeF .f32 (roundF .f32 .rne false 0 false u.sum), u.sumPoison, false⟩ else s
  let s2 := (s1.popSide c n false FibSide.passStop).popSide c n true FibSide.passStop
  let u2 := (s2.core c).row.unit n
  (s2.setUnit c n { u2 with o := u.o + 1, sum := .zero false, matched := false, sumPoison := false }).notify c n (max la lb)

/-- One pop of a unit in intersect mode (R254). -/
def State.intersectMode (s : State) (c n : Nat) : State :=
  let u := (s.core c).row.unit n
  match u.a.look, u.b.look with
  | .poisoned, _ => s.startSkip c n false
  | _, .poisoned => s.startSkip c n true
  | .skip k, _ => s.passOver c n false k
  | _, .skip k => s.passOver c n true k
  | .stop la, .stop lb => s.closeBoth c n la lb
  | .stop _, .data e => s.popData c n true e
  | .data e, .stop _ => s.popData c n false e
  | .data x, .data y =>
    if x.coord < y.coord then s.popData c n false x
    else if y.coord < x.coord then s.popData c n true y
    else
      let sum := Val.sum false [u.sum, Val.mul x.val y.val]
      let s1 := s.setUnit c n { u with sum := sum, matched := true, sumPoison := u.sumPoison || x.poisonV || y.poisonV }
      (s1.popData c n false x).popData c n true y
  | .none, _ => s
  | _, .none => s

/-- One pop of a unit in scale mode (R254). -/
def State.scaleMode (s : State) (c n : Nat) : State :=
  let u := (s.core c).row.unit n
  match u.a.look with
  | .none => s
  | .poisoned => s.startSkip c n false
  | .skip k => s.passOver c n false k
  | .stop l => (s.popSide c n false FibSide.passStop).notify c n l
  | .data x =>
    match u.b.look with
    | .none => s
    | .poisoned => s.startSkip c n true
    | .skip k => s.passOver c n true k
    | .stop _ => (s.popSide c n true FibSide.passStop).popData c n false x
    | .data y => (s.queueInsert c ⟨u.acc, y.coord, Val.mul x.val y.val, x.poisonV || y.poisonV, false⟩).popData c n true y

/-- INTERSECT_STEP (R254): a unit consumes from the heads of its queues. -/
def execIntersectStep (c n : Nat) (s : State) : Host.Outcome State Fault Refusal :=
  .next (if ((s.core c).row.unit n).scale then s.scaleMode c n else s.intersectMode c n)

/-! ### NZSCAN (R257, R258) -/

/-- The source type of an NZSCAN. -/
def EngCmd.nzType (e : EngCmd) : Ty := (decTy (bits (e.word 3) 0 5)).getD .f32

/-- Whether an element is live: it is not a zero of its type (R257). -/
def isLive (t : Ty) (x : Nat) : Bool := if t.isInt then x % 2 ^ t.width != 0 else !(decodeF t x).isZero

/-- A write of an engine's element, its part numbered i: its parts go toward their homes, each ending a place of the element. -/
def State.elemStore (s : State) (c eid i : Nat) (e : EngCmd) (va : Nat) (data : List Byte) (bad : Bool) (cid : Option Nat) : State :=
  (lineRun va data.length (data.length / 128 + 2) 0).foldl (fun a p =>
    a.addReq
      { Req.bare c e.graph e.asid e.ident p.2.1 p.2.2 (.store ((data.drop p.1).take p.2.2) bad) a.now with
        cid := cid, lsid := 32, elem := some (c, eid, i, 0) }) s

/-- A part of an element that lies in one line goes toward its home as one write, with the offsets of its poisoned bytes (R298). -/
def State.elemPart (s : State) (c eid i : Nat) (e : EngCmd) (va : Nat) (data : List Byte) (poison : List Nat) : State :=
  s.addReq { Req.bare c e.graph e.asid e.ident va data.length (.store data false) s.now with
    bads := poison, lsid := 32, elem := some (c, eid, i, 0) }

/-- How many parts a write makes. -/
def partsOf (va n : Nat) : Nat := (lineRun va n (n / 128 + 2) 0).length

/-- The scan is over: the stop word, if one is asked, then the reply once every write has performed (R257). -/
def State.nzEnd (s : State) (c eid : Nat) (e : EngCmd) (poison : Bool) : State :=
  let level := bits e.ctl.toNat 20 3
  let va := (e.pair 4 + 4 * e.lo) % 2 ^ 56
  let e1 := { e with state := EngState.closing, poison := poison }
  if level = 0 then s.setEngine c eid e1
  else
    let n := 8 * e.total + 7
    ((s.setEngine c eid { e1 with parts := Map.put e1.parts n ⟨[], [], true, partsOf va 4⟩ }).elemStore c eid n e1 va
      (toBytes 4 (stopWord level)) poison e.cid)

/-- One element of a scan (R257): a live one writes its coordinate word and its value; `lo` counts those written. -/
def State.nzStep (s : State) (c eid : Nat) (e : EngCmd) : State :=
  let t := EngCmd.nzType e
  let vb := t.width / 8
  let i := e.next
  if e.total ≤ i then s.nzEnd c eid e false
  else match s.engRead c eid (8 * i) e ((e.pair 0 + vb * i) % 2 ^ 56) vb with
    | .busy s1 => s1
    | .fault _ _ _ => s
    | .data s1 bytes bad =>
      let e1 := s1.readsDone c eid [8 * i] e
      if !bad.isEmpty then s1.nzEnd c eid e1 true
      else if !isLive t (ofBytes bytes) then s1.setEngine c eid { e1 with next := i + 1 }
      else
        let ca := (e.pair 4 + 4 * e.lo) % 2 ^ 56
        let va := (e.pair 6 + vb * e.lo) % 2 ^ 56
        let vals := e.pair 6 ≠ 0
        let left := partsOf ca 4 + (if vals then partsOf va vb else 0)
        let s2 := (s1.setEngine c eid { e1 with next := i + 1, lo := e.lo + 1, parts := Map.put e1.parts (8 * i + 7) ⟨[], [], true, left⟩ }).elemStore
          c eid (8 * i + 7) e1 ca (toBytes 4 i) false e.cid
        if vals then s2.elemStore c eid (8 * i + 7) e1 va bytes false e.cid else s2

/-- The reply of a scan whose writes have all performed (R257). -/
def State.nzReply (s : State) (c eid : Nat) (e : EngCmd) : State :=
  if !e.parts.isEmpty then s
  else
    let t : Token := { plainToken e.fp e.rblock e.rslot e.iter e.ident e.lo with
      poison := e.poison, rel := e.rscope, relWord := if Scope.isAuto e.rscope then RelWord.none else RelWord.every, charges := [] }
    ((s.dropEngine c eid).sendHeld c e.cid t).later (some e.charge)

end Sys2Proof.Machine
end

