-- ==== Sys2Proof/Machine/Engines.lean ====
section
/-! DEFINITION. Row 0xA_ but the exchange: copies, operand buffers, gathers, scatters and streams (R137, R271 to R276,
R293 to R300). -/
namespace Sys2Proof.Machine

/-! ### Issue (R293, R294, R295) -/

/-- An engine command at issue: an entry and the charge, then the checks; the command joins the acts of commit. -/
def engineForm (s : State) (a : FmtG) (kind : EngKind) (check : Nat → Warp → List Word → Option Nat)
    (more : Warp → List Word → EngCmd → EngCmd) : Host.Outcome State Fault Refusal :=
  withWarp s (fun c k w =>
    let d := w.descriptor a.desc
    match s.reserveEngine c w a.path with
    | none => .next (s.stalledOn c k w (s.engineFull c))
    | some (s1, x) =>
      let w1 := { w with taken := w.taken ++ [Taken.engine x] }
      match check c w d with
      | some code => .next (s1.takeWarpFault c k w1 code 0)
      | none =>
        let e := { s.blankCmd w kind x d with
          flags := a.flags, subop := a.subop, rblock := a.rblock, rslot := a.rslot, rscope := a.rscope, rcomb := a.rcomb }
        .next (s1.issued c k (w1.act (.engine (more w d e)))))

/-- Word i of a descriptor as a number, and a pair of words. -/
def dword (d : List Word) (i : Nat) : Nat := (nthD 0 d i).toNat
def dpair (d : List Word) (i : Nat) : Nat := dword d i + 2 ^ 32 * dword d (i + 1)

/-- Whether a range lies wholly in windows of a graph on a core (R295). -/
def inWindows (k : Core) (g asid : Nat) : Nat → Nat → Nat → Bool
  | 0, _, _ => false
  | f + 1, va, n =>
    if n = 0 then true
    else match k.windowOf g asid va with
      | none => false
      | some (_, w) =>
        let room := w.vbase + 128 * w.lines - va
        if n ≤ room then true else inWindows k g asid f (va + room) (n - room)

/-- The check of a destination (R295): bytes at an address, in windows, or whole 4-byte elements to slots. -/
def State.badDest (s : State) (c : Nat) (w : Warp) (dest : Nat) (pair n : Nat) : Option Nat :=
  match dest with
  | 1 => if inWindows (s.core c) w.graph (s.asidOf w) 17 (pair % 2 ^ 56) n then none else some 0x02
  | 2 =>
    let nb := match s.graph? w.graph with | some g => g.blocks.length | none => 0
    if badFp (pair % 2 ^ 32) then some 0x05
    else if bits pair 62 2 != 0 || n % 4 != 0 || decide (256 < bits pair 32 8 + n / 4) || decide (nb ≤ bits pair 50 12) then some 0x02
    else none
  | _ => none

/-- The check of a source that may be an operand buffer (R294): offset and bytes. -/
def Core.badBuffer (k : Core) (flags : Nat) (lo hi : Int) : Bool :=
  bitOf flags 11 && (match Map.find? k.opbufs (bits flags 12 4) with
    | none => true
    | some b => !b.filled || decide (lo < 0) || decide ((b.len : Int) < hi))

/-- The first failing of two checks. -/
def orElseCheck (a b : Option Nat) : Option Nat := match a with | some x => some x | none => b

def failIf (b : Bool) : Option Nat := if b then some 0x02 else none

/-- CPY (R296). -/
def execCpy (a : FmtG) (s : State) : Host.Outcome State Fault Refusal :=
  engineForm s a .cpy (fun c w d =>
      orElseCheck (failIf (dword d 5 != 0 || dword d 6 != 0 || dword d 7 != 0
        || (s.core c).badBuffer a.flags (dpair d 0 : Int) ((dpair d 0 + dword d 4 : Nat) : Int)))
      (s.badDest c w (a.flags % 4) (dpair d 2) (dword d 4)))
    (fun _ d e => { e with total := if a.flags % 4 = 2 then dword d 4 / 4 else ceilDiv (dword d 4) 128 })

/-- The lowest offset and the end of the rows of a CPY2D's source, from its first address and stride. -/
def rowSpan (base : Int) (stride : Int) (rows bpr : Nat) : Int × Int :=
  if rows = 0 then (base, base)
  else
    let far := base + ((rows - 1 : Nat) : Int) * stride
    (if far < base then far else base, (if base < far then far else base) + bpr)

/-- CPY2D (R296): a stash destination holds every row. -/
def execCpy2d (a : FmtG) (s : State) : Host.Outcome State Fault Refusal :=
  engineForm s a .cpy2d (fun c w d =>
      let bpr := dword d 4 % 2 ^ 24
      let rows := dword d 5 % 2 ^ 24
      let span := rowSpan (dpair d 0 : Int) (toSigned 32 (dword d 6)) rows bpr
      let stash := a.flags % 4 == 1 && !((List.range rows).all (fun r => inWindows (s.core c) w.graph (s.asidOf w) 17
        (wrapTo 56 ((dpair d 2 : Int) + (r : Int) * toSigned 32 (dword d 7))) bpr))
      failIf (bits (dword d 4) 24 8 != 0 || bits (dword d 5) 24 8 != 0 || (s.core c).badBuffer a.flags span.1 span.2 || stash))
    (fun _ d e => { e with total := dword d 5 % 2 ^ 24 * ceilDiv (dword d 4 % 2 ^ 24) 128 })

/-- CPYB's checks (R297). -/
def State.badCpyb (s : State) (c : Nat) (d : List Word) : Bool :=
  let k := s.core c
  let buf := dword d 2
  let first := dword d 3
  let lines := dword d 4
  decide (15 < buf) || decide (17407 < first) || lines == 0 || decide (17408 < lines) || decide (lines * 128 < dword d 5)
    || dword d 6 != 0 || dword d 7 != 0 || decide (k.stashLines < first + lines)
    || k.windows.any (fun p => p.2.lines != 0 && decide (first < p.2.sofs + p.2.lines) && decide (p.2.sofs < first + lines))
    || k.opbufs.any (fun p => p.1 != buf && decide (first < p.2.first + p.2.lines) && decide (p.2.first < first + lines))

/-- CPYB (R297). -/
def execCpyb (a : FmtG) (s : State) : Host.Outcome State Fault Refusal :=
  engineForm s a .cpyb (fun c _ d => failIf (s.badCpyb c d)) (fun _ d e => { e with total := ceilDiv (dword d 5) 128 })

/-- What GATH and SCAT ask of their last two words and of the index array's home (R298). -/
def State.badIndexed (s : State) (c : Nat) (w : Warp) (d : List Word) : Bool :=
  let z := bits (dword d 7) 0 3
  decide (z < 2) || bits (dword d 7) 4 28 != 0
    || (s.homeOf (dieOf c) (s.asidOf w) (dpair d 0 % 2 ^ 56)).1 != s.chipId

/-- Element size of GATH and SCAT. -/
def elemSize (d : List Word) : Nat := 2 ^ bits (dword d 7) 0 3

/-- GATH (R298). -/
def execGath (a : FmtG) (s : State) : Host.Outcome State Fault Refusal :=
  engineForm s a .gath (fun c w d =>
      orElseCheck (failIf (s.badIndexed c w d || (a.flags % 4 == 2 && elemSize d != 4)))
        (s.badDest c w (a.flags % 4) (dpair d 4) (dword d 6 * elemSize d)))
    (fun _ d e => { e with total := dword d 6 })

/-- SCAT (R298). -/
def execScat (a : FmtG) (s : State) : Host.Outcome State Fault Refusal :=
  engineForm s a .scat (fun c w d =>
      failIf (s.badIndexed c w d || (s.core c).badBuffer a.flags (dpair d 2 : Int) ((dpair d 2 + dword d 6 * elemSize d : Nat) : Int)))
    (fun _ d e => { e with total := dword d 6 })

/-! ### Streams at issue (R299, R300) -/

/-- The count of a stream dimension: 0 stands for 1. -/
def dimOf (n : Nat) : Nat := if n = 0 then 1 else n

/-- The four counts of a stream. -/
def streamDims (d : List Word) : List Nat :=
  [dimOf (dword d 2 % 65536), dimOf (dword d 2 / 65536), dimOf (dword d 3 % 65536), dimOf (dword d 3 / 65536)]

/-- STRM (R299). -/
def execStrm (a : FmtG) (s : State) : Host.Outcome State Fault Refusal :=
  engineForm s a .strm (fun _ _ _ => none)
    (fun _ d e => { e with total := (streamDims d).foldl (fun x y => x * y) 1, run := bitOf a.flags 4 })

/-- STRMGO (R300). -/
def execStrmgo (a : FmtG) (s : State) : Host.Outcome State Fault Refusal :=
  engineForm s a .strmgo (fun _ _ _ => none) (fun _ _ e => e)

/-- The stream engine that a command names. -/
def EngCmd.streamEngine (e : EngCmd) : Nat := e.subop % 2

/-- The stream of a graph on an engine that committed last before a command and has not closed (R300). -/
def Core.targetStream (k : Core) (g n before : Nat) : Option (Nat × EngCmd) :=
  (k.engines.filter (fun p => decide (p.1 < before) && decide (p.2.kind = .strm) && p.2.graph == g && EngCmd.streamEngine p.2 == n
    && decide (p.2.state ≠ .closing))).getLast?

/-- Element size of a stream. -/
def EngCmd.strmSize (e : EngCmd) : Nat := 2 ^ (e.flags % 8)

/-- STRMX (R300): the values of its lanes are read at issue. -/
def execStrmx (a : FmtG) (s : State) : Host.Outcome State Fault Refusal :=
  let r := a.flags % 64
  engineForm s a .strmx (fun c w _ =>
      failIf (r % 2 == 1 && (match (s.core c).targetStream w.graph (a.subop % 2) (s.core c).nextEng with
        | some (_, t) => EngCmd.strmSize t == 8
        | none => false)))
    (fun w _ e => { e with values := w.lanes.map (fun l =>
      BitVec.ofNat 64 (w.reg l r + (if r % 2 = 0 then 2 ^ 32 * w.reg l (r + 1) else 0))) })

/-! ### The command queue (R271, R272) -/

/-- The operand buffer that a command reads, if any (R294). -/
def EngCmd.reads (e : EngCmd) (buf : Nat) : Bool :=
  match e.kind with
  | .cpy | .cpy2d | .scat => bitOf e.flags 11 && bits e.flags 12 4 == buf
  | _ => false

def EngCmd.fills (e : EngCmd) (buf : Nat) : Bool := decide (e.kind = .cpyb) && e.word 2 == buf

/-- Whether a command has read its last source byte (R294). -/
def EngCmd.consumed (e : EngCmd) : Bool :=
  decide (e.state ≠ .queued) && decide (e.total ≤ e.doneE.length + (e.parts.filter (fun p => p.1 % 8 == 7)).length)

/-- The commands that a new one must wait for on account of an operand buffer (R272). -/
def Core.bufferWaits (k : Core) (e : EngCmd) : List Nat :=
  (List.range 16).flatMap (fun b =>
    if EngCmd.fills e b then (k.engines.filter (fun p => (EngCmd.reads p.2 b && !EngCmd.consumed p.2) || EngCmd.fills p.2 b)).map (fun p => p.1)
    else if EngCmd.reads e b then (k.engines.filter (fun p => EngCmd.fills p.2 b)).map (fun p => p.1)
    else [])

/-- A command enters the engine queue at commit (R271, R293). -/
def State.enterEngine (s : State) (c : Nat) (e : EngCmd) (cid : Nat) : State :=
  let k := s.core c
  let waits := k.bufferWaits e
  s.setCore c { k with
    engResv := k.engResv - 1, nextEng := k.nextEng + 1
    engines := Map.put k.engines k.nextEng { e with
      cid := some cid, waitFor := waits, run := if e.kind = .cpyb then waits.isEmpty else e.run } }

/-- Whether what a command waits for has been consumed. -/
def Core.waitsOver (k : Core) (e : EngCmd) : Bool :=
  e.waitFor.all (fun n => match Map.find? k.engines n with
    | none => true
    | some x => decide (x.kind ≠ .cpyb) && EngCmd.consumed x)

/-- Whether a queued command may start now: its buffers, its stream engine or its scan unit are free (R257, R271, R272). -/
def Core.startable (k : Core) (e : EngCmd) : Bool :=
  match e.kind with
  | .strm => !(k.engines.any (fun p => decide (p.2.kind = .strm) && decide (p.2.state ≠ .queued) && EngCmd.streamEngine p.2 == EngCmd.streamEngine e))
  | .nzscan => !(k.engines.any (fun p => decide (p.2.kind = .nzscan) && decide (p.2.state ≠ .queued) && p.2.unit == e.unit))
  | .strmgo | .strmx => false
  | .cpyb => e.run
  | .cpy | .cpy2d | .gath | .scat | .dpost | .dxch | .dxq | .rows | .isx => k.waitsOver e

/-- OPERANDS_CONSUMED (R272): the operations that named a buffer before its oldest waiting refill have consumed it, and
the refill may write. -/
def execOperandsConsumed (c buf : Nat) (s : State) : Host.Outcome State Fault Refusal :=
  let k := s.core c
  match List.find? (fun p => EngCmd.fills p.2 buf && decide (p.2.state = .queued) && !p.2.run) k.engines with
  | none => .next s
  | some (eid, e) => .next (if k.waitsOver e then s.setEngine c eid { e with run := true } else s)

/-- The base die whose indirect-stream engine runs a gather or scatter (R298). -/
def State.streamDie (s : State) (c : Nat) (e : EngCmd) : Nat := 8 + (s.homeOf (dieOf c) e.asid (e.pair 0 % 2 ^ 56)).2

/-- ENGINE_COMMAND_START (R271, R273, R297): the first command of the queue that may start does. -/
def execEngineCommandStart (c eid : Nat) (s : State) : Host.Outcome State Fault Refusal :=
  let k := s.core c
  match Map.find? k.engines eid with
  | none => .next s
  | some e =>
    if decide (e.state ≠ .queued) || !k.startable e
        || k.engines.any (fun p => decide (p.1 < eid) && decide (p.2.state = .queued) && k.startable p.2) then .next s
    else
      let s1 := s.setEngine c eid { e with state := .running, run := if e.kind = .strm then e.run else true }
      match e.kind with
      | .gath | .scat =>
        let d := s.streamDie c e
        .next (s1.setDie d { s1.die d with streams := (s1.die d).streams ++ [(c, eid)] })
      | .cpyb =>
        let k1 := s1.core c
        let old := Map.getD k1.opbufs (e.word 2) ⟨0, 0, 0, [], [], false, none, []⟩
        .next (s1.setCore c { k1 with opbufs := Map.put k1.opbufs (e.word 2) { old with first := e.word 3, lines := e.word 4, refill := some eid } })
      | .rows => .next (s1.rowsAdvance c eid { e with state := .running })
      | .isx => .next (if e.total = 0 then (s1.dropEngine c eid).later (some e.charge) else s1)
      | .cpy | .cpy2d | .strm | .strmgo | .strmx | .dpost | .dxch | .dxq | .nzscan => .next s1

/-- INDIRECT_STREAM_START (R273): the first parameter block of a base die's queue starts while 16 run at most; a stream
whose other elements are parked runs no more, but goes on once they are replayed. The queue holds the first 256 blocks; those
after them wait at the die's port, in the same order. -/
def execIndirectStreamStart (d : Nat) (s : State) : Host.Outcome State Fault Refusal :=
  let x := s.die d
  match x.streams with
  | [] => .next s
  | p :: t =>
    let live := x.streamsOn.filter (fun q => (Map.find? (s.core q.1).engines q.2).isSome)
    let busy := live.filter (fun q => match Map.find? (s.core q.1).engines q.2 with
      | none => false
      | some e => e.takesEntry)
    .next (if busy.length < 16 then s.setDie d { x with streams := t, streamsOn := live ++ [p] } else s)

/-- Whether a gather or scatter runs in its base die's engine. -/
def State.streaming (s : State) (c eid : Nat) (e : EngCmd) : Bool := (s.die (s.streamDie c e)).streamsOn.contains (c, eid)

/-! ### Elements (R137, R295 to R298) -/

/-- A command's element where it goes: its bytes' length, source and destination. -/
structure Elem where
  n : Nat
  src : Nat
  dst : Nat
  deriving DecidableEq, Repr

/-- Chunk i of a copy: 128 bytes of a row at most, 4 bytes to slots (R296). -/
def EngCmd.chunk (e : EngCmd) (i : Nat) : Elem :=
  match e.kind with
  | .cpy =>
    if e.flags % 4 = 2 then ⟨4, (e.pair 0 + 4 * i) % 2 ^ 64, i⟩
    else ⟨min 128 (e.word 4 - 128 * i), (e.pair 0 + 128 * i) % 2 ^ 64, (e.pair 2 + 128 * i) % 2 ^ 64⟩
  | .cpy2d =>
    let bpr := e.word 4 % 2 ^ 24
    let per := ceilDiv bpr 128
    let r := i / max per 1
    let ofs := 128 * (i % max per 1)
    ⟨min 128 (bpr - ofs), wrapTo 64 ((e.pair 0 : Int) + (r : Int) * toSigned 32 (e.word 6) + ofs),
      wrapTo 64 ((e.pair 2 : Int) + (r : Int) * toSigned 32 (e.word 7) + ofs)⟩
  | .cpyb => ⟨min 128 (e.word 5 - 128 * i), (e.pair 0 + 128 * i) % 2 ^ 64, 128 * i⟩
  | .gath | .scat | .strm | .strmgo | .strmx | .dpost | .dxch | .dxq | .rows | .isx | .nzscan => ⟨0, 0, 0⟩

/-- Bytes of an operand buffer, with the offsets of poisoned ones; beyond what was ever written they read 0. -/
def OpBuf.read (b : OpBuf) (ofs n : Nat) : List Byte × List Nat :=
  ((List.range n).map (fun i => nthD 0 b.data (ofs + i)), (List.range n).filter (fun i => b.poison.contains (ofs + i)))

/-- A buffer with word w of stash line i poisoned, where that line is one of its own (R190, R297). -/
def OpBuf.hurt (b : OpBuf) (i w : Nat) : OpBuf :=
  if i < b.first || b.first + b.lines ≤ i then b
  else { b with poison := uniSet b.poison (((List.range 8).map (fun k => 128 * (i - b.first) + 8 * (w % 16) + k)).filter (fun o => o < b.data.length)) }

/-- The source bytes of an element: an operand buffer's, or memory as it stands (R137, R294). -/
def State.elemSource (s : State) (c eid i : Nat) (e : EngCmd) (src n : Nat) : ReadNow :=
  if bitOf e.flags 11 && decide (e.kind ≠ .gath) then
    match Map.find? (s.core c).opbufs (bits e.flags 12 4) with
    | none => .data s (List.replicate n 0) []
    | some b => let r := b.read src n; .data s r.1 r.2
  else s.engRead c eid (8 * i + 1) e (src % 2 ^ 56) n

/-- An element is done. -/
def State.elemDone (s : State) (c eid i : Nat) (e : EngCmd) : State :=
  let x := s.readsDone c eid ((List.range 8).map (fun j => 8 * i + j)) e
  s.setEngine c eid { x with doneE := insSet x.doneE i }

/-- Bytes written to a stash line that is there, but for those at some offsets among them: their words become present, the line becomes
dirty (R137, R203). `elem` says that an engine's element brings them. -/
def StashLine.write (l : StashLine) (va : Nat) (data : List Byte) (poison skip : List Nat) (elem : Bool) : StashLine :=
  let ofs := va % 128
  let is := (List.range data.length).filter (fun i => !skip.contains i)
  let mask := is.foldl (fun m i => m ||| 2 ^ (ofs + i)) 0
  { l with
    data := patch l.data ofs (keepAt skip (l.data.drop ofs) data)
    poison := uniSet (l.poison.filter (fun i => !bitOf mask i)) ((poison.filter (fun i => is.contains i)).map (fun i => ofs + i))
    present := is.foldl (fun m i => m ||| 2 ^ ((ofs + i) / 8)) l.present, dirty := true, wrote := l.wrote ||| mask
    elems := if elem then l.elems ||| mask else l.elems ^^^ (l.elems &&& mask) }

/-- Bytes written to a stash line of a core; those that only the device writes stay as they are (R7, R276). -/
def State.stashWrite (s : State) (c idx va : Nat) (data : List Byte) (poison : List Nat) (elem : Bool) : State :=
  let k := s.core c
  match Map.find? k.stash idx with
  | none => s
  | some l => s.setCore c { k with stash := Map.put k.stash idx (l.write va data poison (s.deviceOfs l.asid va data.length) elem) }

/-- What stands in the way of a write to a stash line of a core. -/
inductive StashReady where
  | ready (idx : Nat)
  | memory
  | waits (s : State)
  | never

/-- A stash line made ready for an engine's write of element i, stage j (R203, R204): the line is filled as the core's own;
a destination page that faults parks a read of it. -/
def State.stashReady (s : State) (c eid i j : Nat) (e : EngCmd) (va : Nat) : StashReady :=
  match (s.core c).windowOf e.graph e.asid va with
  | none => .memory
  | some (_, w) =>
    let idx := w.index va
    let here := match Map.find? (s.core c).stash idx with
      | some l => l.asid == e.asid && l.line == lineOf va
      | none => false
    if here then .ready idx
    else if s.stashFills.any (fun p => p.1 == c && p.2.index == idx) then .waits s
    else match s.engRead c eid (8 * i + j) e va 1 with
      | .busy s1 => .waits s1
      | .fault _ _ _ => .waits s
      | .data s1 _ bad =>
        if (Map.find? e.parts (8 * i + j)).isSome && !bad.isEmpty then .never
        else .waits { s1 with stashFills := s1.stashFills ++ [(c, ⟨idx, e.asid, lineOf va, e.graph, [], none, some (eid, 8 * i + 6), s1.now⟩)] }

/-- The offsets of poisoned bytes that lie in a part of an element, counted from the part's start. -/
def poisonOf (poison : List Nat) (p : Nat × Nat × Nat) : List Nat :=
  (poison.filter (fun q => p.1 ≤ q && q < p.1 + p.2.2)).map (fun q => q - p.1)

/-- Parts of an element's write to the stash; none where it must wait, with the state in which it waits. A part that no window
maps any more is left to the element's own writes. -/
def stashParts (c eid i : Nat) (e : EngCmd) (data : List Byte) (poison : List Nat) : Nat → List (Nat × Nat × Nat) → State → State × Bool
  | _, [], s => (s, true)
  | j, p :: t, s =>
    match s.stashReady c eid i j e p.2.1 with
    | .waits s1 => (s1, false)
    | .never => stashParts c eid i e data poison (j + 1) t s
    | .memory => stashParts c eid i e data poison (j + 1) t s
    | .ready idx =>
      let r := stashParts c eid i e data poison (j + 1) t s
      if r.2 then (r.1.stashWrite c idx p.2.1 ((data.drop p.1).take p.2.2) (poisonOf poison p) true, true) else r

/-- An element's bytes in runs of poisoned and unpoisoned bytes. -/
def byteRuns (data : List Byte) (poison : List Nat) : List (Nat × List Byte × Bool) :=
  if poison.isEmpty then [(0, data, false)]
  else cutRuns 1 ((data.zipIdx).map (fun p => (p.2, p.1.toNat, poison.contains p.2)))

/-- Parts of an element go toward their homes; with the last of them performed the element is done (R137, R293). -/
def State.elemParts (s : State) (c eid i : Nat) (e : EngCmd) (data : List Byte) (poison : List Nat) (ps : List (Nat × Nat × Nat)) : State :=
  let x := s.readsDone c eid ((List.range 7).map (fun j => 8 * i + j)) e
  ps.foldl (fun a p => a.elemPart c eid (8 * i + 7) e p.2.1 ((data.drop p.1).take p.2.2) (poisonOf poison p))
    (s.setEngine c eid { x with parts := Map.put x.parts (8 * i + 7) ⟨[], [], true, ps.length⟩ })

/-- An element's bytes reach their destination (R295): memory, stash or a frame slot. Where a window has gone since the command
was checked, the bytes that it mapped go to memory (assumption 35). -/
def State.elemWrite (s : State) (c eid i : Nat) (e : EngCmd) (dest pair dst : Nat) (data : List Byte) (poison : List Nat) : State :=
  match dest with
  | 1 =>
    let ps := lineRun (dst % 2 ^ 56) data.length 3 0
    let r := stashParts c eid i e data poison 2 ps s
    let out := ps.filter (fun p => ((s.core c).windowOf e.graph e.asid p.2.1).isNone)
    if !r.2 then (r.1.keepPart c eid (8 * i + 1) (Map.getD (r.1.core c).engines eid e) data poison).1 else if out.isEmpty then r.1.elemDone c eid i e else r.1.elemParts c eid i e data poison out
  | 2 =>
    let t := { plainToken (pair % 2 ^ 32) (bits pair 50 12) (bits pair 32 8 + dst) (bits pair 40 10) e.ident (ofBytes data) with
      poison := !poison.isEmpty }
    (s.elemDone c eid i e).sendToken c t
  | _ => s.elemParts c eid i e data poison (lineRun (dst % 2 ^ 56) data.length 3 0)

/-- A chunk of CPY or CPY2D moves (R296). -/
def State.copyElem (s : State) (c eid i : Nat) (e : EngCmd) : State :=
  let x := e.chunk i
  match s.elemSource c eid i e x.src x.n with
  | .busy s1 => s1
  | .fault _ _ _ => s
  | .data s1 data bad => s1.elemWrite c eid i e (e.flags % 4) (e.pair 2) x.dst data bad

/-- A chunk of a refill enters its operand buffer (R297). -/
def State.fillElem (s : State) (c eid i : Nat) (e : EngCmd) : State :=
  let x := e.chunk i
  match s.engRead c eid (8 * i + 1) e (x.src % 2 ^ 56) x.n with
  | .busy s1 => s1
  | .fault _ _ _ => s
  | .data s1 data bad =>
    let k := s1.core c
    let b := Map.getD k.opbufs (e.word 2) ⟨0, 0, 0, [], [], false, none, []⟩
    let room := b.data ++ List.replicate (x.dst + x.n - b.data.length) 0
    let b1 := { b with data := patch room x.dst data,
                       poison := uniSet (b.poison.filter (fun q => !(x.dst ≤ q && q < x.dst + x.n))) (bad.map (fun q => x.dst + q)) }
    (s1.setCore c { k with opbufs := Map.put k.opbufs (e.word 2) b1 }).elemDone c eid i e

/-- An element of a gather or scatter, once its index is read (R298). -/
def State.indexedElem (s : State) (c eid i : Nat) (e : EngCmd) : State :=
  let iw := if bitOf (e.word 7) 3 then 8 else 4
  let n := 2 ^ bits (e.word 7) 0 3
  match s.engRead c eid (8 * i) e ((e.pair 0 + iw * i) % 2 ^ 56) iw with
  | .busy s1 => s1
  | .fault _ _ _ => s
  | .data s1 ib ibad =>
    let x := ofBytes ib % 2 ^ 56
    let kept := s1.keepPart c eid (8 * i) e ib ibad
    let s1 := kept.1
    let e := kept.2
    if e.kind = .gath then
      let put := fun (t : State) (f : EngCmd) (data : List Byte) (bad : List Nat) =>
        t.elemWrite c eid i f (e.flags % 4) (e.pair 4) (if e.flags % 4 = 2 then i else (e.pair 4 + n * i) % 2 ^ 64) data bad
      if !ibad.isEmpty then
        let f := { e with poison := true }
        put (s1.setEngine c eid f) f (List.replicate n 0) (List.range n)
      else match s1.engRead c eid (8 * i + 1) e ((e.pair 2 + x * n) % 2 ^ 56) n with
        | .busy s2 => s2
        | .fault _ _ _ => s1
        | .data s2 data bad => put s2 e data bad
    else if !ibad.isEmpty then
      let f := { e with poison := true }
      (s1.setEngine c eid f).elemDone c eid i f
    else match s1.elemSource c eid i e ((e.pair 2 + n * i) % 2 ^ 64) n with
      | .busy s2 => s2
      | .fault _ _ _ => s1
      | .data s2 data bad => s2.elemWrite c eid i e 0 0 ((e.pair 4 + x * n) % 2 ^ 64) data bad

/-! ### Completion (R137, R293) -/

/-- The completion token of a command, which ends its charge as it lands (R13, R293). -/
def EngCmd.completion (e : EngCmd) (payload : Nat) : Token :=
  { plainToken e.fp e.rblock e.rslot e.iter e.ident payload with
    comb := e.rcomb, rel := e.rscope, relWord := if Scope.isAuto e.rscope then RelWord.none else RelWord.every, poison := e.poison,
    charges := [e.charge] }

/-- The payload of a completion token (R296 to R298). -/
def EngCmd.payload (e : EngCmd) : Nat :=
  match e.kind with
  | .cpy => e.word 4
  | .cpy2d => e.word 4 % 2 ^ 24 * (e.word 5 % 2 ^ 24) % 2 ^ 32
  | .cpyb => e.word 5
  | .gath | .scat => e.word 6
  | .strm => e.next
  | .dpost | .dxch | .dxq => e.next
  | .strmgo | .strmx | .rows | .isx | .nzscan => 0

/-- A completion token leaves once the writes that its release covers have performed: beyond core scope the core's dirty stash
lines go home first, and it waits for them (R124, R137, R203). `fin` is what ends with the command. -/
def State.complete (s : State) (c eid : Nat) (t : Token) (fin : State → State) : State :=
  let go := fun (a : State) => ((fin a).dropEngine c eid).sendToken c t
  if !Scope.beyondCore t.rel then go s
  else
    let s1 := s.cleanCore c none
    if s1.writesBack c then s1 else go s1

/-! ### Streams (R275, R276, R299, R300) -/

/-- Address of element e of a stream (R299). -/
def EngCmd.strmAddr (x : EngCmd) (n : Nat) : Nat :=
  let ds := streamDims x.desc
  let go := (ds.zipIdx).foldl (fun (a : Nat × Int) p =>
    (a.1 / p.1, a.2 + ((a.1 % p.1 : Nat) : Int) * toSigned 32 (x.word (4 + p.2)))) (n, (x.pair 0 : Int))
  wrapTo 56 go.2

def EngCmd.isStoreStream (x : EngCmd) : Bool := bitOf x.flags 3

/-- The stream that runs on a stream engine. -/
def Core.runningStream (k : Core) (n : Nat) : Option (Nat × EngCmd) :=
  List.find? (fun p => decide (p.2.kind = .strm) && decide (p.2.state ≠ .queued) && EngCmd.streamEngine p.2 == n) k.engines

/-- A token of a load stream's element (R299). -/
def EngCmd.strmToken (x : EngCmd) (slot payload : Nat) (bad : Bool) : Token :=
  { plainToken x.fp x.rblock slot (x.next % 1024) x.ident payload with poison := bad }

/-- STREAM_ELEMENT (R299): the running stream of an engine moves its next element; a load whose read is under way as its
close comes is still sent (R293, R300). -/
def execStreamElement (c n : Nat) (s : State) : Host.Outcome State Fault Refusal :=
  match (s.core c).runningStream n with
  | none => .next s
  | some (eid, e) =>
    let reading := !EngCmd.isStoreStream e && (Map.find? e.parts (8 * e.next + 1)).isSome
    if decide (e.state ≠ .running) || !(e.run || (e.close && reading)) || e.total ≤ e.next then .next s
    else
      let z := EngCmd.strmSize e
      let va := EngCmd.strmAddr e e.next
      let i := e.next
      if EngCmd.isStoreStream e then
        match e.pushes with
        | [] => .next s
        | v :: t =>
          let e1 := { e with
            pushes := t, next := i + 1, wrote := true, lo := if e.wrote then min e.lo va else va
            hi := if e.wrote then max e.hi (va + z - 1) else va + z - 1
            parts := Map.put e.parts (8 * i + 7) ⟨[], [], true, partsOf va z⟩ }
          .next ((s.setEngine c eid e1).elemStore c eid (8 * i + 7) e va (toBytes z v.toNat) false none)
      else if e.close && !reading then .next s
      else match s.engRead c eid (8 * i + 1) e va z with
        | .busy s1 => .next s1
        | .fault _ _ _ => .next s
        | .data s1 data bad =>
          let s2 := s1.setEngine c eid { (s1.readsDone c eid [8 * i + 1] e) with next := i + 1 }
          let w := ofBytes data
          let s3 := s2.sendToken c (e.strmToken e.rslot (if z = 8 then w % 2 ^ 32 else w) (!bad.isEmpty))
          .next (if z = 8 then s3.sendToken c (e.strmToken (e.rslot + 1) (w / 2 ^ 32) (!bad.isEmpty)) else s3)

/-- Whether another stream of a graph has begun its dirty-range entry, from the read of the ring's header on (R275). -/
def State.logBusy (s : State) (c eid g : Nat) : Bool :=
  s.cores.any (fun k => k.2.engines.any (fun p => !(k.1 == c && p.1 == eid) && decide (p.2.kind = .strm) && p.2.graph == g && decide (p.2.state = .closing)))

/-- A write of the log engine for a closing stream, as a part of it. -/
def State.logWrite (s : State) (c eid : Nat) (e : EngCmd) (stage va : Nat) (data : List Byte) : State :=
  let i := 8 * e.total + 7
  (s.setEngine c eid { e with state := .closing, startAt := stage, parts := Map.put e.parts i ⟨[], [], true, partsOf va data.length⟩ }).elemStore
    c eid i e va data false none

/-- The 32 bytes of a dirty-range entry (R276). -/
def rangeEntry (low high seq asid core engine : Nat) : List Byte :=
  toBytes 32 (engine * 2 ^ 74 + core * 2 ^ 75 + asid * 2 ^ 84 + seq * 2 ^ 96 + low * 2 ^ 128 + high * 2 ^ 192)

/-- The dirty-range entry of a closing store stream: a new one, or a merge into the newest of a full ring (R275, R276). -/
def State.logEntry (s : State) (c eid : Nat) (e : EngCmd) (g : Graph) : State :=
  let i := 8 * e.total
  match s.engRead c eid i e g.dlogBase 16 with
  | .busy s1 => s1
  | .fault _ _ _ => s
  | .data s1 hdr _ =>
    let head := ofBytes (hdr.take 8)
    let tail := ofBytes (hdr.drop 8)
    let at' := fun n => g.dlogBase + 64 + 32 * (n % 4096)
    let bump := fun (t : State) => t.setGraph e.graph { g with dlogSeq := (g.dlogSeq + 1) % 2 ^ 31 }
    if tail - head < 4096 then
      let f := s1.readsDone c eid [i, i + 1] e
      (bump s1).logWrite c eid { f with hi := e.hi, lo := e.lo, waitFor := [tail] } 1 (at' tail)
        (rangeEntry e.lo e.hi g.dlogSeq e.asid c (EngCmd.streamEngine e))
    else match s1.engRead c eid (i + 1) e (at' (tail - 1)) 32 with
      | .busy s2 => s2
      | .fault _ _ _ => s1
      | .data s2 old _ =>
        let w := ofBytes old
        let seq := bits w 96 31 + 2 ^ 31
        let f := s2.readsDone c eid [i, i + 1] e
        (bump s2).logWrite c eid f 2 (at' (tail - 1))
          (rangeEntry (min (bits w 128 56) e.lo) (max (bits w 192 56) e.hi) seq (bits w 84 12) (bits w 75 9) (bits w 74 1))

/-- A store stream's completion token leaves, and its entry is free (R299). -/
def State.endStore (s : State) (c eid : Nat) (e : EngCmd) : State := s.complete c eid (e.completion e.next) id

/-- STREAM_CLOSE (R275, R299): a stream whose elements are over closes; a store stream writes its dirty-range entry, then
the ring's tail, then completes. -/
def execStreamClose (c n : Nat) (s : State) : Host.Outcome State Fault Refusal :=
  match (s.core c).runningStream n with
  | none => .next s
  | some (eid, e) =>
    if !(e.total ≤ e.next || (e.close && e.pushes.isEmpty)) || !(e.parts.all (fun p => p.1 % 8 != 7)) then .next s
    else if !EngCmd.isStoreStream e then
      if !e.parts.isEmpty then .next s
      else
        let t := { plainToken e.fp e.rblock e.rslot (e.total % 1024) e.ident e.next with null := true, stop := 7, charges := [e.charge] }
        .next ((s.dropEngine c eid).sendToken c t)
    else match s.graph? e.graph with
      | none => .next (s.endStore c eid e)
      | some g =>
        match e.startAt with
        | 0 => .next (if !e.wrote then s.endStore c eid e
            else if s.logBusy c eid e.graph then s
            else
              let e1 := { e with state := EngState.closing }
              (s.setEngine c eid e1).logEntry c eid e1 g)
        | 1 => .next (s.logWrite c eid e 2 (g.dlogBase + 8) (toBytes 8 (e.waitFor.headD 0 + 1)))
        | _ => .next (s.endStore c eid e)

/-- STREAM_CONTROL_DELIVERY (R300): a control command reaches its target once the target has started; without target it
is discarded and counted. -/
def execStreamControlDelivery (c eid : Nat) (s : State) : Host.Outcome State Fault Refusal :=
  let k := s.core c
  match Map.find? k.engines eid with
  | none => .next s
  | some e =>
    let isCtl := fun (x : EngCmd) => decide (x.kind = .strmgo) || decide (x.kind = .strmx)
    if !isCtl e || k.engines.any (fun p => decide (p.1 < eid) && isCtl p.2 && p.2.graph == e.graph && EngCmd.streamEngine p.2 == EngCmd.streamEngine e) then .next s
    else
      let ended := fun (t : State) => (t.dropEngine c eid).later (some e.charge)
      match k.targetStream e.graph (EngCmd.streamEngine e) eid with
      | none => .next (ended (s.count c 0x042 0 1))
      | some (tid, t) =>
        if t.state = .queued then .next s
        else match e.kind with
          | .strmgo => .next (ended (s.setEngine c tid { t with run := bitOf e.flags 0, close := t.close || bitOf e.flags 1 }))
          | _ =>
            if !EngCmd.isStoreStream t || (EngCmd.strmSize t == 8 && e.flags % 2 == 1) then .next (ended (s.count c 0x042 0 e.values.length))
            else
              let room := if t.close then 0 else t.total - t.next - t.pushes.length
              .next (ended ((s.setEngine c tid { t with pushes := t.pushes ++ e.values.take room }).count c 0x042 0 (e.values.length - room)))

end Sys2Proof.Machine
end

