-- ==== Sys2Proof/Machine/Exchange.lean ====
section
/-! DEFINITION. The inter-chip exchange: groups, demand, calendars and their phases, and the engines DPOST, DXCH and DXQ
(R279, R301 to R303, R322, R323, R386 to R388). One record of a group stands for what its primary and its standby hold. -/
namespace Sys2Proof.Machine

/-! ### The calendar of a demand matrix (R386) -/

/-- The destination with the most remaining demand among those not taken; a tie keeps the lower member. -/
def bestOf (row taken : List Nat) : Option Nat :=
  (List.range row.length).foldl (fun best j =>
    if taken.contains j || nthD 0 row j = 0 then best
    else match best with
      | none => some j
      | some b => if nthD 0 row b < nthD 0 row j then some j else best) none

/-- The grants of one phase, members in ascending order. -/
def phaseGrants : List (List Nat) → List Nat → List (Option Nat)
  | [], _ => []
  | row :: t, taken =>
    let b := bestOf row taken
    b :: phaseGrants t (match b with | none => taken | some j => j :: taken)

/-- The length of a phase: the least remaining demand of its grants. -/
def phaseLen (d : List (List Nat)) (g : List (Option Nat)) : Nat :=
  let xs := (d.zip g).filterMap (fun p => p.2.map (fun j => nthD 0 p.1 j))
  match xs with
  | [] => 0
  | x :: t => t.foldl min x

/-- A demand matrix without what a phase grants. -/
def takePhase (d : List (List Nat)) (p : CalPhase) : List (List Nat) :=
  (d.zip p.grant).map (fun x => match x.2 with
    | none => x.1
    | some j => setNth x.1 j (nthD 0 x.1 j - p.len))

/-- The phases of a demand matrix (R386); each zeroes an entry, so m² phases suffice. -/
def decompose : Nat → List (List Nat) → List CalPhase
  | 0, _ => []
  | fuel + 1, d =>
    if d.all (fun row => row.all (fun x => x == 0)) then []
    else
      let g := phaseGrants d []
      let p : CalPhase := ⟨phaseLen d g, g⟩
      p :: decompose fuel (takePhase d p)

def phasesOf (d : List (List Nat)) : List CalPhase := decompose (d.length * d.length + 1) d

/-! ### Groups (R322, R323) -/

def State.setGroup (s : State) (n : Nat) (g : Group) : State := { s with exchange := Map.put s.exchange n g }

/-- A chip's index in a group. -/
def Group.indexOf (g : Group) (chip : Nat) : Option Nat := (findIdx (fun m => m == chip) g.members).map (fun p => p.1)

/-- Whether a calendar still has phases. -/
def Calendar.running (c : Calendar) : Bool := !c.phases.isEmpty

/-- The calendar that runs, or runs next: calendars of a group run one after another (R301). -/
def Group.current (g : Group) : Option Calendar := g.cals.find? Calendar.running

def Group.cal? (g : Group) (id : Nat) : Option Calendar := g.cals.find? (fun c => c.id == id)

def Group.setCal (g : Group) (c : Calendar) : Group := { g with cals := g.cals.map (fun x => if x.id = c.id then c else x) }

/-- Whether the host may not rewrite a group: it has an open calendar (R322). -/
def Group.isOpen (g : Group) : Bool := !g.posts.isEmpty || g.cals.any Calendar.running

/-- The chip and die of the barista in charge. -/
def Group.barista (g : Group) : Nat × Nat := if g.inCharge then (g.standby, g.standbyDie) else (g.primary, g.primaryDie)

/-- Whether the barista in charge issues grants here: it is on this chip, has not failed, and its die is ACTIVE. Those of a barista on
another chip come as packets (R279, R382). -/
def State.issuing (s : State) (g : Group) : Bool :=
  !g.failed && !g.down && g.barista.1 == s.chipId && decide ((s.die g.barista.2).state = .active)

/-- The fabric port whose grant queue takes a grant: the one by which its destination is reached (R262, R279, R381; DEDUCED,
assumption 60). -/
def State.grantPort (s : State) (x : Grant) : Nat :=
  let live := (s.ports.filter (fun p => p.2)).map (fun p => p.1)
  nthD 0 live (x.dst % live.length)

/-- The grants that stand in a port's grant queue (R262). -/
def State.portGrants (s : State) (port : Nat) : List Grant :=
  s.exchange.flatMap (fun p => p.2.grants.filter (fun x => s.grantPort x == port))

/-- Whether grants find room in their ports' queues of 256 (R262). -/
def State.grantRoom (s : State) (xs : List Grant) : Bool :=
  xs.all (fun x => decide ((s.portGrants (s.grantPort x)).length + (xs.filter (fun y => s.grantPort y == s.grantPort x)).length ≤ 256))

/-- The grant of this chip in phase number k of a calendar, if it has one (R279, R387). -/
def State.grantIn (s : State) (g : Group) (c : Calendar) (k : Nat) : List Grant :=
  match g.indexOf s.chipId, c.phases[k - c.ended - 1]? with
  | some me, some p => (match nthD none p.grant me with
    | some j => [⟨k, s.chipId, nthD 0 g.members j, p.len, c.id, c.standby⟩]
    | none => [])
  | _, _ => []

/-- The barista in charge issues the phases up to number k: this chip's grants go into their port's queue once it has room (R262,
R279). -/
def State.issueTo (s : State) (g : Group) (c : Calendar) (k : Nat) : Group :=
  let k1 := min k (c.ended + c.phases.length)
  let new := (List.range (k1 - g.issued)).flatMap (fun i => s.grantIn g c (g.issued + i + 1))
  if s.issuing g && decide (g.issued < k1) && s.grantRoom new then { g with issued := k1, grants := g.grants ++ new } else g

/-- What goes between chips about a group (R382, class 4): its kind, group, a member's index and a body. -/
def exchMessage (kind n me : Nat) (body : List Byte) : List Byte :=
  let b := [BitVec.ofNat 8 kind, BitVec.ofNat 8 n, BitVec.ofNat 8 me] ++ body
  b ++ List.replicate (ceilDiv b.length 16 * 16 - b.length) 0

/-- The fields of a grant (R279). -/
def Grant.bytes (x : Grant) : List Byte :=
  toBytes 4 x.phase ++ toBytes 2 x.src ++ toBytes 2 x.dst ++ toBytes 4 x.units ++ toBytes 2 x.cal ++ toBytes 1 (b2n x.epoch)

/-- The fields of a grant from its bytes. -/
def Grant.parse (b : List Byte) : Grant :=
  let f := fun (i n : Nat) => ofBytes ((b.drop i).take n)
  ⟨f 0 4, f 4 2, f 6 2, f 8 4, f 12 2, f 14 1 == 1⟩

/-- A barista on this chip sends the grants of phase number k to the ports of members on other chips; a member that the phase grants
nothing is told so by a grant of no units (R279, R382, R387; DESIGN CHOICE, assumption 61). -/
def State.sendGrants (s : State) (n : Nat) (g : Group) (c : Calendar) (k : Nat) : State :=
  match c.phases[k - c.ended - 1]? with
  | none => s
  | some p => (p.grant.zipIdx).foldl (fun a x =>
      let chip := nthD 0 g.members x.2
      let dest := match x.1 with | none => (chip, 0) | some j => (nthD 0 g.members j, p.len)
      if g.barista.1 ≠ s.chipId || chip = s.chipId then a
      else a.fabric chip 4 (exchMessage 3 n x.2 (Grant.bytes ⟨k, chip, dest.1, dest.2, c.id, c.standby⟩))) s

/-- The exchange group that a command names (R301 to R303). -/
def EngCmd.exchGroup (e : EngCmd) : Nat := e.flags % 256

/-- The DXCH commands of this chip bound to a calendar. -/
def State.boundTo (s : State) (n id : Nat) : Option (Nat × Nat × EngCmd) :=
  (s.cores.flatMap (fun k => (k.2.engines.filter (fun p => decide (p.2.kind = .dxch) && p.2.exchGroup == n && p.2.cal == some id)).map
    (fun p => (k.1, p.1, p.2)))).head?

/-- The next phase of a group starts, if its grants are issued, and the grants of the one after it are issued (R387). -/
def State.startPhase (s : State) (n : Nat) (g : Group) : State :=
  match g.current with
  | none => s.setGroup n g
  | some c =>
    if c.started.isSome then s.setGroup n g
    else
      let g1 := s.issueTo g c (c.ended + 1)
      if c.ended < g1.issued then
        let g2 := s.issueTo g1 c (c.ended + 2)
        let s1 := (List.range (g2.issued - g.issued)).foldl (fun a i => a.sendGrants n g c (g.issued + i + 1)) s
        let base := match s.boundTo n c.id with | some (_, _, e) => e.recv | none => []
        s1.setGroup n (g2.setCal { c with started := some s.now, markers := [], unused := 0, base := base })
      else s.setGroup n g1

/-! ### Engines of a group -/

/-- Words of an array that an engine reads, once all have come. -/
def wordsAt (b : List Byte) : List Word := (List.range (b.length / 4)).map (fun i => BitVec.ofNat 32 (leOf b (4 * i)))
where
  leOf (b : List Byte) (i : Nat) : Nat := ofBytes ((b.drop i).take 4)

/-- The boundaries that what a core sends to the baristas of its group crosses on this chip (R47). -/
def State.baristaDirs (s : State) (c : Nat) (g : Group) : List Nat :=
  [(g.primary, g.primaryDie), (g.standby, g.standbyDie)].flatMap (fun p =>
    routeDirs (dieOf c) (if p.1 = s.chipId then p.2 else s.fabricDieOf p.1))

/-- A message of a core to the baristas (R386): what goes to other chips leaves by the fabric. -/
def State.toBaristas (s : State) (c : Nat) (g : Group) (payload : List Byte) : State :=
  (uniSet [] [g.primary, g.standby]).foldl (fun a chip => if chip = s.chipId then a else a.fabric chip 4 payload)
    (s.countFlits (s.baristaDirs c g) payload.length)

/-- DPOST reads its array and sends it to the baristas over boundaries that are up (R47, R301). -/
def State.dpostStep (s : State) (c eid : Nat) (e : EngCmd) : State :=
  match Map.find? s.exchange e.exchGroup with
  | none => s
  | some g =>
    match g.indexOf s.chipId with
    | none => s
    | some me =>
      if !e.targets.isEmpty || !s.pathUp (s.baristaDirs c g) then s
      else match s.engRead c eid 1 e (e.pair 0 % 2 ^ 56) (4 * g.members.length) with
        | .busy s1 => s1
        | .fault _ _ _ => s
        | .data s1 b _ =>
          let s2 := s1.setEngine c eid { (s1.readsDone c eid [1] e) with targets := wordsAt b }
          s2.toBaristas c g (exchMessage 0 e.exchGroup me b)

/-- The total of the first n numbers of a list. -/
def sumTo (l : List Nat) (n : Nat) : Nat := (l.take n).foldl (fun a x => a + x) 0

/-- The units that a chip actually sends to each member. -/
def EngCmd.amounts (e : EngCmd) : List Nat := e.targets.map (fun w => w.toNat)

/-- A unit that a DXCH of member me has received whole from member j is written where it belongs (R302). -/
def State.unitArrives (s : State) (c eid : Nat) (e : EngCmd) (cal : Calendar) (me j : Nat) (data : List Byte) (bad : List Nat) : State :=
  let col := cal.demand.map (fun row => nthD 0 row me)
  let va := (e.pair 2 + (sumTo col j + nthD 0 e.recv j / 8) * 4096) % 2 ^ 56
  let ps := lineRun va data.length (data.length / 128 + 2) 0
  let i := 8 * (2 ^ 20 + j * 2 ^ 34 + nthD 0 e.recv j) + 7
  let e1 := { e with recv := setNth e.recv j (nthD 0 e.recv j + 8), parts := Map.put e.parts i ⟨[], [], true, ps.length⟩ }
  ps.foldl (fun a p => a.elemPart c eid i e1 p.2.1 ((data.drop p.1).take p.2.2) (poisonOf bad p)) (s.setEngine c eid e1)

/-- The status array of a DXCH: residuals and units received (R302). -/
def EngCmd.status (e : EngCmd) : List Byte :=
  (e.amounts.zipIdx).flatMap (fun p => toBytes 4 (p.1 - nthD 0 e.sent p.2) ++ toBytes 4 (nthD 0 e.recv p.2 / 8))

def EngCmd.residual (e : EngCmd) : Nat :=
  (e.amounts.zipIdx).foldl (fun a p => a + (p.1 - nthD 0 e.sent p.2)) 0

/-- DXCH writes its status array and closes (R302). -/
def State.dxchEnd (s : State) (c eid : Nat) (e : EngCmd) : State :=
  let i := 8 * 2 ^ 50 + 7
  let va := e.pair 6 % 2 ^ 56
  let e1 := { e with state := EngState.closing, next := e.residual, parts := Map.put e.parts i ⟨[], [], true, partsOf va e.status.length⟩ }
  (s.setEngine c eid e1).elemStore c eid i e1 va e.status false none

/-- The DXCH commands of this chip to a group that have no calendar yet and committed before one of core c's: each takes an older
calendar (R302). -/
def State.earlierDxch (s : State) (n c eid : Nat) (e : EngCmd) : Nat :=
  let key := fun (k i : Nat) (x : EngCmd) => (x.cid.getD 0) * 2 ^ 80 + k * 2 ^ 64 + i
  (s.cores.flatMap (fun k => (k.2.engines.filter (fun p => decide (p.2.kind = .dxch) && p.2.exchGroup == n && p.2.cal.isNone
    && decide (key k.1 p.1 p.2 < key c eid e))).map (fun p => p.1))).length

/-- DXCH takes the oldest calendar that no DXCH of this chip has or, committed before it, is to have, reads its array, and closes
after the calendar's last phase (R302). -/
def State.dxchStep (s : State) (c eid : Nat) (e : EngCmd) : State :=
  match Map.find? s.exchange e.exchGroup with
  | none => s
  | some g =>
    match e.cal with
    | none =>
      (match (g.cals.filter (fun x => x.used.isEmpty))[s.earlierDxch e.exchGroup c eid e]? with
      | none => s
      | some x =>
        let zs := List.replicate g.members.length 0
        (s.setEngine c eid { e with cal := some x.id, sent := zs, recv := zs, startAt := s.now, next := x.ended }).setGroup e.exchGroup
          (g.setCal { x with used := [1] }))
    | some id =>
      match g.cal? id with
      | none => s
      | some x =>
        if e.targets.isEmpty then
          match s.engRead c eid 1 e (e.pair 4 % 2 ^ 56) (4 * g.members.length) with
          | .busy s1 => s1
          | .fault _ _ _ => s
          | .data s1 b _ => s1.setEngine c eid { (s1.readsDone c eid [1] e) with targets := wordsAt b }
        else if x.running then s else s.dxchEnd c eid e

/-- A calendar whose DXCH is over leaves its group, unless it is the latest. -/
def State.dxchOver (s : State) (e : EngCmd) : State :=
  match Map.find? s.exchange e.exchGroup, e.cal with
  | some g, some id =>
    if g.cals.getLast?.map (fun c => c.id) = some id then s
    else s.setGroup e.exchGroup { g with cals := g.cals.filter (fun c => c.id != id) }
  | _, _ => s

/-- The state of a group's current calendar as DXQ reports it (R303). -/
def State.exchangeWord (s : State) (n : Nat) : Nat :=
  match Map.find? s.exchange n with
  | none => 0
  | some g =>
    match (match g.current with | some c => some c | none => g.cals.getLast?) with
    | none => 0
    | some c =>
      (if c.ended ≤ 511 then c.ended else Config.phasesEnded c.ended % 512) + min 511 (c.ended + c.phases.length) * 2 ^ 9
        + b2n g.inCharge * 2 ^ 18 + c.id % 2 ^ 13 * 2 ^ 19

/-! ### Issue (R301 to R303) -/

/-- DPOST (R301): words kd+2 to kd+7 are 0, and this chip is a member. -/
def execDpost (a : FmtG) (s : State) : Host.Outcome State Fault Refusal :=
  engineForm s a .dpost (fun _ _ d =>
      let member := match Map.find? s.exchange (a.flags % 256) with
        | none => false
        | some g => (g.indexOf s.chipId).isSome
      failIf ((d.drop 2).any (fun w => w != 0) || !member))
    (fun _ _ e => e)

/-- DXCH (R302). -/
def execDxch (a : FmtG) (s : State) : Host.Outcome State Fault Refusal := engineForm s a .dxch (fun _ _ _ => none) (fun _ _ e => e)

/-- DXQ (R303). -/
def execDxq (a : FmtG) (s : State) : Host.Outcome State Fault Refusal := engineForm s a .dxq (fun _ _ _ => none) (fun _ _ e => e)

/-! ### Posts and phases (R279, R301, R387) -/

/-- Every member has posted: the calendar is computed, the posting commands may complete, and it runs in its turn. A
calendar of more than 256 phases is held whole, which is what refilling the table phase by phase amounts to (R301, R323). -/
def State.makeCalendar (s : State) (n : Nat) (g : Group) : State :=
  let d := (List.range g.members.length).map (fun i => Map.getD g.posts i [])
  let ps := phasesOf d
  let cal : Calendar :=
    { id := g.nextCal, phases := ps, ended := 0, started := none, markers := [], demand := d, left := d, standby := g.inCharge, used := [],
      unused := 0, base := [] }
  let s1 := g.waiters.foldl (fun a w =>
    match Map.find? (a.core w.1).engines w.2 with
    | none => a
    | some e => a.setEngine w.1 w.2 { e with close := true, next := ps.length % 65536 + g.nextCal % 65536 * 65536 }) s
  let fresh := if g.current.isNone then 0 else g.issued
  s1.startPhase n { g with
    nextCal := (g.nextCal + 1) % 65536, posts := [], waiters := [], cals := g.cals ++ [cal], issued := fresh }

/-- The oldest DPOST of this chip to a group that has sent its row and not reached the baristas. -/
def State.posted (s : State) (n : Nat) : Option (Nat × Nat × EngCmd) :=
  (s.cores.flatMap (fun k => (k.2.engines.filter (fun p => decide (p.2.kind = .dpost) && p.2.exchGroup == n && !p.2.targets.isEmpty && p.2.doneE.isEmpty)).map
    (fun p => (k.1, p.1, p.2)))).head?

/-- POST_ARRIVAL (R301, R323): a member's row reaches the baristas; this chip's own row is that of its oldest DPOST under
way. A failed group takes no post until the host rewrites it (R388). -/
def execPostArrival (group member : Nat) (row : List Nat) (s : State) : Host.Outcome State Fault Refusal :=
  match Map.find? s.exchange group with
  | none => .next s
  | some g =>
    let m := g.members.length
    let put := fun (t : State) (r : List Nat) (ws : List (Nat × Nat)) =>
      let g1 := { g with
        posts := Map.put g.posts member ((List.range m).map (fun j => nthD 0 r j % 2 ^ 32)), waiters := g.waiters ++ ws }
      if g1.posts.length = m then t.makeCalendar group g1 else t.setGroup group g1
    if g.failed || m ≤ member then .next s
    else if g.indexOf s.chipId = some member then
      match s.posted group with
      | none => .next s
      | some (c, eid, e) => .next (put (s.setEngine c eid { e with doneE := [1] }) (e.targets.map (fun w => w.toNat)) [(c, eid)])
    else .next (put s row [])

/-- The packets of exchange data of a group's phase that have not left this chip. -/
def State.unsent (s : State) (n : Nat) (c : Calendar) : List FabricPacket :=
  s.fabricOut.filter (fun x => x.sentIn == some (n, c.id, c.ended + 1))

/-- What the end of a phase does to this chip's DXCH (R387): units of which a packet has not left, and the `lost` units that have
left and that their destination has not accepted, are its residual again; a unit that came in part counts as nothing; a unit that was
being read is read anew in its own phase. The answer is how many of the granted units went unused. -/
def State.phaseOver (s : State) (n : Nat) (g : Group) (c : Calendar) (p : CalPhase) (lost : Nat) : State × Nat :=
  let mine := match g.indexOf s.chipId with | none => none | some me => nthD none p.grant me
  match s.boundTo n c.id with
  | none => (s, if mine.isSome then p.len else 0)
  | some (core, eid, e) =>
    let away := match mine with | none => false | some j => nthD s.chipId g.members j != s.chipId
    let back := if away then min e.lo (lost + ceilDiv (s.unsent n c).length 8) else 0
    let stale := fun (i : Nat) => i % 8 == 3 || (i % 8 == 1 && i != 1)
    let e1 := { e with
      sent := (match mine with | none => e.sent | some j => setNth e.sent j (nthD 0 e.sent j - back))
      next := c.ended + 1, lo := 0, parts := Map.keep (fun i _ => !stale i) e.parts }
    let s1 := s.setEngine core eid e1
    ({ s1 with
        fabricOut := s1.fabricOut.filter (fun x => x.sentIn != some (n, c.id, c.ended + 1))
        reqs := s1.reqs.filter (fun q => match q.2.elem, q.2.kind with
          | some (c', e', i, _), .load => !(c' == core && e' == eid && stale i)
          | _, _ => true) },
      if mine.isSome then p.len - (e.lo - back) else 0)

/-- The primary on this chip tells a standby elsewhere of a phase's end, and whether its timeout ended it (R323, R382; assumption
61). -/
def State.shadowUpdate (s : State) (n : Nat) (g : Group) (ended : Nat) (timed : Bool) : State :=
  if g.inCharge || g.down || g.primary ≠ s.chipId || g.standby = s.chipId then s
  else s.fabric g.standby 4 (exchMessage 5 n 0 (toBytes 4 ended ++ toBytes 4 0 ++ toBytes 1 (b2n timed)))

/-- The standby on this chip tells every member elsewhere that it has taken over (R388). -/
def State.sendNotices (s : State) (n : Nat) (g : Group) : State :=
  if g.standby ≠ s.chipId then s
  else (g.members.filter (fun m => m != s.chipId)).foldl (fun a m => a.fabric m 4 (exchMessage 4 n 0 [])) s

/-- A phase ends: its grants are removed, the units that its senders did not use are counted by the barista, `late` among them
that no marker gave, its units leave the remaining demand, and the next phase, or calendar, starts (R279, R301, R323, R387). `lost`
units of this chip's were not accepted; a barista on this chip that is not `alive` issues nothing more (R388); `timed` says that the
timeout ended the phase. -/
def State.endPhase (s : State) (n : Nat) (g : Group) (c : Calendar) (late lost : Nat) (alive timed : Bool) : State :=
  match c.phases with
  | [] => s
  | p :: t =>
    let r := s.phaseOver n g c p lost
    let s1 := if g.barista.1 = s.chipId then r.1.countDie g.barista.2 3 (r.2 + c.unused + late) else r.1
    let c1 := { c with phases := t, ended := c.ended + 1, started := none, markers := [], left := takePhase c.left p, unused := 0 }
    let down := g.down || (!alive && g.barista.1 == s.chipId)
    (s1.shadowUpdate n { g with down := down } (c.ended + 1) timed).startPhase n { (g.setCal c1) with
      down := down
      issued := if t.isEmpty then 0 else g.issued
      grants := g.grants.filter (fun x => x.cal != c.id || decide (c.ended + 1 < x.phase)) }

/-- The members that a phase grants something. -/
def CalPhase.senders (p : CalPhase) : List Nat := (p.grant.zipIdx.filter (fun x => x.1.isSome)).map (fun x => x.2)

/-- Whether what a member sends in a phase is there: this chip's own units have left it, and those for this chip have come in whole
(R387; DEDUCED, assumption 60). -/
def State.delivered (s : State) (n : Nat) (g : Group) (c : Calendar) (p : CalPhase) (m : DoneMarker) : Bool :=
  if g.indexOf s.chipId == some m.member then
    (match s.boundTo n c.id with | none => false | some (_, _, e) => decide (c.ended < e.next)) && (s.unsent n c).isEmpty
  else if (nthD none p.grant m.member).isSome && nthD none p.grant m.member == g.indexOf s.chipId then
    (match s.boundTo n c.id with
      | none => false
      | some (_, _, e) => decide (p.len - min m.unused p.len ≤ (nthD 0 e.recv m.member - nthD 0 c.base m.member) / 8))
  else true

/-- PHASE_DONE_MARKER (R387): a granted sender's marker, with the units of its grant that it did not use; it comes once its units
have, and with the last one the phase ends: the units of this chip that were not accepted by then are its residual again. -/
def execPhaseDoneMarker (group : Nat) (m : DoneMarker) (s : State) : Host.Outcome State Fault Refusal :=
  match Map.find? s.exchange group with
  | none => .next s
  | some g =>
    match g.current with
    | none => .next s
    | some c =>
      match c.phases with
      | [] => .next s
      | p :: _ =>
        let own := g.indexOf s.chipId == some m.member
        if c.started.isNone || !p.senders.contains m.member || c.markers.contains m.member || !s.delivered group g c p m then .next s
        else
          let c1 := { c with markers := insSet c.markers m.member, unused := c.unused + if own then 0 else min m.unused p.len }
          if p.senders.all (fun i => c1.markers.contains i) then .next (s.endPhase group g c1 0 m.lost m.alive false)
          else .next (s.setGroup group (g.setCal c1))

/-- The units that a phase grants senders on other chips whose markers have not come. -/
def Calendar.unmarked (c : Calendar) (own : Option Nat) : Nat :=
  match c.phases with
  | [] => 0
  | p :: _ => p.len * (p.senders.filter (fun i => !c.markers.contains i && own != some i)).length

/-- PHASE_TIMEOUT (R267, R387): the group's timeout has passed since the phase started, and no debug hold names a die that
exchanges. `unused` of the units granted to senders whose markers have not come were not sent, and `lost` of this chip's not
accepted. -/
def execPhaseTimeout (late : LatePhase) (s : State) : Host.Outcome State Fault Refusal :=
  let group := late.group
  match Map.find? s.exchange group with
  | none => .next s
  | some g =>
    match g.current with
    | none => .next s
    | some c =>
      match c.started with
      | none => .next s
      | some t =>
        let frozen := match s.boundTo group c.id with | some (k, _, _) => s.halted (dieOf k) | none => false
        .next (if t + g.timeout ≤ s.now && !frozen then s.endPhase group g c (min late.unused (c.unmarked (g.indexOf s.chipId))) late.lost late.alive true else s)

/-- The 512-byte pieces of a unit (R382). -/
def unitPackets (data : List Byte) : List (List Byte) := (List.range 8).map (fun i => (data.drop (512 * i)).take 512)

/-- One unit of member j's data leaves: over boundaries that are up and the fabric, or as a local copy (R47, R49, R301, R302). -/
def State.sendUnit (s : State) (c eid : Nat) (e : EngCmd) (g : Group) (cal : Calendar) (me j : Nat) : State :=
  let i := 8 * (e.hi + 1) + 1
  let va := (e.pair 0 + (sumTo e.amounts j + nthD 0 e.sent j) * 4096) % 2 ^ 56
  let chip := nthD s.chipId g.members j
  let dirs := routeDirs (dieOf c) (s.fabricDieOf chip)
  if j ≠ me && !s.pathUp dirs then s
  else match s.engRead c eid i e va 4096 with
  | .busy s1 => s1
  | .fault _ _ _ => s
  | .data s1 data bad =>
    let x := s1.readsDone c eid [i] e
    let e1 := { x with sent := setNth e.sent j (nthD 0 e.sent j + 1), lo := e.lo + 1, hi := e.hi + 1, startAt := s.now }
    if j = me then s1.unitArrives c eid e1 cal me me data bad
    else (unitPackets data).foldl (fun a d => a.fabric chip 3 d (some (e.exchGroup, cal.id, cal.ended + 1)))
      ((s1.setEngine c eid e1).countFlits dirs 4096)

/-- DXCH_GRANT (R279, R302, R387): the engine takes the grant of the running phase that stands in its port's queue, one unit at a
time, and then sends the phase-done marker. -/
def execDxchGrant (core eid : Nat) (s : State) : Host.Outcome State Fault Refusal :=
  match Map.find? (s.core core).engines eid with
  | none => .next s
  | some e =>
    match Map.find? s.exchange e.exchGroup with
    | none => .next s
    | some g =>
      match g.current, g.indexOf s.chipId with
      | some c, some me =>
        match g.grants.find? (fun x => x.cal == c.id && x.phase == c.ended + 1) with
        | none => .next s
        | some x =>
          match g.indexOf x.dst with
          | none => .next s
          | some j =>
            if decide (e.kind ≠ .dxch) || decide (e.state ≠ .running) || e.cal != some c.id || e.targets.isEmpty || c.started.isNone
                || decide (c.ended < e.next) then .next s
            else
              let post := nthD 0 (nthD [] c.demand me) j
              let room := min (nthD 0 e.amounts j) post - (nthD 0 e.sent j - e.lo)
              if e.lo < min x.units room then .next (s.sendUnit core eid e g c me j)
              else if !s.pathUp (s.baristaDirs core g) then .next s
              else
                let s1 := (s.setEngine core eid { e with next := c.ended + 1, startAt := s.now }).setGroup e.exchGroup
                  { g with grants := g.grants.filter (fun y => y != x) }
                .next (s1.toBaristas core g (exchMessage 1 e.exchGroup me (toBytes 4 (c.ended + 1) ++ toBytes 4 (x.units - e.lo) ++ toBytes 4 0)))
      | _, _ => .next s

/-- How a packet of exchange data stands to the phases of its group (R387): it is of the running one, of one to come, or late. -/
inductive PhaseTime where
  | running (c : Calendar) (p : CalPhase)
  | early
  | late
  deriving DecidableEq, Repr

def Group.phaseTime (g : Group) (cal phase : Nat) : PhaseTime :=
  match g.current with
  | none => if cal = g.nextCal then .early else .late
  | some c =>
    if c.id ≠ cal then
      (if cal = g.nextCal || (match g.cal? cal with | some x => x.running | none => false) then .early else .late)
    else if phase ≤ c.ended then .late
    else match c.phases with
      | p :: _ => if phase = c.ended + 1 && c.started.isSome then .running c p else .early
      | [] => .late

/-- A packet of exchange data from a member that has come by a fabric die (R47, R382, R387): none before its phase runs, while no DXCH
of this chip takes it, or while its way to that is down; after its phase it is dropped. With its eighth packet a unit is written. -/
def State.exchangeData (s : State) (die schip : Nat) (payload : List Byte) (sentIn : Option (Nat × Nat × Nat)) : Option State :=
  match sentIn with
  | none => some s
  | some (n, cal, phase) =>
    match Map.find? s.exchange n with
    | none => some s
    | some g =>
      match g.phaseTime cal phase, g.indexOf schip, g.indexOf s.chipId with
      | .early, _, _ => none
      | .running c p, some i, some me =>
        if nthD none p.grant i != some me then some s
        else match s.boundTo n c.id with
          | none => none
          | some (core, eid, e) =>
            let dirs := routeDirs die (dieOf core)
            if e.targets.isEmpty || !s.pathUp dirs then none
            else
              let key := 8 * (2 ^ 51 + i) + 3
              let old := match Map.find? e.parts key with | none => [] | some q => q.bytes
              let all := old ++ payload.map some
              let s1 := s.countFlits dirs payload.length
              if all.length < 4096 then some (s1.setEngine core eid { e with parts := Map.put e.parts key ⟨all, [], true, 0⟩ })
              else some (s1.unitArrives core eid { e with parts := Map.del e.parts key } c me i (all.map (fun b => b.getD 0)) [])
      | _, _, _ => some s

/-! ### Failover (R388) -/

/-- BARISTA_HEARTBEAT (R388): every 13,600 cycles the primary tells the standby that it lives. -/
def execBaristaHeartbeat (group : Nat) (s : State) : Host.Outcome State Fault Refusal :=
  match Map.find? s.exchange group with
  | none => .next s
  | some g =>
    let here := g.primary == s.chipId
    if g.inCharge || (here && (!s.issuing g || decide (s.now < g.beat + 13600))) then .next s
    else
      let s1 := s.setGroup group { g with beat := s.now }
      .next (if here && g.standby != s.chipId then s1.fabric g.standby 4 (exchMessage 2 group 0 []) else s1)

/-- STANDBY_TAKEOVER (R388): after 40,800 cycles without a heartbeat, and once no phase runs, the standby sends its notice, recomputes the
rest of the calendars from its matrices, and issues grants. -/
def execStandbyTakeover (group : Nat) (s : State) : Host.Outcome State Fault Refusal :=
  match Map.find? s.exchange group with
  | none => .next s
  | some g =>
    let busy := match g.current with | none => false | some c => c.started.isSome || decide (c.ended < g.issued)
    let dead := g.standby == s.chipId && decide ((s.die g.standbyDie).state ≠ .active)
    if g.inCharge || g.failed || decide (s.now < g.beat + 40800) || busy || dead then .next s
    else
      let again := fun (c : Calendar) => if c.running then { c with phases := phasesOf c.left, standby := true } else c
      .next ((s.sendNotices group g).startPhase group { g with inCharge := true, down := false, cals := g.cals.map again })

/-- A group at a member on another chip than its standby, to which the notice has come (R388): the standby is in charge, and what it
issues after a phase that runs or has ended is of epoch 1. The rest of each calendar is as before: R386 computes the same phases
from what remains. -/
def Group.taken (g : Group) : Group :=
  { g with
    inCharge := true, down := false, cals := g.cals.map (fun c => { c with standby := true })
    issued := match g.current with | none => 0 | some c => c.ended + b2n c.started.isSome }

/-- TAKEOVER_NOTICE (R388): this chip's ports discard the group's grants of epoch 0 from now on. The standby's own chip gives no
notice before it is in charge. -/
def execTakeoverNotice (group : Nat) (s : State) : Host.Outcome State Fault Refusal :=
  match Map.find? s.exchange group with
  | none => .next s
  | some g =>
    let g1 := if g.inCharge || g.standby = s.chipId then g else g.taken
    .next (if g1.inCharge then s.setGroup group { g1 with noticed := true, grants := g1.grants.filter (fun x => x.epoch) } else s)

/-- Whether a standby in charge has failed as this chip sees it: its die here is not ACTIVE, or one elsewhere has issued no phase
after those that have ended (R388). -/
def State.standbyFailed (s : State) (g : Group) : Bool :=
  g.inCharge && (match g.current with
    | none => false
    | some c => c.started.isNone && (if g.standby = s.chipId then !s.issuing g else decide (g.issued ≤ c.ended)))

/-- DXCH_GRANT_TIMEOUT (R388): the standby in charge has failed, and a DXCH that took no grant for four phase timeouts ends the
calendar; the group takes no post until it is rewritten. -/
def execDxchGrantTimeout (core eid : Nat) (s : State) : Host.Outcome State Fault Refusal :=
  match Map.find? (s.core core).engines eid with
  | none => .next s
  | some e =>
    match Map.find? s.exchange e.exchGroup, e.cal with
    | some g, some id =>
      if decide (e.kind ≠ .dxch) || decide (e.state ≠ .running) || e.targets.isEmpty || !s.standbyFailed g
          || decide (s.now < e.startAt + 4 * g.timeout) || s.halted (dieOf core) then .next s
      else
        let g1 := { g with failed := true, posts := [], cals := g.cals.map (fun c => if c.id = id then { c with phases := [], started := none } else c) }
        .next ((s.setGroup e.exchGroup g1).dxchEnd core eid e)
    | _, _ => .next s

/-! ### Messages of other chips (R382, class 4) -/

/-- A grant from the barista in charge on another chip (R279, R387, R388): its phase is issued, and it stands in its port's queue;
the phase starts once the one before it has ended. After a takeover notice a grant of epoch 0 is discarded; one that finds its port's
queue full is lost, and its phase not issued here (DESIGN CHOICE, assumption 120). -/
def State.takeGrant (s : State) (n schip : Nat) (x : Grant) : State :=
  match Map.find? s.exchange n with
  | none => s
  | some g =>
    match g.current with
    | none => s
    | some c =>
      let mine := decide (x.src = s.chipId ∧ 0 < x.units)
      if g.barista.1 ≠ schip || schip = s.chipId || g.failed || x.cal ≠ c.id || x.phase ≤ c.ended || c.ended + 2 < x.phase
          || x.phase ≤ g.issued || x.epoch != c.standby || (g.noticed && !x.epoch) || (mine && !s.grantRoom [x]) then s
      else s.startPhase n { g with issued := x.phase, grants := if mine then g.grants ++ [x] else g.grants }

/-- A packet of exchange control does what it says (R382): a post, a phase-done marker, a heartbeat, a grant, a takeover notice or a
shadow update, each from the chip that sends it; the layout is the model's (assumption 61). A shadow update ends a phase here only
where the timeout ended it at the primary: otherwise the markers, which go to both baristas, end it (R386, R387). -/
def State.exchangeControl (s : State) (schip : Nat) (b : List Byte) : Host.Outcome State Fault Refusal :=
  let f := fun (i k : Nat) => ofBytes ((b.drop i).take k)
  let n := f 1 1
  match Map.find? s.exchange n with
  | none => .next s
  | some g =>
    let member := g.indexOf schip == some (f 2 1)
    let away := decide (schip ≠ s.chipId)
    match f 0 1 with
    | 0 => if member && away then execPostArrival n (f 2 1) ((List.range g.members.length).map (fun j => f (3 + 4 * j) 4)) s else .next s
    | 1 =>
      (match g.current with
        | none => .next s
        | some c => if member && away && f 3 4 = c.ended + 1 then execPhaseDoneMarker n ⟨f 2 1, f 7 4, f 11 4, true⟩ s else .next s)
    | 2 => if schip = g.primary && away then execBaristaHeartbeat n s else .next s
    | 3 => .next (s.takeGrant n schip (Grant.parse (b.drop 3)))
    | 4 => if schip = g.standby && away then execTakeoverNotice n s else .next s
    | 5 =>
      (match g.current with
        | none => .next s
        | some c =>
          let done := schip = g.primary && away && !g.inCharge && f 3 4 = c.ended + 1 && c.started.isSome && f 11 1 = 1
          .next (if done then s.endPhase n g c 0 (f 7 4) true true else s))
    | _ => .next s

end Sys2Proof.Machine
end

