-- ==== Sys2Proof/Machine/EngineSteps.lean ====
section
/-! DEFINITION. The steps that every engine has: one element, and the completion (R137, R257, R293). -/
namespace Sys2Proof.Machine

/-- ENGINE_ELEMENT (R137, R253, R257, R293): element i of a running command acts, or its next where it acts in order. -/
def execEngineElement (c eid i : Nat) (s : State) : Host.Outcome State Fault Refusal :=
  match Map.find? (s.core c).engines eid with
  | none => .next s
  | some e =>
    if decide (e.state ≠ .running) then .next s
    else
      let open' := decide (i < e.total) && !e.doneE.contains i && (Map.find? e.parts (8 * i + 7)).isNone
      match e.kind with
      | .cpy | .cpy2d => .next (if open' then s.copyElem c eid i e else s)
      | .cpyb => .next (if open' then s.fillElem c eid i e else s)
      | .gath | .scat => .next (if open' && s.streaming c eid e then s.indexedElem c eid i e else s)
      | .isx => .next (s.isxFeed c eid e)
      | .nzscan => .next (s.nzStep c eid e)
      | .dpost => .next (s.dpostStep c eid e)
      | .dxch => .next (s.dxchStep c eid e)
      | .strm | .strmgo | .strmx | .dxq | .rows => .next s


/-- A buffer that a CPYB has filled (R297). -/
def State.bufferFilled (s : State) (c eid : Nat) (e : EngCmd) : State :=
  let k := s.core c
  match Map.find? k.opbufs (e.word 2) with
  | none => s
  | some b =>
    let b1 := { b with filled := true, len := e.word 5, refill := if b.refill = some eid then none else b.refill }
    s.setCore c { k with opbufs := Map.put k.opbufs (e.word 2) b1 }

/-- A gather or scatter leaves its base die's queue (R273). -/
def State.endStream (s : State) (c eid : Nat) (e : EngCmd) : State :=
  let d := s.streamDie c e
  s.setDie d { s.die d with
    streams := (s.die d).streams.filter (fun p => decide (p ≠ (c, eid))), streamsOn := (s.die d).streamsOn.filter (fun p => decide (p ≠ (c, eid))) }

/-- ENGINE_COMPLETION (R257, R293): every element has performed, and the completion token leaves. -/
def execEngineCompletion (c eid : Nat) (s : State) : Host.Outcome State Fault Refusal :=
  match Map.find? (s.core c).engines eid with
  | none => .next s
  | some e =>
    match e.kind, e.state with
    | .nzscan, .closing => .next (s.nzReply c eid e)
    | .cpyb, .running =>
      .next (if e.total ≤ e.doneE.length then s.complete c eid (e.completion e.payload) (fun a => a.bufferFilled c eid e) else s)
    | .cpy, .running | .cpy2d, .running =>
      .next (if e.total ≤ e.doneE.length then s.complete c eid (e.completion e.payload) id else s)
    | .gath, .running | .scat, .running =>
      .next (if e.total ≤ e.doneE.length then s.complete c eid (e.completion e.payload) (fun a => a.endStream c eid e) else s)
    | .dpost, .running =>
      .next (if e.close then s.complete c eid (e.completion e.payload) id else s)
    | .dxch, .closing =>
      .next (if e.parts.all (fun p => p.1 % 8 != 7) then s.complete c eid (e.completion e.payload) (fun a => a.dxchOver e) else s)
    | .dxq, .running => .next (s.complete c eid (e.completion (s.exchangeWord e.exchGroup)) id)
    | _, _ => .next s

end Sys2Proof.Machine
end

