-- ==== Sys2Proof/Machine/SysIssue.lean ====
section
/-! DEFINITION. Rows 0xB_ and 0xF_ at issue: what they read, their checks, and what they leave for their block's
commit (R145 to R149, R336 to R356). -/
namespace Sys2Proof.Machine

/-! ### What can be read (R147, R148, R333) -/

/-- Bin b of a histogram channel as a graph reads it (R330, R340). -/
def State.histRead (s : State) (c g ch b : Nat) : Nat :=
  let h := Map.getD (s.core c).hists ch Hist.reset
  if h.valid && h.graph == g then Map.getD h.bins b 0 else 0

/-- A counter as a graph reads it on a core (R333). -/
def State.counterRead (s : State) (c g sysn imm : Nat) : Nat :=
  let k := s.core c
  if sysn ≤ 5 then Map.getD k.stalls ((g * 4096 + imm) * 8 + sysn) 0
  else if 0x10 ≤ sysn && sysn ≤ 0x17 then s.histRead c g (sysn - 0x10) imm
  else if sysn = 0x20 then (s.now + 2 ^ 64 - k.cyclesAt % 2 ^ 64) % 2 ^ 64
  else Map.getD k.counters (sysn * 4096 + imm) 0

/-- The code of a die's state (R148). -/
def DieState.code : DieState → Nat
  | .off => 0
  | .quarantined => 1
  | .attesting => 2
  | .active => 3
  | .draining => 4
  | .halted => 5

/-- CORE.CARAFE_BIND (R148). -/
def Carafe.word (y : Carafe) : Nat :=
  2 ^ 31 + b2n y.linger.isSome * 2 ^ 30 + y.graph % 256 * 2 ^ 22 + y.block % 4096 * 2 ^ 10 + y.recs.length % 512

/-- LINK.KEY_INDEX (R148): ROLLS as the sender counts it at the sending die, and as the receiver does elsewhere (DEDUCED, assumption
57). -/
def LinkDir.word (l : LinkDir) (sender : Bool) : Nat := (if sender then l.rolls else l.rxRolls) % 65536 * 2 ^ 16 + b2n l.drainPend * 4 + l.rxIdx % 2 * 2 + l.txIdx % 2

/-- A register that SYSWR writes, of a core where each has its own (R147). -/
def eventKey (c sysn : Nat) : Nat := if sysn = 1 then 4096 * (c + 1) + 1 else sysn

/-- An event changes a register in this cycle (R146). -/
def State.byEvent (s : State) (c sysn : Nat) : State := { s with eventAt := Map.put s.eventAt (eventKey c sysn) (s.now + 1) }

/-- Whether an event has changed a register in this cycle (R146). -/
def State.eventNow (s : State) (c sysn : Nat) : Bool := Map.getD s.eventAt (eventKey c sysn) 0 == s.now + 1

/-- DIE.DEBUG_HOLD (R148). -/
def State.holdWord (s : State) : Nat := s.debugHold.foldl (fun a d => a + 2 ^ d) 0

/-- A system register as a core reads it in an address space (R145, R147). -/
def State.sysRead (s : State) (c asid n : Nat) : Nat :=
  let k := s.core c
  if n = 0x000 then fpOf c 0
  else if n = 0x001 then k.sramPart.toNat
  else if n = 0x002 then k.syswrStatus.toNat
  else if 0x100 ≤ n && n < 0x140 then
    (match Map.find? k.carafes (n - 0x100) with
      | some y => (match y.timer with | some t => t - s.now | none => 0)
      | none => 0)
  else if 0x140 ≤ n && n < 0x180 then
    (match Map.find? k.carafes (n - 0x140) with | some y => y.word | none => 0)
  else if 0x200 ≤ n && n < 0x300 then (match s.graph? (n - 0x200) with | some g => g.round | none => Map.getD s.control.freeRounds (n - 0x200) 0)
  else if 0x300 ≤ n && n < 0x400 then (match s.graph? (n - 0x300) with | some g => g.trap.toNat | none => 0)
  else if 0x400 ≤ n && n < 0x420 then (s.die (n - 0x400)).state.code
  else if 0x420 ≤ n && n < 0x440 then (s.die (n - 0x420)).incarnation
  else if n = 0x440 then s.holdWord
  else if 0x500 ≤ n && n < 0x600 then (s.die (dieOf c)).view asid (n - 0x500)
  else if 0x600 ≤ n && n < 0x700 then (s.die (dieOf c)).gen asid (n - 0x600)
  else if 0x700 ≤ n && n < 0x72C then (Map.getD s.links (n - 0x700) LinkDir.reset).word (senderOf (n - 0x700) == dieOf c)
  else if n = 0x800 then s.chipId
  else if n = 0x801 then s.powerCap
  else if n = 0x802 then s.drainLimit
  else if n = 0x804 then s.now % 2 ^ 64
  else 0

/-- A die-table entry (R324). -/
def Die.entry (d : Die) : Nat :=
  min 65535 d.resets * 2 ^ 48 + min 255 d.attFail * 2 ^ 24 + d.lastErr % 256 * 2 ^ 16 + d.incarnation % 256 * 2 ^ 8 + d.state.code

/-- What DIEQ reads of a die (R355): the entry, the digest of certificate slot 0, the measurements, the hold bits. -/
def State.dieRead (s : State) (d item word : Nat) : Nat :=
  match item with
  | 0 => (s.die d).entry / 2 ^ (32 * word) % 2 ^ 32
  | 1 => (nthD 0 (nthD ⟨[], []⟩ (s.die d).certs 0).digest word).toNat
  | 2 => (nthD 0 (s.die d).measures word).toNat
  | _ => s.holdWord

/-! ### The reading instructions -/

/-- A result of n words that every lane below wpop receives (R143, R336). -/
def readForm (s : State) (a : FmtS) (n : Nat) (f : Nat → Warp → View → Nat) : Host.Outcome State Fault Refusal :=
  withWarp s (fun c k w => .next (s.issued c k (w.write w.lanes a.opnd n (fun _ => f c w (s.view c w)))))

/-- HREAD (R340). -/
def execHread (a : FmtS) (s : State) : Host.Outcome State Fault Refusal :=
  readForm s a 1 (fun c w _ => s.histRead c w.graph (a.sysn % 8) (a.imm % 64))

/-- SRDRAW (R346). -/
def execSrdraw (a : FmtS) (s : State) : Host.Outcome State Fault Refusal :=
  readForm s a 1 (fun _ _ x => x.draw 0 (a.imm % 256))

/-- CTRD (R333, R340): performance counters into a pair. -/
def execCtrd (a : FmtS) (s : State) : Host.Outcome State Fault Refusal :=
  readForm s a (if ctrWide a.sysn then 2 else 1) (fun c w _ => s.counterRead c w.graph a.sysn a.imm)

/-- SYSRD (R145 to R147, R347): PKG.TIME into a pair. -/
def execSysrd (a : FmtS) (s : State) : Host.Outcome State Fault Refusal :=
  readForm s a (if a.sysn = 0x804 then 2 else 1) (fun c w _ => s.sysRead c (s.asidOf w) a.sysn)

/-- SYSRD of CORE.SYSWR_STATUS, which the read clears (R147, R149). -/
def execSyswrStatusRead (a : FmtS) (s : State) : Host.Outcome State Fault Refusal :=
  withWarp s (fun c k w =>
    let v := (s.core c).syswrStatus.toNat
    let s1 := s.setCore c { s.core c with syswrStatus := 0 }
    .next (s1.issued c k (w.write w.lanes a.opnd 1 (fun _ => v))))

/-- DIEQ (R355). -/
def execDieq (a : FmtS) (s : State) : Host.Outcome State Fault Refusal :=
  readForm s a 1 (fun _ _ _ => s.dieRead (a.sysn % 32) (a.imm % 4) (bits a.imm 2 4))

/-! ### The instructions that act at commit -/

/-- An instruction leaves an act for its block's commit, unless its check at issue fails (R336). -/
def actForm (s : State) (ok : Nat → Warp → View → Bool) (f : View → AtCommit) : Host.Outcome State Fault Refusal :=
  withWarp s (fun c k w =>
    let x := s.view c w
    if ok c w x then .next (s.issued c k { w with acts := w.acts ++ [f x] })
    else .next (s.takeWarpFault c k w 0x02 0))

/-- The eight words of the descriptor that OPND names (R336). -/
def View.descS (x : View) (a : FmtS) : List Word := x.w.descriptor (Sel.kIndex a.opnd)

/-- Word i of a descriptor. -/
def descWord (d : List Word) (i : Nat) : Nat := (nthD 0 d i).toNat
/-- Words i and i+1 of a descriptor as 64 bits. -/
def descPair (d : List Word) (i : Nat) : Nat := descWord d i + 2 ^ 32 * descWord d (i + 1)

/-- Whether a graph may bind a channel of a core (R339): it is not VALID, or already the graph's. -/
def State.channelFree (s : State) (c g ch : Nat) : Bool :=
  let h := Map.getD (s.core c).hists ch Hist.reset
  !h.valid || h.graph == g

/-- HBIND (R339): filter 11 and another graph's channel fail at issue. -/
def execHbind (a : FmtS) (s : State) : Host.Outcome State Fault Refusal :=
  actForm s (fun c w _ => a.imm % 4 != 3 && s.channelFree c w.graph (a.sysn % 8)) (fun _ => .hbind (a.sysn % 8) (a.imm % 4))

/-- HBIND with its release bit set (R339). -/
def execHbindRelease (a : FmtS) (s : State) : Host.Outcome State Fault Refusal :=
  actForm s (fun _ _ _ => true) (fun _ => .hbindRelease (a.sysn % 8))

/-- HCLR (R341). -/
def execHclr (a : FmtS) (s : State) : Host.Outcome State Fault Refusal :=
  actForm s (fun _ _ _ => true) (fun _ => .hclr (a.sysn % 256))

/-- TRON (R342): a ring address that is not 64 KiB aligned or lies outside the address space fails at issue. -/
def execTron (a : FmtS) (s : State) : Host.Outcome State Fault Refusal :=
  actForm s (fun _ _ x => x.rd 0 2 a.opnd % 65536 == 0 && decide (x.rd 0 2 a.opnd < 2 ^ 56))
    (fun x => .tron (x.rd 0 2 a.opnd) (a.imm % 65536))

/-- TROFF (R343). -/
def execTroff (_ : FmtS) (s : State) : Host.Outcome State Fault Refusal :=
  actForm s (fun _ _ _ => true) (fun _ => .troff)

/-- TRMARK (R344). -/
def execTrmark (a : FmtS) (s : State) : Host.Outcome State Fault Refusal :=
  actForm s (fun _ _ _ => true) (fun x => .trmark (a.imm % 65536) (BitVec.ofNat 32 (x.rd 0 1 a.opnd)))

/-- SRSEED (R345). -/
def execSrseed (a : FmtS) (s : State) : Host.Outcome State Fault Refusal :=
  actForm s (fun _ _ _ => true) (fun x => .srseed (BitVec.ofNat 64 (x.rd 0 2 a.opnd)))

/-- The value of SYSWR: its immediate where OPND is 0x068, else its source (R347). -/
def View.syswrValue (x : View) (a : FmtS) : Nat := if a.opnd.isZero then a.imm else x.rd 0 1 a.opnd

/-- SYSWR (R146, R347). -/
def execSyswr (a : FmtS) (s : State) : Host.Outcome State Fault Refusal :=
  actForm s (fun _ _ _ => true) (fun x => .syswr a.sysn (BitVec.ofNat 32 (x.syswrValue a)))

/-- SYSWR of CORE.SRAM_PART (R146, R149). -/
def execSramPartWrite (a : FmtS) (s : State) : Host.Outcome State Fault Refusal :=
  actForm s (fun _ _ _ => true) (fun x => .syswr 1 (BitVec.ofNat 32 (x.syswrValue a)))

/-- GLOAD (R348). -/
def execGload (a : FmtS) (s : State) : Host.Outcome State Fault Refusal :=
  actForm s (fun _ _ _ => true) (fun x => .gload (x.descS a) a.imm)

/-- GUNLD (R349). -/
def execGunld (a : FmtS) (s : State) : Host.Outcome State Fault Refusal :=
  actForm s (fun _ _ _ => true) (fun x => .gunld (x.rd 0 1 a.opnd % 256) a.imm)

/-- The checks of LAUNCH at issue (R350). -/
def launchOk (d : List Word) : Bool :=
  decide (descWord d 1 ≤ 16777216) && bits (descWord d 0) 8 24 == 0 && bits (descWord d 2) 8 24 == 0 && descWord d 5 == 0
    && descWord d 6 == 0 && descWord d 7 == 0 && !(bitOf (descWord d 2) 6 && bits (descWord d 2) 3 3 == 7)

/-- LAUNCH (R350). -/
def execLaunch (a : FmtS) (s : State) : Host.Outcome State Fault Refusal :=
  actForm s (fun _ _ x => launchOk (x.descS a)) (fun x => .launch (x.descS a) a.imm)

/-- TGEN (R351). -/
def execTgen (a : FmtS) (s : State) : Host.Outcome State Fault Refusal :=
  actForm s (fun _ _ _ => true) (fun x => .tgen (x.rd 0 1 a.opnd % 4096) a.imm)

/-- Whether an owner filter names a die or all dies (R352). -/
def ownerFilterOk (f : Nat) : Bool := decide (f < 8) || f == 0xFF

/-- DIRFL (R352): an owner filter from 8 to 0xFE fails at issue. -/
def execDirfl (a : FmtS) (s : State) : Host.Outcome State Fault Refusal :=
  actForm s (fun _ _ x => ownerFilterOk (bits (descWord (x.descS a) 0) 12 8)) (fun x => .dirfl (x.descS a) a.imm)

/-- PREEMPT (R353). -/
def execPreempt (a : FmtS) (s : State) : Host.Outcome State Fault Refusal :=
  actForm s (fun _ _ _ => true) (fun x => .preempt (x.rd 0 1 a.opnd % 256) a.imm)

/-- RESUME (R353). -/
def execResume (a : FmtS) (s : State) : Host.Outcome State Fault Refusal :=
  actForm s (fun _ _ _ => true) (fun x => .resume (x.rd 0 1 a.opnd % 256) a.imm)

/-- TRET action 0, replay (R354). -/
def execTretReplay (a : FmtS) (s : State) : Host.Outcome State Fault Refusal :=
  actForm s (fun _ _ _ => true) (fun x => .tret 0 (x.descS a) a.imm)

/-- TRET action 1, poison (R354). -/
def execTretPoison (a : FmtS) (s : State) : Host.Outcome State Fault Refusal :=
  actForm s (fun _ _ _ => true) (fun x => .tret 1 (x.descS a) a.imm)

/-- TRET action 2, raise mark (R354). -/
def execTretRaiseMark (a : FmtS) (s : State) : Host.Outcome State Fault Refusal :=
  actForm s (fun _ _ _ => true) (fun x => .tret 2 (x.descS a) a.imm)

/-- TRET action 3, answer (R354). -/
def execTretAnswer (a : FmtS) (s : State) : Host.Outcome State Fault Refusal :=
  actForm s (fun _ _ _ => true) (fun x => .tret 3 (x.descS a) a.imm)

/-- JRNL (R356). -/
def execJrnl (a : FmtS) (s : State) : Host.Outcome State Fault Refusal :=
  actForm s (fun _ _ _ => true) (fun x => .jrnl (a.imm % 65536) (BitVec.ofNat 64 (x.rd 0 2 a.opnd)))

end Sys2Proof.Machine
end

