-- ==== Sys2Proof/Machine/Images.lean ====
section
/-! DEFINITION. Graph images: their layout and GLOAD's checks (R20, R31, R71, R72, R76, R77, R90 to R97, R285, R308). -/
namespace Sys2Proof.Machine

/-! ### Layout (R96, R97) -/

/-- A little-endian number at an offset of some bytes. -/
def leAt (b : List Byte) (ofs n : Nat) : Nat := ofBytes ((b.drop ofs).take n)

/-- The fields of an image's header (R96). -/
structure ImgHead where
  magic : Nat
  version : Nat
  flags : Nat
  nblock : Nat
  nregion : Nat
  nrect : Nat
  prio : Nat
  round : Nat
  resv15 : Nat
  entry : Nat
  identity : Nat
  width : Nat
  seed : Nat
  codeOfs : Nat
  ncode : Nat
  dataOfs : Nat
  ndata : Nat
  relocOfs : Nat
  nreloc : Nat
  resv56 : Nat
  deriving DecidableEq, Repr

def ImgHead.parse (b : List Byte) : ImgHead :=
  { magic := leAt b 0 4, version := leAt b 4 2, flags := leAt b 6 2, nblock := leAt b 8 2, nregion := leAt b 10 2,
    nrect := leAt b 12 1, prio := leAt b 13 1, round := leAt b 14 1, resv15 := leAt b 15 1, entry := leAt b 16 2,
    identity := leAt b 18 2, width := leAt b 20 4, seed := leAt b 24 8, codeOfs := leAt b 32 4, ncode := leAt b 36 4,
    dataOfs := leAt b 40 4, ndata := leAt b 44 4, relocOfs := leAt b 48 4, nreloc := leAt b 52 4, resv56 := leAt b 56 8 }

def ImgHead.rectOfs (h : ImgHead) : Nat := 128 + 96 * h.nblock
def ImgHead.regionOfs (h : ImgHead) : Nat := h.rectOfs + 8 * h.nrect
def ImgHead.tablesEnd (h : ImgHead) : Nat := h.regionOfs + 4 * h.nregion
def ImgHead.codeEnd (h : ImgHead) : Nat := if h.ncode = 0 then h.tablesEnd else h.codeOfs + 8 * h.ncode
def ImgHead.dataEnd (h : ImgHead) : Nat := if h.ndata = 0 then h.codeEnd else h.dataOfs + h.ndata
def ImgHead.relocEnd (h : ImgHead) : Nat := if h.nreloc = 0 then h.dataEnd else h.relocOfs + 8 * h.nreloc

/-- The bytes of an image. No field gives its length: it ends where the part that reaches furthest ends, and the offset of an
empty part is not looked at (DESIGN CHOICE, assumption 79). -/
def ImgHead.size (h : ImgHead) : Nat := max (max h.tablesEnd h.codeEnd) (max h.dataEnd h.relocEnd)

/-- Header words 0 and 1 of a block (R71, R72). -/
def Header.parse (h0 h1 : Nat) : Header :=
  { len := bits h0 58 6, arity := bits h0 54 4, ibase := bits h0 46 8, fill := bits h0 41 5, brewE := bits h0 37 4,
    brewM := bits h0 33 4, gran := bits h0 31 2, wlog := bits h0 28 3, span := bits h0 20 8, prio := bits h0 18 2,
    free := bitOf h0 17, gate := bitOf h0 16, gpath := bits h0 14 2, gslot := bits h0 6 8, hch := bits h0 3 3,
    trace := bitOf h0 2, comb := bitOf h0 1, supv := bitOf h0 0, smask := bits h1 32 32, ccount := bits h1 20 12,
    maxEmit := bits h1 16 4 }

/-- An edge descriptor from its 64 bits (R97). -/
def Edge.parse (x : Nat) : Edge :=
  ⟨bits x 40 8, bits x 32 8, bits x 0 32⟩

def Rect.parse (x : Nat) : Rect := ⟨bits x 0 8, bits x 8 8, bits x 16 8, bits x 24 8, bits x 32 8, bits x 40 8⟩

/-- Byte offset of block entry i. -/
def entryOfs (i : Nat) : Nat := 128 + 96 * i

/-- The edge descriptors of block i as numbers. -/
def imgEdges (b : List Byte) (i : Nat) : List Nat := (List.range 8).map (fun n => leAt b (entryOfs i + 24 + 8 * n) 8)

def imgHeader (b : List Byte) (i : Nat) : Header := Header.parse (leAt b (entryOfs i) 8) (leAt b (entryOfs i + 8) 8)

/-- The code words of block i. -/
def imgCode (h : ImgHead) (b : List Byte) (i : Nat) : List Nat :=
  let w := leAt b (entryOfs i + 16) 4
  (List.range ((imgHeader b i).len + 1)).map (fun n => leAt b (h.codeOfs + 8 * (w + n)) 8)

def imgRects (h : ImgHead) (b : List Byte) : List Nat := (List.range h.nrect).map (fun i => leAt b (h.rectOfs + 8 * i) 8)
def imgRegions (h : ImgHead) (b : List Byte) : List Nat := (List.range h.nregion).map (fun i => leAt b (h.regionOfs + 4 * i) 4)
def imgRelocs (h : ImgHead) (b : List Byte) : List Nat := (List.range h.nreloc).map (fun i => leAt b (h.relocOfs + 8 * i) 8)

/-- Rectangles named by a RECTSET. -/
def rectNums (set n : Nat) : List Nat := (List.range n).filter (fun i => bitOf set i)

/-- Block i of an image. -/
def imgBlock (h : ImgHead) (b : List Byte) (i : Nat) : Block :=
  { hdr := imgHeader b i, edges := (imgEdges b i).map Edge.parse,
    rects := rectNums (leAt b (entryOfs i + 20) 4) h.nrect, code := imgCode h b i }

/-- The constant table with its relocations (R309). -/
def imgConsts (h : ImgHead) (b : List Byte) (privBase : Nat) : List Word :=
  let plain := (List.range 16).map (fun i => BitVec.ofNat 32 (leAt b (64 + 4 * i) 4))
  (imgRelocs h b).foldl (fun cs r =>
    let v := privBase + 0x2000000000 + bits r 32 32
    let k := bits r 0 8
    setNth (setNth cs k (BitVec.ofNat 32 v)) (k + 1) (BitVec.ofNat 32 (v / 2 ^ 32))) plain

/-! ### Faults of the image as a whole (R97) -/

/-- Reasons of one edge descriptor. Bits of LIST that are to be 0 count as reserved (DESIGN CHOICE, assumption 80). -/
def edgeReasons (x : Nat) : List Nat :=
  if bitOf x 39 then
    orReason (bits x 48 16 == 0 && bits x 36 3 == 0) 0x02 ++ orReason (decide (bits x 32 3 ≤ 4) && decide (bits x 40 8 ≤ 4)) 0x12
  else orReason (x == 0) 0x02

def rectReasons (x : Nat) : List Nat :=
  let r := Rect.parse x
  orReason (bits x 48 16 == 0) 0x02
    ++ orReason (decide (r.first ≤ r.last) && decide (r.last ≤ 7) && r.rows != 0 && r.cols != 0 && decide (r.row0 + r.rows ≤ 8)
      && decide (r.col0 + r.cols ≤ 8)) 0x12

def regionReasons (x : Nat) : List Nat := orReason (bits x 16 16 == 0) 0x02 ++ orReason (decide (bits x 8 8 ≤ 3)) 0x12

def relocReasons (x : Nat) : List Nat :=
  orReason (bits x 8 24 == 0) 0x02 ++ orReason (bits x 0 8 % 2 == 0 && decide (bits x 0 8 ≤ 14)) 0x12

/-- Reasons of a block entry beside its header and code. A RECTSET bit at or above NRECT counts as beyond its range, and RECTSET 0 is
taken (R97; DESIGN CHOICE, assumption 103). -/
def entryReasons (h : ImgHead) (b : List Byte) (i : Nat) : List Nat :=
  orReason (leAt b (entryOfs i + 88) 8 == 0) 0x02 ++ (imgEdges b i).flatMap edgeReasons
    ++ orReason (decide (leAt b (entryOfs i + 20) 4 < 2 ^ h.nrect)) 0x12
    ++ orReason (decide (leAt b (entryOfs i + 16) 4 + (imgHeader b i).len + 1 ≤ h.ncode)) 0x12

/-- Reasons of the header: the parts must stand in order, code 8-byte aligned and data 128-byte aligned (R96). Bits of FLAGS that
are to be 0 count as reserved (DESIGN CHOICE, assumption 80). -/
def headReasons (h : ImgHead) (supv : Bool) : List Nat :=
  orReason (h.magic == 0x49474D4C && h.version == 1 && h.resv15 == 0 && h.resv56 == 0 && decide (h.flags < 2)) 0x02
    ++ orReason (bitOf h.flags 0 == supv) 0x11
    ++ orReason (decide (h.prio ≤ 3) && decide (h.round ≤ 6) && decide (1 ≤ h.nblock) && decide (h.nblock ≤ 4096)
      && decide (1 ≤ h.nrect) && decide (h.nrect ≤ 32) && decide (h.nregion ≤ 256) && decide (h.entry < h.nblock)
      && decide (1 ≤ h.width) && decide (h.width ≤ 16777216) && h.identity != 0
      && (h.ncode == 0 || (h.codeOfs % 8 == 0 && decide (h.tablesEnd ≤ h.codeOfs)))
      && (h.ndata == 0 || (h.dataOfs % 128 == 0 && decide (h.codeEnd ≤ h.dataOfs)))
      && (h.nreloc == 0 || decide (h.dataEnd ≤ h.relocOfs))) 0x12

/-- The entries of a table of an image whose bytes have been read, n entries of some bytes each from an offset on. -/
def itemsRead (has : Nat → Nat → Bool) (ofs size : Nat) (items : List Nat) : List Nat :=
  ((items.zipIdx).filter (fun p => has (ofs + size * p.2) size)).map (fun p => p.1)

/-- The reason of the lowest fault of the image as a whole, for a load that asks for a supervisor graph or not, in those of its bytes
that have been read (R97). -/
def imageReason (h : ImgHead) (b : List Byte) (supv : Bool) (has : Nat → Nat → Bool) : Option Nat :=
  leastReason (headReasons h supv ++ ((List.range h.nblock).filter (fun i => has (entryOfs i) 96)).flatMap (entryReasons h b)
    ++ (itemsRead has h.rectOfs 8 (imgRects h b)).flatMap rectReasons
    ++ (itemsRead has h.regionOfs 4 (imgRegions h b)).flatMap regionReasons ++ (itemsRead has h.relocOfs 8 (imgRelocs h b)).flatMap relocReasons)

/-! ### Checks of a block (R77) -/

/-- Whether a word is a writing instruction, by its opcode (R210). -/
def writesWord (w : Nat) : Bool :=
  let op := bits w 56 8
  (decide (0x85 ≤ op) && decide (op ≤ 0x8A)) || op == 0x8D || (decide (0x90 ≤ op) && decide (op ≤ 0x9A))

/-- What a word adds to the emit count of a lane (R285). -/
def emitCount (w : Nat) : Nat :=
  match bits w 56 8 with
  | 0x00 | 0x01 | 0x02 | 0x03 | 0x06 | 0x09 | 0x0A => 1
  | 0x04 => bits w 0 3 + 1
  | _ => 0

/-- LSIDs of writing words, with the word number of each. -/
def writeLsids (code : List Nat) : List (Nat × Nat) :=
  (code.zipIdx).filterMap (fun p => if writesWord p.1 then some (bits p.1 47 5, p.2 + 2) else none)

/-- The words that repeat a writing LSID, with reason 0x0D. -/
def repeats : List (Nat × Nat) → List Nat → List (Nat × Nat)
  | [], _ => []
  | (l, w) :: t, seen => (if seen.contains l then [(w, 0x0D)] else []) ++ repeats t (l :: seen)

/-- The word at which the emit count passes its limit, if any, with reason 0x0E. -/
def emitOver (limit : Nat) : List (Nat × Nat) → Nat → List (Nat × Nat)
  | [], _ => []
  | (n, w) :: t, sum => if limit < sum + n then [(w, 0x0E)] else emitOver limit t (sum + n)

/-- Whether a word is FALLOC, SPAWN or SPAWNQ. -/
def spawnsWord (w : Nat) : Bool := let op := bits w 56 8; op == 0x05 || op == 0x07 || op == 0x08

/-- FALLOC, SPAWN and SPAWNQ beyond the sixteenth of a block, with reason 0x0C (R305). -/
def spawnOver (code : List Nat) : List (Nat × Nat) :=
  (((code.zipIdx).filter (fun p => spawnsWord p.1)).drop 16).map (fun p => (p.2 + 2, 0x0C))

/-- Header checks of a block: word and reason. -/
def headerChecks (h1 : Nat) (h : Header) (supv : Bool) : List (Nat × Nat) :=
  (orReason (bits h1 0 16 == 0) 0x02).map (fun r => (1, r))
    ++ (orReason (h.arity != 0 && decide (h.wlog ≤ 4) && (h.span != 0 || h.wlog == 0)
      && (h.gate || (h.gpath == 0 && h.gslot == 0))
      && decide (h.ibase + (if h.span = 0 then 0 else (2 ^ h.wlog - 1) * h.span) + h.arity - 1 ≤ 255)) 0x0F).map (fun r => (0, r))
    ++ (orReason (h.comb == (h.ccount != 0)) 0x10).map (fun r => (1, r))
    ++ (orReason (!h.supv || supv) 0x11).map (fun r => (0, r))

/-- All failing checks of one block: word and reason (R77). -/
def blockChecks (hd : ImgHead) (b : List Byte) (supv : Bool) (i : Nat) : List (Nat × Nat) :=
  let h := imgHeader b i
  let code := imgCode hd b i
  let ctx : BlockCtx := ⟨h.gran + 1, hd.nblock, (imgEdges b i).map (fun x => bitOf x 39), h.supv && supv⟩
  let ls := writeLsids code
  headerChecks (leAt b (entryOfs i + 8) 8) h supv
    ++ (code.zipIdx).flatMap (fun p => (wordReasons ctx p.1).map (fun r => (p.2 + 2, r)))
    ++ repeats ls []
    ++ (if h.smask = (ls.foldl (fun s p => insSet s p.1) []).foldl (fun a l => a + 2 ^ l) 0 then [] else [(1, 0x0D)])
    ++ spawnOver code ++ emitOver (h.maxEmit + 1) ((code.zipIdx).map (fun p => (emitCount p.1, p.2 + 2))) 0

/-- Whether one report comes before another: the lower word, then the lower reason. -/
def reportLe (a b : Nat × Nat) : Bool := decide (a.1 < b.1) || (a.1 == b.1 && decide (a.2 ≤ b.2))

def firstReport : List (Nat × Nat) → Option (Nat × Nat)
  | [] => none
  | x :: t => match firstReport t with
    | none => some x
    | some y => if reportLe x y then some x else some y

/-! ### Code stores and block tables (R308) -/

/-- Cores of a block of an image. -/
def blockCores (rects : List Rect) (rs : List Nat) : List Nat :=
  (List.range 512).filter (fun c => rs.any (fun n => match rects[n]? with | some r => r.holds c | none => false))

/-- Code words and block-table entries that the loaded graphs hold on a core. -/
def State.codeOn (s : State) (c : Nat) : Nat × Nat :=
  s.graphs.foldl (fun a g => (g.2.blocks.zipIdx).foldl (fun x p =>
    if s.inBlockRects g.1 p.2 c then (x.1 + p.1.code.length, x.2 + 1) else x) a) (0, 0)

/-- The lowest-indexed block whose placement first takes some core past its limits. -/
def overflowAt (rects : List Rect) : List (Block × Nat) → Map (Nat × Nat) → Option Nat
  | [], _ => none
  | (y, i) :: t, use =>
    let cs := blockCores rects y.rects
    let use1 := cs.foldl (fun m c =>
      let u := Map.getD m c (0, 0)
      Map.put m c (u.1 + y.code.length, u.2 + 1)) use
    if cs.any (fun c => let u := Map.getD use1 c (0, 0); decide (8192 < u.1) || decide (1024 < u.2)) then some i
    else overflowAt rects t use1

/-- The first report of the blocks of an image: block, word and reason (R77). -/
def firstBlock (full : Option Nat) (check : Nat → List (Nat × Nat)) : Nat → Nat → Option (Nat × Nat × Nat)
  | 0, _ => none
  | n + 1, i =>
    match firstReport (check i ++ (if full = some i then [(0, 0x12)] else [])) with
    | some x => some (i, x)
    | none => firstBlock full check n (i + 1)

/-- Whether a block's entry and its code have been read. -/
def blockRead (h : ImgHead) (b : List Byte) (has : Nat → Nat → Bool) (i : Nat) : Bool :=
  has (entryOfs i) 96 && has (h.codeOfs + 8 * leAt b (entryOfs i + 16) 4) (8 * ((imgHeader b i).len + 1))

/-- GLOAD's report on an image, if it refuses it: block, word and reason, in what has been read of it (R77, R97). -/
def State.imageReport (s : State) (b : List Byte) (supv : Bool) (has : Nat → Nat → Bool) : Option (Nat × Nat × Nat) :=
  let h := ImgHead.parse b
  match imageReason h b supv has with
  | some r => some (0, 127, r)
  | none =>
    let rects := (imgRects h b).map Rect.parse
    let blocks := (List.range h.nblock).map (imgBlock h b)
    let use : Map (Nat × Nat) := (List.range 512).map (fun c => (c, s.codeOn c))
    let full := if (List.range h.nblock).all (blockRead h b has) then overflowAt rects (blocks.zipIdx) use else none
    firstBlock full (fun i => if blockRead h b has i then blockChecks h b supv i else []) h.nblock 0

end Sys2Proof.Machine
end

