-- ==== Sys2Proof/Machine/Journal.lean ====
section
/-! DEFINITION. The journal, status messages, credits, and how a host command ends (R334, R356, R372 to R380). -/
namespace Sys2Proof.Machine

/-! ### The journal (R334, R379, R380) -/

/-- Records of the journal ring (R379). -/
def journalSlots : Nat := 4194304

/-- Whether the CHECK of a slot's record is good in a stack's copy (R379). -/
def Control.copyGood (c : Control) (st slot : Nat) : Bool := !c.journalBad.contains (st, slot)

/-- Whether the control die's SRAM mirrors a record (R379). -/
def Control.mirrors (c : Control) (seq : Nat) : Bool := decide (c.mirrorFrom ≤ seq) && decide (c.seq ≤ seq + 4096) && !c.mirrorLost.contains seq

/-- A record written to both copies of the ring, whose slot is then good in both (R379). -/
def Control.writeRec (c : Control) (r : JRec) : Control :=
  { c with journal := Map.put c.journal r.seq r, mirrorLost := delSet c.mirrorLost r.seq, journalBad := c.journalBad.filter (fun p => p.2 != r.seq % journalSlots) }

/-- A record enters the ring, or is rewritten in place; the record of its slot that is a ring older is gone (R379). -/
def State.journalPut (s : State) (r : JRec) : State :=
  { s with control := Control.writeRec { s.control with journal := Map.del s.control.journal (r.seq - journalSlots) } r }

/-- An empty record with the next sequence number, accepted now (R334, R380). -/
def State.newRec (s : State) (kind command : Nat) : JRec :=
  { tag := 0, result := 0, tEnd := 0, tStart := 0, tAccept := s.now, seq := s.control.seq, asid := 0, cause := 0,
    state := .accepted, queue := 0, kind := kind, command := command }

/-- A record appended under the next sequence number (R334). -/
def State.journalAppend (s : State) (r : JRec) : State :=
  let s1 := s.journalPut r
  { s1 with control := { s1.control with seq := s1.control.seq + 1 } }

/-- A record changed in place. -/
def State.journalSet (s : State) (seq : Nat) (f : JRec → JRec) : State :=
  match Map.find? s.control.journal seq with
  | none => s
  | some r => { s with control := s.control.writeRec (f r) }

/-- JRNL at commit (R356): a record of kind 1, completed. -/
def State.jrnlAct (s : State) (code : Nat) (v : DWord) : State :=
  s.journalAppend { s.newRec 1 code with result := v, tStart := s.now, tEnd := s.now, state := .completed }

/-! ### Status messages and credits (R372, R373, R378) -/

/-- The live sessions, the one established earliest first. -/
def Control.liveSessions (c : Control) : List Session := c.sessions.filter (fun x => x.live)

/-- The 64 bytes of a status message (R378). A grant of 256 credits does not fit its byte, which then holds 0 (DESIGN CHOICE,
assumption 95). -/
def Status.bytes (m : Status) : List Byte :=
  toBytes 8 m.seq ++ toBytes 8 m.tag.toNat ++ toBytes 8 m.result.toNat ++ toBytes 1 m.queue ++ toBytes 1 m.state ++ toBytes 1 m.credits
    ++ List.replicate 37 0

/-- A status message is sent while a session exists; else it waits, the oldest of more than 4,096 dropped and counted. -/
def State.pushStatus (s : State) (m : Status) : State :=
  let c := s.control
  match c.liveSessions with
  | x :: _ =>
    let dest := if c.sessions.any (fun y => y.live && y.id == m.session) then m.session else x.id
    { s with control := { c with statusOut := c.statusOut ++ [{ m with session := dest }] } }
  | [] =>
    let held := c.statusHeld ++ [m]
    if held.length ≤ 4096 then { s with control := { c with statusHeld := held } }
    else State.countDie { s with control := { c with statusHeld := held.drop 1 } } 18 0 1

/-- Credits of a queue given to a session. -/
def Control.addCredit (c : Control) (session queue n : Nat) : Control :=
  { c with sessions := c.sessions.map (fun x =>
      if x.id == session then { x with credits := Map.putD 0 x.credits queue (Map.getD x.credits queue 0 + n) } else x) }

/-- Free credits of a queue: those that no live session holds and no command in the queue has spent (R373). -/
def Control.pool (c : Control) (queue : Nat) : Nat :=
  256 - (c.liveSessions.foldl (fun a x => a + Map.getD x.credits queue 0) 0 + (Map.getD c.queues queue []).length)

/-- Free credits of a queue granted to the live session established earliest, in a credit-grant message (R373, R378). -/
def State.grantPool (s : State) (queue : Nat) : State :=
  match s.control.liveSessions with
  | [] => s
  | x :: _ =>
    let n := s.control.pool queue
    if n = 0 then s
    else State.pushStatus { s with control := s.control.addCredit x.id queue n } ⟨0, 0, 0, queue, 6, n, x.id⟩

def State.grantAll (s : State) : State := (List.range 64).foldl State.grantPool s

/-- The status messages that waited are sent (R372). -/
def State.sendStatusHeld (s : State) : State :=
  s.control.statusHeld.foldl State.pushStatus { s with control := { s.control with statusHeld := [] } }

/-! ### How a command ends (R375, R376, R378) -/

def CmdState.code : CmdState → Nat
  | .accepted => 0
  | .started => 1
  | .completed => 2
  | .discarded => 3
  | .failed => 4

/-- The queue of a host command (R374). -/
def HostCommand.queueOf (c : HostCommand) : Nat := c.queue % 64

/-- Waiting device-side launches enter the launch queue as it has room (R264). -/
def Control.refill (c : Control) : Control :=
  let n := 64 - c.launchQ.length
  { c with launchQ := c.launchQ ++ c.launchWait.take n, launchWait := c.launchWait.drop n }

/-- A command ends: it leaves its queue, its record takes its end, its credit goes back to its session or the pool, and
its status message is sent. -/
def State.closeCmd (s : State) (seq : Nat) (x : Cmd) (st : CmdState) (cause : Nat) (result : DWord) : State :=
  let q := (HostCommand.queueOf x.cmd)
  let s1 := s.journalSet seq (fun r => { r with state := st, cause := cause, result := result, tEnd := s.now })
  let c := s1.control
  let alive := c.sessions.any (fun y => y.live && y.id == x.session)
  let bound := (c.binds.filter (fun p => p.2 == seq)).map (fun p => p.1)
  let c1 : Control := Control.refill { c with
    queues := Map.put c.queues q (delSet (Map.getD c.queues q []) seq), cmds := Map.del c.cmds seq
    launchQ := c.launchQ.filter (fun n => x.launch != some n)
    bindLost := if st = .discarded then uniSet c.bindLost bound else c.bindLost }
  let c2 := if alive then c1.addCredit x.session q 1 else c1
  let s2 := State.pushStatus { s1 with control := c2 } ⟨seq, x.cmd.tag, result, q, st.code, b2n alive, x.session⟩
  if alive then s2 else s2.grantPool q

/-- The waiters of a discarded command are discarded with cause 4, and so are theirs (R375). -/
def discardWaiters : Nat → List Nat → State → State
  | 0, _, s => s
  | _, [], s => s
  | fuel + 1, seq :: rest, s =>
    let ws := (s.control.cmds.filter (fun p => p.2.waits.contains seq)).map (fun p => p.1)
    let s1 := ws.foldl (fun a w =>
      match Map.find? a.control.cmds w with
      | none => a
      | some x => a.closeCmd w x .discarded 4 0) s
    discardWaiters fuel (rest ++ ws) s1

/-- A command is discarded with a cause, and its waiters with it. -/
def State.discardCmd (s : State) (seq cause : Nat) : State :=
  match Map.find? s.control.cmds seq with
  | none => s
  | some x => discardWaiters (s.control.cmds.length + 1) [seq] (s.closeCmd seq x .discarded cause 0)

/-- A command ends as completed or failed: its event is signalled, so that its waiters no longer wait for it. -/
def State.finishCmd (s : State) (seq : Nat) (x : Cmd) : State :=
  let s1 := s.closeCmd seq x (if x.fails then .failed else .completed) 0 x.result
  { s1 with control := { s1.control with cmds := Map.mapVals (fun _ y => { y with waits := delSet y.waits seq }) s1.control.cmds } }

/-- A command's effect has been made: it may end with a result. -/
def State.readyCmd (s : State) (seq : Nat) (fails : Bool) (result : Nat) : State :=
  match Map.find? s.control.cmds seq with
  | none => s
  | some x => { s with control := { s.control with
      cmds := Map.put s.control.cmds seq { x with ready := true, fails := fails, result := BitVec.ofNat 64 result } } }

/-- COMMAND_END (R375, R378). -/
def execCommandEnd (seq : Nat) (s : State) : Host.Outcome State Fault Refusal :=
  match Map.find? s.control.cmds seq with
  | none => .next s
  | some x => .next (if x.ready then s.finishCmd seq x else s)

/-! ### Acceptance and start (R263, R264, R373, R375) -/

/-- Body word i of a command (R374). -/
def HostCommand.b (c : HostCommand) (i : Nat) : Nat := (nthD 0 c.body i).toNat

/-- Whether a command names a die that no package has (R2); 31 stands for every die in H_ATTEST. -/
def HostCommand.namesNoDie (c : HostCommand) : Bool :=
  let d := HostCommand.b c (if c.opcode = 11 then 1 else 0) % 32
  decide (19 ≤ d) && (match c.opcode with
    | 7 => decide (bits (HostCommand.b c 0) 8 8 < 2)
    | 9 => true
    | 10 => d != 31
    | 11 => decide (HostCommand.b c 0 % 16 < 2)
    | _ => false)

/-- Whether a command's own fields are legal: a known opcode, reserved fields 0, events below 4,096, and a launch
descriptor that LAUNCH would not refuse at issue, a copy kind, query item and die that the command has. -/
def HostCommand.legal (c : HostCommand) : Bool :=
  decide (1 ≤ c.opcode) && decide (c.opcode ≤ 12) && c.reserved == 0 && decide (c.wait0 < 4096) && decide (c.wait1 < 4096)
    && decide (c.signal < 4096) && decide (c.queue < 64)
    && (c.opcode != 7 || bits (HostCommand.b c 0) 16 16 == 0) && (c.opcode != 3 || launchOk c.body)
    && (c.opcode != 4 || HostCommand.b c 0 % 4 != 3) && (c.opcode != 7 || decide (bits (HostCommand.b c 0) 8 8 < 3))
    && (c.opcode != 9 || decide (HostCommand.b c 0 % 32 < 18)) && (c.opcode != 10 || decide (HostCommand.b c 0 % 32 < 19) || HostCommand.b c 0 % 32 == 31)

/-- The commands that a new one waits for, and whether one of them was discarded (R375). -/
def Control.waitsOf (c : Control) (evs : List Nat) : List Nat × Bool :=
  evs.foldl (fun a e =>
    if e = 0 then a
    else match Map.find? c.binds e with
      | none => a
      | some seq =>
        if (Map.find? c.cmds seq).isSome then (insSet a.1 seq, a.2) else (a.1, a.2 || c.bindLost.contains e)) ([], false)

/-- A host command from its 64 bytes (R374). -/
def HostCommand.parse (bytes : List Byte) : HostCommand :=
  let w := ofBytes bytes
  { opcode := bits w 0 8, queue := bits w 8 6, reserved := bits w 14 14, signal := bits w 28 12, wait0 := bits w 40 12, wait1 := bits w 52 12
    body := (List.range 12).map (fun i => BitVec.ofNat 32 (w / 2 ^ (64 + 32 * i))), tag := BitVec.ofNat 64 (w / 2 ^ 448) }

/-- The 64 bytes of a host command (R374). -/
def HostCommand.bytes (c : HostCommand) : List Byte :=
  toBytes 8 (c.opcode % 2 ^ 8 + c.queue % 2 ^ 6 * 2 ^ 8 + c.reserved % 2 ^ 14 * 2 ^ 14 + c.signal % 2 ^ 12 * 2 ^ 28 + c.wait0 % 2 ^ 12 * 2 ^ 40
    + c.wait1 % 2 ^ 12 * 2 ^ 52) ++ (List.range 12).flatMap (fun i => toBytes 4 (HostCommand.b c i)) ++ toBytes 8 c.tag.toNat

/-- Whether the last step of the bring-up is done: the chip id and the reachable set are set, a domain key is installed, and a fabric
port has trained (R377, R394). The host's own H_CONFIGURE commands are accepted before (DESIGN CHOICE, assumption 101). -/
def State.configured (s : State) : Bool := s.control.chipSet && !s.domainKeys.isEmpty && s.control.trained

/-- COMMAND_ACCEPT (R2, R372 to R375, R394): without a session, before the bring-up is done, or where it names a die that no
package has, a command is discarded; a command that is not legal or has no credit is refused; else it is journalled, binds its
event and enters its queue. -/
def execCommandAccept (session : Nat) (bytes : List Byte) (s : State) : Host.Outcome State Fault Refusal :=
  let c := s.control
  let cmd := HostCommand.parse bytes
  match c.sessions.find? (fun x => x.live && x.id == session) with
  | none => .next s
  | some se =>
    let q := (HostCommand.queueOf cmd)
    if !c.ready || (cmd.opcode != 12 && !s.configured) || HostCommand.namesNoDie cmd then .next s
    else if !HostCommand.legal cmd || Map.getD se.credits q 0 = 0 then .next (s.pushStatus ⟨0, cmd.tag, 0, q, 7, 0, session⟩)
    else
      let seq := c.seq
      let w := c.waitsOf [cmd.wait0, cmd.wait1]
      let s1 := s.journalAppend { s.newRec 0 cmd.opcode with tag := cmd.tag, queue := q }
      let x : Cmd := { cmd := cmd, session := session, state := .accepted, waits := w.1, ready := false, fails := false, cause := 0,
                       result := 0, launch := none, step := 0 }
      let c1 := { s1.control with
        sessions := s1.control.sessions.map (fun y =>
          if y.id == session then { y with credits := Map.putD 0 y.credits q (Map.getD y.credits q 0 - 1) } else y)
        queues := Map.put s1.control.queues q (Map.getD s1.control.queues q [] ++ [seq])
        cmds := Map.put s1.control.cmds seq x
        binds := if cmd.signal = 0 then s1.control.binds else Map.put s1.control.binds cmd.signal seq
        bindLost := delSet s1.control.bindLost cmd.signal }
      let s2 := State.pushStatus { s1 with control := c1 } ⟨seq, cmd.tag, 0, q, 0, 0, session⟩
      .next (if w.2 then s2.discardCmd seq 4 else s2)

/-- Launch commands that have started, and have their place in the launch queue, and whose launch has not been made. -/
def Control.startedLaunches (c : Control) : List Nat :=
  (c.cmds.filter (fun p => p.2.cmd.opcode == 3 && decide (p.2.state = .started) && !p.2.ready
    && (match p.2.launch with | some n => (Map.find? c.launches n).isNone | none => true))).map (fun p => p.1)

/-- Whether the launch queue has room for one more launch, and no device-side launch waits (R264). -/
def Control.launchRoom (c : Control) : Bool := decide (c.launchQ.length < 64) && c.launchWait.isEmpty

/-- The command of a queue that may start: its head, not started, waiting for nothing (R263). -/
def Control.startable (c : Control) (q : Nat) : Option Nat :=
  match Map.getD c.queues q [] with
  | [] => none
  | seq :: _ =>
    match Map.find? c.cmds seq with
    | none => none
    | some x =>
      if decide (x.state = .accepted) && x.waits.isEmpty && (x.cmd.opcode != 3 || c.launchRoom) then some seq else none

/-- The queue served first: highest priority, then lowest number (R263). -/
def Control.firstQueue (c : Control) : List Nat → Option (Nat × Nat)
  | [] => none
  | q :: t =>
    match c.startable q, c.firstQueue t with
    | none, r => r
    | some seq, none => some (q, seq)
    | some seq, some (q', seq') =>
      if Map.getD c.queuePrio q' 0 ≤ Map.getD c.queuePrio q 0 then some (q, seq) else some (q', seq')

/-- A launch command takes its launch's place in the launch queue as it starts (R264). -/
def Control.placeLaunch (c : Control) (seq : Nat) (x : Cmd) : Control :=
  if x.cmd.opcode = 3 then
    { c with
      launchQ := c.launchQ ++ [c.nextLaunch], nextLaunch := c.nextLaunch + 1
      cmds := Map.put c.cmds seq { x with state := .started, launch := some c.nextLaunch } }
  else { c with cmds := Map.put c.cmds seq { x with state := .started } }

/-- COMMAND_START (R263, R264, R369): no command starts while the queues are paused. -/
def execCommandStart (s : State) : Host.Outcome State Fault Refusal :=
  let c := s.control
  if c.paused then .next s
  else match c.firstQueue (List.range 64) with
    | none => .next s
    | some (_, seq) =>
      match Map.find? c.cmds seq with
      | none => .next s
      | some x =>
        let s1 := s.journalSet seq (fun r => { r with state := .started, tStart := s.now })
        .next { s1 with control := s1.control.placeLaunch seq x }

/-- A host command that has started and whose effect has not been made, of an opcode. -/
def State.running (s : State) (seq opcode : Nat) : Option Cmd :=
  match Map.find? s.control.cmds seq with
  | none => none
  | some x => if decide (x.state = .started) && !x.ready && x.cmd.opcode == opcode then some x else none

def State.setCmd (s : State) (seq : Nat) (x : Cmd) : State :=
  { s with control := { s.control with cmds := Map.put s.control.cmds seq x } }

end Sys2Proof.Machine
end

