-- ==== Sys2Proof/Machine/Load.lean ====
section
/-! DEFINITION. What control firmware reads and writes in memory, and the loading of graphs (R149, R308 to R314, R348). -/
namespace Sys2Proof.Machine

/-! ### Memory as control firmware reaches it -/

/-- A range as control firmware reads it for a graph (256: for the host): at the homes, and by request from other chips. -/
def State.ctlRead (s : State) (g asid ident va n : Nat) : ReadNow :=
  match s.readNow 0 g asid ident false true va n with
  | .fault _ 0 _ => s.readNow 0 g asid ident false false va n
  | r => r

/-- What a write by control firmware meets: a recall to wait for, a fault, or its end. -/
inductive WriteNow where
  | busy (s : State)
  | fault (s : State) (ofs : Nat)
  | done (s : State)

/-- The request that carries a control write to another chip. One of the host's does not park: its fault comes back (R376). -/
def State.ctlReq (s : State) (g asid ident va : Nat) (data : List Byte) (bad : Bool) (cid : Option Nat) : State :=
  s.putReq
    { Req.bare 0 g asid ident va data.length (.store data bad) s.now with cid := cid, hw := decide (g < 256), ask := decide (256 ≤ g) }

/-- The checks of the parts of a control write, none of which is written while one waits or faults: its way is up, and its home
translates it (R47, R49, R319). -/
def State.ctlCheck (s : State) (g asid ident : Nat) : List (Nat × Nat × Nat) → WriteNow
  | [] => .done s
  | p :: t =>
    let h := s.homeOf 0 asid p.2.1
    if h.1 ≠ s.chipId then s.ctlCheck g asid ident t
    else if !s.pathUp (s.trip 0 (8 + h.2)) then .busy s
    else match s.recallFor 0 h.2 asid (lineOf p.2.1) with
      | some s1 => .busy s1
      | none => match s.translate h.2 asid p.2.1 with
        | none => .busy s
        | some (s1, l) =>
          match s.faultOf h.2 g asid ident p.2.1 p.2.2 ⟨false, true, none, false⟩ l with
          | some _ => .fault s1 p.1
          | none => s1.ctlCheck g asid ident t

/-- One part of a checked control write. What the host writes leaves the bytes alone that only the device writes (R7). -/
def State.ctlPut (s : State) (g asid ident : Nat) (cid : Option Nat) (va : Nat) (data : List Byte) (bad : Bool) : State :=
  let h := s.homeOf 0 asid va
  if h.1 ≠ s.chipId then s.ctlReq g asid ident va data bad cid
  else match s.leafAt h.2 asid va false with
    | none => s
    | some l =>
      let pa := s.physOf 0 asid va l
      let skip := if 256 ≤ g then s.deviceOfs asid va data.length else []
      let bytes := keepAt skip (memReads s.mem pa data.length) data
      let s1 := ((s.countTogether (s.trip 0 (8 + h.2)) data.length).atSlice h.2 asid va true false).homeWrite pa bytes bad skip
      s1.touchCopies h.2 asid va bytes (if bad then (List.range data.length).filter (fun i => !skip.contains i) else []) false

/-- A control write of some bytes: checked whole, then made. -/
def State.ctlWrite (s : State) (g asid ident va : Nat) (data : List Byte) (cid : Option Nat) : WriteNow :=
  let ps := lineRun va data.length (data.length / 128 + 2) 0
  match s.ctlCheck g asid ident ps with
  | .done s1 => .done (ps.foldl (fun a p => a.ctlPut g asid ident cid p.2.1 ((data.drop p.1).take p.2.2) false) s1)
  | r => r

/-! ### Region tables (R311, R312, R314) -/

/-- The 256 entries of a region table in memory (R310); carved bytes of the stack are read there like others (DESIGN CHOICE, assumption
123). -/
def State.readRegTab (s : State) (regtab : Nat) : List Region :=
  (List.range 256).map (fun q => Region.parse (memNat s.mem (regtab + 16 * q) 16))

/-- A die takes up a region table and a translation generation. -/
def State.takeUp (s : State) (asid gen : Nat) (tab : List Region) (d : Nat) : State :=
  let x := s.die d
  s.setDie d { x with regTab := Map.put x.regTab asid tab, tgens := Map.putD 0 x.tgens asid gen }

/-- The entries of a table whose keys are asid × 256 + region, without those of an address space. -/
def dropAsid {α : Type} (m : Map α) (asid : Nat) : Map α := m.filter (fun p => p.1 / 256 != asid)

/-- A die without any trace of an address space: its lines, translations, rounds and tables. -/
def Die.forgetAsid (d : Die) (asid : Nat) : Die :=
  { d with
    lines := d.lines.filter (fun l => l.asid != asid), rdc := d.rdc.filter (fun l => l.asid != asid)
    tlb := d.tlb.filter (fun e => e.asid != asid), regTab := Map.del d.regTab asid, tgens := Map.del d.tgens asid
    roundView := dropAsid d.roundView asid, regionGen := dropAsid d.regionGen asid, genBase := dropAsid d.genBase asid
    rounds := dropAsid d.rounds asid }

/-- An address space becomes valid: every compute and base die takes up its region table, at generation 0 (R311, R314). -/
def State.openSpace (s : State) (asid regtab root : Nat) : State :=
  let tab := s.readRegTab regtab
  let s1 := (List.range 16).foldl (fun a d => (a.setDie d ((a.die d).forgetAsid asid)).takeUp asid 0 tab d) s
  { s1 with spaces := Map.put s1.spaces asid ⟨regtab, root, 0⟩ }

/-- The last graph of an address space has gone: the entry, its lines and its translations leave (R311). -/
def State.closeSpace (s : State) (asid : Nat) : State :=
  if s.graphs.any (fun g => g.2.asid == asid) then s
  else
    let s1 := (List.range 16).foldl (fun a d => a.setDie d ((a.die d).forgetAsid asid)) s
    { s1 with spaces := Map.del s1.spaces asid }

/-! ### The load (R348) -/

/-- A load asked for: the descriptor, the space and identity that read the image, the graph that asks (256: the host). -/
structure LoadAsk where
  desc : List Word
  from' : Nat
  asid : Nat
  ident : Nat
  firmware : Bool
  cid : Option Nat
  deriving DecidableEq, Repr

/-- How a load ends. -/
inductive Loaded where
  | busy (s : State)
  | refused (s : State) (result block word : Nat)
  | ok (s : State) (g : Nat)

/-- Whether a descriptor's reserved bits are set (R348). -/
def loadReserved (d : List Word) : Bool :=
  let w2 := descWord d 2
  let p := descWord d 4
  bits w2 14 18 != 0 || bits (descWord d 6) 27 5 != 0 || bits (descWord d 7) 28 4 != 0 || bits p 17 13 != 0
    || (!bitOf w2 13 && bits p 0 17 != 0) || bits (descWord d 3) 28 3 != 0 || bits (descWord d 3) 12 8 != 0

/-- The partition that a descriptor asks for (R148, R348). -/
def askedPart (d : List Word) : Nat × Bool :=
  let p := descWord d 4
  let frame := bits p 0 5
  let stash := bits p 5 6
  let acc := bits p 11 6
  let sum := frame + stash + acc
  (frame + stash * 2 ^ 8 + acc * 2 ^ 16 + (48 - sum) * 2 ^ 24, decide (1 ≤ frame) && decide (frame ≤ 16) && decide (12 ≤ acc) && decide (sum < 48))

/-- Whether a trap word names a block that may take fault records, or none (R348, R358). -/
def State.trapOk (s : State) (trap : Nat) : Bool :=
  if !bitOf trap 31 then true
  else match s.graph? (bits trap 20 8), s.block? (bits trap 20 8) (bits trap 0 12) with
    | some g, some b =>
      decide (g.state = .loaded) && g.supv && b.hdr.arity == 8 && decide (b.hdr.ibase ≤ 8) && b.hdr.span == 0 && !b.hdr.comb && b.hdr.supv
    | _, _ => false

/-- The graph-table entry of an image, in state loading (R307, R309, R348). -/
def graphOf (s : State) (d : List Word) (h : ImgHead) (b : List Byte) (firmware : Bool) : Graph :=
  let asid := bits (descWord d 2) 0 12
  let priv := descPair d 4 / 2 ^ 30 * 2 ^ 30 % 2 ^ 56
  { state := .loading, supv := bitOf (descWord d 2) 12, firmware := firmware, identity := h.identity, asid := asid, privBase := priv,
    hwm := [0, 0, 0, ceilDiv h.ndata 65536 * 65536], dlogBase := (priv + 0x0F00000000) % 2 ^ 56,
    dlogSeq := 0, privRegion := (s.region 0 asid priv).1, traceRing := 0, tracing := false, troffAt := none, resumedAt := none, launches := 0, round := h.round, trap := nthD 0 d 3, seed := BitVec.ofNat 64 h.seed,
    width := h.width, prio := h.prio, level := h.prio, entry := h.entry, consts := imgConsts h b priv, blocks := (List.range h.nblock).map (imgBlock h b),
    rects := (imgRects h b).map Rect.parse, refs := (imgRegions h b).map (fun r => (r % 256, bits r 8 8)), brk := false, spills := [],
    saved := [], savedEng := [], resumeWait := [], saver := none }

/-- The cores of a graph: those on which it has a block. -/
def Graph.cores (g : Graph) : List Nat := blockCores g.rects (uniSet [] (g.blocks.flatMap (fun b => b.rects)))

/-- The header of a dirty-range log: HEAD and TAIL 0, 4,096 entries (R276). -/
def dlogHeader : List Byte := toBytes 16 0 ++ toBytes 4 4096 ++ List.replicate 44 0

/-- The last steps of a load: the graph enters the table, its data and its log header are written, its partition holds
(R149, R276, R348). -/
def State.placeGraph (s : State) (a : LoadAsk) (g : Nat) (x : Graph) (data : List Byte) : Loaded :=
  let s1 := s.setGraph g x
  let refuse := fun (t : State) => Loaded.refused { t with graphs := s.graphs } 0x81 0 0
  match s1.ctlWrite g x.asid x.identity ((x.privBase + 0x2000000000) % 2 ^ 56) data a.cid with
  | .busy s2 => .busy s2
  | .fault s2 _ => refuse s2
  | .done s2 =>
    match s2.ctlWrite g x.asid x.identity x.dlogBase dlogHeader a.cid with
    | .busy s3 => .busy s3
    | .fault s3 _ => refuse s3
    | .done s3 =>
      let cs := x.cores
      let s4 := if bitOf (descWord a.desc 2) 13 then
          cs.foldl (fun b c => (b.setCore c { b.core c with
            sramPart := BitVec.ofNat 32 (askedPart a.desc).1, pendingPart := none }).byEvent c 1) s3
        else s3
      let s5 := cs.foldl (fun b c => b.setCore c { b.core c with stalls := (b.core c).stalls.filter (fun p => p.1 / 32768 != g) }) s4
      let s6 := { s5 with control := { s5.control with freeRounds := Map.del s5.control.freeRounds g } }
      .ok ((s6.setGraph g { x with state := .loaded }).byEvent 0 (0x200 + g)) g

/-- An image as control firmware has read it: its bytes, and the parts of them that faulted, offset, address and length. -/
structure ImgRead where
  st : State
  bytes : List Byte
  lost : List (Nat × Nat × Nat)

/-- The lines of an image read one by one; the bytes of those that fault count as 0. -/
def State.readImg (s : State) (a : LoadAsk) (ps : List (Nat × Nat × Nat)) : ImgRead :=
  ps.foldl (fun x p => match x.st.ctlRead a.from' a.asid a.ident p.2.1 p.2.2 with
    | .data s1 b _ => { x with st := s1, bytes := x.bytes ++ b }
    | .fault s1 _ _ => { st := s1, bytes := x.bytes ++ List.replicate p.2.2 0, lost := x.lost ++ [p] }
    | .busy s1 => { st := s1, bytes := x.bytes ++ List.replicate p.2.2 0, lost := x.lost ++ [p] }) ⟨s, [], []⟩

/-- Whether n bytes of an image from an offset on have been read. -/
def ImgRead.has (x : ImgRead) (ofs n : Nat) : Bool := x.lost.all (fun p => decide (p.1 + p.2.2 ≤ ofs) || decide (ofs + n ≤ p.1))

/-- The checks of a load once its image has been read, lowest step first: what has been read of its tables and its code, then the rest
of both, which no fault may have kept back, then the data section, which has met a fault if it could not be read (R77, R97, R308,
R348; DESIGN CHOICE, assumption 112). -/
def State.checkLoad (s : State) (a : LoadAsk) (i : ImgRead) : Loaded :=
  let d := a.desc
  let b := i.bytes
  let h := ImgHead.parse b
  let whole := (List.range (ceilDiv h.size 4)).all (fun n => i.has (4 * n) 4 || (decide (h.dataOfs ≤ 4 * n) && decide (4 * n < h.dataOfs + h.ndata)))
  match s.imageReport b (bitOf (descWord d 2) 12) i.has with
  | some (blk, word, r) => .refused s r blk word
  | none =>
    if !whole then .refused s 0x81 0 0 else
    let x := graphOf s d h b (a.from' == 256)
    let wantsPart := bitOf (descWord d 2) 13
    if x.supv && !a.firmware then .refused s 0x84 0 0
    else if !s.trapOk (descWord d 3) then .refused s 0x85 0 0
    else if wantsPart && !(askedPart d).2 then .refused s 0x82 0 0
    else if wantsPart && x.cores.any (fun c => decide (0 < (s.codeOn c).2)) then .refused s 0x83 0 0
    else match Map.firstFree s.graphs 256 0 with
      | none => .refused s 0x80 0 0
      | some g => if !i.has h.dataOfs h.ndata then .refused s 0x81 0 0 else s.placeGraph a g x ((b.drop h.dataOfs).take h.ndata)

/-- A load (R348): its address space (which may hold the image too), its image, its checks, its writes; on a refusal nothing is
kept but what its reads did. Where lines of the image fault, the checks take what could be read (R97). Poisoned bytes of an image
count as they stand (DESIGN CHOICE, assumption 98). -/
def State.loadGraph (s : State) (a : LoadAsk) : Loaded :=
  let d := a.desc
  let asid := bits (descWord d 2) 0 12
  let regtab := bits (descWord d 6) 0 27 * 2 ^ 12
  let root := bits (descWord d 7) 0 28 * 2 ^ 11
  let space := Map.find? s.spaces asid
  let mismatch := match space with
    | some p => (regtab != 0 && regtab != p.regtab) || (root != 0 && root != p.root)
    | none => false
  let va := descPair d 0 % 2 ^ 56
  if loadReserved d || mismatch then .refused s 0x02 0 0
  else
    let s0 := if space.isNone then s.openSpace asid regtab root else s
    let undo := fun (x : State) => if space.isNone then { x with spaces := Map.del x.spaces asid } else x
    let told := fun (x : State) (at' : Nat) => x.clearAsk 0 a.from' a.asid at'
    match s0.ctlRead a.from' a.asid a.ident va 128 with
    | .busy s1 => .busy (undo s1)
    | .fault s1 _ at' => .refused (undo (told s1 at')) 0x81 0 0
    | .data s1 head _ =>
    let h := ImgHead.parse head
    if h.magic != 0x49474D4C || h.version != 1 then .refused (undo s1) 0x02 0 127
    else match s0.ctlRead a.from' a.asid a.ident va h.size with
    | .busy s1 => .busy (undo s1)
    | .fault _ _ _ | .data _ _ _ =>
      let i := s0.readImg a (lineRun va h.size (h.size / 128 + 2) 0)
      match (i.lost.foldl (fun t p => told t p.2.1) i.st).checkLoad a i with
      | .refused s2 r blk word => .refused (undo s2) r blk word
      | .busy s3 => .busy { undo s3 with graphs := s.graphs }
      | .ok s3 g => .ok s3 g

end Sys2Proof.Machine
end

