-- ==== Sys2Proof/Machine/Suspend.lean ====
section
/-! DEFINITION. Draining trace buffers, unloading, pre-empting and resuming graphs (R139, R260, R280, R342, R343, R349,
R353, R362, R363). -/
namespace Sys2Proof.Machine

/-! ### The trace ring (R278, R342, R343) -/

/-- Whether any core still holds trace words of a graph. -/
def State.traceHeld (s : State) (g : Nat) : Bool := s.cores.any (fun k => k.2.trace.buf.any (fun p => p.graph == g))

/-- TRACE_RING is cleared once tracing is off and every core has drained (R343). -/
def State.traceEnd (s : State) (g : Nat) : State :=
  match s.graph? g with
  | none => s
  | some x => if x.traces s.now || s.traceHeld g then s else s.setGraph g { x with traceRing := 0 }

/-- The first n words of some, but for a packet that would be cut. -/
def wholePackets (ws : List TraceWord) (n : Nat) : List TraceWord :=
  match ws.drop n with
  | [] => ws
  | w :: _ => if w.first then ws.take n else ws.take (n - 1)

/-- The words of a graph that a core drains in one burst of at most n. -/
def Trace.burst (t : Trace) (g n : Nat) : List TraceWord := wholePackets (t.buf.filter (fun p => p.graph == g)) n

/-- A buffer without the first n words of a graph. -/
def dropWords (g : Nat) : Nat → List TraceWord → List TraceWord
  | _, [] => []
  | 0, ws => ws
  | n + 1, w :: t => if w.graph = g then dropWords g n t else w :: dropWords g (n + 1) t

/-- Packets that begin among some words. -/
def packetsIn (ws : List TraceWord) : Nat := (ws.filter (fun w => w.first)).length

/-- Words of a ring written one by one from a position on, with the packets of which a write faults, each counted once: it is
dropped without a record (R342). `hit` says that the word before has faulted. None where a recall is under way. -/
def State.traceWords (s : State) (g : Nat) (x : Graph) (len : Nat) : Bool → Nat → Nat → List TraceWord → State × Option Nat
  | _, _, lost, [] => (s, some lost)
  | hit, pos, lost, v :: t =>
    match s.ctlWrite g x.asid x.identity (x.traceRing + 64 + 8 * (pos % ((len - 64) / 8))) (toBytes 8 v.word.toNat) none with
    | .done s1 => s1.traceWords g x len false (pos + 1) lost t
    | .fault s1 _ => s1.traceWords g x len true (pos + 1) (lost + b2n (v.first || !hit)) t
    | .busy s1 => (s1, none)

/-- A core's trace buffer after a burst of a graph, with the packets of it that were lost. Where the burst lost none and room for
three words has returned, the LOSS that is due is written, tracing on or off (R278). -/
def State.burstDone (s : State) (c g n lost : Nat) : State :=
  let t := (s.core c).trace
  let t1 := { t with buf := dropWords g n t.buf, lost := t.lost + lost }
  (s.setCore c { s.core c with trace := if lost = 0 then t1.resume g c s.now else t1 }).traceEnd g

/-- A core drains up to n words of a graph in one burst (R342): none while the burst would reach READ, or while a recall is
under way; packets whose write faults count in the next LOSS. -/
def State.drainTrace (s : State) (c g n : Nat) : State :=
  let words := (s.core c).trace.burst g n
  let k := words.length
  match s.graph? g with
  | none => s.burstDone c g k (packetsIn words)
  | some x =>
    if k = 0 then s
    else if x.traceRing = 0 then s.burstDone c g k (packetsIn words)
    else match s.ctlRead g x.asid x.identity x.traceRing 24 with
      | .busy s1 => s1
      | .fault s1 _ va => (s1.clearAsk 0 g x.asid va).burstDone c g k (packetsIn words)
      | .data s1 b _ =>
        let len := leAt b 16 8
        let m := (len - 64) / 8
        let pos := (leAt b 0 8 - 64) / 8
        let used := (pos + m - (leAt b 8 8 - 64) / 8 % m) % m
        if m ≤ used + k then s
        else match s1.traceWords g x len false pos 0 words with
          | (s2, none) => s2
          | (s2, some lost) =>
            match s2.ctlWrite g x.asid x.identity x.traceRing (toBytes 8 (64 + 8 * ((pos + k) % m))) none with
            | .busy s3 => s3
            | .fault s3 _ => s3.burstDone c g k (packetsIn words)
            | .done s3 => s3.burstDone c g k lost

/-- A core drains for the graph of its oldest word; where it holds none, graphs whose tracing is off may be done (R343). -/
def State.drainNext (s : State) (c n : Nat) : State :=
  match (s.core c).trace.buf with
  | w :: _ => s.drainTrace c w.graph n
  | [] => (s.graphs.map (fun p => p.1)).foldl State.traceEnd s

/-- The words of a graph in the buffers of its cores are drained, as far as its ring takes them. -/
def State.drainGraph (s : State) (g : Nat) : State :=
  s.cores.foldl (fun a k => (List.range (k.2.trace.buf.length / 32 + 1)).foldl (fun b _ => b.drainTrace k.1 g 64) a) s

/-! ### What both stop (R349, R353, R362) -/

/-- How far a command of several steps has come: it waits, or it is done with its reply words. -/
inductive Served where
  | wait (s : State)
  | done (s : State) (words : List Nat)

/-- The resident warps of a graph: core, slot and warp. -/
def State.warpsOf (s : State) (g : Nat) : List (Nat × Nat × Warp) :=
  s.cores.flatMap (fun k => (k.2.warps.filter (fun p => p.2.graph == g)).map (fun p => (k.1, p.1, p.2)))

/-- Warps of a graph that have not reached their commit point abort with ABORT cause 2 (R34, R362). -/
def State.stopWarps (s : State) (g : Nat) : State :=
  (s.warpsOf g).foldl (fun a p => if decide (p.2.2.phase = .issuing) && !s.issuedAll p.2.2 then a.abort p.1 p.2.1 p.2.2 2 [] else a) s

/-- Whether a token has landed in this cycle at a frame of a graph: what stops the graph comes in the next (R14). -/
def State.landedIn (s : State) (g : Nat) : Bool :=
  s.cores.any (fun k => k.2.frames.any (fun p => p.2.graph == g && s.landedNow k.1 p.1))

/-- Carafe records of a graph are discarded, its carafes freed: its recorded instances wait again (R265, R362). Its priority stays as it
has aged: it pours nothing (R26). -/
def State.dropCarafes (s : State) (g : Nat) : State :=
  s.cores.foldl (fun a k =>
    let mine := k.2.carafes.filter (fun p => p.2.graph == g)
    let a1 := mine.foldl (fun b p => p.2.recs.foldl (fun d r => d.setEntry k.1 r.frame r.entry (fun e => { e with state := .waiting })) b) a
    let q := a1.core k.1
    a1.setCore k.1 { q with carafes := q.carafes.filter (fun p => p.2.graph != g) }) s

/-- Every load request of an engine command is forgotten. -/
def State.dropReads (s : State) (c eid : Nat) : State :=
  { s with reqs := s.reqs.filter (fun p => match p.2.elem, p.2.kind with
      | some (c', e', _, _), .load => !(c' == c && e' == eid)
      | _, _ => true) }

/-- Whether a request has still to reach its home, or to be answered by another chip: it has neither performed nor been parked. -/
def Req.travels (r : Req) : Bool :=
  match r.state with
  | .moving | .walking | .port | .remote => true
  | .parked _ | .reader => false

/-- Whether a request is no load: what a commit, an engine or the hardware does at a home. -/
def Req.acts (r : Req) : Bool :=
  match r.kind with
  | .load | .roundv => false
  | .store _ _ | .atomic _ _ | .full _ _ | .rounda _ | .stashStore _ | .smap _ _ | .swb | .sinv => true

/-- Whether a write, an atomic or a round of a graph is still on its way in this package. -/
def State.writing (s : State) (g : Nat) : Bool :=
  s.reqs.any (fun p => p.2.graph == g && p.2.acts && p.2.travels && decide (p.2.state ≠ .remote))

/-- Whether accesses of a graph's commits wait for an earlier fence group (R132). -/
def State.groupsWait (s : State) (g : Nat) : Bool := s.commits.any (fun p => p.2.graph == g && !p.2.later.isEmpty)

/-- Whether a read of an engine command of a graph is still on its way: an element that has neither performed nor been parked. -/
def State.elemReading (s : State) (g : Nat) : Bool :=
  s.reqs.any (fun p => p.2.graph == g && p.2.elem.isSome && !p.2.kind.isStore && p.2.travels)

/-- Running engine commands of a graph still have an element neither performed nor parked (R280). -/
def State.engineBusy (s : State) (g : Nat) (rows : Bool) : Bool :=
  s.cores.any (fun k => k.2.engines.any (fun p =>
    p.2.graph == g && decide (p.2.state ≠ .queued) && (rows || !p.2.kind.isRow) && p.2.takesEntry))

/-! ### GUNLD (R349, R363) -/

/-- Readiness entries of a graph that are not free, in memory and in images. -/
def State.liveEntries (s : State) (g : Nat) : Nat :=
  s.cores.foldl (fun a k => k.2.frames.foldl (fun b f =>
    if f.2.graph == g then b + (f.2.entries.filter (fun e => decide (e.state ≠ .free))).length else b) a) 0

/-- A launch ends early: its command or journal record is discarded with a cause, and a device-side one replies 4. -/
def State.discardLaunch (s : State) (lid cause : Nat) : State :=
  match Map.find? s.control.launches lid with
  | none => s
  | some l =>
    let c := s.control
    let s1 : State := { s with control := Control.refill { c with
      launches := Map.del c.launches lid, launchQ := delSet c.launchQ lid, launchWait := delSet c.launchWait lid } }
    let s2 := match s1.graph? l.graph with
      | some x => if l.queued then s1 else s1.setGraph l.graph { x with launches := x.launches - 1 }
      | none => s1
    if l.host then s2.discardCmd l.seq cause
    else
      let s3 := s2.journalSet l.seq (fun r => { r with state := .discarded, cause := cause, tEnd := s2.now })
      match l.reply with
      | none => s3
      | some (r, x) => s3.sendAll 18 (replyToks r (toBytes 4 4) false false [x] [])

/-- A chain of a discarded frame: its deferred tokens are stray, its watches counted (R15, R280, R289). -/
def State.strayChain (s : State) (c : Nat) (chain : List ChainRec) : State :=
  chain.foldl (fun b r => (match r with
    | .deferred _ t => (b.stray c t.fp t.block t.iter t.ident).endCharge t
    | .watch _ _ _ => b.count c 0x040 0 1).freeLog c r.log) s

/-- The stash lines in a graph's windows on a core go home and leave the stash (R190). -/
def State.emptyWindows (s : State) (g c : Nat) : State :=
  let places := ((s.core c).windows.filter (fun p => p.1 / 16 == g)).flatMap (fun p => (List.range p.2.lines).map (fun n => p.2.sofs + n))
  places.foldl (fun a i => a.dropStash c i true none) s

/-- A graph's state on one core is discarded (R280, R328, R349). -/
def State.clearGraphOn (s : State) (g c : Nat) : State :=
  let k := s.core c
  let gone := k.frames.filter (fun p => p.2.graph == g)
  let s2 := (gone.foldl (fun a p => a.strayChain c p.2.chain) s).emptyWindows g c
  let s3 := if (s2.core c).row.owner == some g then
      let blank := { RowEngine.reset with resv := (s2.core c).row.resv, waiters := (s2.core c).row.waiters }
      s2.setCore c { s2.core c with credits := [], row := blank }
    else s2
  let q := s3.core c
  s3.setCore c { q with
    frames := q.frames.filter (fun p => p.2.graph != g)
    represent := q.represent.filter (fun i => !gone.any (fun p => p.1 == i))
    creations := q.creations.filter (fun x => x.graph != g)
    ghosts := q.ghosts.filter (fun x => x.2.graph != g)
    tasks := q.tasks.filter (fun x => x.graph != g)
    engines := q.engines.filter (fun p => p.2.graph != g)
    windows := q.windows.filter (fun p => p.1 / 16 != g)
    hists := q.hists.filter (fun p => p.2.graph != g)
    carafes := q.carafes.filter (fun p => p.2.graph != g)
    lastOwner := q.lastOwner.filter (fun p => p.2 != g)
    prios := Map.del q.prios g
    stalls := q.stalls.filter (fun p => p.1 / 32768 != g)
    trace := { q.trace with buf := q.trace.buf.filter (fun p => p.graph != g) }
    row := { q.row with waiters := delSet q.row.waiters g } }

/-- The partition that waits on a core takes effect when its last code has gone (R149). -/
def State.applyPending (s : State) (c : Nat) : State :=
  let k := s.core c
  match k.pendingPart with
  | none => s
  | some p => if (s.codeOn c).2 = 0 then (s.setCore c { k with sramPart := p, pendingPart := none }).byEvent c 1 else s

/-- A graph's parked requests are dropped, writes among them unperformed (R363). -/
def State.dropParked (s : State) (g : Nat) : State :=
  let mine := (s.reqs.filter (fun p => p.2.graph == g && p.2.state.isParked)).map (fun p => p.1)
  let s1 := (List.range 8).foldl (fun a st => mine.foldl (fun b r => b.setDie (8 + st) ((b.die (8 + st)).unpark r)) a) s
  { s1 with reqs := s1.reqs.filter (fun p => !mine.contains p.1) }

/-- Everything a graph still holds is discarded, and its id is free (R349, R363); its frame indices have no last owner any more
(R17). Of its requests the parked ones are dropped: the others go on. -/
def State.eraseGraph (s : State) (g : Nat) (x : Graph) : State :=
  let ls := (s.control.launches.filter (fun p => p.2.graph == g)).map (fun p => p.1)
  let s1 := ls.foldl (fun a l => a.discardLaunch l 0) s
  let s2 := (s1.cores.map (fun p => p.1)).foldl (fun a c => a.clearGraphOn g c) s1
  let s3 := s2.dropParked g
  let c := s3.control
  let s4 : State := { s3.dropRows (fun p => p.graph == g) with
    commits := s3.commits.filter (fun p => p.2.graph != g)
    stashFills := s3.stashFills.filter (fun p => p.2.graph != g)
    graphs := Map.del s3.graphs g
    control := { c with recQueue := c.recQueue.filter (fun r => r.graph != g || r.kind == 2), openRecs := c.openRecs.filter (fun r => r.graph != g) } }
  (x.cores).foldl State.applyPending ((s4.closeSpace x.asid).byEvent 0 (0x200 + g))

/-- An unload (R349) asked by a graph (256: the host) under a key: its status and its count of instances. -/
def State.unloadGraph (s : State) (asker key g : Nat) : Served :=
  match s.graph? g with
  | none => .done s [1, 0]
  | some x =>
    if g = asker then .done s [2, 0]
    else if s.landedIn g || (x.saver.isSome && x.saver != some key) then .wait s
    else if x.saver.isNone && s.graphs.any (fun p => p.1 != g && (match s.trapOf p.1 with | some (t, _) => t == g | none => false)) then
      .done s [3, 0]
    else
      let s1 := if x.saver = some key then s
        else
          let a := ((s.setGraph g { x with state := .unloading, saver := some key }).stopWarps g).dropCarafes g
          a.cores.foldl (fun b k => k.2.engines.foldl (fun d p =>
            if p.2.graph == g && decide (p.2.state = .queued) then d.discardEngine k.1 p.1 p.2 else d) b) a
      let s2 := s1.drainGraph g
      if !(s1.warpsOf g).isEmpty || s1.engineBusy g false || s1.elemReading g || s1.writing g then .wait s1
      else if s2.traceHeld g then .wait s2
      else if s2.groupsWait g then .wait (s2.dropParked g)
      else
        let n := min (2 ^ 32 - 1) (s2.liveEntries g)
        match s2.graph? g with
        | none => .done s2 [0, n]
        | some y => .done (s2.eraseGraph g y) [0, n]

/-! ### PREEMPT (R260, R353, R362) -/

/-- The row engine as it is saved: fired rows rewound, with the quarters whose pending swap waits for them (R260). -/
def RowEngine.image (r : RowEngine) : RowEngine :=
  let owed := r.loading.map (fun p => p.1)
  { r with
    owner := none, resv := none, waiters := [], pool := []
    inputs := r.inputs.map (fun x => { x with entries := x.entries.map (fun e =>
      if e.fired then { e with fired := false, old := uniSet e.old owed } else e) }) }

/-- A graph's task entries on a core go to the tail of its spill ring, but for those whose frame is made (R362). -/
def State.spillTasks (s : State) (g c : Nat) : State :=
  (s.core c).tasks.foldl (fun a e =>
    let waits := (a.core e.target).creations.any (fun x => match x.what with | .spawn n => n == e.id | _ => false)
    if e.graph != g || (e.asked && !waits) then a
    else
      let t := a.core e.target
      let a1 := a.setCore e.target { t with creations := t.creations.filter (fun x => match x.what with | .spawn n => n != e.id | _ => true) }
      let q := a1.core c
      (a1.setCore c { q with tasks := q.tasks.filter (fun y => y.id != e.id) }).spillTask c { e with asked := false }) s

/-- A graph's state on one core is saved: its engines, its row engine, its tasks, its frames (R260, R280, R362). What is saved
of the row engine leaves it, and its stash lines go home: R190 names pre-emption among what changes both (DESIGN CHOICE, assumption
48). -/
def State.saveGraphOn (s : State) (g c : Nat) : State :=
  let k := s.core c
  let keep : List (Nat × EngCmd) := k.engines.filter (fun p : Nat × EngCmd => p.2.graph == g && (EngKind.isRow p.2.kind || decide (p.2.state = .queued)))
  let s1 := keep.foldl (fun a p => a.dropReads c p.1) s
  let q := s1.core c
  let s2 := s1.setCore c { q with engines := q.engines.filter (fun p => !keep.any (fun e => e.1 == p.1)) }
  let owns := q.row.owner == some g
  let s3 : State := match s2.graph? g with
    | none => s2
    | some x =>
      let kept : List (Nat × EngCmd) := keep.map (fun p => (p.1, { p.2 with parts := [] }))
      s2.setGraph g { x with
        savedEng := if keep.isEmpty then x.savedEng else Map.put x.savedEng c kept
        saved := if owns then Map.put x.saved c q.row.image else x.saved }
  let s4 := if owns then
      let r := (s3.core c).row
      let bare := { RowEngine.reset with resv := r.resv, waiters := r.waiters }
      (((s3.writeEngine g c q.row.image ((keep.filter (fun p => p.2.kind.isRow)).map (fun p => p.2))).revokeGrants c).setRow c bare).releaseRow c
    else s3
  let s5 := (s4.emptyWindows g c).spillTasks g c
  ((s5.core c).frames.filter (fun p => p.2.graph == g)).foldl (fun a p =>
    match a.frame? c p.1 with
    | none => a
    | some f => if f.resident then (a.writeImage c p.1 [] f).setFrame c p.1 { f with resident := false, moving := true } else a) s5

/-- A pre-emption (R353, R362) asked by a graph (256: the host) under a key: its status and its count of frames. It ends once what it
writes has performed, or is parked. -/
def State.preemptGraph (s : State) (asker key g : Nat) : Served :=
  match s.graph? g with
  | none => .done s [1, 0]
  | some x =>
    if g = asker then .done s [2, 0]
    else if x.state = .unloading || s.landedIn g then .wait s
    else if x.state = .preempted && x.saver != some key then .done s [3, 0]
    else
      let s1 := if x.saver = some key then s
        else ((s.setGraph g { x with state := .preempted, saver := some key }).stopWarps g).dropCarafes g
      let rows := s1.rowPkts.any (fun p => p.graph == g && (s1.core p.dst).row.owner == some g)
      let s0 := s1.drainGraph g
      let away := s1.cores.any (fun k => k.2.row.owner == some g && !s1.mayRevoke k.1)
      if !(s1.warpsOf g).isEmpty || s1.engineBusy g false || s1.writing g || rows || away then .wait s1
      else if s0.traceHeld g then .wait s0
      else
        let n := s0.cores.foldl (fun a k => a + (k.2.frames.filter (fun f => f.2.graph == g)).length) 0
        let s2 := (s0.cores.map (fun p => p.1)).foldl (fun a c => a.saveGraphOn g c) s0
        if s2.writing g then .wait s2
        else match s2.graph? g with
          | none => .done s2 [0, n]
          | some y => .done (s2.setGraph g { y with saver := none }) [0, n]

/-! ### RESUME (R139, R353, R362) -/

/-- The sweeps of an address space end at once. -/
def Die.sweepNow (d : Die) (asid : Nat) : Die :=
  let qs := (d.sweeps.filter (fun w => w.asid == asid)).map (fun w => w.region)
  { d with sweeps := d.sweeps.filter (fun w => w.asid != asid), lines := d.lines.filter (fun l => l.home || l.asid != asid || !qs.contains l.region) }

/-- An acquire at package scope over every region, on every compute die, complete when it returns (R139). -/
def State.acquireEverywhere (s : State) (asid : Nat) : State :=
  (List.range 8).foldl (fun a d =>
    let b := a.acquire d asid RelWord.every
    b.setDie d ((b.die d).sweepNow asid)) s

/-- The saved engine commands that need no row engine stand in their queues again, in their order. -/
def State.restoreEngines (s : State) (g c : Nat) : State :=
  match s.graph? g with
  | none => s
  | some x =>
    let all := Map.getD x.savedEng c []
    let rows := (Map.find? x.saved c).isSome
    let s1 := s.setGraph g { x with savedEng := Map.put x.savedEng c (all.filter (fun p => rows && p.2.kind.isRow)) }
    (all.filter (fun p => !(rows && p.2.kind.isRow))).foldl (fun a p => a.setEngine c p.1 p.2) s1

/-- A graph waits for a core's row engine from its RESUME on, and takes it where it is free (R260). -/
def State.retakeRow (s : State) (g c : Nat) : State :=
  let r := (s.core c).row
  let s1 := s.setRow c { r with waiters := delSet r.waiters g ++ [g] }
  match execEngineOwnershipTransfer c s1 with
  | .next s2 => s2
  | .fault _ | .refused _ => s1

/-- A resumption (R353, R362) asked by a graph (256: the host): its status. -/
def State.resumeGraph (s : State) (asker g : Nat) : Served :=
  match s.graph? g with
  | none => .done s [1]
  | some x =>
    if g = asker then .done s [2]
    else if x.saver.isSome || s.landedIn g then .wait s
    else if x.state ≠ .preempted then .done s [3]
    else
      let cs := x.saved.map (fun p => p.1)
      let s1 := (s.acquireEverywhere x.asid).setGraph g { x with state := .loaded, resumeWait := cs, resumedAt := some s.now }
      let s2 := (x.savedEng.map (fun p => p.1)).foldl (fun a c => a.restoreEngines g c) s1
      .done (cs.foldl (fun a c => a.retakeRow g c) s2) [0]

end Sys2Proof.Machine
end

