-- ==== Sys2Proof/Machine/Control.lean ====
section
/-! DEFINITION. The control die's other services to supervisor graphs: launches entered, generations, directory
recalls and the resolution of fault records (R9, R264, R314, R350 to R352, R354, R358 to R360). -/
namespace Sys2Proof.Machine

/-! ### Replies of system instructions (R337) -/

/-- Reply words of 32 bits leave the control die once the instruction's effects have performed at package scope. -/
def State.sysAnswer (s : State) (cid : Option Nat) (r : Reply) (x : Charge) (words : List Nat) : State :=
  let hb := match cid with | some c => s.chainHb c | none => []
  s.sendReply 18 cid 64 (replyToks r (words.flatMap (toBytes 4)) false false [x] hb)

/-! ### Launches entered (R264, R350) -/

/-- A launch from its descriptor; priority 4 and width 0 stand for the image's own (R350). -/
def launchFrom (d : List Word) (seq : Nat) (host : Bool) (reply : Option (Reply × Charge)) (hb : List Nat) : Launch :=
  let w2 := descWord d 2
  { graph := descWord d 0 % 256, width := descWord d 1, key := BitVec.ofNat 64 (descPair d 3), seedGiven := bitOf w2 7,
    round := bits w2 3 3, roundGiven := bitOf w2 6, prio := if bitOf w2 2 then bits w2 0 2 else 4, next := 0, live := 0,
    queued := true, delivering := false, seq := seq, host := host, reply := reply, hb := hb }

/-- A device-side launch enters the launch queue; it waits ahead of every host launch while the queue is full. -/
def State.enterLaunch (s : State) (l : Launch) : State :=
  let c := s.control
  let n := c.nextLaunch
  let c1 := { c with launches := Map.put c.launches n l, nextLaunch := n + 1 }
  if c.launchRoom then { s with control := { c1 with launchQ := c1.launchQ ++ [n] } }
  else { s with control := { c1 with launchWait := c1.launchWait ++ [n] } }

/-- LAUNCH at commit (R350, R356): a journal record of kind 2, and a launch. -/
def State.launchAct (s : State) (d : List Word) (r : Reply) (x : Charge) (cid : Nat) : State :=
  let seq := s.control.seq
  (s.journalAppend (s.newRec 2 (descWord d 0 % 256))).enterLaunch (launchFrom d seq false (some (r, x)) (s.chainHb cid))

/-! ### Generations (R208, R311, R314, R351) -/

/-- TGEN at commit: the generation rises; every compute and base die has still to take the tables up. -/
def State.tgenAct (s : State) (asid : Nat) (r : Reply) (x : Charge) (cid : Nat) : State :=
  match Map.find? s.spaces asid with
  | none => s.sysAnswer (some cid) r x [0x100]
  | some p =>
    let gen := (p.tgen + 1) % 256
    { s with
      spaces := Map.put s.spaces asid { p with tgen := gen }
      sysReplies := s.sysReplies ++ [⟨asid, List.range 16, gen, r, x, cid⟩] }

/-- A die's lines and translations of an address space leave it, at a wrap of the generation (R208); a home line's data stands in
memory. -/
def Die.sweepSpace (d : Die) (asid : Nat) : Die :=
  { d with
    lines := d.lines.filter (fun l => l.asid != asid), rdc := d.rdc.filter (fun l => l.asid != asid)
    tlb := d.tlb.filter (fun e => e.asid != asid) }

/-- TGEN_TAKE_UP (R314): a die takes up the tables of the k-th generation still under way, each space's in order; with
the last die the reply leaves. -/
def execTgenTakeUp (die k : Nat) (s : State) : Host.Outcome State Fault Refusal :=
  match s.sysReplies[k]? with
  | none => .next s
  | some y =>
    if !y.dies.contains die || (s.sysReplies.take k).any (fun z => z.asid == y.asid && z.dies.contains die) then .next s
    else
      let tab := match Map.find? s.spaces y.asid with | some p => s.readRegTab p.regtab | none => []
      let s0 := if y.gen = 0 then s.setDie die ((s.die die).sweepSpace y.asid) else s
      let s1 := s0.takeUp y.asid y.gen tab die
      let left := delSet y.dies die
      if left.isEmpty then .next ({ s1 with sysReplies := dropNth s1.sysReplies k }.sysAnswer (some y.cid) y.reply y.charge [y.gen])
      else .next { s1 with sysReplies := setNth s1.sysReplies k { y with dies := left } }

/-! ### Directory recalls (R320, R352) -/

/-- The owner of an entry writes its line back, as a write of a commit, and the entry leaves its directory. -/
def State.recallOwner (s : State) (st cid : Nat) (o : Owner) : State :=
  let s1 := match Map.find? (s.die o.owner).dieDir (dirKey o.asid o.line) with
    | none => s
    | some c => match (s.core c).stashOf o.asid o.line with
      | none => s.disown o.owner o.asid o.line
      | some idx => s.dropStash c idx true (some cid)
  s1.setDie (8 + st) { s1.die (8 + st) with
    owners := (s1.die (8 + st)).owners.filter (fun p => !(p.asid == o.asid && p.line == o.line && p.owner == o.owner)) }

/-- DIRFL at commit: the entries that match are recalled; their count. -/
def State.dirflAct (s : State) (d : List Word) (cid : Nat) : State × Nat :=
  let asid := descWord d 0 % 4096
  let f := bits (descWord d 0) 12 8
  let lo := descPair d 2
  let hi := descPair d 4
  let whole := lo == 0 && hi == 0
  let mine := fun (o : Owner) => o.asid == asid && (f == 0xFF || o.owner == f) && o.inc == (s.die o.owner).incarnation
    && (whole || (decide (lo ≤ o.line * 128 + 127) && decide (o.line * 128 ≤ hi)))
  let all := (List.range 8).flatMap (fun st => ((s.die (8 + st)).owners.filter mine).map (fun o => (st, o)))
  (all.foldl (fun a p => a.recallOwner p.1 cid p.2) s, min (2 ^ 32 - 1) all.length)

/-! ### TRET (R354, R359, R360) -/

/-- The handle of a record: its bits [63:0] (R358). -/
def FaultRec.handle (r : FaultRec) : Nat :=
  r.entry % 4096 + r.core % 64 * 2 ^ 21 + r.die % 32 * 2 ^ 27 + r.serial % 2 ^ 24 * 2 ^ 32 + r.code % 256 * 2 ^ 56

/-- The parked requests of a record's graph in its fault-queue entry, in arrival order. -/
def State.parkedOf (s : State) (r : FaultRec) : List Nat :=
  match Map.find? (s.die r.die).faultq r.entry with
  | none => []
  | some e => e.reqs.filter (fun q => match Map.find? s.reqs q with
      | some x => x.graph == r.graph && decide (x.state = .parked r.entry)
      | none => false)

/-- Requests replay afresh (R208, R318); each stays in its entry until it has performed (R360). -/
def State.replay (s : State) (qs : List Nat) : State :=
  qs.foldl (fun a q => match Map.find? a.reqs q with
    | none => a
    | some x => { a with reqs := Map.put a.reqs q { x with state := .moving, fresh := true } }) s

/-- A parked request completes poisoned (R354): a load or reply returns poison, a store or atomic is dropped. -/
def State.poisonReq (s : State) (die q : Nat) : State :=
  match Map.find? s.reqs q with
  | none => s
  | some x =>
    let bad := match x.kind with | .store _ _ | .rounda _ => [] | _ => List.range (max x.size 1)
    (s.answer die x (List.replicate (if x.kind = .roundv then 4 else x.size) 0) bad false).endReq q (die - 8) x

/-- Requests that the mark as it stood in `old` held back perform below the raised mark, whatever else is parked in their entries
(R194, R327, R354). -/
def State.replayMarked (s old : State) (g : Nat) : State :=
  (List.range 8).foldl (fun a st =>
    a.replay ((a.die (8 + st)).faultq.flatMap (fun p => p.2.reqs.filter (fun q => match Map.find? a.reqs q with
      | some x => x.graph == g && x.state.isParked && !a.aboveMark g x.asid x.va x.size x.priv
        && (p.2.code == 8 || old.aboveMark g x.asid x.va x.size x.priv)
      | none => false)))) s

/-- An open record is closed. -/
def State.closeRec (s : State) (r : FaultRec) : State :=
  { s with control := { s.control with openRecs := s.control.openRecs.filter (fun y => y.serial != r.serial) } }

/-- A graph's record for a fault-queue entry has closed: a later request of the graph there raises a new one. -/
def State.leaveEntry (s : State) (r : FaultRec) : State :=
  let d := s.die r.die
  match Map.find? d.faultq r.entry with
  | none => s
  | some e => s.setDie r.die { d with faultq := Map.put d.faultq r.entry { e with graphs := delSet e.graphs r.graph } }

/-- Replay: held instances pour again, parked requests replay (R354, R359). -/
def State.tretReplayAct (s : State) (r : FaultRec) : State :=
  if r.kind = 0 then s.resumeHeld (r.die * 64 + r.core) (fpIndex r.fp) r.entry
  else (s.replay (s.parkedOf r)).leaveEntry r

/-- Poison: a held instance is poisoned, or discarded where it was; parked requests complete poisoned. -/
def State.tretPoisonAct (s : State) (r : FaultRec) : State :=
  let c := r.die * 64 + r.core
  if r.kind = 0 then (if r.code = 4 then s.clearInputs c (fpIndex r.fp) r.entry else s.poisonHeld c (fpIndex r.fp) r.entry)
  else ((s.parkedOf r).foldl (fun a q => a.poisonReq r.die q) s).leaveEntry r

/-- Raise mark: the mark of an area rises, for a record of the private high-water mark. -/
def State.raiseMark (s : State) (r : FaultRec) (n mark : Nat) : State :=
  match s.graph? r.graph with
  | none => s
  | some x =>
    if r.code = 8 && decide (nthD 0 x.hwm n < mark) then (s.setGraph r.graph { x with hwm := setNth x.hwm n mark }).replayMarked s r.graph
    else s

/-- TRET at commit (R354) on core c: the state and the reply; none where a token has landed in this cycle at the frame of the instance
that it resolves (R14). The control die sends what it answers (R17). -/
def State.tretAct (s : State) (c cid action : Nat) (d : List Word) : Option (State × Nat) :=
  match s.control.openRecs.find? (fun r => r.handle == descPair d 0) with
  | none => some (s, 1)
  | some r =>
    if decide (action < 2) && r.kind == 0 && s.landedNow (r.die * 64 + r.core) (fpIndex r.fp) then none
    else match action with
    | 0 => some ((s.closeRec r).tretReplayAct r, 0)
    | 1 => some ((s.closeRec r).tretPoisonAct r, 0)
    | 2 => some (s.raiseMark r (bits (descWord d 2) 0 2) (descPair d 4), 0)
    | _ =>
      let t := { plainToken r.fp (bits (descWord d 2) 0 12) (bits (descWord d 2) 12 8) r.iter r.ident (descPair d 4) with
        rel := .package, relWord := RelWord.every }
      some ((s.cleanCore c (some cid)).sendReply 18 (some cid) 64 [t], 0)

end Sys2Proof.Machine
end

