-- ==== Sys2Proof/Machine/CommitActs.lean ====
section
/-! DEFINITION. What the parts of a commit do: accesses, stash operations, the instructions that act after step 1, and
the sending of what was held (R33, R129, R132, R149, R220, R221, R286, R287, R339 to R345). -/
namespace Sys2Proof.Machine

/-! ### Stash operations (R124, R203, R219 to R221) -/

/-- The stash places of a window. -/
def Window.places (w : Window) : List Nat := (List.range w.lines).map (fun n => w.sofs + n)

/-- A store into a stash line that is there: its words are present, the line is dirty (R203, R219). -/
def State.stashPut (s : State) (c idx va : Nat) (data : List Byte) : State :=
  s.stashWrite c idx va data [] false

/-- Whether an engine of the graph still writes to the stash (R220). -/
def State.stashEngines (s : State) (c g : Nat) : Bool :=
  (s.core c).engines.any (fun p => p.2.graph == g && decide (p.2.state ≠ .queued) && p.2.flags % 4 == 1
    && (match p.2.kind with | .cpy | .cpy2d | .gath => true | _ => false))

/-- Fills that nothing needs any more are given up; the charges of those that waited end. -/
def State.dropFills (s : State) (gone : Nat × StashFillReq → Bool) : State :=
  (s.stashFills.filter gone).foldl (fun a p => a.endFill p.2) { s with stashFills := s.stashFills.filter (fun p => !gone p) }

/-- One stash operation of a commit; none where it must wait for engine writes. -/
def State.stashAct (s : State) (c g asid cid : Nat) (va : Nat) (kind : ReqKind) : Option State :=
  let k := s.core c
  match kind with
  | .stashStore data =>
    (match k.windowOf g asid va with
      | some (_, w) => some (s.stashPut c (w.index va) va data)
      | none => some s)
  | .smap n d =>
    if s.stashEngines c g then none
    else
      let old := match Map.find? k.windows (g * 16 + n) with | some w => w.places | none => []
      let s0 := old.foldl (fun a i => a.dropStash c i true (some cid)) s
      let s1 := s0.dropFills (fun p => p.1 == c && old.contains p.2.index)
      let w := windowOfDesc d
      let k1 := s1.core c
      some (s1.setCore c { k1 with windows := if w.lines = 0 then Map.del k1.windows (g * 16 + n) else Map.put k1.windows (g * 16 + n) w })
  | .swb =>
    (match k.windowOf g asid va with
      | some (_, w) => some (s.cleanLines c (some cid) w.places)
      | none => some s)
  | .sinv =>
    (match k.windowOf g asid va with
      | some (_, w) => some (w.places.foldl (fun a i => a.dropStash c i false none) s)
      | none => some s)
  | .load | .store _ _ | .atomic _ _ | .full _ _ | .rounda _ | .roundv => some s

/-- Whether an access acts at its core's stash. -/
def ReqKind.isStash : ReqKind → Bool
  | .stashStore _ | .smap _ _ | .swb | .sinv => true
  | .load | .store _ _ | .atomic _ _ | .full _ _ | .rounda _ | .roundv => false

/-! ### What a commit sends at step 2 (R281 to R290) -/

/-- Room for one more token in a core's injection queue (R266). -/
def State.injectRoom (s : State) (c : Nat) : Bool := decide ((s.core c).inject.length < 64)

/-- What a graph's warp sent leaves now, from a core or a die: token, entry token or trap record. -/
def State.release (s : State) (g src : Nat) (e : Emitted) : State :=
  match e with
  | .token _ _ chip _ t =>
    (match chip with
      | some n => s.sendChip src n t
      | none => if src < 1000 then s.sendToken src t else s.sendFrom (src - 1000) t)
  | .entry task t => s.sendEntry src task t
  | .free _ _ => s
  | .watch _ _ _ => s
  | .trap code fp iter block mask =>
    s.report src { s.mkRec g 2 0x0A with addr := code, aux := mask, fp := fp, iter := iter, block := block }

/-- Held back until the commit's writes have performed at a scope, or released at once (R129). -/
def State.holdBack (s : State) (g c cid : Nat) (scope : Scope) (e : Emitted) : State :=
  match Map.find? s.commits cid with
  | none => s.release g c e
  | some r =>
    if s.released cid scope then s.release g c e
    else { s with commits := Map.put s.commits cid { r with held := r.held ++ [HeldToken.mk e scope c none] } }

/-- A watch is evaluated in its place (R289), behind every retirement and decrement of the cycle; none where the log has no record
for it. -/
def State.watchAct (s0 : State) (c i : Nat) (w : WatchCond) (t : Token) : Option State :=
  let s := s0.setCore c { s0.core c with watched := Map.put (s0.core c).watched i s0.now }
  match s.frame? c i with
  | none => some s
  | some f =>
    let h := watchHolds f w
    if h.1 then some (s.sendToken c { t with payload := match h.2 with | none => t.payload | some v => BitVec.ofNat 64 v })
    else s.appendChain c i (fun n => .watch n w t)

/-- One thing that a commit sends; none where it must wait for room. -/
def State.sendOne (s : State) (c cid : Nat) (w : Warp) (e : Emitted) : Option State :=
  match e with
  | .token n l chip scope t =>
    if !s.injectRoom c then none
    else if Scope.isAuto t.rel then some (s.release w.graph c e)
    else some (s.holdBack w.graph c cid t.rel (.token n l chip scope { t with hb := s.chainHb cid }))
  | .free lane fp =>
    if fp = fpOf c (w.frameOf lane) then some s
    else if !s.injectRoom c then none
    else some (s.inject c ⟨c, fpCore fp, .free fp (s.identOf w)⟩)
  | .watch lane cond t => if !s.injectRoom c then none else s.watchAct c (w.frameOf lane) cond t
  | .trap _ _ _ _ _ => some (s.holdBack w.graph c cid .package e)
  | .entry _ _ => some s

/-- Whether what is sent releases beyond core scope, so that dirty stash lines go home first (R124). -/
def Emitted.beyondCore (e : Emitted) : Bool :=
  match e with
  | .token _ _ _ _ t => decide (t.rel = .die) || decide (t.rel = .package)
  | .trap _ _ _ _ _ => true
  | .free _ _ | .entry _ _ | .watch _ _ _ => false

/-! ### SYSWR (R146, R147, R149) -/

/-- A refused write (R149). -/
def State.refuseWrite (s : State) (c sysn reason : Nat) : State :=
  let k := s.core c
  let old := k.syswrStatus.toNat
  s.setCore c { k with syswrStatus := BitVec.ofNat 32 (2 ^ 31 + b2n (bitOf old 31) * 2 ^ 30 + reason * 2 ^ 12 + sysn) }

/-- Whether partition fields are within their limits (R148). -/
def partOk (v : Nat) : Bool :=
  decide (1 ≤ bits v 0 8) && decide (bits v 0 8 ≤ 16) && decide (12 ≤ bits v 16 8) && decide (1 ≤ bits v 24 8)
    && bits v 0 8 + bits v 8 8 + bits v 16 8 + bits v 24 8 == 48

/-- SYSWR at commit; where an event changes the register in the same cycle, the event prevails (R146). -/
def State.syswrAct (s : State) (c sysn : Nat) (w : Word) : State :=
  let v := w.toNat
  if sysn = 0x001 then
    if !partOk v then s.refuseWrite c sysn 1
    else if s.eventNow c sysn then s
    else
      let k := s.core c
      if (s.codeOn c).2 = 0 then s.setCore c { k with sramPart := w, pendingPart := none } else s.setCore c { k with pendingPart := some w }
  else if 0x200 ≤ sysn && sysn < 0x300 then
    if bits v 3 29 ≠ 0 then s.refuseWrite c sysn 3
    else if v = 7 then s.refuseWrite c sysn 1
    else if s.eventNow c sysn then s
    else match s.graph? (sysn - 0x200) with
      | some g => s.setGraph (sysn - 0x200) { g with round := v }
      | none => { s with control := { s.control with freeRounds := Map.putD 0 s.control.freeRounds (sysn - 0x200) v } }
  else if sysn = 0x801 then
    if bits v 12 20 ≠ 0 then s.refuseWrite c sysn 3
    else if v < 1000 || 3800 < v then s.refuseWrite c sysn 1
    else if s.eventNow c sysn then s
    else { s with powerCap := v }
  else if sysn = 0x802 then
    if bits v 16 16 ≠ 0 then s.refuseWrite c sysn 3
    else if v = 0 then s.refuseWrite c sysn 1
    else { s with drainLimit := v }
  else s

/-! ### Children (R41, R269, R286, R287) -/

/-- The spawn ordinal (R41). -/
def ordinalOf (block iter pos : Nat) : Nat := block % 4096 * 2 ^ 14 + iter % 1024 * 2 ^ 4 + pos % 16

/-- The own frame's JOIN rises by one (R40). -/
def State.raiseJoin (s : State) (c i : Nat) : State :=
  match s.frame? c i with
  | none => s
  | some f => s.setFrame c i { f with join := f.join + 1 }

/-- FALLOC of a lane at commit (R286): the request goes to the named core; none while its way is down (R49). -/
def State.fallocAct (s : State) (c : Nat) (w : Warp) (lane target nb block slot pos : Nat) : Option State :=
  let i := w.frameOf lane
  match s.frame? c i with
  | none => some s
  | some f =>
    let ord := ordinalOf w.block (w.iterAt lane) pos
    let cr : Creation :=
      { what := .falloc (fpOf c i) block slot (w.iterAt lane) f.serial, graph := w.graph, slotblk := nb, serial := serialMix f.serial ord,
        parent := fpOf c i, depth := f.depth + 1, prio := f.prio, ordinal := ord, launch := f.launch, tokens := [] }
    (s.raiseJoin c i).askFrame target cr

/-- SPAWN of a lane at commit (R269, R287): its entry is written where it was reserved. -/
def State.spawnAct (s : State) (c cid : Nat) (w : Warp) (lane target nb block slot : Nat) (payload : DWord) (pos : Nat) (rel : Scope)
    (edge : Nat) (spill : Bool) : State :=
  let i := w.frameOf lane
  match s.frame? c i with
  | none => s
  | some f =>
    let e : TaskEntry :=
      { id := s.next, payload := payload, parent := fpOf c i, parentSerial := f.serial, target := target, block := block, slot := slot,
        slotblk := nb, ordinal := ordinalOf w.block (w.iterAt lane) pos, rel := rel, relWord := relWordOf rel (s.edge w edge), edge := s.edge w edge,
        graph := w.graph, prio := f.prio, depth := f.depth, launch := f.launch, cid := some cid, asked := false }
    let s1 := ({ s with next := s.next + 1 } : State).raiseJoin c i
    let k := s1.core c
    if spill then (s1.setCore c (k.reserveSpill w.graph false)).spillTask c e
    else s1.setCore c { k with taskResv := k.taskResv - 1, tasks := k.tasks ++ [e] }

/-! ### Histograms and trace (R339, R341 to R344) -/

/-- HBIND at commit (R339): a channel that another graph has bound since stays. -/
def State.hbindAct (s : State) (c g ch filter : Nat) : State :=
  if !s.channelFree c g ch then s
  else
    let k := s.core c
    let h := Map.getD k.hists ch Hist.reset
    let h1 : Hist := { (if h.valid then h else Hist.reset) with valid := true, graph := g, filter := filter }
    s.setCore c { k with hists := Map.put k.hists ch h1 }

/-- HBIND with release at commit (R339). -/
def State.hreleaseAct (s : State) (c g ch : Nat) : State :=
  let k := s.core c
  let h := Map.getD k.hists ch Hist.reset
  if h.valid && h.graph == g then s.setCore c { k with hists := Map.del k.hists ch } else s

/-- HCLR at commit (R341); what was added in the same cycle is kept (R335). -/
def State.hclrAct (s : State) (c g mask : Nat) : State :=
  let k := s.core c
  s.setCore c { k with hists := Map.mapVals (fun ch h => if bitOf mask ch && h.valid && h.graph == g then
    { h with bins := if h.addedAt = s.now then h.added else [] } else h) k.hists }

/-- A SYNC at TRON on a core: with the LOSS that is due before it, or lost where the buffer has no room (R277, R278). -/
def State.syncOn (s : State) (c g : Nat) : State :=
  let k := s.core c
  let t := k.trace.resume g c s.now
  s.setCore c { k with trace :=
    if k.trace.lost = 0 then t.syncDue g c s.now else if t.lost = 0 then t else { t with lost := t.lost + 1 } }

/-- TRON at commit (R342): the ring's 64 bytes of header, whose reserved bytes are 0 (R7); whether it is done, or the ring's header waits for a recall or its way. A header write that faults parks. -/
def State.tronAct (s : State) (g addr len : Nat) : State × Bool :=
  match s.graph? g with
  | none => (s, true)
  | some x =>
    let head := toBytes 8 64 ++ toBytes 8 64 ++ toBytes 8 (len * 65536) ++ List.replicate 40 0
    let go := fun (a : State) =>
      (x.cores).foldl (fun b c => b.syncOn c g) (match a.graph? g with
        | some y => a.setGraph g { y with traceRing := addr, tracing := true, troffAt := none }
        | none => a)
    match s.ctlWrite g x.asid x.identity addr head none with
    | .busy s1 => (s1, false)
    | .fault s1 _ => (go (s1.hwWrite 0 g addr head), true)
    | .done s1 => (go s1, true)

/-- TROFF at commit (R343): the warps that commit in this cycle are still traced. -/
def State.troffAct (s : State) (g : Nat) : State :=
  match s.graph? g with
  | none => s
  | some x => s.setGraph g { x with tracing := false, troffAt := if x.tracing then some s.now else x.troffAt }

/-- TRMARK at commit (R344). -/
def State.trmarkAct (s : State) (c g imm : Nat) (v : Word) : State :=
  match s.graph? g with
  | none => s
  | some x => if x.traces s.now then s.trace c g 5 (imm * 2 ^ 32 + v.toNat) else s

/-- SRSEED at commit (R345). -/
def State.srseedAct (s : State) (g : Nat) (v : DWord) : State :=
  match s.graph? g with
  | none => s
  | some x => s.setGraph g { x with seed := v }

end Sys2Proof.Machine
end

