-- ==== Sys2Proof/Machine/Commit.lean ====
section
/-! DEFINITION. The commit of a warp: its accesses, its acts, what it sends, and its end (R13, R33, R127 to R132, R266,
R291, R332, R336, R337). -/
namespace Sys2Proof.Machine

/-! ### Debug halts (R267, R291, R364) -/

/-- A compute die halts (R364): its state, its hold bit, and the cycle its timers stopped at. -/
def State.haltDie (s : State) (d : Nat) : State :=
  if s.debugHold.contains d then s
  else
    let x := s.die d
    { (s.setDie d { x with state := .halted, heldSince := some s.now }) with debugHold := insSet s.debugHold d }

/-! ### Groups of a commit (R132, R229) -/

/-- The place of an access among the boundaries of its commit: a ROUNDA stands before the others of its LSID. -/
def StoreSlot.key (x : StoreSlot) : Nat := 2 * x.lsid + (match x.kind with | .rounda _ => 0 | _ => 1)

/-- The wider of two scopes. -/
def wider (a b : Scope) : Scope := if Scope.code a ≤ Scope.code b then b else a

/-- A boundary put into a list of boundaries with rising keys. -/
def addBoundary (k : Nat) (sc : Scope) : List (Nat × Scope) → List (Nat × Scope)
  | [] => [(k, sc)]
  | (j, t) :: r => if k < j then (k, sc) :: (j, t) :: r else if k = j then (j, wider sc t) :: r else (j, t) :: addBoundary k sc r

/-- The boundaries of a commit: one before each fence's LSID, one on each side of a ROUNDA. -/
def Warp.boundaries (w : Warp) : List (Nat × Scope) :=
  let fs := w.fences.foldl (fun a f => addBoundary (2 * f.1) f.2 a) []
  w.stores.foldl (fun a x => match x.kind with
    | .rounda sc => addBoundary (2 * x.lsid + 1) .core (addBoundary (2 * x.lsid) sc a)
    | _ => a) fs

/-- The group of an access. -/
def groupOf (bs : List (Nat × Scope)) (x : StoreSlot) : Nat := (bs.filter (fun b => decide (b.1 ≤ x.key))).length

/-- A store that crosses a line is one access per line (R211). -/
def StoreSlot.split (x : StoreSlot) : List StoreSlot :=
  match x.kind with
  | .store data bad => (lineParts x.va x.size).map (fun p => { x with va := p.2.1, size := p.2.2, kind := .store ((data.drop p.1).take p.2.2) bad })
  | _ => [x]

/-- Commit order: ascending LSID, then ascending lane (R33, R128). -/
def slotLe (a b : StoreSlot) : Bool := decide (a.lsid < b.lsid) || (a.lsid == b.lsid && decide (a.lane ≤ b.lane))

/-! ### The commit point (R33, R219) -/

/-- What an STS still waits for at its commit point. -/
inductive StashWait where
  | ready
  | waits (s : State)
  | faults (xs : List LaneFault)

/-- The stash lines that a warp's STS stores need. -/
def State.stashLinesReady (s : State) (c : Nat) (w : Warp) : List StoreSlot → StashWait
  | [] => .ready
  | x :: t =>
    match x.kind with
    | .stashStore _ =>
      let asid := s.asidOf w
      (match (s.core c).windowOf w.graph asid x.va with
        | none => s.stashLinesReady c w t
        | some (_, win) =>
          let idx := win.index x.va
          let here := match Map.find? (s.core c).stash idx with
            | some l => l.asid == asid && l.line == lineOf x.va
            | none => false
          if here then s.stashLinesReady c w t
          else match s.fillFault c w.graph asid x.va x.size with
            | some code => .faults [⟨x.lane, code, x.va⟩]
            | none => match s.startFill c w.graph asid idx x.va w x.lane with
              | some s1 => .waits s1
              | none => .waits s)
    | _ => s.stashLinesReady c w t

def Emitted.isTrap : Emitted → Bool
  | .trap _ _ _ _ _ => true
  | .token _ _ _ _ _ | .free _ _ | .entry _ _ | .watch _ _ _ => false

/-- The commit is opened: its number, its groups, what it comes after, the launches it belongs to, and what it sends, TRAP's
records last (R290). From here on the warp's fences are the boundaries of its groups. -/
def State.openCommit (s : State) (c k : Nat) (w : Warp) : State :=
  let cid := s.next
  let bs := w.boundaries
  let hb := (w.insts.foldl (fun a i => uniSet a i.hb) []).filter (fun h => (Map.find? s.commits h).isSome)
  let ls := uniSet [] (w.insts.filterMap (fun i => match s.frame? c i.frame with | some f => f.launch | none => none))
  let r : CommitRec :=
    { core := c, graph := w.graph, ident := s.identOf w, asid := s.asidOf w, group := 0, groups := bs.map (fun b => b.2), later := [],
      held := [], hb := hb, launch := ls }
  let w1 := { w with
    stores := sortBy slotLe (w.stores.flatMap StoreSlot.split), fences := bs, stall := none
    phase := .committing w.acts (w.emits.filter (fun e => !e.isTrap) ++ w.emits.filter Emitted.isTrap) cid }
  ({ s with next := cid + 1, commits := Map.put s.commits cid r } : State).setWarp c k w1

/-! ### Step 1: the accesses -/

/-- Whether an access of the same warp to overlapping bytes is still on its way to the home. -/
def State.underWay (s : State) (r : Req) : Bool :=
  s.reqs.any (fun p => p.2.blk == r.blk && p.2.asid == r.asid && !p.2.isFillOnly && p.2.blocks
    && decide (p.2.va < r.va + max r.size 1) && decide (r.va < p.2.va + max p.2.size 1))

/-- A stash store goes to its home where its line is not in the stash (R219), and where an earlier access of its block to its
bytes is still on its way there: it comes after that access in the coherence order (R125, R127, R128). -/
def State.stashKind (s : State) (r : Req) : ReqKind :=
  match r.kind with
  | .stashStore data =>
    (match (s.core r.core).windowOf r.graph r.asid r.va with
      | none => .store data false
      | some (_, w) => match Map.find? (s.core r.core).stash (w.index r.va) with
        | some l => if l.asid == r.asid && l.line == lineOf r.va && !s.underWay r then r.kind else .store data false
        | none => .store data false)
  | k => k

/-- Whether a SINV still waits for a load of its block from a line of its window: the load reads what stood there before the commit
(R32, R221). -/
def State.sinvWaits (s : State) (r : Req) : Bool :=
  match r.kind, (s.core r.core).windowOf r.graph r.asid r.va with
  | .sinv, some (_, x) => s.reqs.any (fun p => p.2.blk == r.blk && p.2.asid == r.asid && !p.2.isFillOnly
      && (match p.2.kind with | .load => true | _ => false) && decide (x.vbase ≤ p.2.va + max p.2.size 1 - 1)
      && decide (p.2.va < x.vbase + 128 * x.lines))
  | _, _ => false

/-- Whether a stash operation moves no bytes of its own: it is no access of a path (R13, R196, R220, R221). -/
def ReqKind.uncharged : ReqKind → Bool
  | .smap _ _ | .swb | .sinv => true
  | .load | .store _ _ | .atomic _ _ | .full _ _ | .rounda _ | .roundv | .stashStore _ => false

/-- A stash operation is done at its core, which ends its charge, or goes to its home (R219); none where it must wait. -/
def State.stashSend (s : State) (cid : Nat) (r : Req) : Option State :=
  let kind := s.stashKind r
  if s.sinvWaits r then none
  else if kind.isStash then (s.stashAct r.core r.graph r.asid cid r.va kind).map (fun s1 => s1.later r.charge)
  else some (s.addReq { r with kind := kind, issuedAt := s.now })

/-- One access is sent, or kept for its group; its charge is made now, an STS's on the path of its home (R13, R196). None where it must
wait, for room in the injection queue (R262) or its counter. Before one whose reply releases beyond the core, dirty stash lines go home (R124, R215). -/
def State.sendStore (s : State) (c cid : Nat) (w : Warp) (bs : List (Nat × Scope)) (x : StoreSlot) : Option State :=
  let g := groupOf bs x
  let asid := s.asidOf w
  if !s.memRoom c then none
  else if x.kind.isStash then
    match (if x.kind.uncharged then some (s, none) else (s.charge c (w.frameOf x.lane) (s.pathOf c asid x.va)).map (fun y => (y.1, some y.2))) with
    | none => none
    | some (s, ch) =>
    let r := { s.mkReq c w x.va x.size x.kind with charge := ch, cid := some cid, group := g, lsid := x.lsid, lane := x.lane }
    if g = 0 then s.stashSend cid r
    else match Map.find? s.commits cid with
      | none => some s
      | some cr => some { s with commits := Map.put s.commits cid { cr with later := cr.later ++ [(g, r)] } }
  else match s.charge c (w.frameOf x.lane) (s.pathOf c asid x.va) with
    | none => none
    | some (s1, ch) =>
      let far := match x.reply with | some y => Scope.beyondCore y.rel | none => false
      let s1 := if far then s1.cleanCore c (some cid) else s1
      let r := { s1.mkReq c w x.va x.size x.kind with
        charge := some ch, cid := some cid, group := g, lsid := x.lsid, lane := x.lane, reply := x.reply, hint := x.hint, local' := x.local'
        priv := x.priv }
      if g = 0 then some (s1.addReq r)
      else match Map.find? s1.commits cid with
        | none => some s1
        | some cr => some { s1 with commits := Map.put s1.commits cid { cr with later := cr.later ++ [(g, r)] } }

/-- How far a part of a commit came: done, or it waits with what is left. -/
def State.sendStores (s : State) (c cid : Nat) (w : Warp) (bs : List (Nat × Scope)) : List StoreSlot → State × List StoreSlot
  | [] => (s, [])
  | x :: t =>
    match s.sendStore c cid w bs x with
    | none => (s, x :: t)
    | some s1 => s1.sendStores c cid w bs t

/-! ### The instructions that act after step 1 -/

/-- A reply's address from an immediate (R337). -/
def State.sysReplyOf (s : State) (c : Nat) (w : Warp) (imm : Nat) : Reply :=
  ⟨fpOf c (w.frameOf 0), bits imm 8 12, imm % 256, w.iterAt 0, s.identOf w, .package⟩

/-- The charge of an instruction that replies, made once and kept with the warp until its reply (R337); none where the
counter is saturated. -/
def State.replyCharge (s : State) (c k : Nat) (w : Warp) : Option (State × Charge) :=
  match w.kept with
  | some x => some (s, x)
  | none =>
    match s.charge c (w.frameOf 0) .e with
    | none => none
    | some (s1, x) => some (s1.setWarp c k { w with taken := w.taken ++ [.infl x] }, x)

/-- The kept charge goes with the reply. -/
def State.freeCharge (s : State) (c k : Nat) : State :=
  match s.warp? c k with
  | none => s
  | some w => s.setWarp c k w.dropKept

/-- An act's end: it is done, or it waits in a state. -/
inductive Acted where
  | done (s : State)
  | waits (s : State)

def Acted.of (s : State) (o : Option State) : Acted :=
  match o with
  | some s1 => .done s1
  | none => .waits s

/-- An instruction that replies: its charge, its service, its reply. -/
def State.replying (s : State) (c k : Nat) (w : Warp) (cid imm : Nat) (f : State → Reply → Charge → Served ⊕ State) : Acted :=
  match s.replyCharge c k w with
  | none => .waits s
  | some (s1, x) =>
    let r := s1.sysReplyOf c w imm
    match f s1 r x with
    | .inl (.wait s2) => .waits s2
    | .inl (.done s2 words) => .done ((s2.freeCharge c k).sysAnswer (some cid) r x words)
    | .inr s2 => .done (s2.freeCharge c k)

/-- What a service does now. -/
def State.serve (s : State) (v : Service) : Served :=
  match v.op with
  | .gunld => s.unloadGraph v.asker v.cid v.graph
  | .preempt => s.preemptGraph v.asker v.cid v.graph
  | .resume => s.resumeGraph v.asker v.graph

/-- The n-th service goes on, behind those of its graph that arrived before; it ends with its reply (R337, R353). -/
def State.serveNth (s : State) (n : Nat) (v : Service) : State :=
  if (s.services.take n).any (fun y => y.graph == v.graph) then s
  else match s.serve v with
    | .wait s1 => s1
    | .done s1 words =>
      (({ s1 with services := dropNth s1.services n } : State).sysAnswer (some v.cid) v.reply v.charge words).retireCommit v.cid

/-- The services that a warp slot's commits have asked for go on. -/
def State.serveSlot (s : State) (c k : Nat) : State :=
  (s.services.zipIdx.reverse).foldl (fun a p => if p.1.core == c && p.1.slot == k then a.serveNth p.2 p.1 else a) s

/-- A GUNLD, a PREEMPT or a RESUME at commit: its charge, and the service that the control die begins; the commit goes on, and the
block's later acts do not wait for the service (R33, R349, R353; DESIGN CHOICE, assumption 125). -/
def State.asking (s : State) (c k : Nat) (w : Warp) (cid imm g : Nat) (op : ServiceOp) : Acted :=
  match s.replyCharge c k w with
  | none => .waits s
  | some (s1, x) =>
    let v : Service := ⟨op, g, w.graph, c, k, cid, s1.sysReplyOf c w imm, x⟩
    let s2 := s1.freeCharge c k
    .done (({ s2 with services := s2.services ++ [v] } : State).serveNth s2.services.length v)

/-- GLOAD as it is served to a supervisor graph (R348). -/
def State.gloadServed (s : State) (w : Warp) (cid : Nat) (d : List Word) : Served :=
  let fw := match s.graph? w.graph with | some g => g.firmware | none => false
  match s.loadGraph ⟨d, w.graph, s.asidOf w, s.identOf w, fw, some cid⟩ with
  | .busy s1 => .wait s1
  | .refused s1 r b word => .done s1 [r, b + word * 2 ^ 12]
  | .ok s1 g => .done s1 [g * 256, 0]

/-- One instruction's act at commit. -/
def State.actOne (s : State) (c k cid : Nat) (w : Warp) (a : AtCommit) : Acted :=
  match a with
  | .syswr n v => .done (s.syswrAct c n v)
  | .falloc l t nb b sl p => Acted.of s (s.fallocAct c w l t nb b sl p)
  | .spawn l t nb b sl pay p rel e sp => .done (s.spawnAct c cid w l t nb b sl pay p rel e sp)
  | .engine e => .done (s.enterEngine c e cid)
  | .mxcfg ws =>
    Acted.of s ((s.setWarp c k { w with taken := w.taken.filter (fun t => decide (t ≠ .rowEngine)) }).mxcfgAct c k w.graph ws)
  | .bldq qs => Acted.of s (s.bldqAct c qs)
  | .rowp ps => if s.rowRoom c ps.length then .done (s.sendRows c ps) else .waits s
  | .accz t => .done (s.acczAct c t)
  | .accwb t ad st fl => Acted.of s (s.accwbAct c k w cid t ad st fl)
  | .accst t ad r fl pc => Acted.of s (s.accstAct c k w cid t ad r fl pc)
  | .iscfg u cfg r => .done (s.iscfgAct c w u cfg.toNat r.toNat)
  | .sacci n ps => .done (s.sacciAct c n ps)
  | .saccf n ca va ctl fl => Acted.of s (s.saccfAct c w cid n ca va ctl.toNat fl)
  | .fchbind ch cfg sc => .done (s.fchbindAct c ch cfg sc)
  | .mxseq t f r ctl fl => .done (s.mxseqAct c w t f.toNat r.toNat ctl.toNat fl)
  | .hbind ch f => .done (s.hbindAct c w.graph ch f)
  | .hbindRelease ch => .done (s.hreleaseAct c w.graph ch)
  | .hclr m => .done (s.hclrAct c w.graph m)
  | .tron ad len => let r := s.tronAct w.graph ad len; if r.2 then .done r.1 else .waits r.1
  | .troff => .done (s.troffAct w.graph)
  | .trmark imm v => .done (s.trmarkAct c w.graph imm v)
  | .srseed v => .done (s.srseedAct w.graph v)
  | .jrnl code v => .done (s.jrnlAct code v)
  | .gload d imm => s.replying c k w cid imm (fun a _ _ => .inl (a.gloadServed w cid d))
  | .gunld g imm => s.asking c k w cid imm g .gunld
  | .preempt g imm => s.asking c k w cid imm g .preempt
  | .resume g imm => s.asking c k w cid imm g .resume
  | .launch d imm => s.replying c k w cid imm (fun a r x => .inr (a.launchAct d r x cid))
  | .tgen asid imm => s.replying c k w cid imm (fun a r x => .inr (a.tgenAct asid r x cid))
  | .dirfl d imm => s.replying c k w cid imm (fun a _ _ => let p := a.dirflAct d cid; .inl (.done p.1 [p.2]))
  | .tret n d imm => s.replying c k w cid imm (fun a _ _ => match a.tretAct c cid n d with
      | none => .inl (.wait a)
      | some p => .inl (.done p.1 [p.2]))

/-- The acts in program order, each kept as the warp's next until it is done. -/
def State.actAll (s : State) (c k cid : Nat) (sends : List Emitted) : List AtCommit → State × Bool
  | [] => (s, true)
  | a :: t =>
    match s.warp? c k with
    | none => (s, true)
    | some w =>
      match s.actOne c k cid w a with
      | .waits s1 => (s1, false)
      | .done s1 =>
        let s2 := match s1.warp? c k with
          | some w1 => s1.setWarp c k { w1 with phase := .committing t sends cid }
          | none => s1
        s2.actAll c k cid sends t

/-! ### Step 2 and the end -/

/-- What the warp sends, in order; what is left where it must wait. -/
def State.sendEmits (s : State) (c cid : Nat) (w : Warp) : List Emitted → State × List Emitted
  | [] => (s, [])
  | e :: t =>
    match s.sendOne c cid w e with
    | none => (s, e :: t)
    | some s1 => s1.sendEmits c cid w t

/-- The lanes of a warp that sent a token on an edge, as a mask (R277). -/
def Warp.edgeMask (w : Warp) (edge : Nat) : Nat :=
  let ls := uniSet [] (w.emits.filterMap (fun e => match e with | .token n l _ _ _ => if n = edge then some l else none | _ => none))
  ls.foldl (fun a l => a + 2 ^ l) 0

/-- The WARP packet and the EMIT packets of a traced warp (R277). -/
def State.traceCommit (s : State) (c k : Nat) (w : Warp) : State :=
  if !s.traced w then s
  else
    let s1 := s.trace c w.graph 2 (warpBody k w + w.iterAt 0 % 1024 * 2 ^ 10 + min 1023 (s.now - w.pouredAt))
    (List.range 8).foldl (fun a e =>
      if w.edgeMask e = 0 then a else a.trace c w.graph 3 (e * 2 ^ 45 + w.edgeMask e)) s1

/-- Steps 3 to 5: inputs cleared, entries and slot freed, frames freed (R33). -/
def State.endCommit (s : State) (c k cid : Nat) (w : Warp) : State :=
  let s1 := s.traceCommit c k w
  let s2 := w.insts.foldl (fun a i => a.clearInputs c i.frame i.entry) s1
  let q := s2.core c
  let s3 := s2.setCore c { q with warps := Map.del q.warps k }
  let free := match s3.block? w.graph w.block with | some b => b.hdr.free | none => false
  let own := w.emits.filterMap (fun e => match e with | .free l fp => if fp = fpOf c (w.frameOf l) then some (w.frameOf l) else none | _ => none)
  let gone := if free then w.insts.map (fun i => i.frame) else uniSet [] own
  (gone.foldl (fun a i => a.closeFrame c i) s3).retireCommit cid

/-- A commit goes on from where it stands (R13, R33): accesses, acts, offers, what is sent, the end. It acts before the landing of
the cycle at its frames: behind one it waits (R14). -/
def State.runCommit (s : State) (c k : Nat) : State :=
  match s.warp? c k with
  | none => s
  | some w =>
    match w.phase with
    | .issuing | .stopped _ => s
    | .committing acts sends cid =>
      if w.insts.any (fun i => s.landedNow c i.frame) then s else
      let r := s.sendStores c cid w w.fences w.stores
      if !r.2.isEmpty then r.1.setWarp c k { w with stores := r.2 }
      else
        let s0 := if w.stores.isEmpty then r.1 else r.1.setWarp c k { w with stores := [] }
        let r1 := s0.actAll c k cid sends acts
        if !r1.2 then r1.1
        else match r1.1.warp? c k with
          | none => r1.1
          | some w1 =>
            let s1 := (r1.1.addOffers c w1.graph w1.block w1.offers).setWarp c k { w1 with offers := [] }
            let clean := sends.any Emitted.beyondCore || (w.acts.any (fun a => match a with
              | .spawn _ _ _ _ _ _ _ rel _ _ => decide (rel = .die) || decide (rel = .package)
              | _ => false))
            let s2 := if clean then s1.cleanCore c (some cid) else s1
            let r2 := s2.sendEmits c cid w1 sends
            if r2.2.isEmpty then r2.1.endCommit c k cid w1
            else match r2.1.warp? c k with
              | none => r2.1
              | some w2 => r2.1.setWarp c k { w2 with phase := .committing [] r2.2 cid }

/-- COMMIT (R33): a warp at its commit point commits; one that executed an armed BRK stops there first (R291). -/
def execCommit (core slot : Nat) (s : State) : Host.Outcome State Fault Refusal :=
  match s.warp? core slot with
  | none => .next s
  | some w =>
    if s.debugHold.contains (dieOf core) then .next s
    else match w.phase with
      | .committing _ _ _ => .next s
      | .stopped _ => .next ((s.openCommit core slot w).runCommit core slot)
      | .issuing =>
        if !s.issuedAll w then .next s
        else match s.stashLinesReady core w w.stores with
          | .waits s1 => .next (match s1.warp? core slot with | some w1 => s1.stalled core slot w1 | none => s1)
          | .faults xs => .next ((s.takeFault core slot w xs).dropFaulted core w.graph)
          | .ready =>
            match w.brk with
            | some code => .next ((s.setWarp core slot { w with phase := .stopped code, stall := none }).haltDie (dieOf core))
            | none => .next ((s.openCommit core slot w).runCommit core slot)

/-- COMMIT_RESUME (R13, R266, R353): a commit that waits goes on, and so do the services that the slot's commits have asked for. -/
def execCommitResume (core slot : Nat) (s : State) : Host.Outcome State Fault Refusal := .next ((s.serveSlot core slot).runCommit core slot)

/-! ### What a commit held back -/

/-- Whether the k-th thing that a commit holds may leave (R129, R215). -/
def State.mayLeave (s : State) (cid : Nat) (h : HeldToken) : Bool :=
  match h.below with
  | some lsid => s.releasedBelow cid lsid h.scope
  | none => s.released cid h.scope

/-- RELEASED_TOKEN_SEND (R33, R129): the writes that a held token waits for have performed; of one source's, the first
that may leave goes first. -/
def execReleasedTokenSend (cid k : Nat) (s : State) : Host.Outcome State Fault Refusal :=
  match Map.find? s.commits cid with
  | none => .next s
  | some r =>
    match r.held[k]? with
    | none => .next s
    | some h =>
      let full := decide (h.src < 1000) && !s.injectRoom h.src
      if !s.mayLeave cid h || full || (r.held.take k).any (fun y => y.src == h.src && s.mayLeave cid y) then .next s
      else
        let s1 := { s with commits := Map.put s.commits cid { r with held := dropNth r.held k } }
        .next ((s1.release r.graph h.src h.pkt).retireCommit cid)

/-- A group's accesses are sent in their order; none where a stash operation must wait. -/
def State.sendGroup (s : State) (cid : Nat) : List Req → Option State
  | [] => some s
  | r :: t => (s.stashSend cid r).bind (fun s1 => s1.sendGroup cid t)

/-- FENCE_GROUP_ADVANCE (R132): every access of the earlier groups has performed at the boundary's scope, and the next
group is sent. Beyond core scope, dirty stash lines go home first, and those that a recall took are waited for. -/
def execFenceGroupAdvance (cid : Nat) (s : State) : Host.Outcome State Fault Refusal :=
  match Map.find? s.commits cid with
  | none => .next s
  | some r =>
    let scope := nthD .package r.groups r.group
    let sending := s.cores.any (fun k => k.2.warps.any (fun w => match w.2.phase with
      | .committing _ _ x => x == cid && !w.2.stores.isEmpty
      | _ => false))
    let dirty := decide (scope ≠ .core) && (s.core r.core).stash.any (fun p => p.2.dirty)
    if r.later.isEmpty || sending then .next s
    else if dirty then .next (s.cleanCore r.core (some cid))
    else if s.reqs.any (fun p => p.2.cid == some cid && p.2.blocks) || (decide (scope ≠ .core) && s.writesBack r.core) then .next s
    else
      let now' := (r.later.filter (fun p => p.1 == r.group + 1)).map (fun p => p.2)
      let r1 := { r with group := r.group + 1, later := r.later.filter (fun p => p.1 != r.group + 1) }
      match ({ s with commits := Map.put s.commits cid r1 } : State).sendGroup cid now' with
      | none => .next s
      | some s1 => .next (if now'.any (fun q => q.kind.isStash) then s1.cleanCore r.core (some cid) else s1)

end Sys2Proof.Machine
end

