-- ==== Sys2Proof/Machine/Events.lean ====
section
/-! DEFINITION. Fault records delivered, launches from the queue to their end, the drain to checkpoint and the trace
unit's own steps (R9, R90, R139, R264, R278, R313, R342, R350, R358, R361). -/
namespace Sys2Proof.Machine

/-! ### Fault records (R358) -/

/-- A fault record as 256 bits (R358). -/
def FaultRec.bits (r : FaultRec) : Nat :=
  r.handle + r.kind % 4 * 2 ^ 64 + r.ident % 2 ^ 16 * 2 ^ 66 + r.asid % 4096 * 2 ^ 82 + r.graph % 256 * 2 ^ 98
    + r.block % 4096 * 2 ^ 106 + r.iter % 1024 * 2 ^ 118 + r.fp % 2 ^ 32 * 2 ^ 128 + r.aux % 2 ^ 32 * 2 ^ 160
    + r.addr % 2 ^ 56 * 2 ^ 200

/-- The cores of a block's rectangles, in the order of R9. -/
def State.coresOf (s : State) (g b : Nat) : List Nat :=
  match s.graph? g, s.block? g b with
  | some x, some y => blockCores x.rects y.rects
  | _, _ => []

/-- The creation of the trap activation of a record, and its eight tokens (R358). -/
def trapCreation (sup : Graph) (sg blk ibase : Nat) (r : FaultRec) : Creation :=
  let words := (List.range 8).map (fun i => bits r.bits (32 * i) 32)
  { what := .trap (words.map (BitVec.ofNat 32)) r.handle, graph := sg, slotblk := 0, serial := BitVec.ofNat 64 (2 ^ 62 + r.serial),
    parent := 0, depth := 0, prio := sup.prio, ordinal := 0, launch := none
    tokens := words.zipIdx.map (fun p =>
      { plainToken 0 blk (ibase + p.2) 0 sup.identity p.1 with rel := .package, relWord := RelWord.every }) }

/-- FAULT_RECORD_DELIVERY (R358): the oldest record is numbered and becomes a trap activation, unless it would be the
65,537th open one, or its way is down (R49); without a trap block it is dropped and counted. -/
def execFaultRecordDelivery (s : State) : Host.Outcome State Fault Refusal :=
  let q := s.control
  match q.recQueue with
  | [] => .next s
  | r0 :: rest =>
    if r0.kind < 2 && decide (65536 ≤ q.openRecs.length) then .next s
    else
      let s1 := { s with control := { q with recQueue := rest } }
      let none' := s1.count r0.src 0x043 0 1
      match s.trapOf r0.graph with
      | none => .next none'
      | some (sg, blk) =>
        match s.graph? sg, s.block? sg blk, s.coresOf sg blk with
        | some sup, some y, c :: _ =>
          let r := { r0 with serial := q.recSerial, aux := if r0.kind = 1 then min (2 ^ 32 - 1) (s.parkedOf r0).length else r0.aux }
          let q1 := { q with recQueue := rest, recSerial := (q.recSerial + 1) % 2 ^ 24
                             openRecs := if r.kind < 2 then q.openRecs ++ [r] else q.openRecs }
          let s2 := { s with control := q1 }
          .next ((s2.askFrame c (trapCreation sup sg blk y.hdr.ibase r)).getD s)
        | _, _, _ => .next none'

/-! ### Launches (R9, R264, R350) -/

/-- A launch ends with a reply code: its record, its command or its reply (R350, R376). -/
def State.endLaunch (s : State) (lid : Nat) (l : Launch) (code : Nat) : State :=
  let c := s.control
  let s1 := { s with control := ({ c with launches := Map.del c.launches lid, launchQ := delSet c.launchQ lid } : Control).refill }
  if l.host then s1.readyCmd l.seq false code
  else
    let s2 := s1.journalSet l.seq (fun r =>
      { r with state := .completed, result := BitVec.ofNat 64 code, tEnd := s.now, tStart := if r.tStart = 0 then s.now else r.tStart })
    match l.reply with
    | none => s2
    | some (r, x) => s2.sendAll 18 (replyToks r (toBytes 4 code) false false [x] l.hb)

/-- The region check of a graph (R90, R313). -/
def State.regionCheck (s : State) (g : Graph) : Bool :=
  let tab := Map.getD (s.die 0).regTab g.asid []
  let e0 := nthD Region.empty tab 0
  e0.valid && e0.kind == 0 && !e0.pinned
    && g.refs.all (fun r => let e := nthD Region.empty tab r.1; e.valid && e.kind == r.2)

/-- The code with which a launch fails at its start, if any. -/
def State.launchFails (s : State) (l : Launch) : Option Nat :=
  match s.graph? l.graph with
  | none => some 2
  | some g =>
    if g.state = .preempted then some 3
    else if g.state ≠ .loaded then some 2
    else if s.regionCheck g then none else some 1

/-- The dies that a graph has blocks on. -/
def Graph.dies (g : Graph) : List Nat := uniSet [] (g.cores.map dieOf)

/-- A launch as it leaves the queue: what the descriptor leaves to the graph is settled (R345, R350). -/
def Launch.settled (l : Launch) (g : Graph) : Launch :=
  { l with
    width := if l.width = 0 then g.width else l.width, key := if l.seedGiven then l.key else g.seed
    round := if l.roundGiven then l.round else g.round, prio := if l.prio = 4 then g.prio else l.prio
    queued := false, delivering := true }

/-- A launch's priority becomes the current priority of its graph, on every core (R26). With launches of different priorities
in flight, the one started last gives it (DESIGN CHOICE, assumption 76). -/
def State.setLevel (s : State) (g p : Nat) : State :=
  match s.graph? g with
  | none => s
  | some x =>
    { s.setGraph g { x with level := p } with cores := Map.mapVals (fun _ (k : Core) =>
        { k with prios := Map.mapVals (fun i y => if i = g then { y with level := p } else y) k.prios }) s.cores }

/-- The last launch of a graph frees the row engines that it owns; what they granted stays until the next MXCFG (R144, R233,
R241). -/
def State.freeRows (s : State) (g : Nat) : State :=
  s.cores.foldl (fun a k => if k.2.row.owner = some g then a.releaseRow k.1 else a) s

/-- A graph of which no launch is left holds no row engine (R144, R241). A launch that is only queued counts as one that is left (DESIGN
CHOICE, assumption 113). -/
def State.lastLaunch (s : State) (g : Nat) : State :=
  if s.control.launches.any (fun p => p.2.graph == g) then s else s.freeRows g

/-- LAUNCH_START (R264): the first launch not yet started passes its checks or fails; its dies acquire (R139). -/
def execLaunchStart (s : State) : Host.Outcome State Fault Refusal :=
  let c := s.control
  let going := (c.launches.filter (fun p => p.2.delivering)).length
  match c.launchQ.find? (fun n => match Map.find? c.launches n with | some l => l.queued | none => true) with
  | none => .next s
  | some n =>
    match Map.find? c.launches n with
    | none => .next s
    | some l =>
      if c.paused || decide (16 ≤ going) then .next s
      else match s.launchFails l, s.graph? l.graph with
        | some code, _ => .next ((s.endLaunch n l code).lastLaunch l.graph)
        | none, none => .next s
        | none, some g =>
          let s1 := g.dies.foldl (fun a d => a.acquire d g.asid RelWord.every) s
          let s2 := (s1.setGraph l.graph { g with launches := g.launches + 1 }).setLevel l.graph (l.settled g).prio
          let s3 := s2.journalSet l.seq (fun r => if l.host then r else { r with state := .started, tStart := s.now })
          .next { s3 with control := { s3.control with launches := Map.put s3.control.launches n (l.settled g) } }

/-- The creation of root activation i of a launch, with its token (R9). -/
def rootCreation (g : Graph) (n i : Nat) (l : Launch) : Creation :=
  { what := .root i, graph := l.graph, slotblk := 15, serial := BitVec.ofNat 64 i, parent := 0, depth := 0, prio := l.prio,
    ordinal := 0, launch := some n, tokens := [{ plainToken 0 g.entry 0 0 g.identity i with hb := l.hb }] }

/-- The delivering launches whose graphs run, once the sweeps that their dies' acquires started have ended (R139, R200). -/
def State.delivering (s : State) : List (Nat × Launch) :=
  s.control.launches.filter (fun p => p.2.delivering && (match s.graph? p.2.graph with
    | some g => decide (g.state = .loaded) && g.dies.all (fun d => !s.sweeping d g.asid RelWord.every)
    | none => false))

/-- ROOT_TOKEN_SEND (R264): the next delivering launch in turn sends its next root token, once its way is up (R49), and leaves the
launch queue with its last. -/
def execRootTokenSend (s : State) : Host.Outcome State Fault Refusal :=
  let ls := s.delivering
  let pick := match ls.find? (fun p => decide (s.control.turn < p.1)) with
    | some p => some p
    | none => ls.head?
  match pick with
  | none => .next s
  | some (n, l) =>
    match s.graph? l.graph with
    | none => .next s
    | some g =>
      let cs := s.coresOf l.graph g.entry
      match cs[l.next % cs.length]? with
      | none => .next s
      | some c =>
        match s.askFrame c (rootCreation g n l.next l) with
        | none => .next s
        | some s1 =>
        let last := decide (l.width ≤ l.next + 1)
        let q := s1.control
        let q1 := { q with
          turn := n, launches := Map.put q.launches n { l with next := l.next + 1, live := l.live + 1, delivering := !last }
          launchQ := if last then delSet q.launchQ n else q.launchQ }
        .next { s1 with control := if last then q1.refill else q1 }

/-- Whether a store stream has its last element, so that it closes without another push: its dirty-range entry and its ring's tail are
still to be written (R275, R299). -/
def EngCmd.closes (e : EngCmd) : Bool := e.isStoreStream && decide (e.state ≠ .queued) && (decide (e.total ≤ e.next) || (e.close && e.pushes.isEmpty))

/-- Whether an engine command adds nothing more to the effects of its launch: no stream, or a stream that does not close by itself, none
of whose pushed elements is still to be written or to perform; elements pushed to a paused stream stay in its engine (R139, R275, R299,
R300; DESIGN CHOICE, assumption 96). -/
def Core.engineSettled (k : Core) (p : Nat × EngCmd) : Bool :=
  match p.2.kind with
  | .strm => (decide (p.2.state ≠ .queued) || !k.startable p.2) && decide (p.2.state ≠ .closing)
      && p.2.parts.all (fun q => q.1 % 8 != 7) && (p.2.pushes.isEmpty || !(p.2.run || p.2.close)) && !p.2.closes
  | .strmgo | .strmx => (match k.targetStream p.2.graph (EngCmd.streamEngine p.2) p.1 with
      | none => false
      | some t => decide (t.2.state = .queued))
  | .cpy | .cpy2d | .gath | .scat | .dpost | .dxch | .dxq | .cpyb | .rows | .isx | .nzscan => false

/-- Whether every committed effect of a launch has performed at its home (R139), but for what dirty stash lines still hold. -/
def State.launchDone (s : State) (n : Nat) (l : Launch) : Bool :=
  !l.queued && !l.delivering && l.live == 0
    && s.commits.all (fun p => !p.2.launch.contains n || (s.performed p.1 && p.2.held.isEmpty))
    && s.reqs.all (fun p => !(p.2.wb && p.2.graph == l.graph))
    && s.cores.all (fun k => k.2.engines.all (fun p => p.2.graph != l.graph || k.2.engineSettled p))

/-- The dirty stash lines of a graph go home (R139). -/
def State.cleanGraph (s : State) (g : Nat) : State := s.cores.foldl (fun a k => a.cleanLines k.1 none (k.2.dirtyOf g)) s

/-- LAUNCH_COMPLETE (R9, R139): dirty stash lines go home first. -/
def execLaunchComplete (lid : Nat) (s : State) : Host.Outcome State Fault Refusal :=
  match Map.find? s.control.launches lid with
  | none => .next s
  | some l =>
    if !s.launchDone lid l then .next s
    else if s.cores.any (fun k => !(k.2.dirtyOf l.graph).isEmpty) then .next (s.cleanGraph l.graph)
    else match s.graph? l.graph with
      | none => .next (s.endLaunch lid l 0)
      | some g =>
        let s1 := s.setGraph l.graph { g with launches := g.launches - 1 }
        .next ((s1.endLaunch lid l 0).lastLaunch l.graph)

/-! ### Drain to checkpoint (R43, R361) -/

/-- A request that holds an activation: its number, address and address space, and since when it is outstanding. -/
structure Outstanding where
  id : Nat
  va : Nat
  asid : Nat
  since : Nat
  deriving DecidableEq, Repr

/-- Whether a stream waits on a stream control: it is paused, or a store stream that runs has written all that was pushed (R299, R300). -/
def EngCmd.waitsControl (e : EngCmd) : Bool :=
  !e.run || (e.isStoreStream && decide (e.state = .running) && e.pushes.isEmpty && !e.closes && e.parts.all (fun q => q.1 % 8 != 7))

/-- The requests charged to a frame's counters that are outstanding: accesses, elements of its engine commands, the writes of its
batches, lines that its loads, its stores and its engine commands wait for in the stash or that a read at issue has asked for, and
commands that wait on a calendar or a stream control. The clock of a request at a halted die has stopped (R364). -/
def State.outstanding (s : State) (c i : Nat) (f : Frame) : List Outstanding :=
  let mine := fun (x : EngCmd) => x.fp == fpOf c i && decide (x.serial = f.serial)
  let held := fun (x : Charge) => x.fp == fpOf c i && decide (x.serial = f.serial)
  let stops := fun (h : Nat × Nat) => h.1 == s.chipId && s.halted h.2
  let reading := (s.core c).warps.filter (fun w => w.2.keptAll.any held)
  let reqs := s.reqs.filterMap (fun p =>
    let own := match p.2.charge with | some x => held x | none => false
    let batch := match p.2.batch.bind (Map.find? s.batches) with | some b => b.charges.any held | none => false
    let asked := p.2.ask && p.2.core == c && reading.any (fun w => w.2.graph == p.2.graph)
      && !s.stashFills.any (fun q => q.1 == c && q.2.asid == p.2.asid && q.2.line == lineOf p.2.va)
    let elem := match p.2.elem with
      | some (c', e, _, _) => (match Map.find? (s.core c').engines e with | some x => mine x | none => false)
      | none => false
    if (own || elem || batch || asked) && !stops (s.reqHome p.2) then some ⟨p.1, p.2.va, p.2.asid, p.2.issuedAt⟩ else none)
  let fills := s.stashFills.filterMap (fun p =>
    let elem := match p.2.engine with
      | some (e, _) => (match Map.find? (s.core c).engines e with | some x => mine x | none => false)
      | none => false
    if p.1 == c && (elem || p.2.waiters.any (fun x => held x.2.2)) && !stops (s.homeOf (dieOf c) p.2.asid (p.2.line * 128)) then
      some ⟨2 ^ 62 + (p.2.since * 2 ^ 15 + p.2.index) % 2 ^ 62, p.2.line * 128, p.2.asid, p.2.since⟩
    else none)
  let engs := (s.core c).engines.filterMap (fun p =>
    let waits := match p.2.kind with
      | .strm => p.2.waitsControl
      | .strmgo | .strmx => decide (p.2.state = .queued)
      | .dpost | .dxch => true
      | .cpy | .cpy2d | .gath | .scat | .dxq | .cpyb | .rows | .isx | .nzscan => false
    if mine p.2 && waits then some ⟨2 ^ 63 + p.1, 0, p.2.asid, p.2.issuedAt⟩ else none)
  reqs ++ fills ++ engs

/-- A drain's mark in its frame: the request's number, address and space, odd while the drain is under way. -/
def Outstanding.mark (o : Outstanding) : Nat := 2 * (o.id % 2 ^ 64 + o.va % 2 ^ 56 * 2 ^ 64 + o.asid * 2 ^ 120) + 1

/-- The last steps of a drain (R361): the image is written, the eviction counted, the notice sent. -/
def State.drained (s : State) (c i : Nat) (f : Frame) (m : Nat) : State :=
  let s2 := s.evict c i { f with drained := (f.drained.filter (fun x => x != m)) ++ [m - 1] }
  s2.report c { s2.mkRec f.graph 2 0x0B with fp := fpOf c i, addr := bits m 65 56, asid := bits m 121 12 }

/-- Step 1 of a drain: the frame's carafe records are withdrawn, and its recorded instances wait. -/
def State.withdraw (s : State) (c i m : Nat) (f : Frame) : State :=
  let k := s.core c
  let held := f.entries.zipIdx.map (fun e =>
    if k.carafes.any (fun y => y.2.recs.any (fun r => r.frame == i && r.entry == e.2)) then { e.1 with state := .waiting } else e.1)
  (s.keepRecs c (fun r => r.frame != i)).storeFrame c i { f with entries := held, drained := f.drained ++ [m] }

/-- DRAIN_LIMIT_EXPIRY (R361): one request of an activation outstanding for the drain limit starts its drain; the frame
leaves once no resident warp holds an instance of it. -/
def execDrainLimitExpiry (core frame : Nat) (s : State) : Host.Outcome State Fault Refusal :=
  match s.frame? core frame with
  | none => .next s
  | some f =>
    let warps := (s.core core).warps.any (fun p => p.2.insts.any (fun x => x.frame == frame))
    match f.drained.find? (fun m => m % 2 == 1) with
    | some m => .next (if warps || s.landedNow core frame then s else s.drained core frame f m)
    | none =>
      let due := (s.outstanding core frame f).find? (fun o =>
        decide (max o.since f.broughtAt + s.drainLimit * Config.cyclesPerUs ≤ s.now)
          && !f.drained.any (fun m => bits m 1 64 == o.id % 2 ^ 64))
      match due with
      | none => .next s
      | some o =>
        if s.halted (dieOf core) || s.landedNow core frame then .next s
        else
          let s1 := s.withdraw core frame o.mark f
          match s1.frame? core frame with
          | none => .next s1
          | some g => .next (if warps then s1 else s1.drained core frame g o.mark)

/-! ### The trace unit (R278, R342) -/

/-- TRACE_DRAIN (R342): a core drains up to n words in one burst. -/
def execTraceDrain (core n : Nat) (s : State) : Host.Outcome State Fault Refusal := .next (s.drainNext core n)

/-- TRACE_LOSS (R278): LOSS and then SYNC, once three words have room, for a graph with code on the core: one that is traced, else
one that still has its ring. -/
def execTraceLoss (core : Nat) (s : State) : Host.Outcome State Fault Refusal :=
  let k := s.core core
  let here := fun (p : Nat × Graph) => p.2.cores.contains core
  match (List.find? (fun p => p.2.traces s.now && here p) s.graphs).orElse (fun _ => List.find? (fun p => p.2.traceRing != 0 && here p) s.graphs) with
  | none => .next s
  | some (g, _) => .next (s.setCore core { k with trace := k.trace.resume g core s.now })

end Sys2Proof.Machine
end

