-- ==== Sys2Proof/Machine/Dies.lean ====
section
/-! DEFINITION. Device-level events, resets of dies and of the package, boundary failures, memory errors and the power
manager (R49, R150, R274, R364 to R371, R379, R392 to R396). -/
namespace Sys2Proof.Machine

/-! ### What belongs to a launch (R369) -/

/-- Whether a frame pointer names an activation of a launch: trap activations and their children belong to none. -/
def State.doomed (s : State) (fp : Nat) : Bool :=
  match s.frame? (fpCore fp) (fpIndex fp) with
  | none => false
  | some f => f.launch.isSome

def Packet.fp (p : Packet) : Nat :=
  match p.body with
  | .token t => t.fp
  | .free fp _ => fp
  | .out _ t => t.sender.getD t.fp

/-- The packet that a token would leave in which a commit still holds back (R129): a child's entry token too. -/
def State.heldPacket (s : State) (h : HeldToken) : Option Packet :=
  match h.pkt with
  | .token _ _ (some chip) _ t => some ⟨h.src, 64 * s.fabricDieOf chip, .out chip t⟩
  | .token _ _ none _ t => some ⟨h.src, fpCore t.fp, .token t⟩
  | .entry _ t => some ⟨h.src, fpCore t.fp, .token t⟩
  | .free _ _ | .watch _ _ _ | .trap _ _ _ _ _ => none

/-- A token that is dropped is counted at its destination: a core's among the stray tokens, one for another chip at its fabric
die; a free request is no token (R42, R369; DESIGN CHOICE, assumption 90). -/
def State.countDropped (s : State) (p : Packet) : State :=
  match p.body with
  | .token _ => s.count p.dst 0x040 0 1
  | .out chip _ => s.countDie (s.fabricDieOf chip) 0 1
  | .free _ _ => s

/-- The packets of discarded launches: in the cores, on the network and held back by commits (R369). -/
def State.doomedPackets (s : State) : List Packet :=
  (s.cores.flatMap (fun k => k.2.inject ++ k.2.matchIn ++ k.2.heldToken.toList) ++ s.crossings.map Crossing.pkt
    ++ s.commits.flatMap (fun p => p.2.held.filterMap s.heldPacket)).filter (fun p => s.doomed p.fp)

/-- Whether a commit keeps what it holds back in spite of a device-level event: a token of no discarded launch, and anything else
of a commit that serves none (R369). -/
def State.keepsHeld (s : State) (r : CommitRec) (h : HeldToken) : Bool :=
  match s.heldPacket h with
  | some p => !s.doomed p.fp
  | none => r.launch.isEmpty

/-- The tokens of discarded launches leave the network, each counted (R42, R369). -/
def State.dropTokens (s0 : State) : State :=
  let keep := fun (p : Packet) => !s0.doomed p.fp
  let s := s0.doomedPackets.foldl State.countDropped s0
  let gone := s.crossings.filter (fun x => !keep x.pkt && !x.dirs.isEmpty)
  let s1 : State := { s with
    cores := s.cores.map (fun k => (k.1, { k.2 with
      inject := k.2.inject.filter keep, matchIn := k.2.matchIn.filter keep
      heldToken := match k.2.heldToken with | some p => if keep p then some p else none | none => none }))
    crossings := s.crossings.filter (fun x => keep x.pkt)
    commits := s.commits.map (fun p => (p.1, { p.2 with held := p.2.held.filter (s0.keepsHeld p.2) })) }
  (gone.foldl (fun a x => a.moveCredits x.dirs (dieOf x.pkt.dst) false) s1).settle

/-- Whether a request is in an entry of a fault queue (R360). -/
def State.inEntry (s : State) (rid : Nat) : Bool :=
  (List.range 8).any (fun st => (s.die (8 + st)).faultq.any (fun p => p.2.reqs.contains rid))

/-- A request that answers nobody; a read fills nothing (R280, R369). -/
def Req.muted (r : Req) : Req :=
  match r.kind with
  | .load => { r with charge := none, reply := none, split := none, warp := none, elem := none, ask := false }
  | _ => { r with charge := none, reply := none, split := none }

/-- Reads of discarded launches end without answer, but for those in a fault-queue entry, which is kept (R280); those, their writes,
atomics and rounds go on, or stay parked, and answer nobody (R369). -/
def State.dropReqs (s : State) : State :=
  let mine := fun (r : Req) =>
    (match r.charge with | some x => s.doomed x.fp | none => false) || (match r.reply with | some x => s.doomed x.fp | none => false)
      || (match r.split with
          | some (id, _) => (match Map.find? s.splits id with | some y => s.doomed y.reply.fp | none => true)
          | none => false)
      || (match r.elem with
          | some (c, e, _, _) => (match Map.find? (s.core c).engines e with | some y => s.doomed y.fp | none => true)
          | none => false)
  let reads := s.reqs.filter (fun p => mine p.2 && !s.inEntry p.1 && (match p.2.kind with | .load => true | _ => false))
  { s with
    reqs := (s.reqs.filter (fun p => !reads.any (fun q => q.1 == p.1))).map (fun p =>
      (p.1, if mine p.2 then p.2.muted else p.2))
    splits := s.splits.filter (fun p => !s.doomed p.2.reply.fp) }

/-- What a warp in its commit took and its remaining acts would have used goes back. -/
def State.undoAct (s : State) (c g : Nat) : AtCommit → State
  | .engine _ => s.setCore c { s.core c with engResv := (s.core c).engResv - 1 }
  | .spawn _ _ _ _ _ _ _ _ _ spill =>
    if spill then s.setCore c ((s.core c).reserveSpill g false)
    else s.setCore c { s.core c with taskResv := (s.core c).taskResv - 1 }
  | _ => s

/-- A warp of a discarded launch goes: what it committed is sent, the rest is dropped, and instances of other activations
return to their carafe. -/
def State.dropWarp (s : State) (c k : Nat) (w : Warp) : State :=
  let s1 : State := match w.phase with
    | .committing rest _ cid =>
      let s0 : State := w.insts.foldl (fun (a : State) i => match a.frame? c i.frame with
        | some f => a.setFrame c i.frame { f with infl := ⟨0, 0, 0, 0⟩ }
        | none => a) s
      rest.foldl (fun (a : State) t => a.undoAct c w.graph t) (s0.sendStores c cid w w.fences w.stores).1
    | .issuing | .stopped _ => w.taken.foldl (fun a t => a.giveBack c w.graph t) s
  let s2 := (s1.setCore c { s1.core c with warps := Map.del (s1.core c).warps k }).forgetWarp c k
  w.insts.foldl (fun a i => match a.frame? c i.frame with
    | some f => if f.launch.isNone then a.enterCarafe c i.frame i.entry else a
    | none => a) s2

/-- The warps of discarded launches on a core; a commit that also serves another activation ends as it would. -/
def State.dropWarps (s : State) (c : Nat) : State :=
  (s.core c).warps.foldl (fun a p =>
    let of := p.2.insts.map (fun i => match a.frame? c i.frame with | some f => f.launch.isSome | none => false)
    let past := match p.2.phase with | .committing _ _ _ => true | _ => false
    if of.any id && !(past && !of.all id) then a.dropWarp c p.1 p.2 else a) s

/-- Frames, carafes, creations, tasks and engine commands of discarded launches leave a core; the deferred tokens and watches of
their frames, and the tokens that wait for their frames, are counted (R42, R289). -/
def State.dropOnCore (s : State) (gs : List Nat) (c : Nat) : State :=
  let k := s.core c
  let gone := k.frames.filter (fun p => p.2.launch.isSome)
  let roots := (k.creations.filter (fun x => x.launch.isSome)).flatMap (fun x => x.tokens)
  let s0 := gone.foldl (fun a p => p.2.chain.foldl (fun b r => (b.count c 0x040 0 1).freeLog c r.log) a) (s.count c 0x040 0 roots.length)
  let s1 := s0.keepRecs c (fun r => !gone.any (fun p => p.1 == r.frame))
  let s2 := match k.row.owner with
    | some g => if gs.contains g then s1.releaseRow c else s1
    | none => s1
  let q := s2.core c
  let rows := match k.row.owner with | some g => gs.contains g | none => false
  let left : Core := { q with
    frames := q.frames.filter (fun p => p.2.launch.isNone)
    represent := q.represent.filter (fun i => !gone.any (fun p => p.1 == i))
    creations := q.creations.filter (fun x => x.launch.isNone)
    ghosts := q.ghosts.filter (fun x => x.2.launch.isNone)
    tasks := q.tasks.filter (fun x => x.launch.isNone)
    engines := q.engines.filter (fun p => !s.doomed p.2.fp && (s.frame? c (fpIndex p.2.fp)).isSome)
    carafes := q.carafes.filter (fun y => !(gs.contains y.2.graph && y.2.recs.isEmpty))
    row := if rows then { q.row with
        inputs := q.row.inputs.map (fun x => { x with entries := [] }), pool := [], inserts := [], notifies := [] } else q.row }
  s2.setCore c { left with
    prios := left.prios.map (fun p => (p.1, if gs.contains p.1 && !left.holdsReady p.1 then { p.2 with since := none } else p.2)) }

/-! ### Device-level events (R369) -/

/-- A device-level event (R369): nothing more starts, every launch in flight is discarded with the cause, committed writes
go on. -/
def State.deviceEvent (s : State) (cause : Nat) : State :=
  let ls := s.control.launches.map (fun p => p.1)
  let gs := uniSet [] (s.control.launches.map (fun p => p.2.graph))
  let c0 := { s.control with
    paused := true
    launches := Map.mapVals (fun _ l =>
      { l with reply := match l.reply with | some (r, x) => if s.doomed r.fp then none else some (r, x) | none => none }) s.control.launches
    recQueue := s.control.recQueue.filter (fun r => r.kind != 0 || !s.doomed r.fp)
    openRecs := s.control.openRecs.filter (fun r => r.kind != 0 || !s.doomed r.fp) }
  let s0 : State := { s with control := c0 }
  let cs := s0.cores.map (fun p => p.1)
  let s1 := cs.foldl State.dropWarps s0.dropTokens.dropReqs
  let s2 := cs.foldl (fun a c => a.dropOnCore gs c) s1
  let s3 : State := { s2.dropRows (fun p => gs.contains p.graph) with
    graphs := s2.graphs.map (fun p => (p.1, { p.2 with
      spills := Map.mapVals (fun _ r => { r with ents := r.ents.filter (fun e => e.1.launch.isNone) }) p.2.spills
      saved := if gs.contains p.1 then [] else p.2.saved, savedEng := if gs.contains p.1 then [] else p.2.savedEng
      resumeWait := if gs.contains p.1 then [] else p.2.resumeWait })) }
  let s4 := ls.foldl (fun a l => a.discardLaunch l cause) s3
  s4.control.startedLaunches.foldl (fun a seq => a.discardCmd seq cause) s4

/-- The command queues resume once every die is ACTIVE and nothing holds the package (R369, R391, R396). -/
def State.maybeResume (s : State) : State :=
  let ok := (List.range 19).all (fun d => decide ((s.die d).state = .active))
  if ok && !s.control.hot then { s with control := { s.control with paused := false, ready := true } } else s

/-! ### Lost lines (R205, R365) -/

/-- A line is lost: its bytes in DRAM are poisoned, and its base die counts it. -/
def State.loseLine (s : State) (st asid line : Nat) : State :=
  let s1 := s.countDie (8 + st) 2 1
  match s.leafAt st asid (line * 128) false with
  | none => s1
  | some l => s1.poisonRange (s.physOf st asid (line * 128) l / 128 * 128) 128

/-- A run of lost lines of an address space: first line and count. -/
structure LostRange where
  asid : Nat
  first : Nat
  count : Nat
  deriving DecidableEq, Repr

/-- A line added to the runs of the lines below it, the last run first (R380). -/
def LostRange.add (rs : List LostRange) (p : Nat × Nat) : List LostRange :=
  match rs with
  | r :: t =>
    if r.asid = p.1 && r.first + r.count = p.2 + 1 then rs
    else if r.asid = p.1 && r.first + r.count = p.2 && r.count < 256 then { r with count := r.count + 1 } :: t
    else ⟨p.1, p.2, 1⟩ :: rs
  | [] => [⟨p.1, p.2, 1⟩]

/-- Lines in ascending order as runs of at most 256, in ascending order and full from the low end (R380). -/
def lostRanges (ls : List (Nat × Nat)) : List LostRange := (ls.foldl LostRange.add []).reverse

/-- The journal's record of a lost range (R365, R380). -/
def State.journalLost (s : State) (r : LostRange) : State :=
  s.journalAppend { s.newRec 3 0 with
    result := BitVec.ofNat 64 (r.first * 128 % 2 ^ 56 + (r.count - 1) * 2 ^ 56), asid := r.asid, tStart := s.now, tEnd := s.now, state := .failed }

/-- The lines that a reset of a compute die loses: dirty home lines of its slices, lines that it owns, and its own stash's
dirty lines of its stack (R365). The answer gives each with its stack. -/
def State.linesLost (s : State) (d : Nat) : List (Nat × Nat × Nat) :=
  let home := ((s.die d).lines.filter (fun l => l.home && l.dirty)).map (fun l => (l.asid, l.line, d))
  let owned := (List.range 8).flatMap (fun st =>
    ((s.die (8 + st)).owners.filter (fun o => o.owner == d)).map (fun o => (o.asid, o.line, st)))
  let own := (List.range 64).flatMap (fun i => (s.core (d * 64 + i)).stash.filterMap (fun p =>
    if p.2.dirty && (s.homeOf d p.2.asid (p.2.line * 128)) == (s.chipId, d) then some (p.2.asid, p.2.line, d) else none))
  sortBy (fun a b => decide (a.1 < b.1) || (a.1 == b.1 && decide (a.2.1 ≤ b.2.1))) (home ++ owned ++ own)

/-! ### The reset of one die (R150, R365) -/

/-- The boundary directions of a die. -/
def dirsOf (d : Nat) : List Nat := (List.range 44).filter (fun n => senderOf n == d || receiverOf n == d)

/-- A die's boundaries lose their keys and carry management flits only (R150, R392). -/
def State.downLinks (s : State) (d : Nat) : State :=
  { s with links := (dirsOf d).foldl (fun m n => Map.put m n LinkDir.reset) s.links }

/-- A die right after its reset (R150, R324, R326, R365). -/
def Die.afterReset (x : Die) (views : Map Nat) (now : Nat) : Die :=
  { x with
    state := .quarantined, incarnation := (x.incarnation + 1) % 256, resets := min 65535 (x.resets + 1), attTry := 0, attStep := 0,
    attAt := now, roundView := views, regionGen := [], genBase := [], lines := [], rdc := [], rdcBusy := [], sweeps := [], dieDir := [],
    recalls := [], tlb := [], walks := [], faultq := [], owners := [], owned := [], streams := [], streamsOn := [], measures := [], newMeasures := [],
    blocks := [], newBlocks := [], sess := false, sessGen := 0, errors := [], heldSince := none }

/-- The current rounds of every bounded region that this package's base dies are home to (R150). -/
def State.allRounds (s : State) : Map Nat :=
  (List.range 8).foldl (fun m st => (s.die (8 + st)).rounds.foldl (fun a p => Map.put a p.1 p.2) m) []

/-- What a reset of any die changes besides its kind's own. The rounds of bounded regions that are homed on other chips it asks for
there: its views take them as they come (DEDUCED, assumption 108). -/
def State.resetAny (s : State) (d : Nat) : State :=
  let s1 := (s.downLinks d).setDie d ((s.die d).afterReset s.allRounds s.now)
  let s2 : State := { s1 with debugHold := delSet s1.debugHold d }
  s2.spaces.foldl (fun a p => a.askRounds d p.1 (a.farRegions d p.1)) s2

/-- A compute die's cores, caches and queues are cleared, its lost lines are marked and journalled, and the tokens that it drops are
counted once its counters are 0 (R42, R328). -/
def State.resetCompute (s : State) (d : Nat) : State :=
  let lost := s.linesLost d
  let s1 := lost.foldl (fun a x => a.loseLine x.2.2 x.1 x.2.1) s
  let s2 := (lostRanges (lost.map (fun x => (x.1, x.2.1)))).foldl State.journalLost s1
  let gone := s2.crossings.filter (fun x => !x.dirs.isEmpty && (dieOf x.pkt.dst == d || x.dirs.any (fun n => (dirsOf d).contains n)))
  let s3 := gone.foldl (fun a x => (a.moveCredits x.dirs (dieOf x.pkt.dst) false)) s2
  let here := (s3.cores.filter (fun k => dieOf k.1 = d)).flatMap (fun k => k.2.inject ++ k.2.matchIn ++ k.2.heldToken.toList
    ++ k.2.creations.flatMap (fun x => x.tokens.map (fun t => Packet.mk 0 k.1 (.token t))))
  let readOf := fun (r : Req) => dieOf r.core == d && (match r.kind with | .load => true | _ => false) && !r.hw
  let lostX := fun (x : Crossing) => dieOf x.pkt.dst == d || gone.contains x || (x.dirs.isEmpty && srcDie x.pkt.src == d)
  let lostPkts := here ++ (s3.crossings.filter lostX).map Crossing.pkt
  let sr := s3.dropRows (fun p => dieOf p.dst == d || dieOf p.src == d)
  let s4 : State := { sr with
    cores := (List.range 64).foldl (fun m i => Map.put m (64 * d + i) { Core.reset with used := (s3.core (64 * d + i)).used, cyclesAt := s3.now }) sr.cores
    crossings := s3.crossings.filter (fun x => !lostX x)
    fills := s3.fills.filter (fun f => f.die != d), owns := s3.owns.filter (fun o => o.die != d)
    stashFills := s3.stashFills.filter (fun f => dieOf f.1 != d), asksFailed := s3.asksFailed.filter (fun f => dieOf f.core != d)
    views := s3.views.filter (fun v => v.die != d)
    roundWaits := s3.roundWaits.map (fun w => { w with dies := delSet w.dies d })
    reqs := (s3.reqs.filter (fun p => !(readOf p.2 && !s3.inEntry p.1))).map (fun p => (p.1, if readOf p.2 then p.2.muted else p.2)) }
  let s5 := (List.range 8).foldl (fun a st =>
    a.setDie (8 + st) { a.die (8 + st) with owners := (a.die (8 + st)).owners.filter (fun o => o.owner != d) }) s4
  (lostPkts.foldl State.countDropped s5).resetAny d

/-- Copies of journal records whose CHECK is no longer good (R379). -/
def Control.spoil (c : Control) (l : List (Nat × Nat)) : Control :=
  { c with journalBad := c.journalBad ++ l.filter (fun p => !c.journalBad.contains p) }

/-- A stack that holds a copy of the journal loses it (R379). -/
def Control.loseCopy (c : Control) (st : Nat) : Control :=
  if st = 0 || st = 4 then c.spoil (c.journal.map (fun p => (st, p.1 % journalSlots))) else c

/-- Firmware rebuilds a stack's copy from what the other copy, or the mirror, holds of each record (R379). -/
def Control.rebuildCopy (c : Control) (st : Nat) : Control :=
  { c with journalBad := c.journalBad.filter (fun p =>
      p.1 != st || !(c.copyGood (4 - st) p.2 || c.journal.any (fun r => r.1 % journalSlots == p.2 && c.mirrors r.1))) }

/-- A base die's queue is discarded, and what waited for its walks asks anew; with `all` the contents of its stack are lost (R274, R365, R379). -/
def State.resetBase (s : State) (d : Nat) (all : Bool) : State :=
  let x := s.die d
  let parked := x.faultq.flatMap (fun p => p.2.reqs)
  let s0 := x.owners.foldl (fun a o => (List.range 64).foldl (fun b i =>
    let c := o.owner * 64 + i
    match (b.core c).stashOf o.asid o.line with
    | none => b
    | some idx => b.dropStash c idx false none) a) s
  let walking := x.walks.flatMap (fun w => w.reqs)
  let s1 : State := { s0 with
    reqs := (s0.reqs.filter (fun p => !parked.contains p.1)).map (fun p =>
      (p.1, if walking.contains p.1 && decide (p.2.state = .walking) then { p.2 with state := .moving } else p.2))
    lost := if all then insSet s0.lost (d - 8) else s0.lost
    covered := if all then s0.covered.filter (fun a => a / 2 ^ 36 != d - 8) else s0.covered
    full := if all then s0.full.filter (fun p => p.1 * 8 / 2 ^ 36 != d - 8) else s0.full
    control := if all then s0.control.loseCopy (d - 8) else s0.control }
  s1.resetAny d

/-- A fabric die drops its ports (R365). -/
def State.resetFabric (s : State) (d : Nat) : State :=
  ({ s with ports := Map.keep (fun p _ => (p < 18) != (d == 16)) s.ports }).resetAny d

/-- The reset of one die, after the device-level event. -/
def State.resetDie (s : State) (d : Nat) : State :=
  if d < 8 then s.resetCompute d else if d < 16 then s.resetBase d true else s.resetFabric d

/-- DIE_RESET (R365, R369): a die other than the control die resets. -/
def execDieReset (die : Nat) (s : State) : Host.Outcome State Fault Refusal :=
  .next (if 18 ≤ die || !s.control.powered then s else (s.deviceEvent 1).resetDie die)

/-! ### Rejoining (R366, R392) -/

/-- Whether a die's session with the root is established: it may hold link keys. -/
def Die.keyed (x : Die) : Bool :=
  x.sess && (match x.state with
    | .active | .halted | .draining => true
    | .attesting => x.attStep == 9
    | .off | .quarantined => false)

/-- Fresh keys for a direction at both ends (R393). -/
def State.freshKey (s : State) (n : Nat) : State :=
  let k := s.keySerial + 1
  { s with keySerial := k, links := Map.put s.links n { LinkDir.reset with txKey := k, rxKeys := [(0, k)], rxCounts := [(0, 0)], up := true } }

/-- The root keys the boundaries of a die whose other ends are keyed too. -/
def State.keyLinks (s : State) (d : Nat) : State :=
  (dirsOf d).foldl (fun a n =>
    if (a.die (senderOf n)).keyed && (a.die (receiverOf n)).keyed && !(Map.getD a.links n LinkDir.reset).up then a.freshKey n else a) s

/-- DIE_REJOIN (R366, R392): an attested die whose boundaries hold live keys becomes ACTIVE, once no directory names an
old incarnation; M0 or M4 once its journal copy is rebuilt (R379). What waited to cross its boundaries crosses. -/
def execDieRejoin (die : Nat) (s : State) : Host.Outcome State Fault Refusal :=
  let x := s.die die
  let live := (dirsOf die).all (fun n => (Map.getD s.links n LinkDir.reset).up)
  if x.state ≠ .attesting || x.attStep ≠ 9 || !live then .next s
  else
    let s1 := (List.range 8).foldl (fun a st =>
      let b := a.die (8 + st)
      a.setDie (8 + st) { b with owners := b.owners.filter (fun o => o.inc == (s.die o.owner).incarnation) }) s
    let s2 : State := { s1 with control := if die = 8 || die = 12 then s1.control.rebuildCopy (die - 8) else s1.control }
    .next ((s2.setDie die { s2.die die with state := .active, attStep := 0, attTry := 0 }).settle.maybeResume)

/-! ### Boundary failures (R49, R392) -/

/-- A die that must attest anew with its memory and incarnation kept; it is halted no more (R148). -/
def State.requarantine (s : State) (d : Nat) : State :=
  let s1 : State := { s.downLinks d with debugHold := delSet s.debugHold d }
  s1.setDie d { s.die d with state := .quarantined, attTry := 0, attStep := 0, attAt := s.now, sess := false, sessGen := 0, heldSince := none }

/-- A request whose packet is lost, or whose answer is: whatever waits for it waits on (DESIGN CHOICE, assumption 82). -/
def State.loseRequest (s : State) (id : Nat) (r : Req) : State := { s with reqs := Map.put s.reqs id { r with state := .remote } }

/-- A request performs at its home and its answer is lost (assumption 82); of a read nothing is left to perform. -/
def State.loseAnswer (s : State) (id : Nat) (r : Req) : State :=
  match r.kind, r.state with
  | .load, _ | _, .remote => s.loseRequest id r
  | _, _ =>
    let mute := { r with charge := none, warp := none, split := none, reply := none, elem := none, elemIn := r.elem.isSome || r.elemIn }
    match execHomeAccess id { s with reqs := Map.put s.reqs id mute } with
    | .next s1 => s1
    | .fault _ | .refused _ => s

/-- The packet whose tag failed is discarded where it crosses a direction (R49). -/
def State.losePacket (s : State) (dir : Nat) (what : LostPacket) : State :=
  let lose := fun (id : Nat) (f : Req → State) => match Map.find? s.reqs id with
    | none => s
    | some r => match r.state with
      | .moving | .remote => if (s.reqDirs r).contains dir && !s.inQueue id r then f r else s
      | .walking | .port | .parked _ | .reader => s
  match what with
  | .token k => (match s.crossings[k]? with
    | none => s
    | some x =>
      if x.dirs.contains dir then
        (({ s with crossings := dropNth s.crossings k } : State).moveCredits x.dirs (dieOf x.pkt.dst) false).countDropped x.pkt
      else s)
  | .request id => lose id (s.loseRequest id)
  | .answer id => lose id (s.loseAnswer id)
  | .row k => (match s.rowPkts[k]? with
    | none => s
    | some p => if (routeDirs (dieOf p.src) (dieOf p.dst)).contains dir && !s.rowWaits k p then { s with rowPkts := dropNth s.rowPkts k } else s)
  | .rowCredit k => (match s.rowReturns[k]? with
    | none => s
    | some x => if (routeDirs (dieOf x.2.1) (dieOf x.1)).contains dir then { s with rowReturns := dropNth s.rowReturns k } else s)
  | .fill k => (match s.fills[k]? with
    | none => s
    | some f => if (s.fillDirs f).contains dir then { s with fills := dropNth s.fills k } else s)
  | .view k => (match s.views[k]? with
    | none => s
    | some v => if (s.viewDirs v).contains dir then { s with views := dropNth s.views k } else s)
  | .ownership k => (match s.owns[k]? with
    | none => s
    | some o => if (s.ownDirs o).contains dir then { s with owns := dropNth s.owns k } else s)
  | .retirement k => (match s.retires[k]? with
    | none => s
    | some x => if (routeDirs (dieOf x.2.2) (dieOf (fpCore x.1))).contains dir then { s with retires := dropNth s.retires k } else s)
  | .creation c k => (match (s.core c).creations[k]? with
    | none => s
    | some x =>
      if (x.dirs c).contains dir then
        x.tokens.foldl (fun a t => a.countDropped ⟨0, c, .token t⟩) (s.setCore c { s.core c with creations := dropNth (s.core c).creations k })
      else s)
  | .recall die k => (match (s.die die).owners[k]? with
    | none => s
    | some o =>
      if o.recalled && (roundTrip die o.owner).contains dir then
        s.setDie die { s.die die with owners := setNth (s.die die).owners k { o with recalled := false } }
      else s)
  | .other => s

/-- BOUNDARY_TAG_FAILURE (R49, R392): the packet is discarded, the boundary goes down, its dies are quarantined. -/
def execBoundaryTagFailure (f : TagFailure) (s : State) : Host.Outcome State Fault Refusal :=
  let dir := f.dir
  if 44 ≤ dir || !(Map.getD s.links dir LinkDir.reset).up then .next s
  else
    let rx := receiverOf dir
    let s0 := s.losePacket dir f.what
    let s1 := (s0.countDie (if rx < 8 then rx else senderOf dir) 2 1).deviceEvent 2
    .next ((s1.requarantine (senderOf dir)).requarantine rx)

/-! ### Errors in memory (R190, R368) -/

/-- The place of a journal copy in its stack: the 256 MiB at the top (R379; DESIGN CHOICE, assumption 100). -/
def journalBase : Nat := 2 ^ 36 - 2 ^ 28

/-- An error in a copy of the journal spoils the CHECK of the records that it meets (R379, R380). -/
def Control.hurtCopy (c : Control) (st pa len : Nat) : Control :=
  if st = 0 || st = 4 then
    c.spoil ((c.journal.filter (fun p =>
      let at' := journalBase + 64 * (p.1 % journalSlots)
      decide (at' < pa + len) && decide (pa < at' + 64))).map (fun p => (st, p.1 % journalSlots)))
  else c

/-- An uncorrectable error in a frame slot that an instruction reads: that lane's instance meets poison (R190, R214). While the die is
halted no instruction reads one (R364). -/
def State.slotReadError (s : State) (c k lane n : Nat) : State :=
  match s.warp? c k with
  | none => s
  | some w =>
    match s.fetch w with
    | none => s
    | some word =>
      match decode word with
      | .refused _ => s
      | .ok i =>
        if decide (w.phase = .issuing) && !w.ended && !s.halted (dieOf c) && decide (lane < w.insts.length) && (instrSlots i).contains n then
          s.takeFault c k w [⟨lane, 0x04, 0⟩]
        else s

/-- An uncorrectable error in a frame slot poisons the instances that it is an input of. -/
def State.slotError (s : State) (c i n : Nat) : State :=
  match s.frame? c i with
  | none => s
  | some f =>
    let hit := fun (x : Entry) => decide (x.state ≠ .free) && (match s.block? f.graph x.block with
      | none => false
      | some b => (inputSlots b.hdr x.iter).contains n)
    s.setFrame c i { f with entries := f.entries.map (fun x => if hit x then { x with poisonSeen := true } else x) }

/-- A packet whose token's payload has met an uncorrectable error carries POISON (R368). -/
def Packet.poisoned (p : Packet) : Packet :=
  match p.body with
  | .token t => { p with body := .token { t with poison := true } }
  | .out chip t => { p with body := .out chip { t with poison := true } }
  | .free _ _ => p

/-- The k-th packet of a list poisoned. -/
def poisonNth (ps : List Packet) (k : Nat) : List Packet :=
  match ps[k]? with
  | none => ps
  | some p => setNth ps k p.poisoned

/-- MEMORY_ERROR (R190, R333, R368): a corrected error is counted; an uncorrectable one poisons the bytes read, or the token or
row whose payload it met in flight. -/
def execMemoryError (site : ErrorSite) (corrected : Bool) (s : State) : Host.Outcome State Fault Refusal :=
  match site with
  | .frameSlot c i n =>
    if corrected then .next (s.count c 0x044 0 1) else .next ((s.count c 0x045 0 1).slotError c i n)
  | .slotRead c k lane n =>
    if corrected then .next (s.count c 0x044 0 1) else .next ((s.count c 0x045 0 1).slotReadError c k lane n)
  | .stash c i w =>
    if corrected then .next (s.count c 0x044 0 1)
    else
      let s1 := s.count c 0x045 0 1
      let k := s1.core c
      let k1 := { k with opbufs := k.opbufs.map (fun p => (p.1, p.2.hurt i w)) }
      match Map.find? k.stash i with
      | none => .next (s1.setCore c k1)
      | some l =>
        .next (s1.setCore c { k1 with stash := Map.put k.stash i { l with poison := uniSet l.poison ((List.range 8).map (fun b => 8 * (w % 16) + b)) } })
  | .tile c t e =>
    if corrected then .next (s.count c 0x044 0 1)
    else
      let s1 := s.count c 0x045 0 1
      let k := s1.core c
      let x := Map.getD k.row.tiles t Tile.reset
      .next (s1.setCore c { k with row := { k.row with tiles := Map.put k.row.tiles t { x with poison := insSet (insSet x.poison (e / 2 * 2)) (e / 2 * 2 + 1) } } })
  | .rowEntry c rin k =>
    if corrected then .next (s.count c 0x044 0 1)
    else
      let s1 := s.count c 0x045 0 1
      let r := (s1.core c).row
      let x := nthD RowInput.reset r.inputs rin
      match x.entries[k]? with
      | none => .next s1
      | some e => .next (s1.setRow c { r with
          inputs := setNth r.inputs rin { x with entries := setNth x.entries k { e with pkt := { e.pkt with poison := true } } } })
  | .sparse c a e =>
    if corrected then .next (s.count c 0x044 0 1)
    else
      let s1 := s.count c 0x045 0 1
      let r := (s1.core c).row
      let x := Map.getD r.saccs a Sacc.reset
      .next (s1.setRow c { r with saccs := Map.putD Sacc.reset r.saccs a { x with poison := insSet x.poison e } })
  | .reorder c k =>
    if corrected then .next (s.count c 0x044 0 1)
    else
      let s1 := s.count c 0x045 0 1
      let r := (s1.core c).row
      match r.pool[k]? with
      | none => .next s1
      | some p => .next (s1.setRow c { r with pool := setNth r.pool k { p with poison := true } })
  | .dram pa len =>
    let d := 8 + pa / 2 ^ 36 % 8
    if corrected then .next (s.countDie d 0 1)
    else
      let s1 := (s.countDie d 1 1).poisonRange pa len
      .next { s1 with control := s1.control.hurtCopy (pa / 2 ^ 36 % 8) (pa % 2 ^ 36) len }
  | .dieCache d k w =>
    if corrected then .next (s.countDie d 0 1)
    else
      let s1 := s.countDie d 1 1
      let x := s1.die d
      match x.lines[k]? with
      | none => .next s1
      | some l =>
        let bytes := (List.range 8).map (fun b => 8 * (w % 16) + b)
        if l.home then
          match s1.leafAt d l.asid (l.line * 128) false with
          | none => .next s1
          | some f => .next (s1.poisonRange (s1.physOf d l.asid (l.line * 128) f / 128 * 128 + 8 * (w % 16)) 8)
        else .next (s1.setDie d { x with lines := setNth x.lines k { l with poison := uniSet l.poison bytes } })
  | .tokenSent c k =>
    if corrected then .next (s.count c 0x044 0 1)
    else
      let s1 := s.count c 0x045 0 1
      .next (s1.setCore c { s1.core c with inject := poisonNth (s1.core c).inject k })
  | .tokenArrived c k =>
    if corrected then .next (s.count c 0x044 0 1)
    else
      let s1 := s.count c 0x045 0 1
      .next (s1.setCore c { s1.core c with matchIn := poisonNth (s1.core c).matchIn k })
  | .tokenCrossing k =>
    (match s.crossings[k]? with
      | none => .next s
      | some x => .next (if corrected then s else { s with crossings := setNth s.crossings k { x with pkt := x.pkt.poisoned } }))
  | .rowPacket k =>
    (match s.rowPkts[k]? with
      | none => .next s
      | some p => .next (if corrected then s else { s with rowPkts := setNth s.rowPkts k { p with poison := true } }))

/-- UNCORRECTABLE_MATCHING_ERROR (R368): an error in a frame header, carafe or matching store. -/
def execUncorrectableMatchingError (core : Nat) (s : State) : Host.Outcome State Fault Refusal :=
  .next ((s.count core 0x045 0 1).deviceEvent 6).maybeResume

/-! ### The management processor, power and the package (R369, R371, R394 to R396) -/

/-- One above the highest sequence number of the journal's valid records, 1 for a ring without one (R334). -/
def Control.seqOfJournal (c : Control) : Nat :=
  c.journal.foldl (fun a p => if c.copyGood 0 (p.1 % journalSlots) || c.copyGood 4 (p.1 % journalSlots) then max a (p.1 + 1) else a) 1

/-- The records that the ring holds good in neither copy. -/
def Control.ringLost (c : Control) : List Nat :=
  (c.journal.filter (fun p => !(c.copyGood 0 (p.1 % journalSlots) || c.copyGood 4 (p.1 % journalSlots)))).map (fun p => p.1)

/-- MGMT_HEARTBEAT_TIMEOUT (R371): 10 ms after the last heartbeat that the power manager saw the management processor is
reset; the counter and the SRAM mirror come back from the ring. -/
def execMgmtHeartbeatTimeout (s : State) : Host.Outcome State Fault Refusal :=
  if !s.control.powered || decide (s.now < s.control.mgmtBeat + 17000000) then .next s
  else
    let s1 := s.deviceEvent 3
    .next (({ s1 with control := { s1.control with mgmtBeat := s1.now, seq := s1.control.seqOfJournal, mirrorFrom := 0, mirrorLost := s1.control.ringLost } } : State).maybeResume)

/-- POWER_CONTROL_INTERVAL (R395, R396): over the cap, or above 100 °C, a share of slots is withheld in the next interval. -/
def execPowerControlInterval (s : State) : Host.Outcome State Fault Refusal :=
  let c := s.control
  if c.samples.length < 20 then .next s
  else
    let sum := c.samples.foldl (fun a x => a + x.1) 0
    let avg := sum / c.samples.length
    let above := decide (s.powerCap * c.samples.length < sum) || c.samples.any (fun x => decide (100 < x.2))
    .next { s with control := { c with withheld := if above then Config.withheldShare avg s.powerCap else 0, samples := [] } }

/-- Every command that the queues hold is discarded, and the queues are empty (R262, R369). -/
def State.discardQueues (s : State) (cause : Nat) : State :=
  (s.control.cmds.map (fun p => p.1)).foldl (fun a seq =>
    match Map.find? a.control.cmds seq with
    | none => a
    | some x => a.closeCmd seq x .discarded cause 0) s

/-- A package reset (R262, R306, R369, R394): every die resets, the control die's tables and registers with them; the
journal, the memories of the stacks and the counts of the die table stay. The control die's own STATE is ACTIVE at once (DESIGN
CHOICE, assumption 115). -/
def State.resetPackage (s : State) : State :=
  let s1 := ({ s with control := { s.control with sessions := s.control.sessions.map (fun x => { x with live := false }) } } : State).deviceEvent 5
  let s2 := s1.discardQueues 5
  let s3 := (List.range 18).foldl (fun a d => if d < 8 then a.resetCompute d else if d < 16 then a.resetBase d false else a.resetFabric d) s2
  let x := s3.die 18
  let s4 := s3.setDie 18 { x with state := .active, incarnation := (x.incarnation + 1) % 256, resets := min 65535 (x.resets + 1), errors := [] }
  let c := s4.control
  { s4 with
    cores := Map.mapVals (fun _ k => { k with cyclesAt := 0 }) s4.cores
    graphs := [], spaces := [], now := 0, reqs := [], fills := [], stashFills := [], asksFailed := [], splits := [], batches := [], owns := [], commits := [],
    decrs := [], retires := [], crossings := [], credits := [], rowPkts := [], rowReturns := [], views := [], roundWaits := [], sysReplies := [], services := [],
    reachable := [], chipId := 0, domainKeys := [], sendKey := 0, portCount := [], fabricOut := [], exchange := [], powerCap := 3800,
    drainLimit := 1000, debugHold := [], eventAt := []
    dies := Map.mapVals (fun _ d => { d with attAt := 0, regTab := [], tgens := [] }) s4.dies
    control := { Control.reset with
      powered := true, paused := true, seq := c.seqOfJournal, journal := c.journal, journalBad := c.journalBad, mirrorFrom := c.seqOfJournal, reads := c.reads
      hostData := c.hostData, statusOut := c.statusOut, statusHeld := c.statusHeld, spdmOut := c.spdmOut, hot := c.hot, junction := c.junction, signed := c.signed, nextLaunch := c.nextLaunch } }

/-- PACKAGE_RESET (R369). -/
def execPackageReset (s : State) : Host.Outcome State Fault Refusal := .next (if s.control.powered then s.resetPackage else s)

/-- POWER_SAMPLE (R371, R395, R396): a microsecond's power and the hottest junction, which releases a package held for heat once it is
below 90 °C; a heartbeat seen then is kept. -/
def execPowerSample (watts : Nat) (x : Sensed) (s : State) : Host.Outcome State Fault Refusal :=
  let c := s.control
  let hot := c.hot && decide (90 ≤ x.junction)
  let s1 : State := { s with control := { c with
    samples := (c.samples ++ [(watts, x.junction)]).drop (c.samples.length + 1 - 20), junction := x.junction, hot := hot
    mgmtBeat := if x.beat then s.now else c.mgmtBeat } }
  .next (if c.hot && !hot then s1.maybeResume else s1)

/-- THERMAL_TRIP (R396): the hottest junction stands at 115 °C or above; the package is reset, and held until every junction is below
90 °C. -/
def execThermalTrip (s : State) : Host.Outcome State Fault Refusal :=
  .next (if s.control.powered && decide (115 ≤ s.control.junction) && !s.control.hot
    then State.resetPackage { s with control := { s.control with hot := true } } else s)

/-- Slot 0 of a die's certificate table as it stands at power-on (R326): what it holds comes from outside the spec. -/
def CertSlot.made (d : Nat) : CertSlot := ⟨(Config.certChain d).take 4096, (List.range 12).map (Config.certDigest d)⟩

/-- A die as it comes out of power-on reset (R202, R326, R394): firmware has chosen the remote-data cache of a base die's stack. No rule
attests the control die, so its own STATE is ACTIVE at once (DESIGN CHOICE, assumption 115). -/
def Die.poweredOn (x : Die) (d : Nat) : Die :=
  { x with
    state := if d = 18 then .active else .quarantined, attAt := 0, certs := setNth x.certs 0 (CertSlot.made d)
    rdcGiB := if 8 ≤ d && d < 16 then Config.rdcChoice (d - 8) % 9 else x.rdcGiB }

/-- POWER_ON (R394): the boot ROM refuses firmware whose signature is bad; else the control die's firmware runs, PKG.TIME begins,
every other die leaves reset QUARANTINED, and the sequence counter is set. The dies then attest, and the host establishes its session
and configures the package. -/
def execPowerOn (s : State) : Host.Outcome State Fault Refusal :=
  if s.control.powered || !s.control.signed then .next s
  else
    let s2 := (List.range 19).foldl (fun a d => a.setDie d ((a.die d).poweredOn d)) s
    .next { s2 with now := 0, control := { s2.control with powered := true, paused := true, seq := s2.control.seqOfJournal, mirrorFrom := s2.control.seqOfJournal } }

end Sys2Proof.Machine
end

