-- ==== Sys2Proof/Machine/Fabric.lean ====
section
/-! DEFINITION. Boundaries and their keys, the fabric ports, and packets that leave and arrive (R48, R49, R266, R325, R381 to
R385, R393). -/
namespace Sys2Proof.Machine

def State.link (s : State) (n : Nat) : LinkDir := Map.getD s.links n LinkDir.reset
def State.setLink (s : State) (n : Nat) (x : LinkDir) : State := { s with links := Map.put s.links n x }

/-- The 256-bit AES key under which a direction sends (R325). -/
def LinkDir.key (x : LinkDir) : BitVec 256 := Config.linkKey x.txKey

/-- The 96-bit GCM nonce of the next flit of direction n (R325). -/
def LinkDir.nonce (x : LinkDir) (n : Nat) : Nat := n % 2 ^ 32 * 2 ^ 64 + x.txCount % 2 ^ 64

/-! ### Boundary tokens (R48, R266) -/

/-- BOUNDARY_TOKEN_CREDIT_RETURN (R49, R266): the k-th crossing reaches its die, whose ingress hands it on when every boundary
of its route has passed it and the matching queue has room; packets of one core to one core keep their order (R48). -/
def execBoundaryTokenCreditReturn (k : Nat) (s : State) : Host.Outcome State Fault Refusal :=
  match s.crossings[k]? with
  | none => .next s
  | some x =>
    let first := !(s.crossings.take k).any (fun y => y.pkt.src == x.pkt.src && y.pkt.goal == x.pkt.goal)
    if x.dirs.isEmpty || !first || !s.pathUp x.dirs || decide (32 ≤ (s.core x.pkt.dst).matchIn.length) then .next s
    else .next (((({ s with crossings := dropNth s.crossings k } : State).moveCredits x.dirs (dieOf x.pkt.dst) false).arrive x.pkt).settle)

/-! ### Management messages, key rollover (R325, R393) -/

/-- An SPDM message of the root and a die takes its flits on the boundaries between the control die and it that hold live keys
(R325, R389). -/
def State.countMgmt (s : State) (n d : Nat) : State :=
  let dirs := (roundTrip 18 d).filter (fun n => (Map.getD s.links n LinkDir.reset).up)
  { s with links := dirs.foldl (fun m k => Map.put m k ((Map.getD m k LinkDir.reset).pass (Config.spdmFlits n))) s.links }

/-- Whether management messages may cross some boundaries: no sender of them has stopped at its limit (R325). Where no key is live they
carry management flits all the same (R392). -/
def State.mgmtUp (s : State) (dirs : List Nat) : Bool := dirs.all (fun n => !(Map.getD s.links n LinkDir.reset).stopped)

/-- The other direction of a direction's boundary. -/
def mateOf (dir : Nat) : Nat := if dir % 2 = 0 then dir + 1 else dir - 1

/-- Whether a direction begins a rollover: its counter has passed 2^47, its boundary is in none, and the sessions in which the
root delivers its keys stand (R393). -/
def State.mayRoll (s : State) (dir : Nat) : Bool :=
  (s.link dir).up && decide (2 ^ 47 < (s.link dir).txCount) && (s.link dir).step == 0 && (s.link (mateOf dir)).step == 0
    && (s.die (senderOf dir)).sess && (s.die (receiverOf dir)).sess

/-- Whether a lower direction of the same sender is rolled first (R393). -/
def State.rollsBefore (s : State) (dir : Nat) : Bool := (List.range dir).any (fun n => senderOf n == senderOf dir && s.mayRoll n)

/-- KEY_ROLLOVER_START (R325, R393): a direction whose counter has passed 2^47 gets a new key at its receiver, unless its boundary
is in a rollover; a die's directions in ascending order. The key crosses in the receiver's session. -/
def execKeyRolloverStart (dir : Nat) (s : State) : Host.Outcome State Fault Refusal :=
  let s1 := s.countMgmt 9 (receiverOf dir)
  let x := s1.link dir
  if 44 ≤ dir || !s.mayRoll dir || s.rollsBefore dir || !s.mgmtUp (roundTrip 18 (receiverOf dir)) then .next s
  else
    let k := s.keySerial + 1
    .next (({ s1 with keySerial := k } : State).setLink dir { x with
      step := 1, newKey := k, rxKeys := Map.put x.rxKeys (1 - x.txIdx) k, rxCounts := Map.put x.rxCounts (1 - x.txIdx) 0 })

/-- SENDER_KEY_DELIVERY (R325, R393): the key crosses in the sender's session; the sender sends under the new index, its counter from 0, and runs again if the counter
had stopped it. -/
def execSenderKeyDelivery (dir : Nat) (s : State) : Host.Outcome State Fault Refusal :=
  let s1 := s.countMgmt 9 (senderOf dir)
  let x := s1.link dir
  if x.step != 1 || !s.mgmtUp (routeDirs 18 (senderOf dir)) then .next s
  else .next ((s1.setLink dir { x with
    step := 2, txIdx := 1 - x.txIdx, txKey := x.newKey, txCount := 0, rolls := min 65535 (x.rolls + 1), stopped := false }).settle)

/-- FIRST_NEW_KEY_FLIT (R393). -/
def execFirstNewKeyFlit (dir : Nat) (s : State) : Host.Outcome State Fault Refusal :=
  let x := s.link dir
  .next (if x.step = 2 then s.setLink dir { x with step := 3, rxIdx := x.txIdx, drainPend := true } else s)

/-- DRAIN_MARKER_SEND (R328, R393): the marker is one flit under the new key. -/
def execDrainMarkerSend (dir : Nat) (s : State) : Host.Outcome State Fault Refusal :=
  let x := s.link dir
  .next (if x.step = 3 then s.setLink dir { x.pass 1 with step := 4 } else s)

/-- DRAIN_MARKER_ARRIVAL (R393): the receiver erases the old key, and acknowledges to the root. -/
def execDrainMarkerArrival (dir : Nat) (s : State) : Host.Outcome State Fault Refusal :=
  let s1 := s.countMgmt 9 (receiverOf dir)
  let x := s1.link dir
  .next (if x.step = 4 && s.mgmtUp (routeDirs (receiverOf dir) 18) then s1.setLink dir { x with
    step := 0, rxKeys := Map.del x.rxKeys (1 - x.rxIdx), rxCounts := Map.del x.rxCounts (1 - x.rxIdx), drainPend := false, rxRolls := min 65535 (x.rxRolls + 1) } else s)

/-- FLIT_COUNTER_LIMIT (R325): a sender whose counter has reached 2^48 stops until the new key is live. -/
def execFlitCounterLimit (dir : Nat) (s : State) : Host.Outcome State Fault Refusal :=
  let x := s.link dir
  .next (if dir < 44 && x.up && decide (2 ^ 48 ≤ x.txCount) then s.setLink dir { x with stopped := true } else s)

/-! ### Ports and packets that leave (R381, R382, R384, R385) -/

/-- A packet's 128-bit header (R382). -/
def FabricPacket.header (p : FabricPacket) : BitVec 128 :=
  BitVec.ofNat 128 (p.counter % 2 ^ 64 + p.reserved % 2 ^ 24 * 2 ^ 64 + p.sport % 2 ^ 6 * 2 ^ 88 + p.len % 2 ^ 5 * 2 ^ 94 + p.keyIdx % 2 * 2 ^ 99
    + p.cls % 2 ^ 4 * 2 ^ 100 + p.schip % 2 ^ 12 * 2 ^ 104 + p.dchip % 2 ^ 12 * 2 ^ 116)

/-- A packet as it travels. -/
def FabricPacket.wire (p : FabricPacket) : WirePacket := ⟨FabricPacket.header p, p.payload, p.tagGood, p.sentIn⟩

/-- The fields of a packet that travels (R382). -/
def FabricPacket.parse (w : WirePacket) : FabricPacket :=
  let h := w.header.toNat
  { dchip := bits h 116 12, schip := bits h 104 12, cls := bits h 100 4, keyIdx := bits h 99 1, len := bits h 94 5, sport := bits h 88 6,
    reserved := bits h 64 24, counter := bits h 0 64, payload := w.payload, tagGood := w.tagGood, sentIn := w.sentIn }

/-- The 96-bit nonce of a packet (R382). -/
def FabricPacket.nonce (p : FabricPacket) : Nat := p.counter % 2 ^ 64 + p.sport % 2 ^ 6 * 2 ^ 78 + p.schip % 2 ^ 12 * 2 ^ 84

/-- FABRIC_PORT_CHANGE (R381, R394): a port of a fabric die that carries data goes up, and so has trained, or goes down. -/
def execFabricPortChange (port : Nat) (up : Bool) (s : State) : Host.Outcome State Fault Refusal :=
  let live := decide ((s.die (if port < 18 then 16 else 17)).state = .active)
  .next (if 36 ≤ port || (up && !live) then s else { s with ports := Map.put s.ports port up, control := { s.control with trained := s.control.trained || up } })

/-- The ports that are up, ascending (R381). -/
def State.livePorts (s : State) : List Nat := (s.ports.filter (fun p => p.2)).map (fun p => p.1)

/-- A packet bound for a chip that cannot be reached (R381, R384): a token is dropped, a memory request answered. -/
def State.unreachable (s : State) (p : FabricPacket) : State :=
  match p.cls with
  | 0 => s.countDie (s.fabricDieOf p.dchip) 0 1
  | 1 =>
    let id := leAt p.payload 0 8
    (match Map.find? s.reqs id with
    | none => s
    | some r => if r.state = .remote then s.remoteReq id r p.dchip else s)
  | _ => s

/-- The key of a port's counter under a domain key's index: a counter belongs to its key (R382, R385). -/
def portKey (j port : Nat) : Nat := 64 * j + port

/-- The counters without those of a key's index. -/
def dropKey (m : Map Nat) (j : Nat) : Map Nat := Map.keep (fun n _ => n / 64 != j) m

/-- Whether a port counter of the sending key has reached 2^48: the package stops sending until it is switched (R385). -/
def State.keySpent (s : State) : Bool := s.portCount.any (fun p => p.1 / 64 == s.sendKey && decide (2 ^ 48 ≤ p.2))

/-- FABRIC_PACKET_SEND (R381, R385): the k-th waiting packet, the first of its class and chip, leaves through the port of its
chip under the sending key; a package without that key, or with a port counter of it at 2^48, sends nothing. -/
def execFabricPacketSend (k : Nat) (s : State) : Host.Outcome State Fault Refusal :=
  match s.fabricOut[k]? with
  | none => .next s
  | some p =>
    let s1 : State := { s with fabricOut := dropNth s.fabricOut k }
    if (s.fabricOut.take k).any (fun q => q.dchip == p.dchip && q.cls == p.cls) then .next s
    else if (p.cls == 0 || p.dchip != s.chipId) && !s.reachable.contains p.dchip then .next (s1.unreachable p)
    else match s.livePorts[p.dchip % s.livePorts.length]? with
      | none => .next (s1.unreachable p)
      | some port =>
        let n := Map.getD s.portCount (portKey s.sendKey port) 0
        if (Map.find? s.domainKeys s.sendKey).isNone || s.keySpent then .next s
        else .next { s1 with
          fabricSent := s1.fabricSent ++ [FabricPacket.wire { p with keyIdx := s.sendKey, sport := port, counter := n }], portCount := Map.put s1.portCount (portKey s.sendKey port) (n + 1) }

/-! ### Packets that arrive (R382) -/

def combOf : Nat → Comb
  | 0 => .none
  | 1 => .addI32
  | 2 => .addF32
  | 3 => .minI32
  | 4 => .maxI32
  | 5 => .or
  | 6 => .and
  | _ => .addI64

/-- A token from the payload of a class-0 packet (R73, R130, R382). -/
def Token.parse (b : List Byte) : Token :=
  let w := leAt b 0 16
  let list := leAt b 20 1
  { fp := bits w 105 23 * 2 ^ 9, block := bits w 93 12, slot := bits w 85 8, iter := bits w 75 10, null := bitOf w 74, bad73 := bitOf w 73,
    comb := combOf (bits w 70 3), rel := scopeOf (bits w 68 2), poison := bitOf w 67, stop := bits w 64 3, payload := BitVec.ofNat 64 w,
    ident := leAt b 21 2, relWord := ⟨list, leAt b 16 4⟩, crossed := true,
    sender := some (2 ^ 32), hb := [], charges := [] }

/-- A memory request of another chip (R382): it goes to its home here, and answers over the fabric. -/
def State.remoteIn (s : State) (schip : Nat) (b : List Byte) : State :=
  let va := leAt b 8 8 % 2 ^ 56
  let asid := leAt b 16 2
  let op := leAt b 24 1
  let size := leAt b 26 1
  s.putReq
    { Req.bare ((s.homeOf 0 asid va).2 * 64) (leAt b 22 2) asid (leAt b 18 4) va size
        (kindOf op (leAt b 25 1) ((b.drop 45).take (leAt b 27 1))) s.now with
      back := some (schip, leAt b 0 8), sync := bitOf (leAt b 28 1) 0, elemIn := bitOf (leAt b 28 1) 1
      fillIn := bitOf (leAt b 28 1) 2, local' := bitOf (leAt b 28 1) 3, hint := (decHint (bits (leAt b 28 1) 4 3)).getD .normal
      bads := (List.range 128).filter (fun i => bitOf (leAt b 29 16) i) }

/-- A line fetched from another chip goes to the requesting die's cache, as a local fill does (R197, R202). -/
def State.remoteFill (s : State) (r : Req) (data : List Byte) (poison : List Nat) : State :=
  let d := dieOf r.core
  let l : Line :=
    { asid := r.asid, line := lineOf r.va, region := (s.region d r.asid r.va).1, rgen := r.rgen, stamp := r.stamp, tgen := r.tgen,
      home := false, dirty := false, data := data, poison := poison, version := 0, used := if r.hint = .streaming then 0 else s.now,
      keep := r.hint = .keep }
  if 8 ≤ d || r.elem.isSome then s else { s with fills := s.fills ++ [⟨d, l, r.hint, decide (r.hint ≠ .noRdc)⟩] }

/-- Of the loads of a line that a die has sent to another chip, the one that is answered first fills a copy: the bytes of the others may
be older than what the die then holds (R126, R198). -/
def State.onlyFill (s : State) (r : Req) : State :=
  { s with reqs := Map.mapVals (fun _ q =>
      if decide (q.state = .remote) && dieOf q.core == dieOf r.core && q.asid == r.asid && lineOf q.va == lineOf r.va then q.staleFill else q) s.reqs }

/-- The answer of another chip to a request of this one: its value, word that it waits there as a deferred reader (R226), or the
fault of a load that does not park (R213). It goes on from its fabric die over boundaries that are up (R47, R49); an ATOM that met
poison there is noticed here (R214), and a round asked for a die's view reaches it (R134, R150). -/
def State.remoteAnswer (s : State) (b : List Byte) : State :=
  let id := leAt b 0 8
  match Map.find? s.reqs id with
  | none => s
  | some r =>
    let status := leAt b 8 1
    if (r.state ≠ .remote && r.state ≠ .reader) || r.back.isSome || !s.pathUp (s.reqDirs r) then s
    else if status = 2 then { s with reqs := Map.put s.reqs id { r with state := .reader } }
    else if 0x80 ≤ status then s.loadFault id 0 r (status - 0x80)
    else
      let null := bitOf status 0
      let data := (b.drop 26).take (leAt b 9 1)
      let poison := (List.range 128).filter (fun i => bitOf (leAt b 10 16) i)
      let d := s.fabricDieOf (s.homeOf (dieOf r.core) r.asid r.va).1
      match r.kind with
      | .load =>
        let o := r.va % 128
        let bad := (poison.filter (fun i => o ≤ i && i < o + r.size)).map (fun i => i - o)
        (((s.answer d r ((data.drop o).take r.size) bad false).endReq id 0 r).onlyFill r).remoteFill r data poison
      | .store new bad =>
        let bads := if bad then List.range new.length else r.bads
        let s1 := s.touchCopies (dieOf r.core) r.asid r.va new (bads.map (fun i => r.va % 128 + i)) r.local'
        (s1.answer d r [] [] false).endReq id 0 r
      | .rounda scope => s.spreadRound id r scope (s.region (dieOf r.core) r.asid r.va).1 (ofBytes data)
      | .atomic _ _ | .full _ _ =>
        let s1 := s.touchCopies (dieOf r.core) r.asid r.va (List.replicate r.size 0) [] true
        let s2 := if r.kind.isAtomic && r.reply.isNone && !poison.isEmpty then s1.poisonNotice r else s1
        (s2.answer d r data poison null).endReq id 0 r
      | .roundv =>
        if r.forView then (s.setDie (dieOf r.core) ((s.die (dieOf r.core)).raiseView r.asid r.rgen (ofBytes data))).endReq id 0 r
        else (s.answer d r data poison null).endReq id 0 r
      | .stashStore _ | .smap _ _ | .swb | .sinv => (s.answer d r data poison null).endReq id 0 r

/-- The error counter under which a packet is dropped, if it is (R333, R382): a packet with a bad header counts as that alone, whatever
its tag (DESIGN CHOICE, assumption 124). -/
def State.packetError (s : State) (p : FabricPacket) : Option Nat :=
  if (Map.find? s.domainKeys p.keyIdx).isNone || decide (5 ≤ p.cls) || p.reserved != 0 || p.dchip != s.chipId then some 2
  else if !p.tagGood then some 1 else none

/-- FABRIC_PACKET_RECEIVE (R382): a packet is handed on by its class, or dropped and counted. -/
def execFabricPacketReceive (die : Nat) (w : WirePacket) (s : State) : Host.Outcome State Fault Refusal :=
  let pkt := FabricPacket.parse w
  if (die != 16 && die != 17) || decide ((s.die die).state ≠ .active) then .next s
  else match s.packetError pkt with
    | some n => .next (s.countDie die n 1)
    | none =>
      match pkt.cls with
      | 0 => .next (s.sendFrom die (Token.parse pkt.payload))
      | 1 => .next (s.remoteIn pkt.schip pkt.payload)
      | 2 => .next (s.remoteAnswer pkt.payload)
      | 3 => .next ((s.exchangeData die pkt.schip pkt.payload pkt.sentIn).getD s)
      | _ => s.exchangeControl pkt.schip pkt.payload

end Sys2Proof.Machine
end

