-- ==== Sys2Proof/Machine/FloatOps.lean ====
section
/-! DEFINITION. Floating point and conversion, rows 0x5_ and 0x6_ (R170 to R189). -/
namespace Sys2Proof.Machine

/-- One f32 result of up to three modified f32 sources, rounded once (R172, R177). -/
def f32Step (s : State) (a : FmtA) (f : Bool → Val → Val → Val → Val × Bool) : Host.Outcome State Fault Refusal :=
  floatStep s a.g a.dst .f32 (fun x l =>
    let m := x.mode l a.rnd
    let r := f m.isRdn ((decodeF .f32 (x.rd l 1 a.sa)).modify a.mods.a) ((decodeF .f32 (x.rd l 1 a.sb)).modify a.mods.b)
      ((decodeF .f32 (x.rd l 1 a.sc)).modify a.mods.c)
    [roundF .f32 m a.mods.sat (x.draw l 0) r.2 r.1])

/-- FADD (R177). -/
def execFadd (a : FmtA) (s : State) : Host.Outcome State Fault Refusal :=
  f32Step s a (fun rdn x y _ => (Val.sum rdn [x, y], false))
/-- FSUB (R177). -/
def execFsub (a : FmtA) (s : State) : Host.Outcome State Fault Refusal :=
  f32Step s a (fun rdn x y _ => (Val.sum rdn [x, y.neg], false))
/-- FMUL (R177). -/
def execFmul (a : FmtA) (s : State) : Host.Outcome State Fault Refusal := f32Step s a (fun _ x y _ => (x.mul y, false))
/-- FFMA (R177). -/
def execFfma (a : FmtA) (s : State) : Host.Outcome State Fault Refusal :=
  f32Step s a (fun rdn x y z => (Val.sum rdn [x.mul y, z], false))

/-- FSCALE: times two to the signed 32-bit n (R177). -/
def execFscale (a : FmtA) (s : State) : Host.Outcome State Fault Refusal :=
  floatStep s a.g a.dst .f32 (fun x l =>
    let v := (decodeF .f32 (x.rd l 1 a.sa)).modify a.mods.a
    [roundF .f32 (x.mode l a.rnd) a.mods.sat (x.draw l 0) false (v.scale (intVal 32 true (x.rd l 1 a.sb)))])

/-- FMIN and FMAX: the chosen operand's encoding (R178). -/
def minMaxStep (s : State) (a : FmtA) (isMin : Bool) : Host.Outcome State Fault Refusal :=
  floatStep s a.g a.dst .f32 (fun x l =>
    [roundF .f32 .rne false 0 false (minMax isMin ((decodeF .f32 (x.rd l 1 a.sa)).modify a.mods.a)
      ((decodeF .f32 (x.rd l 1 a.sb)).modify a.mods.b))])

/-- FMIN (R178). -/
def execFmin (a : FmtA) (s : State) : Host.Outcome State Fault Refusal := minMaxStep s a true
/-- FMAX (R178). -/
def execFmax (a : FmtA) (s : State) : Host.Outcome State Fault Refusal := minMaxStep s a false

/-- FCMP (R179). -/
def execFcmp (a : FmtCmp) (s : State) : Host.Outcome State Fault Refusal :=
  laneStep s a.g a.dst 1 (fun x l =>
    b2n (condF a.cond ((decodeF .f32 (x.rd l 1 a.sa)).modify a.mods.a) ((decodeF .f32 (x.rd l 1 a.sb)).modify a.mods.b)))

/-- FCLASS (R180): a mask, which is not offered (R174). -/
def execFclass (a : FmtA) (s : State) : Host.Outcome State Fault Refusal :=
  laneStep s a.g a.dst 1 (fun x l => classMask ((decodeF .f32 (x.rd l 1 a.sa)).modify a.mods.a))

/-- One level of the reduction tree: neighbours joined at positions that start at `pos`; an absent operand passes the
other through (R120). -/
def redLevel (f : Nat → Nat → Nat → Nat) (pos : Nat) : List (Option Nat) → List (Option Nat)
  | x :: y :: t =>
    (match x, y with
      | none, none => none
      | some u, none => some u
      | none, some v => some v
      | some u, some v => some (f pos u v)) :: redLevel f (pos + 1) t
  | [x] => [x]
  | [] => []

/-- The five levels over 32 lanes: positions 0 to 15, 16 to 23, 24 to 27, 28 and 29, 30 (R120). -/
def redTree (f : Nat → Nat → Nat → Nat) (xs : List (Option Nat)) : Option Nat :=
  ((redLevel f 30 (redLevel f 28 (redLevel f 24 (redLevel f 16 (redLevel f 0 xs))))).headD none)

/-- FREDW (R120, R181): every active lane receives the tree's result. dyn is the default mode of the lowest active lane's launch
(DESIGN CHOICE, assumption 85). -/
def execFredw (a : FmtFredw) (s : State) : Host.Outcome State Fault Refusal :=
  warpStep s (fun x =>
    let ls := x.w.active a.g
    match ls with
    | [] => x.w
    | low :: _ =>
      let m := x.mode low a.rnd
      let leaf := fun l =>
        if ls.contains l then
          some (roundF .f32 .rne false 0 false ((decodeF .f32 (x.rd l 1 a.sa)).modify a.mods.a))
        else none
      let node := fun pos u v =>
        let p := decodeF .f32 u
        let q := decodeF .f32 v
        match a.op with
        | .add => roundF .f32 m a.mods.sat (x.draw low pos) false (Val.sum m.isRdn [p, q])
        | .min => roundF .f32 .rne false 0 false (minMax true p q)
        | .max => roundF .f32 .rne false 0 false (minMax false p q)
      let r := (redTree node ((List.range 32).map leaf)).getD 0
      (x.w.write ls a.dst 1 (fun _ => r)).offer a.dst (ls.map (fun _ => decodeF .f32 r)))

/-- Element h of a packed 16-bit operand, modified (R170, R171). -/
def halfVal (t : Ty) (x h : Nat) (m : SrcMod) : Val := (decodeF t (bits x (16 * h) 16)).modify m

/-- The packed forms (R182): each element rounds once with its own draw number. -/
def packStep (s : State) (a : FmtA) (f : Bool → Val → Val → Val → Val) : Host.Outcome State Fault Refusal :=
  floatStep s a.g a.dst a.ty (fun x l =>
    let m := x.mode l a.rnd
    [0, 1].map (fun h => roundF a.ty m a.mods.sat (x.draw l h) false
      (f m.isRdn (halfVal a.ty (x.rd l 1 a.sa) h a.mods.a) (halfVal a.ty (x.rd l 1 a.sb) h a.mods.b)
        (halfVal a.ty (x.rd l 1 a.sc) h a.mods.c))))

/-- PKFMA (R182). -/
def execPkfma (a : FmtA) (s : State) : Host.Outcome State Fault Refusal :=
  packStep s a (fun rdn x y z => Val.sum rdn [x.mul y, z])
/-- PKADD (R182). -/
def execPkadd (a : FmtA) (s : State) : Host.Outcome State Fault Refusal := packStep s a (fun rdn x y _ => Val.sum rdn [x, y])
/-- PKMUL (R182). -/
def execPkmul (a : FmtA) (s : State) : Host.Outcome State Fault Refusal := packStep s a (fun _ x y _ => x.mul y)

/-- FDOT2 (R183). -/
def execFdot2 (a : FmtA) (s : State) : Host.Outcome State Fault Refusal :=
  floatStep s a.g a.dst .f32 (fun x l =>
    let m := x.mode l a.rnd
    let p := fun h => (halfVal a.ty (x.rd l 1 a.sa) h a.mods.a).mul (halfVal a.ty (x.rd l 1 a.sb) h a.mods.b)
    [roundF .f32 m a.mods.sat (x.draw l 0) false
      (Val.sum m.isRdn [p 0, p 1, (decodeF .f32 (x.rd l 1 a.sc)).modify a.mods.c])])

/-- FRCP (R184). -/
def execFrcp (a : FmtA) (s : State) : Host.Outcome State Fault Refusal := f32Step s a (fun _ x _ _ => fnRcp x)
/-- FRSQ (R184). -/
def execFrsq (a : FmtA) (s : State) : Host.Outcome State Fault Refusal := f32Step s a (fun _ x _ _ => fnRsq x)
/-- FSQRT (R184). -/
def execFsqrt (a : FmtA) (s : State) : Host.Outcome State Fault Refusal := f32Step s a (fun _ x _ _ => fnSqrt x)
/-- FEXP2 (R184). -/
def execFexp2 (a : FmtA) (s : State) : Host.Outcome State Fault Refusal := f32Step s a (fun _ x _ _ => fnExp2 x)
/-- FLOG2 (R184). -/
def execFlog2 (a : FmtA) (s : State) : Host.Outcome State Fault Refusal := f32Step s a (fun _ x _ _ => fnLog2 x)
/-- FSIN (R184). -/
def execFsin (a : FmtA) (s : State) : Host.Outcome State Fault Refusal := f32Step s a (fun _ x _ _ => fnSin x)
/-- FCOS (R184). -/
def execFcos (a : FmtA) (s : State) : Host.Outcome State Fault Refusal := f32Step s a (fun _ x _ _ => fnCos x)
/-- FTANH (R184). -/
def execFtanh (a : FmtA) (s : State) : Host.Outcome State Fault Refusal := f32Step s a (fun _ x _ _ => fnTanh x)

/-- FCVT (R185): a widening conversion is exact and draws nothing. -/
def execFcvt (a : FmtCvt) (s : State) : Host.Outcome State Fault Refusal :=
  floatStep s a.g a.dst a.dty (fun x l =>
    let v := (decodeF a.sty (x.rd l 1 a.sa)).modify a.mods.a
    [if widening a.dty a.sty then roundF a.dty .rne false 0 false v
     else roundF a.dty (x.mode l a.rnd) a.mods.sat (x.draw l 0) false v])

/-- F2I (R186): 8- and 16-bit results are extended to 32 bits. -/
def execF2i (a : FmtCvt) (s : State) : Host.Outcome State Fault Refusal :=
  laneStep s a.g a.dst a.dty.words (fun x l =>
    wrapTo (32 * a.dty.words) (roundI a.dty (x.mode l a.rnd) (x.draw l 0) ((decodeF a.sty (x.rd l 1 a.sa)).modify a.mods.a)))

/-- I2F (R187). -/
def execI2f (a : FmtCvt) (s : State) : Host.Outcome State Fault Refusal :=
  floatStep s a.g a.dst a.dty (fun x l =>
    [roundF a.dty (x.mode l a.rnd) a.mods.sat (x.draw l 0) false
      (Val.int (modInt a.sty.width a.sty.signed (x.rd l a.sty.words a.sa) a.mods.a))])

/-- The largest finite magnitude's ⌊log2⌋ among values, if one is not zero. -/
def maxLog : List Val → Option Int
  | [] => none
  | .fin _ m e :: t => some (match maxLog t with | none => magLog m e | some x => max x (magLog m e))
  | .nan :: t | .inf _ :: t | .zero _ :: t => maxLog t

/-- The block scale of MXPACK (R188). -/
def mxScale (t : Ty) (xs : List Val) : Nat :=
  if xs.any Val.isNan then 0xFF
  else match maxLog xs with
    | none => 127
    | some k => (clampInt 0 254 (k - t.emax + 127)).toNat

/-- MXPACK (R188): one scaled block from the active lanes, with lane j's draw numbered j and keyed by the lowest
active lane, whose launch also resolves dyn (DESIGN CHOICE, assumption 85). -/
def execMxpack (a : FmtCvt) (s : State) : Host.Outcome State Fault Refusal :=
  warpStep s (fun x =>
    let ls := x.w.active a.g
    let low := ls.headD 0
    let val := fun l => (decodeF a.sty (x.rd l 1 a.sa)).modify a.mods.a
    let sc := mxScale a.dty (ls.map val)
    let elem := fun l => if sc == 0xFF then 0 else
      roundF a.dty (x.mode low a.rnd) a.mods.sat (x.draw low l) false ((val l).scale (127 - (sc : Int)))
    (x.w.write ls a.dst 1 (fun l => sc * 256 + elem l)).offer a.dst (ls.map (fun l => decodeMx a.dty sc (elem l))))

/-- MXUNPK (R189). -/
def execMxunpk (a : FmtCvt) (s : State) : Host.Outcome State Fault Refusal :=
  floatStep s a.g a.dst a.dty (fun x l =>
    let v := x.rd l 1 a.sa
    [roundF a.dty .rne false 0 false (decodeMx a.sty (bits v 8 8) (bits v 0 a.sty.width))])

end Sys2Proof.Machine
end

