-- ==== Sys2Proof/Machine/Spdm.lean ====
section
/-! DEFINITION. Attestation: the root as requester to the dies, and the control die as responder to the host (R326, R372,
R373, R389 to R392). -/
namespace Sys2Proof.Machine

/-! ### The root and a die (R391, R392) -/

/-- Cycles of 10 ms and of 1 ms. -/
def responseCycles : Nat := 17000000
def retryCycles : Nat := 1700000

/-- A die's attestation fails (R324, R391, R392): reason, count, and QUARANTINED again. -/
def State.attestFail (s : State) (d err : Nat) : State :=
  let x := s.die d
  s.setDie d { x with
    state := .quarantined, attFail := min 255 (x.attFail + 1), lastErr := err, attTry := x.attTry + 1, attStep := 0, attAt := s.now }

/-- A repeated challenge of an ACTIVE die fails: every H_ATTEST that asks for it notes the first failure, and the die is reset
and attested anew (R376, R391). -/
def State.reattestFail (s : State) (d err : Nat) : State :=
  let x := s.die d
  let s1 := s.setDie d { x with attFail := min 255 (x.attFail + 1), lastErr := err }
  let note := fun (y : Cmd) =>
    let b := HostCommand.b y.cmd 0 % 32
    if y.cmd.opcode == 10 && y.step == 1 && y.result == 0 && (b == 31 || b == d) then { y with result := BitVec.ofNat 64 (1 + err * 2 ^ 8 + d * 2 ^ 16) } else y
  (({ s1 with control := { s1.control with cmds := Map.mapVals (fun _ y => note y) s1.control.cmds } } : State).deviceEvent 1).resetDie d

/-- The certificate table with slot 0 changed. -/
def Die.setCert (x : Die) (f : CertSlot → CertSlot) : Die := { x with certs := setNth x.certs 0 (f (nthD ⟨[], []⟩ x.certs 0)) }

/-- The measurement blocks that a die has: indexes 1 to 4 (R390). -/
def ownBlocks (a : SpdmAnswer) : List (Nat × List Word) := a.blocks.filter (fun p => decide (1 ≤ p.1) && decide (p.1 ≤ 4))

/-- What one good answer records (R326): the digest and then the chain of slot 0, at most 4 KiB, and the measurements. -/
def Die.learn (x : Die) (step : Nat) (a : SpdmAnswer) : Die :=
  match step with
  | 3 => x.setCert (fun y => { y with digest := a.digest })
  | 4 => x.setCert (fun y => { y with chain := a.chain.take 4096 })
  | 6 => { x with newMeasures := a.digest, newBlocks := ownBlocks a }
  | 8 => { x with measures := x.newMeasures, blocks := x.newBlocks, sess := true, sessGen := 0 }
  | _ => x

/-- Message n of the root's exchange with a die (R391): in order; with GET_VERSION a QUARANTINED die starts ATTESTING, X0 first of
all at bring-up (R392, R394), whether or not its answer has come; every answer names version 1.3 (R389); with FINISH its session
stands and its boundaries get their keys. Messages 5 and 6 also repeat for an ACTIVE die that H_ATTEST names. -/
def State.dieMessage (s0 : State) (n d : Nat) (errs : List Nat) (a : SpdmAnswer) : State :=
  let s := s0.countMgmt n d
  let x := s.die d
  let err := if errs.contains a.err then a.err else errs.headD 7
  let bad := !a.good || decide (a.version ≠ 0x13)
  let first := n == 0 && decide (x.state = .quarantined) && x.attTry == 0 && (d == 16 || s.control.ready || (s.die 16).keyed)
  if 18 ≤ d || !s.control.powered || s.control.hot || !s0.mgmtUp (roundTrip 18 d) then s0
  else if a.silent then (if first then s.setDie d { x with state := .attesting, attStep := 0, attAt := s.now } else s0)
  else if x.state = .active && x.attStep == n + 20 then
    if bad then s.reattestFail d err
    else
      let y := { x with attStep := if n = 5 then 26 else 0, attAt := s.now }
      s.setDie d (if n = 6 then { y with measures := a.digest, blocks := ownBlocks a } else y)
  else
    if !(first || (decide (x.state = .attesting) && x.attStep == n)) then s0
    else if bad then s.attestFail d (if a.version ≠ 0x13 then 2 else err)
    else
      let y := { x.learn n a with state := .attesting, attStep := n + 1, attAt := s.now }
      let s1 := s.setDie d y
      if n = 8 then ((dirsOf d).foldl (fun a k => a.countMgmt 9 (senderOf k)) s1).keyLinks d else s1

/-- ATTESTATION_RESPONSE_TIMEOUT (R267, R391): no response within 10 ms; the timer that names a halted die stands. -/
def execAttestationResponseTimeout (die : Nat) (s : State) : Host.Outcome State Fault Refusal :=
  let x := s.die die
  let waits := decide (x.state = .attesting) && decide (x.attStep < 9)
  if 18 ≤ die || !s.control.powered || s.halted die || decide (s.now < x.attAt + responseCycles) then .next s
  else if waits then .next (s.attestFail die 0x01)
  else if x.state = .active && 20 < x.attStep then .next (s.reattestFail die 0x01)
  else .next s

/-- ATTESTATION_RETRY (R391): 1 ms after a failure the root sends GET_VERSION again, twice at most. -/
def execAttestationRetry (die : Nat) (s : State) : Host.Outcome State Fault Refusal :=
  let x := s.die die
  if 18 ≤ die || s.control.hot || decide (x.state ≠ .quarantined) || decide (x.attTry < 1) || decide (2 < x.attTry)
      || decide (s.now < x.attAt + retryCycles) then .next s
  else .next (s.setDie die { x with state := .attesting, attStep := 0, attAt := s.now })

/-! ### The host (R372, R373, R389, R390) -/

/-- An answer of the control die to a host's request. -/
def State.spdmReply (s : State) (session : Nat) (code : SpdmCode) (blocks : List (Nat × List Word)) (content : SpdmContent := .empty) : State :=
  { s with control := { s.control with spdmOut := s.control.spdmOut ++ [⟨session, code, blocks, content, 18⟩] } }

/-- A measurement block as DMTF lays it out, with its SHA-384 digest as the value (R390; PRESUMED from DSP0274, assumption 102):
index, specification 1, size, value type, value size, value. -/
def dmtfBlock (p : Nat × List Word) : List Byte :=
  let kind := match p.1 with | 1 => 0 | 2 => 1 | 3 | 4 => 2 | _ => 3
  toBytes 1 p.1 ++ toBytes 1 1 ++ toBytes 2 51 ++ toBytes 1 kind ++ toBytes 2 48 ++ ((p.2.take 12).flatMap (fun w => toBytes 4 w.toNat))

/-- The measurement blocks that the control die gives the host (R390): its own four, then one for each other die. -/
def State.hostBlocks (s : State) : List (Nat × List Word) :=
  (List.range 4).map (fun i => (i + 1, (List.range 12).map (fun w => Config.certDigest (18 * 8 + i + 1) w)))
    ++ (List.range 18).map (fun d => (16 + d, (s.die d).measures))

/-- What the control die's answer to request n carries (R326, R389, R390). -/
def State.spdmContent (s : State) (n : Nat) : SpdmContent :=
  let slot := nthD ⟨[], []⟩ (s.die 18).certs 0
  match n with
  | 0 => .version 0x13
  | 1 => .capabilities [.cert, .chal, .measSig, .keyEx, .encrypt, .mac, .keyUpd]
  | 2 => .algorithms [.ecdsaP384, .sha384Base, .sha384Meas, .secp384r1, .aes256Gcm, .keySchedule]
  | 3 => .digests slot.digest
  | 4 => .certificate slot.chain
  | 6 => .measurements (s.hostBlocks.map dmtfBlock)
  | _ => .empty

/-- Whether the control die answers the host: it runs, and is not held in reset (R396). -/
def State.answers (s : State) : Bool := s.control.powered && !s.control.hot

/-- A host's request before or in a session, of version 1.3 or answered with the error (R389). -/
def State.hostMessage (s : State) (session n : Nat) (a : SpdmAnswer) : State :=
  if !s.answers then s
  else if a.version ≠ 0x13 then s.spdmReply session .versionMismatch []
  else s.spdmReply session .served (if n = 6 then s.hostBlocks else []) (s.spdmContent n)

/-- One message to a die or from the host. -/
def spdm (n : Nat) (errs : List Nat) (peer : SpdmPeer) (a : SpdmAnswer) (s : State) : State :=
  match peer with
  | .die d => s.dieMessage n d errs a
  | .host x => s.hostMessage x n a

/-- GET_VERSION (R389, R391). -/
def execGetVersion (peer : SpdmPeer) (answer : SpdmAnswer) (s : State) : Host.Outcome State Fault Refusal :=
  .next (spdm 0 [2] peer answer s)

/-- GET_CAPABILITIES (R389, R391). -/
def execGetCapabilities (peer : SpdmPeer) (answer : SpdmAnswer) (s : State) : Host.Outcome State Fault Refusal :=
  .next (spdm 1 [2] peer answer s)

/-- NEGOTIATE_ALGORITHMS (R389, R391). -/
def execNegotiateAlgorithms (peer : SpdmPeer) (answer : SpdmAnswer) (s : State) : Host.Outcome State Fault Refusal :=
  .next (spdm 2 [2] peer answer s)

/-- GET_DIGESTS (R326, R389, R391). -/
def execGetDigests (peer : SpdmPeer) (answer : SpdmAnswer) (s : State) : Host.Outcome State Fault Refusal :=
  .next (spdm 3 [3] peer answer s)

/-- GET_CERTIFICATE (R326, R389, R391). -/
def execGetCertificate (peer : SpdmPeer) (answer : SpdmAnswer) (s : State) : Host.Outcome State Fault Refusal :=
  .next (spdm 4 [3, 4] peer answer s)

/-- CHALLENGE (R389, R391). -/
def execChallenge (peer : SpdmPeer) (answer : SpdmAnswer) (s : State) : Host.Outcome State Fault Refusal :=
  .next (spdm 5 [5] peer answer s)

/-- GET_MEASUREMENTS (R326, R390, R391). -/
def execGetMeasurements (peer : SpdmPeer) (answer : SpdmAnswer) (s : State) : Host.Outcome State Fault Refusal :=
  .next (spdm 6 [5, 6] peer answer s)

/-- A host's request inside the making or the life of a session: served under version 1.3, answered with the error under another
(R389). -/
def State.hostRequest (s : State) (session : Nat) (a : SpdmAnswer) (serve : State) : State :=
  if !s.answers then s else if a.version ≠ 0x13 then s.spdmReply session .versionMismatch [] else serve

/-- KEY_EXCHANGE (R372, R389, R391): a host session is opened, of four at most. -/
def execKeyExchange (peer : SpdmPeer) (answer : SpdmAnswer) (s : State) : Host.Outcome State Fault Refusal :=
  match peer with
  | .die _ => .next (spdm 7 [7] peer answer s)
  | .host x =>
    let c := s.control
    .next (s.hostRequest x answer (if !answer.good || decide (4 ≤ c.sessions.length) || c.sessions.any (fun y => y.id == x) then s
      else State.spdmReply { s with control := { c with sessions := c.sessions ++ [⟨x, 1, false, 0, []⟩] } } x .served []))

/-- FINISH (R372, R373, R391): a die's session stands; a host session becomes live, takes the free credits, and the status
messages that waited are sent. -/
def execFinish (peer : SpdmPeer) (answer : SpdmAnswer) (s : State) : Host.Outcome State Fault Refusal :=
  match peer with
  | .die _ => .next (spdm 8 [7] peer answer s)
  | .host x =>
    let c := s.control
    .next (s.hostRequest x answer (match c.sessions.find? (fun y => y.id == x && !y.live) with
      | none => s
      | some y =>
        let c1 := { c with sessions := c.sessions.filter (fun z => z.id != x) ++ [{ y with live := true, step := 2 }] }
        if !answer.good then s
        else (State.spdmReply { s with control := c1 } x .served []).grantAll.sendStatusHeld))

/-- A message inside a die's session with the root (R389). -/
def State.dieSession (s : State) (d : Nat) (a : SpdmAnswer) (f : Die → Die) : State :=
  if 18 ≤ d || !s.answers || !s.mgmtUp (roundTrip 18 d) || !(s.die d).sess || !a.good || decide (a.version ≠ 0x13) then s else (s.countMgmt 9 d).setDie d (f (s.die d))

/-- KEY_UPDATE (R389): the keys of a session change. -/
def execKeyUpdate (peer : SpdmPeer) (answer : SpdmAnswer) (s : State) : Host.Outcome State Fault Refusal :=
  match peer with
  | .die d => .next (s.dieSession d answer (fun y => { y with sessGen := y.sessGen + 1 }))
  | .host x =>
    let c := s.control
    .next (s.hostRequest x answer (if !answer.good || !c.sessions.any (fun y => y.id == x && y.live) then s
      else State.spdmReply { s with control := { c with
        sessions := c.sessions.map (fun y => if y.id == x then { y with keyGen := y.keyGen + 1 } else y) } } x .served []))

/-- A host session ends (R372, R373): its unspent credits go to the pool, and from there to the earliest live session. -/
def State.endSession (s : State) (x : Nat) : State :=
  State.grantAll { s with control := { s.control with sessions := s.control.sessions.filter (fun y => y.id != x) } }

/-- END_SESSION (R373, R389); a die whose session has ended takes no further keys (R393). -/
def execEndSession (peer : SpdmPeer) (answer : SpdmAnswer) (s : State) : Host.Outcome State Fault Refusal :=
  match peer with
  | .die d => .next (s.dieSession d answer (fun y => { y with sess := false }))
  | .host x =>
    .next (s.hostRequest x answer (if s.control.sessions.any (fun y => y.id == x) then (s.spdmReply x .served []).endSession x else s))

/-- UNSUPPORTED_REQUEST (R389): ERROR UnsupportedRequest answers it, a die's to the root. -/
def execUnsupportedRequest (peer : SpdmPeer) (answer : SpdmAnswer) (s : State) : Host.Outcome State Fault Refusal :=
  match peer with
  | .die d =>
    let s1 := s.countMgmt 9 d
    .next (if 18 ≤ d || !s.answers || !s.mgmtUp (roundTrip 18 d) then s
      else { s1 with control := { s1.control with
        spdmOut := s1.control.spdmOut ++ [⟨0, if answer.version ≠ 0x13 then .versionMismatch else .unsupportedRequest, [], .empty, d⟩] } })
  | .host x => .next (s.hostRequest x answer (s.spdmReply x .unsupportedRequest []))

/-- SECURED_MESSAGE_CHECK_FAILURE (R372): the session ends; running and queued commands continue. -/
def execSecuredMessageCheckFailure (session : Nat) (s : State) : Host.Outcome State Fault Refusal := .next (s.endSession session)

end Sys2Proof.Machine
end

