-- ==== Sys2Proof/Machine/HostCmds.lean ====
section
/-! DEFINITION. The host commands and what each does once it has started (R291, R322, R333, R364, R376, R377, R379, R380,
R385, R391). -/
namespace Sys2Proof.Machine

/-- How the steps of a command that serves a graph end: the two reply words form its result. -/
def servedCmd (seq : Nat) (r : Served) : Host.Outcome State Fault Refusal :=
  match r with
  | .wait s => .next s
  | .done s words => .next (s.readyCmd seq false (nthD 0 words 0 + 2 ^ 32 * nthD 0 words 1))

/-- The key under which a host command pre-empts or unloads. -/
def hostKey (seq : Nat) : Nat := seq + 2 ^ 40

/-! ### Graphs (R348, R349, R353, R376) -/

/-- H_LOAD (R348, R376): a load made by control firmware. -/
def execHLoad (seq : Nat) (s : State) : Host.Outcome State Fault Refusal :=
  match s.running seq 1 with
  | none => .next s
  | some x =>
    match s.loadGraph ⟨x.cmd.body.take 8, 256, HostCommand.b x.cmd 8 % 4096, hostIdent, true, none⟩ with
    | .busy s1 => .next s1
    | .refused s1 r b w => .next (s1.readyCmd seq true (r + 2 ^ 32 * (b + w * 2 ^ 12)))
    | .ok s1 g => .next (s1.readyCmd seq false (g * 256))

/-- H_UNLOAD (R349, R376). -/
def execHUnload (seq : Nat) (s : State) : Host.Outcome State Fault Refusal :=
  match s.running seq 2 with
  | none => .next s
  | some x => servedCmd seq (s.unloadGraph 256 (hostKey seq) (HostCommand.b x.cmd 0 % 256))

/-- H_PREEMPT (R353, R362, R376). -/
def execHPreempt (seq : Nat) (s : State) : Host.Outcome State Fault Refusal :=
  match s.running seq 5 with
  | none => .next s
  | some x => servedCmd seq (s.preemptGraph 256 (hostKey seq) (HostCommand.b x.cmd 0 % 256))

/-- H_RESUME (R353, R362, R376). -/
def execHResume (seq : Nat) (s : State) : Host.Outcome State Fault Refusal :=
  match s.running seq 6 with
  | none => .next s
  | some x => servedCmd seq (s.resumeGraph 256 (HostCommand.b x.cmd 0 % 256))

/-- H_LAUNCH (R264, R350, R376): the launch is made, in the place in the launch queue that its command took as it started. -/
def execHLaunch (seq : Nat) (s : State) : Host.Outcome State Fault Refusal :=
  match s.running seq 3 with
  | none => .next s
  | some x =>
    match x.launch with
    | none => .next s
    | some n =>
      if (Map.find? s.control.launches n).isSome then .next s
      else .next { s with control := { s.control with launches := Map.put s.control.launches n (launchFrom x.cmd.body seq true none []) } }

/-! ### H_COPY (R376) -/

/-- Bytes up to the next multiple of 4 KiB. -/
def toPage (va : Nat) : Nat := 4096 - va % 4096

/-- A checked write of a copy, poisoned bytes as poison. -/
def State.copyWrite (s : State) (asid va : Nat) (data : List Byte) (poison : List Nat) : WriteNow :=
  match s.ctlCheck 256 asid hostIdent (lineRun va data.length (data.length / 128 + 2) 0) with
  | .done s1 => .done ((byteRuns data poison).foldl (fun a r =>
      (lineRun ((va + r.1) % 2 ^ 56) r.2.1.length (r.2.1.length / 128 + 2) 0).foldl (fun b p =>
        b.ctlPut 256 asid hostIdent none p.2.1 ((r.2.1.drop p.1).take p.2.2) r.2.2) a) s1)
  | r => r

/-- Whether an address lies in the first n bytes of a copy's destination. -/
def inCopy (dst n va : Nat) : Bool := decide ((va + 2 ^ 56 - dst % 2 ^ 56) % 2 ^ 56 < n)

/-- The stores of a copy that are on their way to another chip. -/
def State.copyWrites (s : State) (asid dst n : Nat) : Bool :=
  s.reqs.any (fun p => p.2.graph == 256 && p.2.ask && p.2.kind.isStore && p.2.asid == asid && inCopy dst n p.2.va)

/-- The offset of the first byte at which such a store has met a fault (R376). -/
def State.copyFault (s : State) (asid dst n : Nat) : Option Nat :=
  (s.asksFailed.filter (fun x => x.graph == 256 && x.asid == asid && inCopy dst n x.va)).foldl (fun a x =>
    let o := (x.va + 2 ^ 56 - dst % 2 ^ 56) % 2 ^ 56
    match a with | none => some o | some m => some (min m o)) none

/-- The faults of a copy's stores have been told. -/
def State.clearCopy (s : State) (asid dst n : Nat) : State :=
  { s with asksFailed := s.asksFailed.filter (fun x => !(x.graph == 256 && x.asid == asid && inCopy dst n x.va)) }

/-- The payload of a class 1 message: at least 64 bytes, the last of them zeros where fewer are left (R372; DESIGN CHOICE,
assumption 94). -/
def dataUnit (bytes : List Byte) : List Byte := bytes ++ List.replicate (64 - bytes.length) 0

/-- The next piece of a copy, of at most n bytes: its data from the host or the source, then its end. -/
def State.copyPiece (s : State) (seq : Nat) (x : Cmd) (done n : Nat) (data : List Byte) : State :=
  let b := HostCommand.b x.cmd
  let kind := b 0 % 4
  let src := (b 2 + 2 ^ 32 * b 3 + done) % 2 ^ 56
  let dst := (b 5 + 2 ^ 32 * b 6 + done) % 2 ^ 56
  let fails := fun (a : State) => a.readyCmd seq true (done + 2 ^ 32 * done)
  let read := if kind = 1 then ReadNow.data s (data.take n) [] else s.ctlRead 256 (b 1 % 4096) hostIdent src n
  match read with
  | .busy s1 => s1
  | .fault s1 _ va => fails (s1.clearAsk 0 256 (b 1 % 4096) va)
  | .data s1 bytes bad =>
    let next := { x with step := done + bytes.length + 1 }
    if kind = 2 then { (s1.setCmd seq next) with control := { (s1.setCmd seq next).control with hostData := s1.control.hostData ++ [(seq, dataUnit bytes)] } }
    else match s1.copyWrite (b 4 % 4096) dst bytes bad with
      | .busy s2 => s2
      | .fault s2 _ => fails s2
      | .done s2 => s2.setCmd seq next

/-- H_COPY (R372, R376): piece by piece, each within a page, and each once the stores of the one before have performed where they go
to another chip; its acquire may wait for a sweep (R200); it stops at the first faulting page, and ends once every write has performed at its home. Its data moves to and from
the host while a session exists, in messages of 64 bytes to 4 KiB. -/
def execHCopy (seq : Nat) (data : List Byte) (s : State) : Host.Outcome State Fault Refusal :=
  match s.running seq 4 with
  | none => .next s
  | some x =>
    let b := HostCommand.b x.cmd
    let total := b 7
    match x.step with
    | 0 => .next ((if b 0 % 4 = 1 then s else s.acquire 0 (b 1 % 4096) RelWord.every).setCmd seq { x with step := 1 })
    | done + 1 =>
      let asid := b 4 % 4096
      let dst := b 5 + 2 ^ 32 * b 6
      match (if b 0 % 4 = 2 || s.copyWrites asid dst done then none else s.copyFault asid dst done) with
      | some ofs => .next ((s.clearCopy asid dst done).readyCmd seq true (ofs + 2 ^ 32 * ofs))
      | none =>
      if b 0 % 4 ≠ 1 && s.sweeping 0 (b 1 % 4096) RelWord.every then .next s
      else if (b 0 % 4 ≠ 0 && s.control.liveSessions.isEmpty) || (b 0 % 4 ≠ 2 && s.copyWrites asid dst done) then .next s
      else if total ≤ done then
        .next (if s.reqs.any (fun p => p.2.graph == 256 && p.2.kind.isStore) then s else s.readyCmd seq false total)
      else
        let room := min (total - done) (min (toPage (b 2 + done)) (toPage (b 5 + done)))
        let n := if b 0 % 4 = 1 then min room data.length else room
        let unit := b 0 % 4 ≠ 1 || (decide (64 ≤ data.length) && decide (data.length ≤ 4096))
        .next (if n = 0 || !unit then s else s.copyPiece seq x done n data)

/-! ### Queries and the journal (R303, R333, R376, R379, R380) -/

/-- A query of an item. -/
def queryCmd (seq item : Nat) (f : State → Cmd → Nat) (s : State) : Host.Outcome State Fault Refusal :=
  match s.running seq 7 with
  | none => .next s
  | some x => .next (if bits (HostCommand.b x.cmd 0) 8 8 = item then s.readyCmd seq false (f s x) else s)

/-- H_QUERY_DIE_ENTRY (R324, R376). -/
def execHQueryDieEntry (seq : Nat) (s : State) : Host.Outcome State Fault Refusal :=
  queryCmd seq 0 (fun t x => (t.die (HostCommand.b x.cmd 0 % 32)).entry) s

/-- H_QUERY_ERROR_COUNTER (R333, R376). -/
def execHQueryErrorCounter (seq : Nat) (s : State) : Host.Outcome State Fault Refusal :=
  queryCmd seq 1 (fun t x => Map.getD (t.die (HostCommand.b x.cmd 0 % 32)).errors (HostCommand.b x.cmd 1) 0) s

/-- H_QUERY_EXCHANGE (R303, R376). -/
def execHQueryExchange (seq : Nat) (s : State) : Host.Outcome State Fault Refusal :=
  queryCmd seq 2 (fun t x => t.exchangeWord (HostCommand.b x.cmd 1)) s

/-- CRC-32 of IEEE 802.3: one bit, one byte, a list of bytes. -/
def crcBits : Nat → Nat → Nat
  | 0, c => c
  | n + 1, c => crcBits n (if c % 2 = 1 then (c / 2) ^^^ 0xEDB88320 else c / 2)

def crc32 (bs : List Byte) : Nat := (bs.foldl (fun c b => crcBits 8 (c ^^^ b.toNat)) 0xFFFFFFFF) ^^^ 0xFFFFFFFF

/-- The 64 bytes of a journal record (R380). -/
def JRec.bytes (r : JRec) : List Byte :=
  let n := r.command % 65536 * 2 ^ 80 + r.kind % 4 * 2 ^ 97 + r.queue % 64 * 2 ^ 99 + r.state.code * 2 ^ 105 + r.cause % 256 * 2 ^ 108
    + r.asid % 4096 * 2 ^ 116 + r.seq % 2 ^ 64 * 2 ^ 128 + r.tAccept % 2 ^ 64 * 2 ^ 192 + r.tStart % 2 ^ 64 * 2 ^ 256
    + r.tEnd % 2 ^ 64 * 2 ^ 320 + r.result.toNat * 2 ^ 384 + r.tag.toNat * 2 ^ 448
  let body := (toBytes 64 n).drop 4
  toBytes 4 (crc32 body) ++ body

/-- What a read of a sequence number sends (R379, R380): the record, from the copy of stack 0 if its CHECK is good there, else from
that of stack 4, else from the mirror; with none, or no such record, zeros (DESIGN CHOICE, assumption 100). -/
def Control.journalBytes (c : Control) (seq : Nat) : List Byte :=
  let slot := seq % journalSlots
  match (if c.copyGood 0 slot || c.copyGood 4 slot || c.mirrors seq then Map.find? c.journal seq else none) with
  | some r => r.bytes
  | none => List.replicate 64 0

/-- H_JOURNAL_READ (R372, R376, R379, R380): up to 4,096 records in ascending order, sent while a session exists. -/
def execHJournalRead (seq : Nat) (s : State) : Host.Outcome State Fault Refusal :=
  match s.running seq 8 with
  | none => .next s
  | some x =>
    let b := HostCommand.b x.cmd
    let n := min 4096 (b 2)
    if s.control.liveSessions.isEmpty then .next s else
    let recs := (List.range n).map (fun i => s.control.journalBytes (b 0 + 2 ^ 32 * b 1 + i))
    .next (State.readyCmd { s with control := { s.control with reads := s.control.reads ++ recs } } seq false n)

/-! ### Dies (R364, R365, R391, R392) -/

/-- The result of a command that waits for a die: ACTIVE again, or given up. -/
def State.dieBack (s : State) (seq d : Nat) : State :=
  let x := s.die d
  if x.state = .active then s.readyCmd seq false 0
  else if x.state = .quarantined && 3 ≤ x.attTry then s.readyCmd seq false (1 + x.lastErr * 2 ^ 8)
  else s

/-- A draining die writes back its stash's dirty lines and returns every line that a home has given it, be the grant still under
way; its requests for others are withdrawn; its dirty home lines go to DRAM (R392). -/
def State.drainDie (s : State) (d : Nat) : State :=
  let s1 := if 8 ≤ d then s else (List.range 64).foldl (fun a i => (a.core (d * 64 + i)).stash.foldl (fun b p =>
    b.dropStash (d * 64 + i) p.1 true none) a) s
  let s2 := (List.range 8).foldl (fun a st => a.setDie (8 + st) { a.die (8 + st) with
    owners := (a.die (8 + st)).owners.filter (fun o => o.owner != d) }) { s1 with owns := s1.owns.filter (fun o => o.die != d) }
  s2.setDie d { s2.die d with state := .draining, owned := [], lines := (s2.die d).lines.map (fun l => { l with dirty := false }) }

/-- H_DIE_RESET (R376, R392): orderly, the event first, then the drain, then the reset; or the reset at once. -/
def execHDieReset (seq : Nat) (s : State) : Host.Outcome State Fault Refusal :=
  match s.running seq 9 with
  | none => .next s
  | some x =>
    let d := HostCommand.b x.cmd 0 % 32
    match x.step with
    | 0 =>
      let s1 := (s.setCmd seq { x with step := if bitOf (HostCommand.b x.cmd 0) 8 && (s.die d).state = .active then 1 else 2 }).deviceEvent 1
      .next (if bitOf (HostCommand.b x.cmd 0) 8 && (s.die d).state = .active then s1.drainDie d else s1.resetDie d)
    | 1 =>
      let busy := s.reqs.any (fun p => dieOf p.2.core == d && p.2.kind.isStore && p.2.travels)
      .next (if busy then s else (s.setCmd seq { x with step := 2 }).resetDie d)
    | _ => .next (s.dieBack seq d)

/-- The dies that H_ATTEST names. -/
def attestTargets (b : Nat) : List Nat := if b % 32 = 31 then List.range 18 else [b % 32]

/-- H_ATTEST (R376, R391): the challenge of every named ACTIVE die is repeated. -/
def execHAttest (seq : Nat) (s : State) : Host.Outcome State Fault Refusal :=
  match s.running seq 10 with
  | none => .next s
  | some x =>
    let b := HostCommand.b x.cmd 0 % 32
    let ts := attestTargets b
    if x.step = 0 then
      let bad := if b = 31 then none else ts.find? (fun d => d < 18 && decide ((s.die d).state ≠ .active))
      match bad with
      | some d => .next (s.readyCmd seq false (1 + (s.die d).lastErr * 2 ^ 8 + d * 2 ^ 16))
      | none =>
        let s1 := s.setCmd seq { x with step := 1 }
        .next (ts.foldl (fun a d =>
          if d < 18 && decide ((a.die d).state = .active) then a.setDie d { a.die d with attStep := 25, attAt := a.now } else a) s1)
    else if ts.any (fun d => decide ((s.die d).state = .active) && decide (20 < (s.die d).attStep)) then .next s
    else .next (s.readyCmd seq false x.result.toNat)

/-- Clocks of a released die, and those elsewhere that name it, go on from where they stopped (R267, R364). -/
def State.releaseDie (s : State) (d : Nat) : State :=
  let x := s.die d
  let n := match x.heldSince with | some t => s.now - t | none => 0
  let later := fun (t : Option Nat) => t.map (fun v => v + n)
  let core := fun (k : Core) => { k with
    carafes := Map.mapVals (fun _ y => { y with timer := later y.timer, linger := later y.linger, heldSince := later y.heldSince }) k.carafes
    warps := Map.mapVals (fun _ w => { w with stall := later w.stall }) k.warps
    frames := Map.mapVals (fun _ f => { f with broughtAt := f.broughtAt + n }) k.frames
    engines := Map.mapVals (fun _ e => if e.kind = .dxch then { e with issuedAt := e.issuedAt + n, startAt := e.startAt + n }
                                       else { e with issuedAt := e.issuedAt + n }) k.engines }
  let named := fun (g : Nat) (c : Calendar) => match s.boundTo g c.id with | some (k, _, _) => dieOf k == d | none => false
  let s1 : State := { s with
    cores := s.cores.map (fun k => (k.1, if dieOf k.1 = d then core k.2 else k.2))
    reqs := s.reqs.map (fun p => (p.1, if dieOf p.2.core = d || s.reqHome p.2 = (s.chipId, d) then { p.2 with issuedAt := p.2.issuedAt + n } else p.2))
    exchange := Map.mapVals (fun i g => { g with cals := g.cals.map (fun c => if named i c then { c with started := later c.started } else c) }) s.exchange
    debugHold := delSet s.debugHold d }
  (s1.setDie d { x with state := .active, heldSince := none, attAt := x.attAt + n }).maybeResume

/-- A debug command of an action. -/
def debugCmd (seq action : Nat) (f : State → Nat → Option State) (s : State) : Host.Outcome State Fault Refusal :=
  match s.running seq 11 with
  | none => .next s
  | some x =>
    if HostCommand.b x.cmd 0 % 16 ≠ action && !(action = 0 && 4 ≤ HostCommand.b x.cmd 0 % 16) then .next s
    else match (if HostCommand.b x.cmd 0 % 16 = action then f s (HostCommand.b x.cmd 1) else none) with
      | some s1 => .next (s1.readyCmd seq false 0)
      | none => .next (s.readyCmd seq false 1)

/-- H_DEBUG_HALT (R364): an ACTIVE compute die halts; any other is refused, as is an action that the command does not have. -/
def execHDebugHalt (seq : Nat) (s : State) : Host.Outcome State Fault Refusal :=
  debugCmd seq 0 (fun t b => if b % 32 < 8 && (t.die (b % 32)).state = .active then some (t.haltDie (b % 32)) else none) s

/-- H_DEBUG_RELEASE (R364). -/
def execHDebugRelease (seq : Nat) (s : State) : Host.Outcome State Fault Refusal :=
  debugCmd seq 1 (fun t b => if (t.die (b % 32)).state = .halted then some (t.releaseDie (b % 32)) else none) s

/-- Breakpoints of a loaded graph armed or disarmed (R291). -/
def State.arm (s : State) (g : Nat) (on : Bool) : Option State :=
  match s.graph? g with
  | none => none
  | some x => some (s.setGraph g { x with brk := on })

/-- H_DEBUG_ARM (R291, R376). -/
def execHDebugArm (seq : Nat) (s : State) : Host.Outcome State Fault Refusal := debugCmd seq 2 (fun t b => t.arm (b % 256) true) s

/-- H_DEBUG_DISARM (R291, R376). -/
def execHDebugDisarm (seq : Nat) (s : State) : Host.Outcome State Fault Refusal := debugCmd seq 3 (fun t b => t.arm (b % 256) false) s

/-! ### H_CONFIGURE (R377, R385) -/

/-- A configuration of an item: done, or refused. -/
def configCmd (seq item : Nat) (f : State → HostCommand → Option State) (s : State) : Host.Outcome State Fault Refusal :=
  match s.running seq 12 with
  | none => .next s
  | some x =>
    let i := HostCommand.b x.cmd 0 % 16
    if i ≠ item && !(item = 0 && 7 ≤ i) then .next s
    else match (if i = item then f s x.cmd else none) with
      | some s1 => .next (s1.readyCmd seq false 0)
      | none => .next (s.readyCmd seq false 1)

/-- H_CONFIGURE_QUEUE_PRIORITY (R263, R377); an item above 6 is refused here. -/
def execHConfigureQueuePriority (seq : Nat) (s : State) : Host.Outcome State Fault Refusal :=
  configCmd seq 0 (fun t c => some { t with control := { t.control with
    queuePrio := Map.put t.control.queuePrio (HostCommand.b c 1 % 64) (HostCommand.b c 2 % 4) } }) s

/-- H_CONFIGURE_POWER_CAP (R147, R377). -/
def execHConfigurePowerCap (seq : Nat) (s : State) : Host.Outcome State Fault Refusal :=
  configCmd seq 1 (fun t c =>
    let w := HostCommand.b c 1
    if 1000 ≤ w && w ≤ 3800 then some (({ t with powerCap := w } : State).byEvent 0 0x801) else none) s

/-- An exchange group from its descriptor (R322): the places of the fields are open. Its members stand in ascending order. -/
def groupFrom (bytes : List Byte) (now : Nat) : Group :=
  let f := Config.groupField (ofBytes bytes)
  let m := f 0 % 64 + 1
  { members := uniSet [] ((List.range m).map (fun i => f (i + 1) % 4096)), primary := f 65 % 4096, primaryDie := 16 + f 66 % 2, standby := f 67 % 4096,
    standbyDie := 16 + f 68 % 2, timeout := f 69, nextCal := f 70 % 65536, posts := [], cals := [], failed := false, beat := now,
    inCharge := false, noticed := false, issued := 0, waiters := [], grants := [], down := false }

/-- Whether a group is one that R322 allows: its primary and its standby lie on different chips, and its timeout is in range. -/
def Group.allowed (g : Group) : Bool :=
  g.primary != g.standby && decide (1700 ≤ g.timeout) && decide (g.timeout ≤ 17000000)

/-- H_CONFIGURE_EXCHANGE_GROUP (R322, R377, R387, R388): refused while the group has an open calendar, and where the descriptor is
none that R322 and R387 allow (DEDUCED, assumption 81). -/
def execHConfigureExchangeGroup (seq : Nat) (s : State) : Host.Outcome State Fault Refusal :=
  configCmd seq 2 (fun t c =>
    let n := HostCommand.b c 1 % 256
    let pa := HostCommand.b c 2 + 2 ^ 32 * HostCommand.b c 3
    let isOpen := match Map.find? t.exchange n with | some g => g.isOpen | none => false
    let g := groupFrom (memReads t.mem (pa % 2 ^ 39) 160) t.now
    if isOpen || !g.allowed then none else some (t.setGroup n g)) s

/-- The chips whose bits are set in a bitmap of 3,072. -/
def bitmapChips (bytes : List Byte) : List Nat :=
  let w := ofBytes bytes
  (List.range (8 * bytes.length)).filter (fun i => bitOf w i)

/-- H_CONFIGURE_CHIP (R377, R384): the chip id once per package reset, the reachable set at any time. Any 12-bit id is taken,
though R3 names 0 to 3,071 only (DESIGN CHOICE, assumption 83). -/
def execHConfigureChip (seq : Nat) (s : State) : Host.Outcome State Fault Refusal :=
  configCmd seq 3 (fun t c =>
    let pa := HostCommand.b c 2 + 2 ^ 32 * HostCommand.b c 3
    let id := HostCommand.b c 1 % 4096
    if t.control.chipSet && t.chipId != id then none
    else some { t with
      chipId := id, reachable := bitmapChips (memReads t.mem (pa % 2 ^ 39) 384), control := { t.control with chipSet := true } }) s

/-- The 256 bits of body words b4 to b11. -/
def HostCommand.key (c : HostCommand) : BitVec 256 :=
  BitVec.ofNat 256 ((List.range 8).foldl (fun a i => a + HostCommand.b c (4 + i) * 2 ^ (32 * i)) 0)

/-- H_CONFIGURE_INSTALL_KEY (R385): the port counters of a new key begin at 0. -/
def execHConfigureInstallKey (seq : Nat) (s : State) : Host.Outcome State Fault Refusal :=
  configCmd seq 4 (fun t c =>
    let j := HostCommand.b c 1 % 2
    some { t with domainKeys := Map.put t.domainKeys j (HostCommand.key c), portCount := dropKey t.portCount j }) s

/-- H_CONFIGURE_SEND_KEY (R382, R385): packets go out under that key, and under its counters. -/
def execHConfigureSendKey (seq : Nat) (s : State) : Host.Outcome State Fault Refusal :=
  configCmd seq 5 (fun t c => some { t with sendKey := HostCommand.b c 1 % 2 }) s

/-- H_CONFIGURE_ERASE_KEY (R385): the key goes, and its counters. -/
def execHConfigureEraseKey (seq : Nat) (s : State) : Host.Outcome State Fault Refusal :=
  configCmd seq 6 (fun t c =>
    let j := HostCommand.b c 1 % 2
    some { t with domainKeys := Map.del t.domainKeys j, portCount := dropKey t.portCount j }) s

end Sys2Proof.Machine
end

