-- ==== Sys2Proof/Machine/IntOps.lean ====
section
/-! DEFINITION. Integer arithmetic and immediates, rows 0x1_ and 0x2_ (R152 to R158). -/
namespace Sys2Proof.Machine

/-- Row 0x1_ (R153): the modified sources A, B and C at the type's width, an exact result, reduced by fin. -/
def intStep (s : State) (a : FmtA) (f : Int → Int → Int → Int) : Host.Outcome State Fault Refusal :=
  let n := a.ty.words
  let w := a.ty.width
  laneStep s a.g a.dst n (fun x l =>
    finInt a.ty a.mods.sat (f (modInt w a.ty.signed (x.rd l n a.sa) a.mods.a)
      (modInt w a.ty.signed (x.rd l n a.sb) a.mods.b) (modInt w a.ty.signed (x.rd l n a.sc) a.mods.c)))

/-- IADD (R153). -/
def execIadd (a : FmtA) (s : State) : Host.Outcome State Fault Refusal := intStep s a (fun x y _ => x + y)
/-- ISUB (R153). -/
def execIsub (a : FmtA) (s : State) : Host.Outcome State Fault Refusal := intStep s a (fun x y _ => x - y)
/-- IMUL (R153). -/
def execImul (a : FmtA) (s : State) : Host.Outcome State Fault Refusal := intStep s a (fun x y _ => x * y)
/-- IMULH: the floor of the product over 2^w (R153). -/
def execImulh (a : FmtA) (s : State) : Host.Outcome State Fault Refusal :=
  intStep s a (fun x y _ => (x * y) / ((2 ^ a.ty.width : Nat) : Int))
/-- IMAD (R153). -/
def execImad (a : FmtA) (s : State) : Host.Outcome State Fault Refusal := intStep s a (fun x y z => x * y + z)
/-- IMIN (R153). -/
def execImin (a : FmtA) (s : State) : Host.Outcome State Fault Refusal := intStep s a (fun x y _ => min x y)
/-- IMAX (R153). -/
def execImax (a : FmtA) (s : State) : Host.Outcome State Fault Refusal := intStep s a (fun x y _ => max x y)
/-- IABS (R153). -/
def execIabs (a : FmtA) (s : State) : Host.Outcome State Fault Refusal := intStep s a (fun x _ _ => (x.natAbs : Int))
/-- INEG (R153). -/
def execIneg (a : FmtA) (s : State) : Host.Outcome State Fault Refusal := intStep s a (fun x _ _ => -x)
/-- ISAD (R153). -/
def execIsad (a : FmtA) (s : State) : Host.Outcome State Fault Refusal :=
  intStep s a (fun x y z => ((x - y).natAbs : Int) + z)

/-- The 64-bit type of the same signedness (R155). -/
def Ty.wide (t : Ty) : Ty := if t.signed then .i64 else .n64

/-- The 32-bit type of the same signedness (R155). -/
def Ty.to32 (t : Ty) : Ty := if t.signed then .i32 else .n32

/-- IMADW: 32-bit factors, a 64-bit addend and result (R155). -/
def execImadw (a : FmtA) (s : State) : Host.Outcome State Fault Refusal :=
  laneStep s a.g a.dst 2 (fun x l =>
    finInt (Ty.wide a.ty) a.mods.sat
      (modInt 32 a.ty.signed (x.rd l 1 a.sa) a.mods.a * modInt 32 a.ty.signed (x.rd l 1 a.sb) a.mods.b
        + modInt 64 a.ty.signed (x.rd l 2 a.sc) a.mods.c))

/-- The predicate that SC names for a carry (R154). -/
def carrySel (o : Sel) : Nat := match o with | .p n => n | _ => 7

/-- IADDC and ISUBB (R154): a result and a carry that is read and written in the same lane. -/
def carryStep (s : State) (a : FmtA) (f : Nat → Nat → Nat → Bool → Nat × Bool) : Host.Outcome State Fault Refusal :=
  let n := a.ty.words
  let w := a.ty.width
  warpStep s (fun x =>
    let ls := x.w.active a.g
    let r := fun l => f w (wrapTo w (modInt w a.ty.signed (x.rd l n a.sa) a.mods.a))
      (wrapTo w (modInt w a.ty.signed (x.rd l n a.sb) a.mods.b)) (x.w.pred l (carrySel a.sc))
    (x.w.write ls a.dst n (fun l => (r l).1)).write ls (.p (carrySel a.sc)) 1 (fun l => b2n (r l).2))

/-- IADDC (R154). -/
def execIaddc (a : FmtA) (s : State) : Host.Outcome State Fault Refusal := carryStep s a addCarry
/-- ISUBB (R154). -/
def execIsubb (a : FmtA) (s : State) : Host.Outcome State Fault Refusal := carryStep s a subBorrow

/-- Σ of the products of packed elements (R155). -/
def dotSum (t : Ty) (a b : Nat) : Nat → Int
  | 0 => 0
  | j + 1 => dotSum t a b j + decodeI t (a / 2 ^ (t.width * j)) * decodeI t (b / 2 ^ (t.width * j))

/-- IDOT4 and IDOT2 (R155): n packed products and a 32-bit addend. -/
def dotStep (s : State) (a : FmtA) (n : Nat) : Host.Outcome State Fault Refusal :=
  laneStep s a.g a.dst 1 (fun x l =>
    finInt (Ty.to32 a.ty) a.mods.sat
      (modInt 32 a.ty.signed (x.rd l 1 a.sc) a.mods.c + dotSum a.ty (x.rd l 1 a.sa) (x.rd l 1 a.sb) n))

/-- IDOT4 (R155). -/
def execIdot4 (a : FmtA) (s : State) : Host.Outcome State Fault Refusal := dotStep s a 4
/-- IDOT2 (R155). -/
def execIdot2 (a : FmtA) (s : State) : Host.Outcome State Fault Refusal := dotStep s a 2

/-- LEA: base plus the shifted, extended index, modulo 2^64 (R156). -/
def execLea (a : FmtA) (s : State) : Host.Outcome State Fault Refusal :=
  laneStep s a.g a.dst 2 (fun x l =>
    let i := wrapTo 64 (intVal a.ty.width a.ty.signed (x.rd l a.ty.words a.sb))
    (x.rd l 2 a.sa + i * 2 ^ (x.rd l 1 a.sc % 64)) % 2 ^ 64)

/-- The immediate at the type's width: sign-extended for .i64 (R157). -/
def immInt (t : IType) (imm : Word) : Int :=
  if t.words == 2 then toSigned 32 imm.toNat else (imm.toNat : Int)

/-- Row 0x2_ (R157): an integer function of the operand and the immediate, wrapped at the type's width. -/
def immStep (s : State) (a : FmtI) (f : Nat → Int → Int) : Host.Outcome State Fault Refusal :=
  laneStep s a.g a.dst a.ity.words (fun x l =>
    wrapTo a.ity.width (f (x.rd l a.ity.words a.sa) (immInt a.ity a.imm)))

/-- A bitwise function of the operand and the immediate's w-bit pattern. -/
def immBits (s : State) (a : FmtI) (f : Nat → Nat → Nat) : Host.Outcome State Fault Refusal :=
  immStep s a (fun x i => (f x (wrapTo a.ity.width i) : Int))

/-- IADDI (R157). -/
def execIaddi (a : FmtI) (s : State) : Host.Outcome State Fault Refusal := immStep s a (fun x i => x + i)
/-- IMULI (R157). -/
def execImuli (a : FmtI) (s : State) : Host.Outcome State Fault Refusal := immStep s a (fun x i => x * i)
/-- ANDI (R157). -/
def execAndi (a : FmtI) (s : State) : Host.Outcome State Fault Refusal := immBits s a (fun x i => x &&& i)
/-- ORI (R157). -/
def execOri (a : FmtI) (s : State) : Host.Outcome State Fault Refusal := immBits s a (fun x i => x ||| i)
/-- XORI (R157). -/
def execXori (a : FmtI) (s : State) : Host.Outcome State Fault Refusal := immBits s a (fun x i => x ^^^ i)
/-- SHLI (R157). -/
def execShli (a : FmtI) (s : State) : Host.Outcome State Fault Refusal :=
  immStep s a (fun x _ => ((x * 2 ^ a.imm.toNat : Nat) : Int))
/-- SHRI (R157). -/
def execShri (a : FmtI) (s : State) : Host.Outcome State Fault Refusal :=
  immStep s a (fun x _ => ((x / 2 ^ a.imm.toNat : Nat) : Int))
/-- SHRAI (R157). -/
def execShrai (a : FmtI) (s : State) : Host.Outcome State Fault Refusal :=
  immStep s a (fun x _ => intVal a.ity.width true x / ((2 ^ a.imm.toNat : Nat) : Int))
/-- MOVI; with ITYPE .f32 the pattern unchanged (R157). -/
def execMovi (a : FmtI) (s : State) : Host.Outcome State Fault Refusal := immStep s a (fun _ i => i)
/-- MOVKI: every guard-true lane supplies the immediate to a uniform register (R157, R143). -/
def execMovki (a : FmtI) (s : State) : Host.Outcome State Fault Refusal := immStep s a (fun _ i => i)
/-- LEAI: the lane number times the signed immediate added (R157). -/
def execLeai (a : FmtI) (s : State) : Host.Outcome State Fault Refusal :=
  laneStep s a.g a.dst a.ity.words (fun x l =>
    wrapTo a.ity.width ((x.rd l a.ity.words a.sa : Int) + (l : Int) * toSigned 32 a.imm.toNat))

/-- ICMPI: a predicate from a 29-bit immediate, sign-extended for .i32 and zero-extended for .n32 (R158). -/
def execIcmpi (a : FmtIcmpi) (s : State) : Host.Outcome State Fault Refusal :=
  laneStep s a.g a.dst 1 (fun x l =>
    let signed := !a.ity.isN32
    b2n (condInt a.cond (intVal 32 signed (x.rd l 1 a.sa)) (intVal 29 signed a.imm)))

end Sys2Proof.Machine
end

