-- ==== Sys2Proof/Machine/LogicOps.lean ====
section
/-! DEFINITION. Logic and bits, compares, selections, moves, integer conversion, byte selection, frame pointers and
lane exchanges: rows 0x3_ and 0x4_ (R159 to R168). -/
namespace Sys2Proof.Machine

/-- Row 0x3_ (R159): the bit patterns of a and b at the type's width and the 32-bit operands named by the form. -/
def bitStep (s : State) (a : FmtA) (f : Nat → Nat → Nat → Nat) (bw cw : Nat) : Host.Outcome State Fault Refusal :=
  let n := a.ty.words
  laneStep s a.g a.dst n (fun x l =>
    f (x.rd l n a.sa) (x.rd l bw a.sb) (x.rd l cw a.sc) % 2 ^ a.ty.width)

/-- AND (R159). -/
def execAnd (a : FmtA) (s : State) : Host.Outcome State Fault Refusal := bitStep s a (fun x y _ => x &&& y) a.ty.words 1
/-- OR (R159). -/
def execOr (a : FmtA) (s : State) : Host.Outcome State Fault Refusal := bitStep s a (fun x y _ => x ||| y) a.ty.words 1
/-- XOR (R159). -/
def execXor (a : FmtA) (s : State) : Host.Outcome State Fault Refusal := bitStep s a (fun x y _ => x ^^^ y) a.ty.words 1
/-- The complement of a w-bit pattern. -/
def notW (w x : Nat) : Nat := 2 ^ w - 1 - x % 2 ^ w
/-- ANDN: a and not b (R159). -/
def execAndn (a : FmtA) (s : State) : Host.Outcome State Fault Refusal :=
  bitStep s a (fun x y _ => x &&& notW a.ty.width y) a.ty.words 1
/-- NOT (R159). -/
def execNot (a : FmtA) (s : State) : Host.Outcome State Fault Refusal := bitStep s a (fun x _ _ => notW a.ty.width x) 1 1
/-- SHL: 0 when the count reaches the width (R159). -/
def execShl (a : FmtA) (s : State) : Host.Outcome State Fault Refusal :=
  bitStep s a (fun x n _ => if a.ty.width ≤ n then 0 else x * 2 ^ n) 1 1
/-- SHR with zero fill (R159). -/
def execShr (a : FmtA) (s : State) : Host.Outcome State Fault Refusal :=
  bitStep s a (fun x n _ => if a.ty.width ≤ n then 0 else x / 2 ^ n) 1 1
/-- SHRA with sign fill (R159). -/
def execShra (a : FmtA) (s : State) : Host.Outcome State Fault Refusal :=
  bitStep s a (fun x n _ =>
    let v := intVal a.ty.width true x
    wrapTo a.ty.width (if a.ty.width ≤ n then (if v < 0 then -1 else 0) else v / ((2 ^ n : Nat) : Int))) 1 1
/-- A left rotation (R159). -/
def rotl (w x n : Nat) : Nat := x * 2 ^ (n % w) % 2 ^ w + x / 2 ^ (w - n % w)
/-- ROTL (R159). -/
def execRotl (a : FmtA) (s : State) : Host.Outcome State Fault Refusal := bitStep s a (fun x n _ => rotl a.ty.width x n) 1 1
/-- FUNNEL: a is the high word (R159). -/
def execFunnel (a : FmtA) (s : State) : Host.Outcome State Fault Refusal :=
  bitStep s a (fun x y n => (x * 2 ^ a.ty.width + y) / 2 ^ (n % a.ty.width)) a.ty.words 1

/-- Number of 1 bits among the lowest n. -/
def popCount (x : Nat) : Nat → Nat
  | 0 => 0
  | n + 1 => popCount x n + b2n (bitOf x n)

/-- Leading 0 bits of a w-bit pattern. -/
def leadZeros (w x : Nat) : Nat := if x = 0 then w else w - 1 - log2 x

/-- Trailing 0 bits of a w-bit pattern. -/
def trailZeros (w x : Nat) : Nat := if x = 0 then w else tzAux w x

/-- The pattern of n bits with the bit order reversed: bit i of the result is bit w−1−i. -/
def bitRev (w x : Nat) : Nat → Nat
  | 0 => 0
  | n + 1 => bitRev w x n + b2n (bitOf x (w - 1 - n)) * 2 ^ n

/-- A 32-bit count of a w-bit pattern (R151: the result is one word). -/
def countStep (s : State) (a : FmtA) (f : Nat → Nat → Nat) : Host.Outcome State Fault Refusal :=
  laneStep s a.g a.dst 1 (fun x l => f a.ty.width (x.rd l a.ty.words a.sa))

/-- POPC (R159). -/
def execPopc (a : FmtA) (s : State) : Host.Outcome State Fault Refusal := countStep s a (fun w x => popCount x w)
/-- CLZ (R159). -/
def execClz (a : FmtA) (s : State) : Host.Outcome State Fault Refusal := countStep s a leadZeros
/-- CTZ (R159). -/
def execCtz (a : FmtA) (s : State) : Host.Outcome State Fault Refusal := countStep s a trailZeros
/-- BREV (R159). -/
def execBrev (a : FmtA) (s : State) : Host.Outcome State Fault Refusal :=
  bitStep s a (fun x _ _ => bitRev a.ty.width x a.ty.width) 1 1

/-- BFX of R160. -/
def bfx (w : Nat) (signed : Bool) (x spec : Nat) : Nat :=
  let pos := bits spec 0 8
  let len := bits spec 8 8
  if w ≤ pos || len = 0 then 0
  else
    let l := min len (w - pos)
    let f := x / 2 ^ pos % 2 ^ l
    if signed then wrapTo w (toSigned l f) else f

/-- BFI of R160. -/
def bfi (w x y spec : Nat) : Nat :=
  let pos := bits spec 0 8
  let len := bits spec 8 8
  if w ≤ pos || len = 0 then x
  else
    let l := min len (w - pos)
    let m := (2 ^ l - 1) * 2 ^ pos
    (x &&& notW w m) ||| ((y * 2 ^ pos) &&& m)

/-- BFX (R160). -/
def execBfx (a : FmtA) (s : State) : Host.Outcome State Fault Refusal :=
  bitStep s a (fun x n _ => bfx a.ty.width a.ty.signed x n) 1 1
/-- BFI (R160). -/
def execBfi (a : FmtA) (s : State) : Host.Outcome State Fault Refusal :=
  bitStep s a (fun x y n => bfi a.ty.width x y n) a.ty.words 1

/-- ICMP (R161). -/
def execIcmp (a : FmtCmp) (s : State) : Host.Outcome State Fault Refusal :=
  let n := a.ty.words
  laneStep s a.g a.dst 1 (fun x l =>
    b2n (condInt a.cond (intVal a.ty.width a.ty.signed (x.rd l n a.sa)) (intVal a.ty.width a.ty.signed (x.rd l n a.sb))))

/-- PLOP: the entry 4a + 2b + c of the table (R161). -/
def execPlop (a : FmtPlop) (s : State) : Host.Outcome State Fault Refusal :=
  laneStep s a.g a.dst 1 (fun x l =>
    b2n (bitOf a.table (4 * x.rd l 1 a.sa + 2 * x.rd l 1 a.sb + x.rd l 1 a.sc)))

/-- SEL (R161). -/
def execSel (a : FmtA) (s : State) : Host.Outcome State Fault Refusal :=
  let n := a.ty.words
  laneStep s a.g a.dst n (fun x l => if x.rd l 1 a.sc = 1 then x.rd l n a.sa else x.rd l n a.sb)

/-- MOV (R161). -/
def execMov (a : FmtA) (s : State) : Host.Outcome State Fault Refusal :=
  laneStep s a.g a.dst a.ty.words (fun x l => x.rd l a.ty.words a.sa)

/-- MOVP: whether a is not 0 (R161). -/
def execMovp (a : FmtA) (s : State) : Host.Outcome State Fault Refusal :=
  laneStep s a.g a.dst 1 (fun x l => b2n (x.rd l a.ty.words a.sa != 0))

/-- MOVK: from the lowest guard-true lane (R161, R143). -/
def execMovk (a : FmtA) (s : State) : Host.Outcome State Fault Refusal :=
  laneStep s a.g a.dst a.ty.words (fun x l => x.rd l a.ty.words a.sa)

/-- CNVI (R162). -/
def execCnvi (a : FmtCvt) (s : State) : Host.Outcome State Fault Refusal :=
  laneStep s a.g a.dst a.dty.words (fun x l =>
    finInt a.dty a.mods.sat (decodeI a.sty (x.rd l a.sty.words a.sa)))

/-- One result byte of BYTSEL (R163): n source bytes, packed in x. -/
def bytePick (x n s : Nat) : Nat :=
  let b := x / 2 ^ (8 * (bits s 0 4 % n)) % 256
  match bits s 4 2 with
  | 0 => b
  | 1 => 0
  | 2 => if bitOf b 7 then 0xFF else 0
  | _ => bitRev 8 b 8

/-- The result of BYTSEL: n bytes, each picked by its selector byte. -/
def byteSel (x sel total : Nat) : Nat → Nat
  | 0 => 0
  | i + 1 => byteSel x sel total i + bytePick x total (sel / 2 ^ (8 * i) % 256) * 2 ^ (8 * i)

/-- BYTSEL (R163). -/
def execBytsel (a : FmtA) (s : State) : Host.Outcome State Fault Refusal :=
  let n := a.ty.words
  laneStep s a.g a.dst n (fun x l =>
    byteSel (x.rd l n a.sa + x.rd l n a.sb * 2 ^ (32 * n)) (x.rd l n a.sc) (8 * n) (4 * n))

/-- FPTR (R164). -/
def execFptr (a : FmtA) (s : State) : Host.Outcome State Fault Refusal :=
  laneStep s a.g a.dst 1 (fun x l =>
    x.rd l 1 a.sa % 8 * 2 ^ 29 + x.rd l 1 a.sb % 64 * 2 ^ 23 + x.rd l 1 a.sc % 16384 * 2 ^ 9)

/-- FPSPLIT (R164). -/
def execFpsplit (a : FmtA) (s : State) : Host.Outcome State Fault Refusal :=
  laneStep s a.g a.dst 1 (fun x l =>
    let v := x.rd l 1 a.sa
    bits v 29 3 * 2 ^ 24 + bits v 23 6 * 2 ^ 16 + bits v 9 14)

/-- The source lane of LANEX, if it is a poured lane (R166). -/
def laneSource (m : LaneMode) (wpop lane b : Nat) : Option Nat :=
  let src := match m with
    | .from => b
    | .rot => (lane + b) % wpop
    | .mirr => wpop - 1 - lane
    | .xor => lane ^^^ b
  if src < wpop then some src else none

/-- LANEX (R165, R166). -/
def execLanex (a : FmtLanex) (s : State) : Host.Outcome State Fault Refusal :=
  let n := a.ty.words
  laneStep s a.g a.dst n (fun x l =>
    match laneSource a.mode x.w.wpop l (x.rd l 1 a.sb) with
    | none => 0
    | some src => x.rd src n a.sa)

/-- A mask of lanes. -/
def laneMask (ls : List Nat) : Nat := ls.foldl (fun a l => a + 2 ^ l) 0

/-- What POLL writes to every active lane (R167). -/
def pollVal (m : PollMode) (act yes : List Nat) : Nat :=
  match m with
  | .all => b2n (yes.length == act.length)
  | .any => b2n (!yes.isEmpty)
  | .mask => laneMask yes
  | .count => yes.length

/-- POLL (R167). -/
def execPoll (a : FmtPoll) (s : State) : Host.Outcome State Fault Refusal :=
  laneStep s a.g a.dst 1 (fun x _ =>
    let act := x.w.active a.g
    pollVal a.mode act (act.filter (fun l => x.rd l a.ty.words a.sa != 0)))

/-- PEERS (R168). -/
def execPeers (a : FmtPeers) (s : State) : Host.Outcome State Fault Refusal :=
  let n := a.ty.words
  laneStep s a.g a.dst 1 (fun x l =>
    let grp := (x.w.active a.g).filter (fun m => x.rd m n a.sa == x.rd l n a.sa)
    match a.mode with
    | .same => laneMask grp
    | .lead => grp.headD 0)

end Sys2Proof.Machine
end

