-- ==== Sys2Proof/Machine/Dispatch.lean ====
section
/-! DEFINITION. The one dispatch from an instruction to its meaning. -/
namespace Sys2Proof.Machine

def exec (i : Instr) (s : State) : Host.Outcome State Fault Refusal :=
  match i with
  | .emit a => Sys2Proof.Machine.execEmit a s
  | .emitx a => Sys2Proof.Machine.execEmitx a s
  | .emitc a => Sys2Proof.Machine.execEmitc a s
  | .emite a => Sys2Proof.Machine.execEmite a s
  | .emitb a => Sys2Proof.Machine.execEmitb a s
  | .falloc a => Sys2Proof.Machine.execFalloc a s
  | .ffree a => Sys2Proof.Machine.execFfree a s
  | .spawn a => Sys2Proof.Machine.execSpawn a s
  | .spawnq a => Sys2Proof.Machine.execSpawnq a s
  | .join a => Sys2Proof.Machine.execJoin a s
  | .gate a => Sys2Proof.Machine.execGate a s
  | .trap a => Sys2Proof.Machine.execTrap a s
  | .brk a => Sys2Proof.Machine.execBrk a s
  | .nop a => Sys2Proof.Machine.execNop a s
  | .done a => Sys2Proof.Machine.execDone a s
  | .iadd a => Sys2Proof.Machine.execIadd a s
  | .isub a => Sys2Proof.Machine.execIsub a s
  | .imul a => Sys2Proof.Machine.execImul a s
  | .imulh a => Sys2Proof.Machine.execImulh a s
  | .imad a => Sys2Proof.Machine.execImad a s
  | .imadw a => Sys2Proof.Machine.execImadw a s
  | .iaddc a => Sys2Proof.Machine.execIaddc a s
  | .isubb a => Sys2Proof.Machine.execIsubb a s
  | .imin a => Sys2Proof.Machine.execImin a s
  | .imax a => Sys2Proof.Machine.execImax a s
  | .iabs a => Sys2Proof.Machine.execIabs a s
  | .ineg a => Sys2Proof.Machine.execIneg a s
  | .isad a => Sys2Proof.Machine.execIsad a s
  | .idot4 a => Sys2Proof.Machine.execIdot4 a s
  | .idot2 a => Sys2Proof.Machine.execIdot2 a s
  | .lea a => Sys2Proof.Machine.execLea a s
  | .iaddi a => Sys2Proof.Machine.execIaddi a s
  | .imuli a => Sys2Proof.Machine.execImuli a s
  | .andi a => Sys2Proof.Machine.execAndi a s
  | .ori a => Sys2Proof.Machine.execOri a s
  | .xori a => Sys2Proof.Machine.execXori a s
  | .shli a => Sys2Proof.Machine.execShli a s
  | .shri a => Sys2Proof.Machine.execShri a s
  | .shrai a => Sys2Proof.Machine.execShrai a s
  | .movi a => Sys2Proof.Machine.execMovi a s
  | .movki a => Sys2Proof.Machine.execMovki a s
  | .icmpi a => Sys2Proof.Machine.execIcmpi a s
  | .leai a => Sys2Proof.Machine.execLeai a s
  | .and a => Sys2Proof.Machine.execAnd a s
  | .or a => Sys2Proof.Machine.execOr a s
  | .xor a => Sys2Proof.Machine.execXor a s
  | .andn a => Sys2Proof.Machine.execAndn a s
  | .not a => Sys2Proof.Machine.execNot a s
  | .shl a => Sys2Proof.Machine.execShl a s
  | .shr a => Sys2Proof.Machine.execShr a s
  | .shra a => Sys2Proof.Machine.execShra a s
  | .rotl a => Sys2Proof.Machine.execRotl a s
  | .funnel a => Sys2Proof.Machine.execFunnel a s
  | .popc a => Sys2Proof.Machine.execPopc a s
  | .clz a => Sys2Proof.Machine.execClz a s
  | .ctz a => Sys2Proof.Machine.execCtz a s
  | .brev a => Sys2Proof.Machine.execBrev a s
  | .bfx a => Sys2Proof.Machine.execBfx a s
  | .bfi a => Sys2Proof.Machine.execBfi a s
  | .icmp a => Sys2Proof.Machine.execIcmp a s
  | .plop a => Sys2Proof.Machine.execPlop a s
  | .sel a => Sys2Proof.Machine.execSel a s
  | .mov a => Sys2Proof.Machine.execMov a s
  | .movp a => Sys2Proof.Machine.execMovp a s
  | .lanex a => Sys2Proof.Machine.execLanex a s
  | .poll a => Sys2Proof.Machine.execPoll a s
  | .peers a => Sys2Proof.Machine.execPeers a s
  | .cnvi a => Sys2Proof.Machine.execCnvi a s
  | .bytsel a => Sys2Proof.Machine.execBytsel a s
  | .movk a => Sys2Proof.Machine.execMovk a s
  | .fptr a => Sys2Proof.Machine.execFptr a s
  | .fpsplit a => Sys2Proof.Machine.execFpsplit a s
  | .fadd a => Sys2Proof.Machine.execFadd a s
  | .fsub a => Sys2Proof.Machine.execFsub a s
  | .fmul a => Sys2Proof.Machine.execFmul a s
  | .ffma a => Sys2Proof.Machine.execFfma a s
  | .fmin a => Sys2Proof.Machine.execFmin a s
  | .fmax a => Sys2Proof.Machine.execFmax a s
  | .fcmp a => Sys2Proof.Machine.execFcmp a s
  | .fclass a => Sys2Proof.Machine.execFclass a s
  | .fscale a => Sys2Proof.Machine.execFscale a s
  | .fredw a => Sys2Proof.Machine.execFredw a s
  | .fdot2 a => Sys2Proof.Machine.execFdot2 a s
  | .pkfma a => Sys2Proof.Machine.execPkfma a s
  | .pkadd a => Sys2Proof.Machine.execPkadd a s
  | .pkmul a => Sys2Proof.Machine.execPkmul a s
  | .fcvt a => Sys2Proof.Machine.execFcvt a s
  | .f2i a => Sys2Proof.Machine.execF2i a s
  | .i2f a => Sys2Proof.Machine.execI2f a s
  | .frcp a => Sys2Proof.Machine.execFrcp a s
  | .frsq a => Sys2Proof.Machine.execFrsq a s
  | .fsqrt a => Sys2Proof.Machine.execFsqrt a s
  | .fexp2 a => Sys2Proof.Machine.execFexp2 a s
  | .flog2 a => Sys2Proof.Machine.execFlog2 a s
  | .fsin a => Sys2Proof.Machine.execFsin a s
  | .fcos a => Sys2Proof.Machine.execFcos a s
  | .ftanh a => Sys2Proof.Machine.execFtanh a s
  | .mxpack a => Sys2Proof.Machine.execMxpack a s
  | .mxunpk a => Sys2Proof.Machine.execMxunpk a s
  | .mxcfg a => Sys2Proof.Machine.execMxcfg a s
  | .bldq a => Sys2Proof.Machine.execBldq a s
  | .rowp a => Sys2Proof.Machine.execRowp a s
  | .rows a => Sys2Proof.Machine.execRows a s
  | .accz a => Sys2Proof.Machine.execAccz a s
  | .accrd a => Sys2Proof.Machine.execAccrd a s
  | .accwb a => Sys2Proof.Machine.execAccwb a s
  | .accst a => Sys2Proof.Machine.execAccst a s
  | .iscfg a => Sys2Proof.Machine.execIscfg a s
  | .isx a => Sys2Proof.Machine.execIsx a s
  | .sacci a => Sys2Proof.Machine.execSacci a s
  | .saccf a => Sys2Proof.Machine.execSaccf a s
  | .nzscan a => Sys2Proof.Machine.execNzscan a s
  | .fchbind a => Sys2Proof.Machine.execFchbind a s
  | .mxseq a => Sys2Proof.Machine.execMxseq a s
  | .ldg a => Sys2Proof.Machine.execLdg a s
  | .ldb a => Sys2Proof.Machine.execLdb a s
  | .lda a => Sys2Proof.Machine.execLda a s
  | .lds a => Sys2Proof.Machine.execLds a s
  | .ldc a => Sys2Proof.Machine.execLdc a s
  | .stg a => Sys2Proof.Machine.execStg a s
  | .stl a => Sys2Proof.Machine.execStl a s
  | .sts a => Sys2Proof.Machine.execSts a s
  | .smap a => Sys2Proof.Machine.execSmap a s
  | .swb a => Sys2Proof.Machine.execSwb a s
  | .sinv a => Sys2Proof.Machine.execSinv a s
  | .pref a => Sys2Proof.Machine.execPref a s
  | .ldp a => Sys2Proof.Machine.execLdp a s
  | .stp a => Sys2Proof.Machine.execStp a s
  | .atom a => Sys2Proof.Machine.execAtom a s
  | .atomr a => Sys2Proof.Machine.execAtomr a s
  | .cas a => Sys2Proof.Machine.execCas a s
  | .cas128 a => Sys2Proof.Machine.execCas128 a s
  | .incw a => Sys2Proof.Machine.execIncw a s
  | .decw a => Sys2Proof.Machine.execDecw a s
  | .faddb a => Sys2Proof.Machine.execFaddb a s
  | .putf a => Sys2Proof.Machine.execPutf a s
  | .take a => Sys2Proof.Machine.execTake a s
  | .readf a => Sys2Proof.Machine.execReadf a s
  | .sete a => Sys2Proof.Machine.execSete a s
  | .fence a => Sys2Proof.Machine.execFence a s
  | .rounda a => Sys2Proof.Machine.execRounda a s
  | .roundv a => Sys2Proof.Machine.execRoundv a s
  | .acq a => Sys2Proof.Machine.execAcq a s
  | .cpy a => Sys2Proof.Machine.execCpy a s
  | .cpy2d a => Sys2Proof.Machine.execCpy2d a s
  | .gath a => Sys2Proof.Machine.execGath a s
  | .scat a => Sys2Proof.Machine.execScat a s
  | .strm a => Sys2Proof.Machine.execStrm a s
  | .strmgo a => Sys2Proof.Machine.execStrmgo a s
  | .strmx a => Sys2Proof.Machine.execStrmx a s
  | .dpost a => Sys2Proof.Machine.execDpost a s
  | .dxch a => Sys2Proof.Machine.execDxch a s
  | .dxq a => Sys2Proof.Machine.execDxq a s
  | .cpyb a => Sys2Proof.Machine.execCpyb a s
  | .hbind a => Sys2Proof.Machine.execHbind a s
  | .hbindRelease a => Sys2Proof.Machine.execHbindRelease a s
  | .hread a => Sys2Proof.Machine.execHread a s
  | .hclr a => Sys2Proof.Machine.execHclr a s
  | .tron a => Sys2Proof.Machine.execTron a s
  | .troff a => Sys2Proof.Machine.execTroff a s
  | .trmark a => Sys2Proof.Machine.execTrmark a s
  | .srseed a => Sys2Proof.Machine.execSrseed a s
  | .srdraw a => Sys2Proof.Machine.execSrdraw a s
  | .ctrd a => Sys2Proof.Machine.execCtrd a s
  | .sysrd a => Sys2Proof.Machine.execSysrd a s
  | .syswr a => Sys2Proof.Machine.execSyswr a s
  | .sramPartWrite a => Sys2Proof.Machine.execSramPartWrite a s
  | .syswrStatusRead a => Sys2Proof.Machine.execSyswrStatusRead a s
  | .gload a => Sys2Proof.Machine.execGload a s
  | .gunld a => Sys2Proof.Machine.execGunld a s
  | .launch a => Sys2Proof.Machine.execLaunch a s
  | .tgen a => Sys2Proof.Machine.execTgen a s
  | .dirfl a => Sys2Proof.Machine.execDirfl a s
  | .preempt a => Sys2Proof.Machine.execPreempt a s
  | .resume a => Sys2Proof.Machine.execResume a s
  | .tretReplay a => Sys2Proof.Machine.execTretReplay a s
  | .tretPoison a => Sys2Proof.Machine.execTretPoison a s
  | .tretRaiseMark a => Sys2Proof.Machine.execTretRaiseMark a s
  | .tretAnswer a => Sys2Proof.Machine.execTretAnswer a s
  | .dieq a => Sys2Proof.Machine.execDieq a s
  | .jrnl a => Sys2Proof.Machine.execJrnl a s
  | .tokenLand core k => Sys2Proof.Machine.execTokenLand core k s
  | .deferredTokenRepresent core frame => Sys2Proof.Machine.execDeferredTokenRepresent core frame s
  | .tokenLogWaitResume core => Sys2Proof.Machine.execTokenLogWaitResume core s
  | .recordInstance core frame entry => Sys2Proof.Machine.execRecordInstance core frame entry s
  | .brewTimerExpiry core carafe => Sys2Proof.Machine.execBrewTimerExpiry core carafe s
  | .carafeLingerExpiry core carafe => Sys2Proof.Machine.execCarafeLingerExpiry core carafe s
  | .priorityAging core graph => Sys2Proof.Machine.execPriorityAging core graph s
  | .agePromotion core carafe => Sys2Proof.Machine.execAgePromotion core carafe s
  | .pour core => Sys2Proof.Machine.execPour core s
  | .commit core slot => Sys2Proof.Machine.execCommit core slot s
  | .commitResume core slot => Sys2Proof.Machine.execCommitResume core slot s
  | .releasedTokenSend cid k => Sys2Proof.Machine.execReleasedTokenSend cid k s
  | .fenceGroupAdvance cid => Sys2Proof.Machine.execFenceGroupAdvance cid s
  | .syncStallTimeout core slot => Sys2Proof.Machine.execSyncStallTimeout core slot s
  | .faultRecordDelivery => Sys2Proof.Machine.execFaultRecordDelivery s
  | .homeAccess req => Sys2Proof.Machine.execHomeAccess req s
  | .loadReturn core slot k => Sys2Proof.Machine.execLoadReturn core slot k s
  | .inFlightDecrement k => Sys2Proof.Machine.execInFlightDecrement k s
  | .cacheFillArrival k => Sys2Proof.Machine.execCacheFillArrival k s
  | .stashFill core k => Sys2Proof.Machine.execStashFill core k s
  | .dieDirectoryRecall die k => Sys2Proof.Machine.execDieDirectoryRecall die k s
  | .ownershipRequest k => Sys2Proof.Machine.execOwnershipRequest k s
  | .ownerRecall die k => Sys2Proof.Machine.execOwnerRecall die k s
  | .upgradeGrant k => Sys2Proof.Machine.execUpgradeGrant k s
  | .pageWalkComplete die k => Sys2Proof.Machine.execPageWalkComplete die k s
  | .genWrapSweep die k => Sys2Proof.Machine.execGenWrapSweep die k s
  | .rdcSweepWalker die k => Sys2Proof.Machine.execRdcSweepWalker die k s
  | .roundViewUpdate k => Sys2Proof.Machine.execRoundViewUpdate k s
  | .roundaComplete k => Sys2Proof.Machine.execRoundaComplete k s
  | .tgenTakeUp die k => Sys2Proof.Machine.execTgenTakeUp die k s
  | .frameCreate core => Sys2Proof.Machine.execFrameCreate core s
  | .frameBringIn core frame => Sys2Proof.Machine.execFrameBringIn core frame s
  | .freeRequest core k => Sys2Proof.Machine.execFreeRequest core k s
  | .frameRelease core frame => Sys2Proof.Machine.execFrameRelease core frame s
  | .childRetirement k => Sys2Proof.Machine.execChildRetirement k s
  | .taskDispatch core => Sys2Proof.Machine.execTaskDispatch core s
  | .spillDrain core graph => Sys2Proof.Machine.execSpillDrain core graph s
  | .engineCommandStart core eid => Sys2Proof.Machine.execEngineCommandStart core eid s
  | .engineElement core eid n => Sys2Proof.Machine.execEngineElement core eid n s
  | .engineCompletion core eid => Sys2Proof.Machine.execEngineCompletion core eid s
  | .operandsConsumed core buf => Sys2Proof.Machine.execOperandsConsumed core buf s
  | .indirectStreamStart die => Sys2Proof.Machine.execIndirectStreamStart die s
  | .streamElement core n => Sys2Proof.Machine.execStreamElement core n s
  | .streamClose core n => Sys2Proof.Machine.execStreamClose core n s
  | .streamControlDelivery core eid => Sys2Proof.Machine.execStreamControlDelivery core eid s
  | .rowPacketArrival k => Sys2Proof.Machine.execRowPacketArrival k s
  | .rowFire core => Sys2Proof.Machine.execRowFire core s
  | .partialAdd core k => Sys2Proof.Machine.execPartialAdd core k s
  | .endPacket core input => Sys2Proof.Machine.execEndPacket core input s
  | .rowCreditReturn k => Sys2Proof.Machine.execRowCreditReturn k s
  | .rowCreditGrant core => Sys2Proof.Machine.execRowCreditGrant core s
  | .rowsRowSend core eid => Sys2Proof.Machine.execRowsRowSend core eid s
  | .bqSwap core q => Sys2Proof.Machine.execBqSwap core q s
  | .accwbReadoutEnd core tile => Sys2Proof.Machine.execAccwbReadoutEnd core tile s
  | .engineOwnershipTransfer core => Sys2Proof.Machine.execEngineOwnershipTransfer core s
  | .intersectStep core unit => Sys2Proof.Machine.execIntersectStep core unit s
  | .sparseInsert core k => Sys2Proof.Machine.execSparseInsert core k s
  | .launchStart => Sys2Proof.Machine.execLaunchStart s
  | .rootTokenSend => Sys2Proof.Machine.execRootTokenSend s
  | .launchComplete lid => Sys2Proof.Machine.execLaunchComplete lid s
  | .drainLimitExpiry core frame => Sys2Proof.Machine.execDrainLimitExpiry core frame s
  | .traceDrain core n => Sys2Proof.Machine.execTraceDrain core n s
  | .traceLoss core => Sys2Proof.Machine.execTraceLoss core s
  | .commandAccept session bytes => Sys2Proof.Machine.execCommandAccept session bytes s
  | .commandStart => Sys2Proof.Machine.execCommandStart s
  | .commandEnd seq => Sys2Proof.Machine.execCommandEnd seq s
  | .hLoad seq => Sys2Proof.Machine.execHLoad seq s
  | .hUnload seq => Sys2Proof.Machine.execHUnload seq s
  | .hLaunch seq => Sys2Proof.Machine.execHLaunch seq s
  | .hCopy seq data => Sys2Proof.Machine.execHCopy seq data s
  | .hPreempt seq => Sys2Proof.Machine.execHPreempt seq s
  | .hResume seq => Sys2Proof.Machine.execHResume seq s
  | .hQueryDieEntry seq => Sys2Proof.Machine.execHQueryDieEntry seq s
  | .hQueryErrorCounter seq => Sys2Proof.Machine.execHQueryErrorCounter seq s
  | .hQueryExchange seq => Sys2Proof.Machine.execHQueryExchange seq s
  | .hJournalRead seq => Sys2Proof.Machine.execHJournalRead seq s
  | .hDieReset seq => Sys2Proof.Machine.execHDieReset seq s
  | .hAttest seq => Sys2Proof.Machine.execHAttest seq s
  | .hDebugHalt seq => Sys2Proof.Machine.execHDebugHalt seq s
  | .hDebugRelease seq => Sys2Proof.Machine.execHDebugRelease seq s
  | .hDebugArm seq => Sys2Proof.Machine.execHDebugArm seq s
  | .hDebugDisarm seq => Sys2Proof.Machine.execHDebugDisarm seq s
  | .hConfigureQueuePriority seq => Sys2Proof.Machine.execHConfigureQueuePriority seq s
  | .hConfigurePowerCap seq => Sys2Proof.Machine.execHConfigurePowerCap seq s
  | .hConfigureExchangeGroup seq => Sys2Proof.Machine.execHConfigureExchangeGroup seq s
  | .hConfigureChip seq => Sys2Proof.Machine.execHConfigureChip seq s
  | .hConfigureInstallKey seq => Sys2Proof.Machine.execHConfigureInstallKey seq s
  | .hConfigureSendKey seq => Sys2Proof.Machine.execHConfigureSendKey seq s
  | .hConfigureEraseKey seq => Sys2Proof.Machine.execHConfigureEraseKey seq s
  | .getVersion peer answer => Sys2Proof.Machine.execGetVersion peer answer s
  | .getCapabilities peer answer => Sys2Proof.Machine.execGetCapabilities peer answer s
  | .negotiateAlgorithms peer answer => Sys2Proof.Machine.execNegotiateAlgorithms peer answer s
  | .getDigests peer answer => Sys2Proof.Machine.execGetDigests peer answer s
  | .getCertificate peer answer => Sys2Proof.Machine.execGetCertificate peer answer s
  | .challenge peer answer => Sys2Proof.Machine.execChallenge peer answer s
  | .getMeasurements peer answer => Sys2Proof.Machine.execGetMeasurements peer answer s
  | .keyExchange peer answer => Sys2Proof.Machine.execKeyExchange peer answer s
  | .finish peer answer => Sys2Proof.Machine.execFinish peer answer s
  | .keyUpdate peer answer => Sys2Proof.Machine.execKeyUpdate peer answer s
  | .endSession peer answer => Sys2Proof.Machine.execEndSession peer answer s
  | .unsupportedRequest peer answer => Sys2Proof.Machine.execUnsupportedRequest peer answer s
  | .attestationResponseTimeout die => Sys2Proof.Machine.execAttestationResponseTimeout die s
  | .attestationRetry die => Sys2Proof.Machine.execAttestationRetry die s
  | .keyRolloverStart dir => Sys2Proof.Machine.execKeyRolloverStart dir s
  | .senderKeyDelivery dir => Sys2Proof.Machine.execSenderKeyDelivery dir s
  | .firstNewKeyFlit dir => Sys2Proof.Machine.execFirstNewKeyFlit dir s
  | .drainMarkerSend dir => Sys2Proof.Machine.execDrainMarkerSend dir s
  | .drainMarkerArrival dir => Sys2Proof.Machine.execDrainMarkerArrival dir s
  | .boundaryTagFailure failure => Sys2Proof.Machine.execBoundaryTagFailure failure s
  | .boundaryTokenCreditReturn k => Sys2Proof.Machine.execBoundaryTokenCreditReturn k s
  | .fabricPacketSend k => Sys2Proof.Machine.execFabricPacketSend k s
  | .fabricPacketReceive die pkt => Sys2Proof.Machine.execFabricPacketReceive die pkt s
  | .fabricPortChange port up => Sys2Proof.Machine.execFabricPortChange port up s
  | .postArrival group member row => Sys2Proof.Machine.execPostArrival group member row s
  | .phaseDoneMarker group marker => Sys2Proof.Machine.execPhaseDoneMarker group marker s
  | .phaseTimeout late => Sys2Proof.Machine.execPhaseTimeout late s
  | .dxchGrant core eid => Sys2Proof.Machine.execDxchGrant core eid s
  | .baristaHeartbeat group => Sys2Proof.Machine.execBaristaHeartbeat group s
  | .standbyTakeover group => Sys2Proof.Machine.execStandbyTakeover group s
  | .takeoverNotice group => Sys2Proof.Machine.execTakeoverNotice group s
  | .dxchGrantTimeout core eid => Sys2Proof.Machine.execDxchGrantTimeout core eid s
  | .dieReset die => Sys2Proof.Machine.execDieReset die s
  | .dieRejoin die => Sys2Proof.Machine.execDieRejoin die s
  | .uncorrectableMatchingError core => Sys2Proof.Machine.execUncorrectableMatchingError core s
  | .memoryError site corrected => Sys2Proof.Machine.execMemoryError site corrected s
  | .mgmtHeartbeatTimeout => Sys2Proof.Machine.execMgmtHeartbeatTimeout s
  | .powerSample watts sensed => Sys2Proof.Machine.execPowerSample watts sensed s
  | .powerControlInterval => Sys2Proof.Machine.execPowerControlInterval s
  | .thermalTrip => Sys2Proof.Machine.execThermalTrip s
  | .powerOn => Sys2Proof.Machine.execPowerOn s
  | .packageReset => Sys2Proof.Machine.execPackageReset s
  | .flitCounterLimit dir => Sys2Proof.Machine.execFlitCounterLimit dir s
  | .securedMessageCheckFailure session => Sys2Proof.Machine.execSecuredMessageCheckFailure session s

end Sys2Proof.Machine
end

