-- ==== Sys2Proof/Machine/Time.lean ====
section
/-! DEFINITION. What the passing of cycles does: the clock, the draining of injection queues, the stall counters and
the log-full counter (R147, R193, R266, R329). -/
namespace Sys2Proof.Machine

/-- The block-table entries of a core: (graph, block) pairs whose rectangles hold the core (R308). -/
def State.blocksOn (s : State) (c : Nat) : List (Nat × Nat) :=
  s.graphs.flatMap (fun g => (List.range g.2.blocks.length).filterMap (fun b =>
    if s.inBlockRects g.1 b c then some (g.1, b) else none))

/-- The readiness entries of a block on a core, each with its frame. -/
def Core.entriesOf (k : Core) (g b : Nat) : List (Frame × Entry) :=
  k.frames.flatMap (fun p => if p.2.graph == g then
    (p.2.entries.filter (fun x => x.block == b && decide (x.state ≠ .free))).map (fun x => (p.2, x)) else [])

/-- Whether something that a commit sends needs room in its core's token injection queue (R266). -/
def Warp.needsRoom (w : Warp) (c : Nat) : Emitted → Bool
  | .token _ _ _ _ _ | .watch _ _ _ => true
  | .free lane fp => (match w.insts[lane]? with | none => true | some i => fp != fpOf c i.frame)
  | .entry _ _ | .trap _ _ _ _ _ => false

/-- Whether a stall counter's condition holds on a core for a block, SLOT and GRANULES apart (R329). -/
def State.stallHolds (s : State) (c g b n : Nat) : Bool :=
  let k := s.core c
  match s.graph? g, s.block? g b with
  | some x, some y =>
    let es := k.entriesOf g b
    let car := List.find? (fun p => p.2.graph == g && p.2.block == b) k.carafes
    let elig := match car with | none => false | some p => s.eligibleNow p.2
    match n with
    | 0 => es.any (fun e => decide (e.2.state = .matching)) && !es.any (fun e => decide (e.2.state = .recorded) || decide (e.2.state = .waiting))
    | 1 => es.any (fun e => decide (e.2.state = .matching) && e.2.remain == 0 && !gateOpen y.hdr e.1)
    | 2 => (match car with | none => false | some p => !p.2.recs.isEmpty) && !elig && decide (x.state ≠ .preempted)
    | 3 | 4 => (match car with | none => false | some p => s.roomStall c p.1 p.2 == some n)
    | _ => k.warps.any (fun w => w.2.graph == g && w.2.block == b && (match w.2.phase with
        | .committing acts sends _ => acts.isEmpty && w.2.stores.isEmpty && decide (64 ≤ k.inject.length)
            && (match sends with | [] => false | e :: _ => w.2.needsRoom c e)
        | .issuing | .stopped _ => w.2.stall.isSome && w.2.edge))
  | _, _ => false

/-- For how many of n cycles a stall counter rises: in the cycle of a pour, SLOT and GRANULES count what kept a carafe before it
(R329). -/
def State.stallCycles (s : State) (c g b j n : Nat) : Nat :=
  let k := s.core c
  let holds := s.stallHolds c g b j
  if (j == 3 || j == 4) && k.poured == some s.now then b2n (k.passed.contains (stallKey g b j)) + (if holds then n - 1 else 0)
  else if holds then n else 0

/-- A core's stall counters after n cycles in which nothing but time passed (R329). -/
def State.countStalls (s : State) (c n : Nat) : State :=
  let st := (s.blocksOn c).flatMap (fun p => (List.range 6).filterMap (fun j =>
    match s.stallCycles c p.1 p.2 j n with
    | 0 => none
    | m => some (stallKey p.1 p.2 j, m)))
  let k := s.core c
  let s1 := s.setCore c { k with stalls := st.foldl (fun m x => Map.put m x.1 (satAdd (2 ^ 32 - 1) (Map.getD m x.1 0) x.2)) k.stalls }
  if k.heldToken.isSome then s1.count c 0x029 0 n else s1

/-- The memory and the row injection queue of a core drain for n cycles (R262). -/
def State.drainOthers (s : State) (c n : Nat) : State :=
  let k := s.core c
  s.setCore c { k with memQueue := k.memQueue.drop n, rowQueued := k.rowQueued - n }

/-- n cycles pass: counters under the conditions at their start, then each of a core's injection queues drains one packet a
cycle (R262, R266), a sender whose counter is at its limit stops (R325), and the clock moves. -/
def State.tick (s : State) (n : Nat) : State :=
  if n = 0 then s
  else
    let cs := s.cores.map (fun p => p.1)
    let s1 := cs.foldl (fun a c => a.countStalls c n) s
    let s2 := cs.foldl (fun a c => (a.drainInject c (min n (a.core c).inject.length)).drainOthers c n) s1
    { s2 with now := s2.now + n, links := s2.links.map (fun p => (p.1, p.2.atLimit)) }

/-- Cycles pass one by one, at most as many as given, while a core's token injection queue is full: room comes as it drains (R266,
R329). The answer says how many have passed. -/
def State.tickFull (s : State) : Nat → State × Nat
  | 0 => (s, 0)
  | n + 1 =>
    if s.cores.any (fun p => decide (64 ≤ p.2.inject.length)) then
      let r := (s.tick 1).tickFull n
      (r.1, r.2 + 1)
    else (s, 0)

/-- n cycles pass: one by one while a full token injection queue drains, which it does within as many cycles as packets stand in the
queues, or not at all; then those that are left. -/
def State.advance (s : State) (n : Nat) : State :=
  let r := s.tickFull (min n (s.cores.foldl (fun a p => a + p.2.inject.length) 0))
  r.1.tick (n - r.2)

end Sys2Proof.Machine
end

