-- ==== Sys2Proof/Machine/Fetch.lean ====
section
/-! DEFINITION. Fetching a warp's next word, the interlock on pending loads, and one issue (R30, R33, R142). -/
namespace Sys2Proof.Machine

/-- Whether an instruction of rows 0x8_ and 0x9_ is an access (R122): fences, acquires, prefetches and the operations on
windows are none. -/
def Instr.isAccess (word : Nat) (i : Instr) : Bool :=
  (bits word 60 4 == 8 || bits word 60 4 == 9) && (match i with
    | .fence _ | .acq _ | .pref _ | .smap _ | .swb _ | .sinv _ => false
    | _ => true)

/-- Whether an LDS waits for a load of one of its lanes that is still on its way to some of its bytes (R125, R128). -/
def State.ldsWaits (s : State) (c : Nat) (w : Warp) (i : Instr) : Bool :=
  match i with
  | .lds m => (w.active m.g).any (fun l => s.loadBefore c w l ((s.view c w).ea l m false) m.size.bytes)
  | _ => false

/-- Whether an instruction waits for a synchronous load that has not returned (R142), an access for an acquire that
still sweeps (R228) or for an LDA that has not read its home (R133), or an LDS for an earlier load of its lane (R125). -/
def State.mustWait (s : State) (c : Nat) (w : Warp) (word : Nat) (i : Instr) : Bool :=
  let regs := instrRegs i
  w.loads.any (fun l => (List.range l.words).any (fun n => regs.contains (l.reg + n)))
    || Instr.isAccess word i && s.reqs.any (fun p => p.2.lda && p.2.blk == some w.num)
    || s.ldsWaits c w i
    || (Instr.isAccess word i && !w.acqWait.isEmpty
        && (match s.graph? w.graph with
            | none => false
            | some g => s.sweepingOver (dieOf c) g.asid (w.acqWait.contains 256) w.acqWait))

/-- Whether a warp can issue (R30, R33, R364): it is issuing, its block has not ended, and its die is not halted. -/
def State.canIssue (s : State) (c : Nat) (w : Warp) : Bool :=
  decide (w.phase = .issuing) && !w.ended && !s.halted (dieOf c)

/-- Whether a token has landed in this cycle at a frame of a warp's instances: what the warp does in the cycle came before (R14). -/
def State.landedAt (s : State) (c : Nat) (w : Warp) : Bool := w.insts.any (fun x => s.landedNow c x.frame)

/-- The instruction that a warp issues next, if it can issue and need not wait. -/
def State.nextInstr (s : State) (c : Nat) (w : Warp) : Option Instr :=
  if !s.canIssue c w then none
  else match s.fetch w with
    | none => none
    | some word =>
      match decode word with
      | .refused _ => none
      | .ok i => if s.mustWait c w word i then none else some i

/-- Whether a warp's turn would issue its next instruction: the turn ends otherwise than in a stall. -/
def State.wouldIssue (s : State) (c k : Nat) : Bool :=
  match s.warp? c k with
  | none => false
  | some w =>
    match s.nextInstr c w with
    | none => false
    | some i =>
      match exec i { s with cur := some (c, k) } with
      | .next t => match t.warp? c k with | some v => v.stall.isNone | none => true
      | .fault _ | .refused _ => true

/-- The warps of a partition that go before a warp (R30): the one that issued last, then those poured earlier. -/
def Core.goBefore (q : Core) (k : Nat) (w : Warp) : List Nat :=
  let p := slotPartition k
  let last := Map.find? q.lastIssued p
  if last = some k then []
  else ((q.residents p).filter (fun x => x.1 != k && (last == some x.1 || decide (x.2.pouredAt < w.pouredAt)
    || (x.2.pouredAt == w.pouredAt && decide (x.1 < k))))).map (fun x => x.1)

/-- Whether the turn is a warp's: its partition has not issued in this cycle, its slot is not withheld (R395), and no warp that
goes before it can issue (R30). -/
def State.hasTurn (s : State) (c k : Nat) (w : Warp) : Bool :=
  Map.find? (s.core c).issuedAt (slotPartition k) != some s.now && !s.slotWithheld c (slotPartition k)
    && !((s.core c).goBefore k w).any (fun j => s.wouldIssue c j)

/-- A partition has issued in this cycle where its warp was aborted in the issue: the slot is spent (R30). -/
def State.spend (s : State) (c k : Nat) : State :=
  match s.warp? c k with
  | some _ => s
  | none => s.setCore c { s.core c with issuedAt := Map.put (s.core c).issuedAt (slotPartition k) s.now }

/-- What an issue answers, its partition's slot spent in any case. -/
def spendTurn (c k : Nat) : Host.Outcome State Fault Refusal → Host.Outcome State Fault Refusal
  | .next s => .next (s.spend c k)
  | .fault f => .fault f
  | .refused r => .refused r

/-- One warp-instruction issues: the warp's next word is fetched, decoded and executed. A turn that is not the warp's, or
in which it cannot issue, changes nothing. -/
def State.issue (s : State) (c k : Nat) : Host.Outcome State Fault Refusal :=
  let s1 := { s with cur := some (c, k) }
  match s1.warp? c k with
  | none => .next s1
  | some w =>
    if !s1.canIssue c w || s1.landedAt c w || !s1.hasTurn c k w then .next s1
    else match s1.fetch w with
      | none => .next s1
      | some word =>
        match decode word with
        | .refused r => .refused (.notAnInstruction r)
        | .ok i => if s1.mustWait c w word i then .next s1 else spendTurn c k (exec i s1)

/-- A frame with nothing in it, for a warp that is placed from outside. -/
def bareFrame : Frame :=
  { serial := 0, parent := 0, graph := 0, ident := 0, depth := 0, prio := 0, closing := false, slotblk := 15, join := 0,
    ordinal := 0, infl := ⟨0, 0, 0, 0⟩, presence := [], entries := List.replicate 11 Entry.empty, slots := [], chain := [],
    resident := true, created := 0, broughtAt := 0, released := false, launch := none, drained := [],
    addressed := false, moving := false }

/-- A block of one word that every core may run, with 64 registers per lane and every edge declared. -/
def bareBlock (w : Nat) : Block :=
  { hdr := { len := 0, arity := 1, ibase := 0, fill := 0, brewE := 0, brewM := 0, gran := 3, wlog := 0, span := 0, prio := 0,
             free := false, gate := false, gpath := 0, gslot := 0, hch := 0, trace := false, comb := false, supv := true,
             smask := 0, ccount := 0, maxEmit := 15 }
    edges := List.replicate 8 ⟨0, RelWord.every⟩, rects := [0], code := [w] }

/-- A supervisor graph of one block. -/
def bareGraph (w : Nat) : Graph :=
  { state := .loaded, supv := true, firmware := true, identity := 0, asid := 0, privBase := 0,
    hwm := [0, 0, 0, 0], dlogBase := 0, dlogSeq := 0, privRegion := 0, traceRing := 0, tracing := false, troffAt := none, resumedAt := none,
    launches := 0, round := 0, trap := 0, seed := 0, width := 1, prio := 0, level := 0, entry := 0, consts := List.replicate 16 0, blocks := [bareBlock w],
    rects := [⟨0, 7, 0, 0, 8, 8⟩], refs := [], brk := false, spills := [], saved := [], savedEng := [], resumeWait := [], saver := none }

/-- A warp of one lane at its first word. -/
def bareWarp : Warp :=
  { num := 0, graph := 0, block := 0, insts := [⟨0, 0, 0, 0, 0, 0, false, []⟩], v := [], k := [], p := [], pc := 0, gran := 4,
    pouredAt := 0, edge := false, ended := false, loads := [], stores := [], acts := [], emits := [], offers := [], taken := [],
    fences := [], stall := none, spawnPos := 0, acqWait := [], stashWait := [], brk := none, phase := .issuing }

/-- The state with a graph of one block that holds a word loaded, a warp of it poured that issued last on its partition, and its
issue scheduled next. -/
def State.placeWord (s : State) (w : Nat) : State :=
  let s1 := s.setGraph 0 (bareGraph w)
  let s2 := (s1.setFrame 0 0 { bareFrame with
    entries := { Entry.empty with state := .recorded, block := 0 } :: List.replicate 10 Entry.empty }).setWarp 0 0 bareWarp
  let s3 := s2.setCore 0 { s2.core 0 with lastIssued := Map.put (s2.core 0).lastIssued 0 0, issuedAt := [], landed := none }
  { s3 with agenda := ⟨0, .issue 0 0⟩ :: s3.agenda, debugHold := delSet s3.debugHold 0 }

end Sys2Proof.Machine
end

