-- ==== Sys2Proof/Machine/Step.lean ====
section
/-! DEFINITION. One step of the machine: the next entry of its schedule. -/
namespace Sys2Proof.Machine

/-- One step: the cycles of the schedule's first entry pass, then it acts: a warp issues, or a device step happens.
With nothing scheduled one cycle passes. -/
def step (s : State) : Host.Outcome State Fault Refusal :=
  match s.agenda with
  | [] => .next (({ s with cur := none } : State).advance 1)
  | it :: rest =>
    let s1 := ({ s with agenda := rest, cur := none } : State).advance it.wait
    match it.act with
    | .issue c k => s1.issue c k
    | .happen i => exec i s1

/-- The state in which the next step fetches and runs an instruction word. -/
def State.withFetchWord (s : State) (nbits w : Nat) : State := s.placeWord (w % 2 ^ nbits)

end Sys2Proof.Machine
end

