-- ==== Sys2Proof/Safety.lean ====
section
/-! DEFINITION. What claims about steps say: which warp is in turn, what a step leaves alone, the invariant that every
step keeps, and the room that accesses need. -/
namespace Sys2Proof.Machine

/-- The invariant that every step keeps: memory stands in its one canonical form. -/
def State.Inv (s : State) : Prop := Memory.wf s.mem = true

/-- Warp w of core c, slot k, is the warp whose instruction acts. -/
def State.InTurn (s : State) (c k : Nat) (w : Warp) : Prop := s.cur = some (c, k) ∧ s.warp? c k = some w

/-- t differs from s in core c alone, and there in warp k, in what its partitions issued last and when, and in its
counters. -/
def State.SameButWarp (s t : State) (c k : Nat) : Prop :=
  t = { s with cores := t.cores }
    ∧ (∀ c', c' ≠ c → t.core c' = s.core c')
    ∧ t.core c = { s.core c with
        warps := (t.core c).warps, lastIssued := (t.core c).lastIssued, issuedAt := (t.core c).issuedAt
        counters := (t.core c).counters }
    ∧ (∀ k', k' ≠ k → t.warp? c k' = s.warp? c k')

/-- An instruction that answers a next state changes nothing but its own warp: no memory, no token, no frame, no table,
no other warp. -/
def TouchesWarpOnly (i : Instr) : Prop :=
  ∀ s t c k w, State.InTurn s c k w → exec i s = .next t → State.SameButWarp s t c k

/-- The state after an instruction whose guard-true lanes write n words of f (R54, R143, R151). -/
def State.wrote (s : State) (c k : Nat) (w : Warp) (g : Guard) (d : Sel) (n : Nat) (f : Nat → Nat) : State :=
  s.issued c k (w.write (w.active g) d n f)

/-- The state after an instruction whose guard-true lanes write one word of elements of a floating type, which it offers
to the block's histogram channel (R170, R174). -/
def State.wroteFloat (s : State) (c k : Nat) (w : Warp) (g : Guard) (d : Sel) (t : Ty) (f : Nat → List Nat) : State :=
  s.issued c k ((w.write (w.active g) d 1 (fun l => ((f l).zipIdx).foldl (fun a p => a + p.1 * 2 ^ (t.width * p.2)) 0)).offer d
    ((w.active g).flatMap (fun l => (f l).map (decodeF t))))

/-- The state after an instruction that leaves one act for its block's commit (R33, R336). -/
def State.acted (s : State) (c k : Nat) (w : Warp) (a : AtCommit) : State := s.issued c k { w with acts := w.acts ++ [a] }

/-- The state after an instruction that puts accesses into the commit buffer (R31, R210). -/
def State.buffered (s : State) (c k : Nat) (w : Warp) (xs : List StoreSlot) : State :=
  s.issued c k { w with stores := w.stores ++ xs }

end Sys2Proof.Machine
end

