-- ==== Sys2Proof/Certificates/Slice0/Obligations.lean ====
section
/-! DEFINITION. The statements for the provers: encodings, the step, what each instruction and each device step does and
leaves alone, and the invariant that every step keeps. -/
open Sys2Proof Sys2Proof.Machine

/-! ### Encodings -/

/-- Words that the spec's cases spell out field by field decode to the instructions they stand for, one of each format
(R60 to R69, R74). -/
def Obligations.SpecWordsDecode : Prop :=
  decode 0x1070201804046800 = .ok (.iadd ⟨⟨false, 7⟩, .rne, .i32, .v 3, .v 1, .v 2, .zero, Mods.none⟩)
  ∧ decode 0x2A70E4055FFFFFFD = .ok (.icmpi ⟨⟨false, 7⟩, .i32, .p 2, .v 5, .lt, 0x1FFFFFFD⟩)
  ∧ decode 0x4572604820A26800 = .ok (.lanex ⟨⟨false, 7⟩, .rot, .n32, .v 9, .v 8, .k 17, .zero, Mods.none⟩)
  ∧ decode 0x537A801804040410 =
      .ok (.ffma ⟨⟨false, 7⟩, .sr, .f32, .v 3, .v 1, .v 2, .v 4, { Mods.none with b := .neg }⟩)
  ∧ decode 0x7270100CA0540500 = .ok (.rowp ⟨⟨false, 7⟩, 0, 2, .v 3, .k 16, .k 20, 5, 0⟩)
  ∧ decode 0x9970806682204000 = .ok (.readf ⟨⟨false, 7⟩, 1, .auto, 0, false, .b8, .zero, .k 4, .normal, 0x4000⟩)
  ∧ decode 0x00300502021A8100 = .ok (.emit ⟨⟨false, 3⟩, 5, 2, .v 4, .fp, .auto, .none, true, .same, 0, 0⟩)
  ∧ decode 0x08700700028240D0 = .ok (.spawnq ⟨⟨false, 7⟩, 7, 0, .v 5, .v 9, .auto, 0, .zero, 2, 0⟩)
  ∧ decode 0xA274003062080001 = .ok (.gath ⟨⟨false, 7⟩, 8, 6, 12, .f, 0, .core, .none, 1⟩)
  ∧ decode 0xF071052800000000 = .ok (.sysrd ⟨⟨false, 7⟩, 0x105, .k 16, 0⟩)

/-- Every instruction whose fields its word can hold decodes to itself from the word that encodes it (R52 to R74).
Every instruction whose fields its word can hold has a word, of 64 bits (R52, R74). -/
def Obligations.DecodeOfEncode : Prop :=
  (∀ (i : Instr) (w : Nat), i.fits = true → encode i = some w → decode w = .ok i)
  ∧ (∀ i : Instr, i.fits = true → ∃ w, encode i = some w ∧ w < 2 ^ 64)

/-- A word that decodes is the word that encodes its instruction, whose fields fit: no bit of an accepted word is
dropped (R52 to R74). -/
def Obligations.EncodeOfDecode : Prop :=
  ∀ (w : Nat) (i : Instr), w < 2 ^ 64 → decode w = .ok i → i.fits = true ∧ encode i = some w

/-- A free code or an unassigned row of the opcode map is not an instruction; the lowest reason is 0x01 (R74, R77). -/
def Obligations.FreeCodesRefused : Prop :=
  ∀ w : Nat, (bits w 56 8 ∈ [0x0F, 0x2C, 0x2D, 0x2E, 0x2F, 0x4D, 0x4E, 0x4F, 0x5E, 0x5F, 0x6D, 0x6E, 0x6F, 0x7F, 0x8E, 0x8F, 0x9F,
      0xAB, 0xAC, 0xAD, 0xAE, 0xAF, 0xB9, 0xBA, 0xBB, 0xBC, 0xBD, 0xBE, 0xBF, 0xFC, 0xFD, 0xFE, 0xFF]
    ∨ bits w 60 4 ∈ [0xC, 0xD, 0xE]) → decode w = .refused 1

/-! ### The step, reset and the invariant -/

/-- A step whose schedule names a warp's issue at once, where the warp can issue and it is its turn, its next word
decodes, no token has landed at its frames in this cycle and nothing that it reads is still to come, is that
instruction's meaning; where the warp is aborted in it, the partition's slot of the cycle is spent too. The turn is
the warp's where its partition has not issued in this cycle, its slot is not withheld for power, and it issued there
last or no other warp is resident there (R14, R30, R33, R142, R308, R395). A step whose schedule names a device step
at once is that step's meaning; with nothing scheduled one cycle passes and nothing issues. The schedule is the
model's own (log entry 1); what an unissuable turn leaves is entry 4. -/
def Obligations.StepRunsTheDecodedInstruction : Prop :=
  (∀ (s : State) (c k : Nat) (rest : List Item) (w : Warp) (b : Block) (word : Nat) (i : Instr),
     s.agenda = ⟨0, .issue c k⟩ :: rest →
     s.warp? c k = some w → w.phase = .issuing → w.ended = false → s.debugHold.contains (dieOf c) = false →
     s.landedAt c w = false →
     s.block? w.graph w.block = some b → b.code[w.pc]? = some word → decode word = .ok i →
     let s1 : State := { s with agenda := rest, cur := some (c, k) }
     State.mustWait s1 c w word i = false →
     (State.hasTurn s1 c k w = true → step s = spendTurn c k (exec i s1))
     ∧ (Map.find? (s.core c).issuedAt (k / 16) ≠ some s.now → s.slotWithheld c (k / 16) = false →
         Map.find? (s.core c).lastIssued (k / 16) = some k ∨ (∀ x ∈ (s.core c).warps, x.1 / 16 = k / 16 → x.1 = k) →
         step s = spendTurn c k (exec i s1))
     ∧ (∀ t v, t.warp? c k = some v → spendTurn c k (.next t) = .next t)
     ∧ (∀ t, t.warp? c k = none → spendTurn c k (.next t) = .next (t.setCore c { t.core c with
         issuedAt := Map.put (t.core c).issuedAt (slotPartition k) t.now })))
  ∧ ((∀ (s : State) (i : Instr) (rest : List Item), s.agenda = ⟨0, .happen i⟩ :: rest →
     step s = exec i { s with agenda := rest, cur := none })
   ∧ (∀ s : State, s.agenda = [] → ∃ t, step s = .next t ∧ t.now = s.now + 1 ∧ t.mem = s.mem ∧ t.agenda = []))

/-- What reset leaves of the values that the spec gives: the register that partitions core SRAM, the counters and
tables at 0 or empty, the power cap, the drain limit, every die OFF, and nothing loaded (R147, R148, R324). Values
that the spec gives no reset for are the model's (log entry 3): none of them is claimed here. -/
def Obligations.ResetLeaves : Prop :=
  (∀ c, (State.reset.core c).sramPart = 0x040C1010 ∧ (State.reset.core c).syswrStatus = 0 ∧ (State.reset.core c).carafes = []
      ∧ (State.reset.core c).frames = [] ∧ (State.reset.core c).warps = [] ∧ (State.reset.core c).row.owner = none)
  ∧ (∀ d, (State.reset.die d).state = .off ∧ (State.reset.die d).incarnation = 0 ∧ (State.reset.die d).tlb = [])
  ∧ State.reset.graphs = [] ∧ State.reset.spaces = [] ∧ State.reset.powerCap = 3800 ∧ State.reset.drainLimit = 1000
  ∧ State.reset.debugHold = [] ∧ State.reset.control.journal = []

/-- The state after reset meets the invariant. The form of memory is the model's (log entry 2). -/
def Obligations.ResetMeetsTheInvariant : Prop :=
State.Inv State.reset

/-- Every step keeps memory in its canonical form, from every state that has it: addresses strictly rising, and none
listed that reads as an unlisted one does. The form of memory and what an unlisted byte reads as are the model's (log
entry 2). -/
def Obligations.StepKeepsTheInvariant : Prop :=
  ∀ s t : State, State.Inv s → step s = .next t → State.Inv t

/-- Bytes written to memory read back, every other address reads as before, and the canonical form stays. What an
unlisted byte reads as is the model's choice (log entry 2); nothing here rests on its value. -/
def Obligations.MemoryWritesReadBack : Prop :=
  ∀ (m : List Host.Cell) (a : Nat) (data : List Byte), Memory.wf m = true →
    Memory.wf (memWrites m a data) = true
    ∧ memReads (memWrites m a data) a data.length = data
    ∧ ∀ x, x < a ∨ a + data.length ≤ x → memRead (memWrites m a data) x = memRead m x

/-! ### Registers (R29, R30, R53, R54, R143) -/

/-- A result written by lanes to a lane register reads back in each of those lanes, low word first; every other lane
register, every predicate and every uniform register is as before (R54, R142). A uniform destination takes the value
of the lowest writing lane, k0 to k15 never change, and with no writing lane nothing changes (R143). Predicate p7
reads 1 whatever is written to it, a destination of zero discards the result, and the selectors zero, lane, fp, iter,
act and wpop are never written (R53, R54). -/
def Obligations.RegisterWritesReadBack : Prop :=
  (∀ (w : Warp) (ls : List Nat) (r n : Nat) (f : Nat → Nat), ls.Nodup → (∀ l ∈ ls, l < 32) → r + n ≤ 64 →
     (∀ l ∈ ls, readWords ((w.write ls (.v r) n f).reg l) n r = f l % 2 ^ (32 * n))
     ∧ (∀ l m, l < 32 → m < 64 → (l ∉ ls ∨ m < r ∨ r + n ≤ m) → (w.write ls (.v r) n f).reg l m = w.reg l m)
     ∧ (w.write ls (.v r) n f).p = w.p ∧ (w.write ls (.v r) n f).k = w.k)
  ∧ (∀ (w : Warp) (ls : List Nat) (r n : Nat) (f : Nat → Nat), r + n ≤ 32 →
     (w.write ls (.k r) n f).v = w.v ∧ (w.write ls (.k r) n f).p = w.p
     ∧ (w.write [] (.k r) n f) = w
     ∧ (∀ l t, ls = l :: t → 16 ≤ r → readWords ((w.write ls (.k r) n f).uni) n r = f l % 2 ^ (32 * n))
     ∧ (∀ m, m < 16 ∨ m < r ∨ r + n ≤ m → (w.write ls (.k r) n f).uni m = w.uni m))
  ∧ (∀ (c : Nat) (fr : Map Frame) (w : Warp) (ls : List Nat) (l n : Nat) (f : Nat → Nat),
     w.pred l 7 = true ∧ (w.write ls (.p 7) n f) = w ∧ (w.write ls .zero n f) = w ∧ (w.write ls .lane n f) = w
     ∧ (w.write ls .fp n f) = w ∧ (w.write ls .iter n f) = w ∧ (w.write ls .act n f) = w ∧ (w.write ls .wpop n f) = w
     ∧ readSel c fr w l n .zero = 0 ∧ readSel c fr w l n .lane = l ∧ readSel c fr w l n .wpop = w.insts.length)

/-- An instruction that issues changes, of its core, only its own warp, what its partition issued last and when, and
the issue counter; the warp goes to its next word and its stall ends (R30, R333). -/
def Obligations.IssueTouchesItsWarpOnly : Prop :=
  ∀ (s : State) (c k : Nat) (w : Warp),
    State.SameButWarp s (s.issued c k w) c k
    ∧ (s.issued c k w).warp? c k = some { w with pc := w.pc + 1, stall := none, edge := false }
    ∧ Map.find? ((s.issued c k w).core c).lastIssued (slotPartition k) = some k
    ∧ Map.find? ((s.issued c k w).core c).issuedAt (slotPartition k) = some s.now
    ∧ Map.getD ((s.issued c k w).core c).counters (0x022 * 4096) 0 = (Map.getD (s.core c).counters (0x022 * 4096) 0 + 1) % 2 ^ 64

/-! ### Rows 0x1_ to 0x4_ -/

/-- Row 0x1_ writes fin(r, t, sat) with the exact r of its modified sources, in RND 000, on the four wide types, with
unused sources zero and modifiers and the saturate bit where the rule allows them (R153). -/
def Obligations.IntegerArithmetic : Prop :=
  ∀ (s : State) (c k : Nat) (w : Warp), State.InTurn s c k w → ∀ a : FmtA,
    let x := s.view c w
    let A := fun l => modInt a.ty.width a.ty.signed (x.rd l a.ty.words a.sa) a.mods.a
    let B := fun l => modInt a.ty.width a.ty.signed (x.rd l a.ty.words a.sb) a.mods.b
    let C := fun l => modInt a.ty.width a.ty.signed (x.rd l a.ty.words a.sc) a.mods.c
    let gives := fun (i : Instr) (r : Nat → Int) =>
      exec i s = .next (s.wrote c k w a.g a.dst a.ty.words (fun l => finInt a.ty a.mods.sat (r l)))
    gives (.iadd a) (fun l => A l + B l) ∧ gives (.isub a) (fun l => A l - B l) ∧ gives (.imul a) (fun l => A l * B l)
    ∧ gives (.imulh a) (fun l => A l * B l / ((2 ^ a.ty.width : Nat) : Int)) ∧ gives (.imad a) (fun l => A l * B l + C l)
    ∧ gives (.imin a) (fun l => min (A l) (B l)) ∧ gives (.imax a) (fun l => max (A l) (B l))
    ∧ gives (.iabs a) (fun l => ((A l).natAbs : Int)) ∧ gives (.ineg a) (fun l => -(A l))
    ∧ gives (.isad a) (fun l => ((A l - B l).natAbs : Int) + C l)
    ∧ (∀ b : BlockCtx,
      (∀ i ∈ [Instr.iadd a, .isub a, .imul a, .imulh a, .imad a, .imin a, .imax a, .iabs a, .ineg a, .isad a], i.wellFormed b = true →
        a.rnd = .rne ∧ a.ty ∈ [Ty.i32, .n32, .i64, .n64])
      ∧ (∀ i ∈ [Instr.iadd a, .isub a, .imul a, .imulh a, .imin a, .imax a], i.wellFormed b = true → a.sc = .zero ∧ a.mods.c = .none)
      ∧ (∀ i ∈ [Instr.iabs a, .ineg a], i.wellFormed b = true → a.sb = .zero ∧ a.sc = .zero ∧ a.mods.b = .none ∧ a.mods.c = .none)
      ∧ (∀ i ∈ [Instr.imulh a, .imin a, .imax a], i.wellFormed b = true → a.mods.sat = false))

/-- IADDC and ISUBB write s mod 2^w and set the predicate of the same lane to the carry or borrow of the modified
patterns read as unsigned (R154). The widening multiply-add, the dot products and the address form (R155, R156). -/
def Obligations.CarryWideningAndAddress : Prop :=
  (∀ (s : State) (c k : Nat) (w : Warp), State.InTurn s c k w → ∀ (a : FmtA) (n : Nat), a.sc = .p n →
     let x := s.view c w
     let W := a.ty.width
     let ua := fun l => wrapTo W (modInt W a.ty.signed (x.rd l a.ty.words a.sa) a.mods.a)
     let ub := fun l => wrapTo W (modInt W a.ty.signed (x.rd l a.ty.words a.sb) a.mods.b)
     let p := fun l => b2n (w.pred l n)
     exec (.iaddc a) s = .next (s.issued c k ((w.write (w.active a.g) a.dst a.ty.words (fun l => (ua l + ub l + p l) % 2 ^ W)).write
       (w.active a.g) (.p n) 1 (fun l => b2n (decide (2 ^ W ≤ ua l + ub l + p l)))))
     ∧ exec (.isubb a) s = .next (s.issued c k ((w.write (w.active a.g) a.dst a.ty.words
       (fun l => wrapTo W ((ua l : Int) - (ub l : Int) - (p l : Int)))).write
       (w.active a.g) (.p n) 1 (fun l => b2n (decide (ua l < ub l + p l))))))
  ∧ (∀ (s : State) (c k : Nat) (w : Warp), State.InTurn s c k w → ∀ a : FmtA,
     let x := s.view c w
     let elem := fun (v j : Nat) => decodeI a.ty (v / 2 ^ (a.ty.width * j))
     let C32 := fun l => modInt 32 a.ty.signed (x.rd l 1 a.sc) a.mods.c
     exec (.imadw a) s = .next (s.wrote c k w a.g a.dst 2 (fun l => finInt (if a.ty.signed then .i64 else .n64) a.mods.sat
       (modInt 32 a.ty.signed (x.rd l 1 a.sa) a.mods.a * modInt 32 a.ty.signed (x.rd l 1 a.sb) a.mods.b
         + modInt 64 a.ty.signed (x.rd l 2 a.sc) a.mods.c)))
     ∧ exec (.idot4 a) s = .next (s.wrote c k w a.g a.dst 1 (fun l => finInt (if a.ty.signed then .i32 else .n32) a.mods.sat
       (C32 l + (elem (x.rd l 1 a.sa) 0 * elem (x.rd l 1 a.sb) 0 + elem (x.rd l 1 a.sa) 1 * elem (x.rd l 1 a.sb) 1
         + elem (x.rd l 1 a.sa) 2 * elem (x.rd l 1 a.sb) 2 + elem (x.rd l 1 a.sa) 3 * elem (x.rd l 1 a.sb) 3))))
     ∧ exec (.idot2 a) s = .next (s.wrote c k w a.g a.dst 1 (fun l => finInt (if a.ty.signed then .i32 else .n32) a.mods.sat
       (C32 l + (elem (x.rd l 1 a.sa) 0 * elem (x.rd l 1 a.sb) 0 + elem (x.rd l 1 a.sa) 1 * elem (x.rd l 1 a.sb) 1))))
     ∧ exec (.lea a) s = .next (s.wrote c k w a.g a.dst 2 (fun l =>
       (x.rd l 2 a.sa + wrapTo 64 (intVal a.ty.width a.ty.signed (x.rd l a.ty.words a.sb)) * 2 ^ (x.rd l 1 a.sc % 64)) % 2 ^ 64)))

/-- Row 0x2_: the immediate forms at the type's width, an immediate of .i64 sign-extended, and ICMPI's compare with a
29-bit immediate (R157, R158). Row 0x3_: logic, shifts whose counts reach the width, rotations, counts and bit fields
(R159, R160). -/
def Obligations.ImmediateFormsLogicAndShifts : Prop :=
  (∀ (s : State) (c k : Nat) (w : Warp), State.InTurn s c k w →
     (∀ a : FmtI,
       let x := s.view c w
       let W := a.ity.width
       let v := fun l => x.rd l a.ity.words a.sa
       let imm : Int := if a.ity.words = 2 then toSigned 32 a.imm.toNat else (a.imm.toNat : Int)
       let pat := wrapTo W imm
       let gives := fun (i : Instr) (r : Nat → Int) =>
         exec i s = .next (s.wrote c k w a.g a.dst a.ity.words (fun l => wrapTo W (r l)))
       gives (.iaddi a) (fun l => (v l : Int) + imm) ∧ gives (.imuli a) (fun l => (v l : Int) * imm)
       ∧ gives (.andi a) (fun l => (v l &&& pat : Nat)) ∧ gives (.ori a) (fun l => (v l ||| pat : Nat))
       ∧ gives (.xori a) (fun l => (v l ^^^ pat : Nat)) ∧ gives (.shli a) (fun l => (v l * 2 ^ a.imm.toNat : Nat))
       ∧ gives (.shri a) (fun l => (v l / 2 ^ a.imm.toNat : Nat))
       ∧ gives (.shrai a) (fun l => intVal W true (v l) / ((2 ^ a.imm.toNat : Nat) : Int))
       ∧ gives (.movi a) (fun _ => imm) ∧ gives (.movki a) (fun _ => imm)
       ∧ gives (.leai a) (fun l => (v l : Int) + (l : Int) * toSigned 32 a.imm.toNat))
     ∧ (∀ a : FmtIcmpi,
       exec (.icmpi a) s = .next (s.wrote c k w a.g a.dst 1 (fun l =>
         b2n (condInt a.cond (intVal 32 (!a.ity.isN32) ((s.view c w).rd l 1 a.sa)) (intVal 29 (!a.ity.isN32) a.imm))))))
  ∧ (∀ (s : State) (c k : Nat) (w : Warp), State.InTurn s c k w → ∀ a : FmtA,
     let x := s.view c w
     let W := a.ty.width
     let A := fun l => x.rd l a.ty.words a.sa
     let B := fun l => x.rd l a.ty.words a.sb
     let n := fun l => x.rd l 1 a.sb
     let gives := fun (i : Instr) (r : Nat → Nat) => exec i s = .next (s.wrote c k w a.g a.dst a.ty.words (fun l => r l % 2 ^ W))
     let counts := fun (i : Instr) (r : Nat → Nat) => exec i s = .next (s.wrote c k w a.g a.dst 1 r)
     gives (.and a) (fun l => A l &&& B l) ∧ gives (.or a) (fun l => A l ||| B l) ∧ gives (.xor a) (fun l => A l ^^^ B l)
     ∧ gives (.andn a) (fun l => A l &&& (2 ^ W - 1 - B l % 2 ^ W)) ∧ gives (.not a) (fun l => 2 ^ W - 1 - A l % 2 ^ W)
     ∧ gives (.shl a) (fun l => if W ≤ n l then 0 else A l * 2 ^ n l) ∧ gives (.shr a) (fun l => if W ≤ n l then 0 else A l / 2 ^ n l)
     ∧ gives (.shra a) (fun l => wrapTo W (if W ≤ n l then (if intVal W true (A l) < 0 then -1 else 0)
         else intVal W true (A l) / ((2 ^ n l : Nat) : Int)))
     ∧ gives (.rotl a) (fun l => A l * 2 ^ (n l % W) % 2 ^ W + A l / 2 ^ (W - n l % W))
     ∧ gives (.funnel a) (fun l => (A l * 2 ^ W + B l) / 2 ^ (x.rd l 1 a.sc % W))
     ∧ counts (.popc a) (fun l => popCount (A l) W) ∧ counts (.clz a) (fun l => leadZeros W (A l)) ∧ counts (.ctz a) (fun l => trailZeros W (A l))
     ∧ gives (.brev a) (fun l => bitRev W (A l) W) ∧ gives (.bfx a) (fun l => bfx W a.ty.signed (A l) (n l))
     ∧ gives (.bfi a) (fun l => bfi W (A l) (B l) (x.rd l 1 a.sc)))

/-- Compares, selections, moves, integer conversion and byte selection of row 0x4_ (R161 to R163). -/
def Obligations.ComparesSelectionsAndMoves : Prop :=
  ∀ (s : State) (c k : Nat) (w : Warp), State.InTurn s c k w →
    let x := s.view c w
    (∀ a : FmtCmp, exec (.icmp a) s = .next (s.wrote c k w a.g a.dst 1 (fun l =>
        b2n (condInt a.cond (intVal a.ty.width a.ty.signed (x.rd l a.ty.words a.sa)) (intVal a.ty.width a.ty.signed (x.rd l a.ty.words a.sb))))))
    ∧ (∀ a : FmtPlop, exec (.plop a) s = .next (s.wrote c k w a.g a.dst 1 (fun l =>
        b2n (bitOf a.table (4 * x.rd l 1 a.sa + 2 * x.rd l 1 a.sb + x.rd l 1 a.sc)))))
    ∧ (∀ a : FmtA,
        exec (.sel a) s = .next (s.wrote c k w a.g a.dst a.ty.words (fun l =>
          if x.rd l 1 a.sc = 1 then x.rd l a.ty.words a.sa else x.rd l a.ty.words a.sb))
        ∧ exec (.mov a) s = .next (s.wrote c k w a.g a.dst a.ty.words (fun l => x.rd l a.ty.words a.sa))
        ∧ exec (.movp a) s = .next (s.wrote c k w a.g a.dst 1 (fun l => if x.rd l a.ty.words a.sa = 0 then 0 else 1))
        ∧ exec (.movk a) s = .next (s.wrote c k w a.g a.dst a.ty.words (fun l => x.rd l a.ty.words a.sa))
        ∧ exec (.bytsel a) s = .next (s.wrote c k w a.g a.dst a.ty.words (fun l =>
          byteSel (x.rd l a.ty.words a.sa + x.rd l a.ty.words a.sb * 2 ^ (32 * a.ty.words)) (x.rd l a.ty.words a.sc)
            (8 * a.ty.words) (4 * a.ty.words))))
    ∧ (∀ a : FmtCvt, exec (.cnvi a) s = .next (s.wrote c k w a.g a.dst a.dty.words (fun l =>
        finInt a.dty a.mods.sat (decodeI a.sty (x.rd l a.sty.words a.sa)))))

/-- FPTR builds a frame pointer from a die, a core and an index, and FPSPLIT takes them apart; bits [8:0] are dropped
(R164). -/
def Obligations.FramePointers : Prop :=
  ∀ (s : State) (c k : Nat) (w : Warp), State.InTurn s c k w → ∀ a : FmtA,
    let x := s.view c w
    exec (.fptr a) s = .next (s.wrote c k w a.g a.dst 1 (fun l =>
      x.rd l 1 a.sa % 8 * 2 ^ 29 + x.rd l 1 a.sb % 64 * 2 ^ 23 + x.rd l 1 a.sc % 16384 * 2 ^ 9))
    ∧ exec (.fpsplit a) s = .next (s.wrote c k w a.g a.dst 1 (fun l =>
      bits (x.rd l 1 a.sa) 29 3 * 2 ^ 24 + bits (x.rd l 1 a.sa) 23 6 * 2 ^ 16 + bits (x.rd l 1 a.sa) 9 14))
    ∧ (∀ b : BlockCtx, (Instr.fptr a).wellFormed b = true ∨ (Instr.fpsplit a).wellFormed b = true → a.ty = .n32)

/-- The lane exchanges read every lane as it stood before and write every active lane: LANEX from another lane's
value, 0 where the source is no poured lane; POLL and PEERS what the active lanes together hold (R165 to R168). -/
def Obligations.LaneExchanges : Prop :=
  ∀ (s : State) (c k : Nat) (w : Warp), State.InTurn s c k w →
    let x := s.view c w
    (∀ a : FmtLanex,
      let src := fun l =>
        let b := x.rd l 1 a.sb
        match a.mode with
        | .from => b
        | .rot => (l + b) % w.insts.length
        | .mirr => w.insts.length - 1 - l
        | .xor => l ^^^ b
      exec (.lanex a) s = .next (s.wrote c k w a.g a.dst a.ty.words (fun l =>
        if src l < w.insts.length then x.rd (src l) a.ty.words a.sa else 0)))
    ∧ (∀ a : FmtPoll,
      let act := w.active a.g
      let yes := act.filter (fun l => x.rd l a.ty.words a.sa != 0)
      exec (.poll a) s = .next (s.wrote c k w a.g a.dst 1 (fun _ =>
        match a.mode with
        | .all => b2n (yes.length == act.length)
        | .any => b2n (!yes.isEmpty)
        | .mask => laneMask yes
        | .count => yes.length)))
    ∧ (∀ a : FmtPeers,
      let same := fun l => (w.active a.g).filter (fun m => x.rd m a.ty.words a.sa == x.rd l a.ty.words a.sa)
      exec (.peers a) s = .next (s.wrote c k w a.g a.dst 1 (fun l =>
        match a.mode with
        | .same => laneMask (same l)
        | .lead => (same l).headD 0)))

/-! ### Rows 0x5_ and 0x6_ -/

/-- The f32 arithmetic: an exact result of the modified operands, rounded once in the instruction's mode with the draw
numbered 0; FMIN and FMAX give the chosen operand (R172, R177, R178). -/
def Obligations.FloatArithmetic : Prop :=
  ∀ (s : State) (c k : Nat) (w : Warp), State.InTurn s c k w → ∀ a : FmtA,
    let x := s.view c w
    let A := fun l => (decodeF .f32 (x.rd l 1 a.sa)).modify a.mods.a
    let B := fun l => (decodeF .f32 (x.rd l 1 a.sb)).modify a.mods.b
    let C := fun l => (decodeF .f32 (x.rd l 1 a.sc)).modify a.mods.c
    let rdn := fun l => (x.mode l a.rnd).isRdn
    let gives := fun (i : Instr) (r : Nat → Val) => exec i s = .next (s.wroteFloat c k w a.g a.dst .f32 (fun l =>
      [roundF .f32 (x.mode l a.rnd) a.mods.sat (x.draw l 0) false (r l)]))
    let picks := fun (i : Instr) (r : Nat → Val) => exec i s = .next (s.wroteFloat c k w a.g a.dst .f32 (fun l =>
      [roundF .f32 .rne false 0 false (r l)]))
    gives (.fadd a) (fun l => Val.sum (rdn l) [A l, B l]) ∧ gives (.fsub a) (fun l => Val.sum (rdn l) [A l, (B l).neg])
    ∧ gives (.fmul a) (fun l => (A l).mul (B l)) ∧ gives (.ffma a) (fun l => Val.sum (rdn l) [(A l).mul (B l), C l])
    ∧ gives (.fscale a) (fun l => (A l).scale (intVal 32 true (x.rd l 1 a.sb)))
    ∧ picks (.fmin a) (fun l => minMax true (A l) (B l)) ∧ picks (.fmax a) (fun l => minMax false (A l) (B l))

/-- FCMP compares the modified values under the eight conditions, with -0 equal to +0 and NaN unordered (R179). -/
def Obligations.FloatCompare : Prop :=
  ∀ (s : State) (c k : Nat) (w : Warp), State.InTurn s c k w → ∀ a : FmtCmp,
    let x := s.view c w
    let A := fun l => (decodeF .f32 (x.rd l 1 a.sa)).modify a.mods.a
    let B := fun l => (decodeF .f32 (x.rd l 1 a.sb)).modify a.mods.b
    let nan := fun l => (A l).isNan || (B l).isNan
    exec (.fcmp a) s = .next (s.wrote c k w a.g a.dst 1 (fun l => b2n (match a.cond with
      | .eq => !nan l && Val.cmp (A l) (B l) == .eq
      | .ne => nan l || Val.cmp (A l) (B l) != .eq
      | .lt => !nan l && Val.cmp (A l) (B l) == .lt
      | .le => !nan l && Val.cmp (A l) (B l) != .gt
      | .gt => !nan l && Val.cmp (A l) (B l) == .gt
      | .ge => !nan l && Val.cmp (A l) (B l) != .lt
      | .ord => !nan l
      | .unord => nan l)))

/-- FCLASS writes a one-hot mask: infinities, normals, subnormals below 2^-126, zeros and NaN each on its own bit
(R180). -/
def Obligations.FloatClass : Prop :=
  ∀ (s : State) (c k : Nat) (w : Warp), State.InTurn s c k w → ∀ a : FmtA,
    exec (.fclass a) s = .next (s.wrote c k w a.g a.dst 1 (fun l =>
      match (decodeF .f32 ((s.view c w).rd l 1 a.sa)).modify a.mods.a with
      | .inf true => 2 ^ 0
      | .fin true m e => if (Nat.log2 m : Int) + e < -126 then 2 ^ 2 else 2 ^ 1
      | .zero true => 2 ^ 3
      | .zero false => 2 ^ 4
      | .fin false m e => if (Nat.log2 m : Int) + e < -126 then 2 ^ 5 else 2 ^ 6
      | .inf false => 2 ^ 7
      | .nan => 2 ^ 8))
    ∧ (∀ b : BlockCtx,
      ((Instr.fclass a).wellFormed b = true → a.ty = .f32 ∧ a.rnd = .rne ∧ a.sb = .zero ∧ a.sc = .zero)
      ∧ ∀ m : SrcMod, (Instr.fclass { a with mods := { a.mods with a := m } }).wellFormed b = (Instr.fclass a).wellFormed b)

/-- The packed forms round each element once with its own draw number, FDOT2 rounds once, and FREDW gives every active
lane the result of the five-level tree over the active lanes (R120, R181 to R183). That FREDW resolves dyn by the
launch of its lowest active lane is the model's choice (log entry 85). -/
def Obligations.PackedDotAndReduction : Prop :=
  ∀ (s : State) (c k : Nat) (w : Warp), State.InTurn s c k w →
    let x := s.view c w
    (∀ a : FmtA,
      let A := fun l h => (decodeF a.ty (bits (x.rd l 1 a.sa) (16 * h) 16)).modify a.mods.a
      let B := fun l h => (decodeF a.ty (bits (x.rd l 1 a.sb) (16 * h) 16)).modify a.mods.b
      let C := fun l h => (decodeF a.ty (bits (x.rd l 1 a.sc) (16 * h) 16)).modify a.mods.c
      let rdn := fun l => (x.mode l a.rnd).isRdn
      let gives := fun (i : Instr) (r : Nat → Nat → Val) => exec i s = .next (s.wroteFloat c k w a.g a.dst a.ty (fun l =>
        [0, 1].map (fun h => roundF a.ty (x.mode l a.rnd) a.mods.sat (x.draw l h) false (r l h))))
      gives (.pkfma a) (fun l h => Val.sum (rdn l) [(A l h).mul (B l h), C l h])
      ∧ gives (.pkadd a) (fun l h => Val.sum (rdn l) [A l h, B l h]) ∧ gives (.pkmul a) (fun l h => (A l h).mul (B l h))
      ∧ exec (.fdot2 a) s = .next (s.wroteFloat c k w a.g a.dst .f32 (fun l =>
          [roundF .f32 (x.mode l a.rnd) a.mods.sat (x.draw l 0) false
            (Val.sum (rdn l) [(A l 0).mul (B l 0), (A l 1).mul (B l 1), (decodeF .f32 (x.rd l 1 a.sc)).modify a.mods.c])])))
    ∧ (∀ a : FmtFredw,
      let act := w.active a.g
      let low := act.headD 0
      let m := x.mode low a.rnd
      let node := fun (pos u v : Nat) =>
        match a.op with
        | .add => roundF .f32 m a.mods.sat (x.draw low pos) false (Val.sum m.isRdn [decodeF .f32 u, decodeF .f32 v])
        | .min => roundF .f32 .rne false 0 false (minMax true (decodeF .f32 u) (decodeF .f32 v))
        | .max => roundF .f32 .rne false 0 false (minMax false (decodeF .f32 u) (decodeF .f32 v))
      let leaves := (List.range 32).map (fun l =>
        if act.contains l then some (roundF .f32 .rne false 0 false ((decodeF .f32 (x.rd l 1 a.sa)).modify a.mods.a)) else none)
      act ≠ [] → exec (.fredw a) s = .next (s.wroteFloat c k w a.g a.dst .f32 (fun _ => [(redTree node leaves).getD 0])))

/-- The elementary functions: each active lane's result is the model's value of the function at the modified source,
rounded once to f32 in the instruction's mode with the draw numbered 0. The values at the inputs of R184's table are
its table's, and those at 1 are exact; the reciprocal and the square root of a finite value are the quotient and the
root to within one unit of their last place, which lies far below f32's. Of the other functions at other finite inputs
nothing is claimed but that one rounding (R172, R184). The series behind the functions are the model's (log entry 70).
-/
def Obligations.ElementaryFunctions : Prop :=
  ∀ (s : State) (c k : Nat) (w : Warp), State.InTurn s c k w → ∀ a : FmtA,
    let x := s.view c w
    let gives := fun (i : Instr) (f : Val → Val × Bool) => exec i s = .next (s.wroteFloat c k w a.g a.dst .f32 (fun l =>
      let r := f ((decodeF .f32 (x.rd l 1 a.sa)).modify a.mods.a)
      [roundF .f32 (x.mode l a.rnd) a.mods.sat (x.draw l 0) r.2 r.1]))
    (gives (.frcp a) fnRcp ∧ gives (.frsq a) fnRsq ∧ gives (.fsqrt a) fnSqrt ∧ gives (.fexp2 a) fnExp2 ∧ gives (.flog2 a) fnLog2
      ∧ gives (.fsin a) fnSin ∧ gives (.fcos a) fnCos ∧ gives (.ftanh a) fnTanh)
    ∧ (∀ f ∈ [fnRcp, fnRsq, fnSqrt, fnExp2, fnLog2, fnSin, fnCos, fnTanh], f .nan = (.nan, false))
    ∧ (fnRcp (.inf true) = (.zero true, false) ∧ fnRcp (.inf false) = (.zero false, false)
      ∧ ∀ z, fnRcp (.zero z) = (.inf z, false))
    ∧ (fnRsq (.inf true) = (.nan, false) ∧ fnRsq (.inf false) = (.zero false, false) ∧ (∀ z, fnRsq (.zero z) = (.inf z, false))
      ∧ ∀ m e, fnRsq (.fin true m e) = (.nan, false))
    ∧ (fnSqrt (.inf true) = (.nan, false) ∧ fnSqrt (.inf false) = (.inf false, false) ∧ (∀ z, fnSqrt (.zero z) = (.zero z, false))
      ∧ ∀ m e, fnSqrt (.fin true m e) = (.nan, false))
    ∧ (fnExp2 (.inf true) = (.zero false, false) ∧ fnExp2 (.inf false) = (.inf false, false)
      ∧ ∀ z, fnExp2 (.zero z) = (.fin false 1 0, false))
    ∧ (fnLog2 (.inf true) = (.nan, false) ∧ fnLog2 (.inf false) = (.inf false, false) ∧ (∀ z, fnLog2 (.zero z) = (.inf true, false))
      ∧ ∀ m e, fnLog2 (.fin true m e) = (.nan, false))
    ∧ (∀ z, fnSin (.inf z) = (.nan, false) ∧ fnCos (.inf z) = (.nan, false) ∧ fnTanh (.inf z) = (.fin z 1 0, false)
      ∧ fnSin (.zero z) = (.zero z, false) ∧ fnCos (.zero z) = (.fin false 1 0, false) ∧ fnTanh (.zero z) = (.zero z, false))
    ∧ (∀ (md : Rnd) (sat : Bool) (dr : Nat),
      let one := fun (f : Val → Val × Bool) => roundF .f32 md sat dr (f (decodeF .f32 0x3F800000)).2 (f (decodeF .f32 0x3F800000)).1
      one fnRcp = 0x3F800000 ∧ one fnRsq = 0x3F800000 ∧ one fnSqrt = 0x3F800000 ∧ one fnExp2 = 0x40000000 ∧ one fnLog2 = 0)
    ∧ (∀ z m e, 0 < m → ∃ n, (fnRcp (.fin z m e)).1 = .fin z n (-640 - e) ∧ n * m ≤ 2 ^ 640 ∧ 2 ^ 640 < (n + 1) * m
      ∧ ((fnRcp (.fin z m e)).2 = true ↔ n * m ≠ 2 ^ 640))
    ∧ (∀ m e, 0 < m → m < 2 ^ 24 → ∃ n f, (fnSqrt (.fin false m e)).1 = .fin false n f
      ∧ (∀ h : Nat, e = 2 * f + 640 + h → h ≤ 1 ∧ n * n ≤ m * 2 ^ (640 + h) ∧ m * 2 ^ (640 + h) < (n + 1) * (n + 1))
      ∧ (e = 2 * f + 640 ∨ e = 2 * f + 641))

/-- The conversions: FCVT (exact where it widens), F2I, I2F, the packing of a scaled block from the active lanes and
its unpacking (R185 to R189). That MXPACK resolves dyn by the launch of its lowest active lane is the model's choice
(log entry 85). -/
def Obligations.Conversions : Prop :=
  ∀ (s : State) (c k : Nat) (w : Warp), State.InTurn s c k w → ∀ a : FmtCvt,
    let x := s.view c w
    let A := fun l => (decodeF a.sty (x.rd l 1 a.sa)).modify a.mods.a
    let act := w.active a.g
    let low := act.headD 0
    let sc := mxScale a.dty (act.map A)
    let elem := fun l => if sc = 0xFF then 0 else
      roundF a.dty (x.mode low a.rnd) a.mods.sat (x.draw low l) false ((A l).scale (127 - (sc : Int)))
    exec (.fcvt a) s = .next (s.wroteFloat c k w a.g a.dst a.dty (fun l =>
      [if widening a.dty a.sty then roundF a.dty .rne false 0 false (A l)
       else roundF a.dty (x.mode l a.rnd) a.mods.sat (x.draw l 0) false (A l)]))
    ∧ exec (.f2i a) s = .next (s.wrote c k w a.g a.dst a.dty.words (fun l =>
      wrapTo (32 * a.dty.words) (roundI a.dty (x.mode l a.rnd) (x.draw l 0) (A l))))
    ∧ exec (.i2f a) s = .next (s.wroteFloat c k w a.g a.dst a.dty (fun l =>
      [roundF a.dty (x.mode l a.rnd) a.mods.sat (x.draw l 0) false
        (Val.int (modInt a.sty.width a.sty.signed (x.rd l a.sty.words a.sa) a.mods.a))]))
    ∧ exec (.mxpack a) s = .next (s.issued c k ((w.write act a.dst 1 (fun l => sc * 256 + elem l)).offer a.dst
      (act.map (fun l => decodeMx a.dty sc (elem l)))))
    ∧ exec (.mxunpk a) s = .next (s.wroteFloat c k w a.g a.dst a.dty (fun l =>
      [roundF a.dty .rne false 0 false (decodeMx a.sty (bits (x.rd l 1 a.sa) 8 8) (bits (x.rd l 1 a.sa) 0 a.sty.width))]))

/-- The draw of a lane is the upper half of the mix of its serial, its launch's key and its block, instruction index,
iteration and draw number (R108, R109). A lane of an activation without a launch takes its graph's seed as its key:
that is the model's choice. See log entry 104. -/
def Obligations.StochasticDraw : Prop :=
  ∀ (s : State) (c : Nat) (w : Warp) (l n : Nat) (i : Inst), w.insts[l]? = some i →
    let mix := fun (z : BitVec 64) =>
      let a := (z ^^^ (z >>> 30)) * 0xBF58476D1CE4E5B9
      let b := (a ^^^ (a >>> 27)) * 0x94D049BB133111EB
      b ^^^ (b >>> 31)
    let key := match s.launchOf c w l with
      | some x => x.key
      | none => match s.graph? w.graph with | some g => g.seed | none => 0
    let q := bits w.block 0 12 * 2 ^ 24 + bits w.pc 0 6 * 2 ^ 18 + bits i.iter 0 10 * 2 ^ 8 + bits n 0 8
    (s.view c w).draw l n = (mix (mix (i.serial ^^^ key) + BitVec.ofNat 64 q * 0x9E3779B97F4A7C15)).toNat / 2 ^ 32

/-! ### Row 0x0_ -/

/-- The emits append one token for each sending lane, in lane order: EMIT and EMITC carry VAL, EMITE the stop level; a
lane whose guard is false sends nothing, or a null token where NULLF asks it (R65, R281, R282). EMITX names a chip and
releases at domain scope, and EMITB sends one value of lane 0 to the frames that consecutive uniform registers name,
in their order (R283, R284). -/
def Obligations.EmitsAppendTokens : Prop :=
  (∀ (s : State) (c k : Nat) (w : Warp), State.InTurn s c k w → ∀ a : FmtE,
     let x := s.view c w
     let ls := w.lanes.filter (fun l => w.guard a.g l || a.nullf)
     let e := s.edge w a.edge
     let token := fun (v l : Nat) =>
       let fp := x.rd l 1 a.frm
       let rel := relOf a.scope e c (bits fp 23 9)
       let own := match w.insts[l]? with | some i => i.iter | none => 0
       Emitted.token a.edge l none rel
         { fp := fp, block := a.block, slot := a.slot, null := !w.guard a.g l, bad73 := false, comb := a.comb, rel := rel, poison := false
           iter := (match a.itc with | .same => own | .next => (own + 1) % 1024 | .val => bits (x.val64 l a.val) 32 10 | .zero => 0)
           stop := a.stop, payload := BitVec.ofNat 64 (if w.guard a.g l then v else 0), ident := s.identOf w
           relWord := if rel = .auto then RelWord.none else e.list
           crossed := false, sender := some (c * 2 ^ 23 + w.frameOf l * 2 ^ 9), hb := [], charges := [] }
     let sends := fun (i : Instr) (v : Nat → Nat) =>
       exec i s = .next (s.issued c k { w with emits := w.emits ++ ls.map (fun l => token (v l) l) })
     (∀ l ∈ ls, bits (x.rd l 1 a.frm) 0 9 = 0) →
     sends (.emit a) (fun l => x.val64 l a.val) ∧ sends (.emitc a) (fun l => x.val64 l a.val) ∧ sends (.emite a) (fun _ => a.stop))
  ∧ (∀ (s : State) (c k : Nat) (w : Warp), State.InTurn s c k w → ∀ a : FmtE,
     let x := s.view c w
     let ls := w.lanes.filter (fun l => w.guard a.g l || a.nullf)
     let e := s.edge w a.edge
     let fq := fun l => x.rd l 2 a.frm
     ((∀ l ∈ ls, bits (fq l) 0 9 = 0 ∧ bits (fq l) 32 12 < 3072 ∧ bits (fq l) 44 20 = 0) →
       ∃ ts : List Emitted, exec (.emitx a) s = .next (s.issued c k { w with emits := w.emits ++ ts }) ∧ ts.length = ls.length
         ∧ ∀ (n l : Nat), ls[n]? = some l → ∃ t, ts[n]? = some (Emitted.token a.edge l (some (bits (fq l) 32 12)) t.rel t)
           ∧ t.fp = fq l % 2 ^ 32 ∧ t.block = a.block ∧ t.slot = a.slot ∧ t.null = !w.guard a.g l
           ∧ t.rel = (if e.scope = 0 then .auto else .package)
           ∧ t.payload = BitVec.ofNat 64 (if w.guard a.g l then x.val64 l a.val else 0))
     ∧ (∀ b, a.frm = .k b → (∀ i, i ≤ a.edge → bits (w.uni (b + i)) 0 9 = 0) →
       ∃ ts : List Emitted, exec (.emitb a) s = .next (s.issued c k { w with emits := w.emits ++ ts }) ∧ ts.length = a.edge + 1
         ∧ ∀ n : Nat, n ≤ a.edge → ∃ t, ts[n]? = some (Emitted.token 0 0 none t.rel t)
           ∧ t.fp = w.uni (b + n) ∧ t.block = a.block ∧ t.slot = a.slot ∧ t.null = false
           ∧ t.payload = BitVec.ofNat 64 (x.val64 0 a.val)))

/-- FALLOC and FFREE leave a request of each guard-true lane for the commit, and JOIN and GATE a watch of each (R286,
R288, R289). -/
def Obligations.FramesAndWatches : Prop :=
  ∀ (s : State) (c k : Nat) (w : Warp), State.InTurn s c k w →
    let x := s.view c w
    (∀ a : FmtSpawn, (∀ l ∈ w.active a.g, s.depthOf c w l ≠ 10 ∧ bits (x.rd l 1 a.frm) 0 9 = 0) →
      exec (.falloc a) s = .next (s.issued c k { w with
        acts := w.acts ++ (w.active a.g).map (fun l => AtCommit.falloc l (bits (x.rd l 1 a.frm) 23 9) a.nb a.block a.slot w.spawnPos)
        spawnPos := w.spawnPos + 1 }))
    ∧ (∀ a : FmtI, (∀ l ∈ w.active a.g, bits (x.rd l 1 a.sa) 0 9 = 0) →
      exec (.ffree a) s = .next (s.issued c k { w with emits := w.emits ++ (w.active a.g).map (fun l => Emitted.free l (x.rd l 1 a.sa)) }))
    ∧ (∀ a : FmtWatch,
      let own := fun l v => plainToken (c * 2 ^ 23 + w.frameOf l * 2 ^ 9) a.block a.slot (w.iterAt l) (s.identOf w) v
      exec (.join a) s = .next (s.issued c k { w with
        emits := w.emits ++ (w.active a.g).map (fun l => Emitted.watch l .join (own l (x.rd l 1 a.sa))) })
      ∧ exec (.gate a) s = .next (s.issued c k { w with
        emits := w.emits ++ (w.active a.g).map (fun l => Emitted.watch l (.gate a.path (x.rd l 1 a.sa)) (own l 0)) }))

/-- SPAWN and SPAWNQ reserve a queue entry of each guard-true lane at issue. Where the task queue has room for all of
them each leaves its child for the commit, and SPAWNQ's predicate is 0 in each. Where no task entry is free and the
graph's ring has room, SPAWN reserves in the ring for each lane that the queue cannot take; SPAWNQ reserves nothing
for it, and its predicate there is 1. With no guard-true lane both only advance. The condition on JOIN counts the
children that the lanes of one activation have asked for in this block (R269, R287). -/
def Obligations.SpawnsReserveAndComplete : Prop :=
  ∀ (s : State) (c k : Nat) (w : Warp), State.InTurn s c k w → ∀ a : FmtSpawn,
    let x := s.view c w
    let ls := w.active a.g
    let q := s.core c
    (∀ l ∈ ls, s.depthOf c w l ≠ 10 ∧ bits (x.rd l 1 a.frm) 0 9 = 0 ∧ s.inBlockRects w.graph a.block (bits (x.rd l 1 a.frm) 23 9) = true
      ∧ (match s.frame? c (w.frameOf l) with | some f => f.join | none => 0) + w.frameSpawns ls l < 2 ^ 32) →
    (q.tasks.length + q.taskResv + ls.length ≤ 512 → (s.spill w.graph c).ents = [] →
      let reserved := s.setCore c { q with taskResv := q.taskResv + ls.length }
      let w1 := { w with
        acts := w.acts ++ ls.map (fun l => s.childOf c x a l false)
        taken := w.taken ++ ls.map (fun _ => Taken.task), spawnPos := w.spawnPos + 1 }
      (ls ≠ [] → exec (.spawn a) s = .next (reserved.issued c k w1))
      ∧ (ls ≠ [] → exec (.spawnq a) s = .next (reserved.issued c k (ls.foldl (fun b l => b.setPred l a.stop false) w1))))
    ∧ (ls = [] → ∀ i ∈ [Instr.spawn a, .spawnq a], exec i s = .next (s.issued c k { w with spawnPos := w.spawnPos + 1 }))
    ∧ (let n := if (s.spill w.graph c).ents = [] then 512 - (q.tasks.length + q.taskResv) else 0
       n < ls.length →
        ((s.spill w.graph c).ents.length + Map.getD q.spillResv w.graph 0 + (ls.length - n) ≤ 4194304 → ∃ t w', exec (.spawn a) s = .next t
          ∧ t.warp? c k = some w' ∧ w'.pc = w.pc + 1 ∧ w'.spawnPos = w.spawnPos + 1
          ∧ w'.acts = w.acts ++ (ls.take n).map (fun l => s.childOf c x a l false) ++ (ls.drop n).map (fun l => s.childOf c x a l true)
          ∧ w'.taken = w.taken ++ List.replicate n Taken.task ++ List.replicate (ls.length - n) Taken.spill
          ∧ Map.getD (t.core c).spillResv w.graph 0 = Map.getD q.spillResv w.graph 0 + (ls.length - n) ∧ (t.core c).taskResv = q.taskResv + n)
        ∧ (∃ t w', exec (.spawnq a) s = .next t ∧ t.warp? c k = some w' ∧ w'.pc = w.pc + 1
          ∧ w'.acts = w.acts ++ (ls.take n).map (fun l => s.childOf c x a l false) ∧ (t.core c).taskResv = q.taskResv + n
          ∧ (t.core c).spillResv = q.spillResv ∧ ∀ l, l ∈ ls → a.stop < 7 → w'.pred l a.stop = (ls.drop n).contains l))

/-- TRAP leaves a record for the commit, BRK marks the warp where the host has armed breakpoints, NOP does nothing and
DONE ends the warp's issue (R290 to R292). -/
def Obligations.TrapsAndWarpControl : Prop :=
  ∀ (s : State) (c k : Nat) (w : Warp), State.InTurn s c k w → ∀ a : FmtS,
    exec (.trap a) s = .next (s.issued c k { w with
      emits := w.emits ++ [Emitted.trap (a.imm % 65536) (c * 2 ^ 23 + w.frameOf 0 * 2 ^ 9) (w.iterAt 0) w.block (2 ^ w.insts.length - 1)] })
    ∧ (∀ g, s.graph? w.graph = some g → g.brk = false → exec (.brk a) s = .next (s.issued c k w))
    ∧ (∀ g, s.graph? w.graph = some g → g.brk = true →
        exec (.brk a) s = .next (s.issued c k { w with brk := some (w.brk.getD (a.imm % 65536)) }))
    ∧ exec (.nop a) s = .next (s.issued c k w)
    ∧ exec (.done a) s = .next (s.issued c k { w with ended := true })

/-- Where a frame pointer of a sending lane has one of its bits [8:0] set the emit faults with code 0x05 in the lanes
that have it: the warp is gone with all that it buffered, and memory and the tokens on their way are as they were
(R34, R65, R281, R359). An instance fault of one lane whose frame holds its entry: the warp is discarded, the lane's
instance is held, and one KIND 0 record with the fault's code goes to the control die where the graph names a trap
block; where it names none the record is dropped and counted (R34, R290, R358, R359). -/
def Obligations.InstanceFaultsAreTaken : Prop :=
  (∀ (s : State) (c k : Nat) (w : Warp), State.InTurn s c k w → ∀ a : FmtE,
     let x := s.view c w
     let bad := (w.lanes.filter (fun l => w.guard a.g l || a.nullf)).filter (fun l => bits (x.rd l 1 a.frm) 0 9 != 0)
     bad ≠ [] → w.taken = [] → ∀ i ∈ [Instr.emit a, .emitc a, .emite a],
       ∃ t, exec i s = .next t ∧ t = s.takeFault c k w (bad.map (fun l => ⟨l, 0x05, 0⟩))
         ∧ t.warp? c k = none ∧ t.mem = s.mem ∧ (t.core c).inject = (s.core c).inject)
  ∧ (∀ (s : State) (c k : Nat) (w : Warp) (i : Inst) (f : Frame) (code addr : Nat),
     s.warp? c k = some w → w.insts = [i] → w.taken = [] → w.loads = [] →
     s.frame? c i.frame = some f → i.entry < f.entries.length →
     let t := s.takeFault c k w [⟨0, code, addr⟩]
     t.warp? c k = none ∧ t.mem = s.mem
     ∧ (∃ f', t.frame? c i.frame = some f' ∧ ∃ e', f'.entries[i.entry]? = some e' ∧ e'.held = true ∧ e'.state = .recorded ∧ e'.refetch = 0)
     ∧ (∀ b, s.trapOf w.graph = some b → ∃ r, t.control.recQueue = s.control.recQueue ++ [r] ∧ r.kind = 0 ∧ r.code = code
         ∧ r.addr = addr ∧ r.aux = 1 ∧ r.fp = c * 2 ^ 23 + i.frame * 2 ^ 9 ∧ r.iter = i.iter ∧ r.block = w.block ∧ r.entry = i.entry
         ∧ r.src = c)
     ∧ (s.trapOf w.graph = none → t.control.recQueue = s.control.recQueue
         ∧ Map.getD (t.core c).counters (0x043 * 4096) 0 = min (2 ^ 32 - 1) (Map.getD (s.core c).counters (0x043 * 4096) 0 + 1)))

/-! ### Rows 0x8_ and 0x9_ -/

/-- The plain stores put one access of each guard-true lane into the commit buffer, with the bytes that its source
holds at issue, at the 56-bit address of R211; STP at the address of the graph's private range (R31, R210, R211,
R219). The accesses without a reply: ATOM and PUTF with their operand, SETE, SWB and SINV with none, ROUNDA with its
scope, each at its aligned address, and FENCE as a boundary at its LSID (R132, R210, R211, R221, R223, R226, R227,
R229). -/
def Obligations.StoresAndAccessesWithoutReply : Prop :=
  (∀ (s : State) (c k : Nat) (w : Warp), State.InTurn s c k w → ∀ m : FmtM,
     let x := s.view c w
     let ofs := toSigned 16 (m.ofs % 65536)
     let ea := fun l => wrapTo 56 ((x.rd l 2 m.base : Int) + ofs)
     let pea := fun l => (s.privBase w + 0x2000000000 + wrapTo 40 ((x.rd l 2 m.base : Int) + ofs)) % 2 ^ 56
     let slot := fun (l va : Nat) (near priv : Bool) => StoreSlot.mk m.lsid l va m.size.bytes
       (.store (toBytes m.size.bytes (x.rd l m.size.words m.data)) false) none near m.hint priv
     exec (.stg m) s = .next (s.buffered c k w ((w.active m.g).map (fun l => slot l (ea l) false false)))
     ∧ exec (.stl m) s = .next (s.buffered c k w ((w.active m.g).map (fun l => slot l (ea l) true false)))
     ∧ exec (.stp m) s = .next (s.buffered c k w ((w.active m.g).map (fun l => slot l (pea l) false true))))
  ∧ (∀ (s : State) (c k : Nat) (w : Warp), State.InTurn s c k w →
     let x := s.view c w
     (∀ m : FmtM,
       let ea := fun l => wrapTo 56 ((x.rd l 2 m.base : Int) + toSigned 16 (m.ofs % 65536))
       let scope : Scope := if m.scope = .auto then .package else m.scope
       let put := fun (i : Instr) (n : Nat) (al : Nat) (kind : Nat → ReqKind) =>
         exec i s = .next (s.buffered c k w ((w.active m.g).map (fun l => ⟨m.lsid, l, ea l / al * al, n, kind l, none, false, .normal, false⟩)))
       put (.putf m) 8 8 (fun l => .full .putf (BitVec.ofNat 64 (x.rd l 2 m.data))) ∧ put (.sete m) 8 8 (fun _ => .full .sete 0)
       ∧ put (.swb m) 0 1 (fun _ => .swb) ∧ put (.sinv m) 0 1 (fun _ => .sinv) ∧ put (.rounda m) 0 1 (fun _ => .rounda scope)
       ∧ exec (.fence m) s = .next (s.issued c k { w with fences := w.fences ++ [(m.lsid, scope)] }))
     ∧ (∀ a : FmtAtom,
       exec (.atom a) s = .next (s.buffered c k w ((w.active a.g).map (fun l =>
         ⟨a.lsid, l, wrapTo 56 ((x.rd l 2 a.base : Int) + toSigned 16 (a.ofs % 65536)) / a.size.bytes * a.size.bytes, a.size.bytes,
           .atomic (.rmw a.op) ((List.range a.size.words).map (fun j => BitVec.ofNat 32 (x.rd l a.size.words a.data / 2 ^ (32 * j)))),
           none, false, .normal, false⟩)))))

/-- The accesses that reply by token: each guard-true lane's access enters the commit buffer with its operand and the
place of its reply, where every reply word has its bits [31:20] 0 and every token of the reply has a slot (R63, R215,
R222 to R226). -/
def Obligations.AccessesWithReply : Prop :=
  ∀ (s : State) (c k : Nat) (w : Warp), State.InTurn s c k w →
    let x := s.view c w
    let ok := fun (m : FmtM) =>
      let word := w.uni (bits m.ofs 11 5)
      bits word 20 12 = 0 ∧ bits word 0 8 + replyTokens m.size.bytes ≤ 256
    let put := fun (i : Instr) (m : FmtM) (n : Nat) (kind : List Word → ReqKind) =>
      let word := w.uni (bits m.ofs 11 5)
      exec i s = .next (s.buffered c k w ((w.active m.g).map (fun l =>
        ⟨m.lsid, l, wrapTo 56 ((x.rd l 2 m.base : Int) + toSigned 11 (m.ofs % 2048)) / m.size.bytes * m.size.bytes, m.size.bytes,
          kind ((List.range n).map (fun j => BitVec.ofNat 32 (x.rd l n m.data / 2 ^ (32 * j)))),
          some { fp := c * 2 ^ 23 + w.frameOf l * 2 ^ 9, block := bits word 8 12
                 slot := bits word 0 8, iter := w.iterAt l, ident := s.identOf w, rel := m.scope },
          false, .normal, false⟩)))
    (∀ m : FmtM, ok m →
      put (.cas m) m (2 * m.size.words) (fun ws => .atomic .cas ws) ∧ put (.cas128 m) m 8 (fun ws => .atomic .cas ws)
      ∧ put (.incw m) m m.size.words (fun ws => .atomic .incw ws) ∧ put (.decw m) m m.size.words (fun ws => .atomic .decw ws)
      ∧ put (.faddb m) m (2 * m.size.words) (fun ws => .atomic .faddb ws)
      ∧ put (.take m) m 0 (fun _ => .full .take 0) ∧ put (.readf m) m 0 (fun _ => .full .readf 0))
    ∧ (∀ a : FmtAtom, ok (FmtAtom.toM a) →
      put (.atomr a) (FmtAtom.toM a) a.size.words (fun ws => .atomic (.rmw a.op) ws))

/-- A load into lane registers completes at issue where no counter that it raises is at its limit of 65,535: one load
of each guard-true lane, at its address of R211, then waits for its bytes, nothing is written yet and memory is as it
was. Bytes that an earlier store of the lane in the block wrote are there at once; a part of a line that no such byte
and no copy on the die serves has asked its home. LDB completes so where it names no bound or no region of its lanes
is bounded, LDA also where it acquires (R13, R29, R32, R33, R211, R216, R217). A split-phase load, whose DATA is a
frame slot, and ROUNDV complete at issue where no counter that they raise is at its limit of 65,535, and leave nothing
that the warp waits for: their bytes come by token. ROUNDV asks the home of each lane's region at the aligned address
(R13, R29, R63, R209, R211, R215, R230). Where a load may hit a copy is the model's reading (log entry 29). -/
def Obligations.LoadsIssue : Prop :=
  (∀ (s : State) (c k : Nat) (w : Warp), State.InTurn s c k w → w.insts.length ≤ 32 →
     (∀ i f p, s.frame? c i = some f → f.infl.get p + 64 ≤ 65535) → ∀ (m : FmtM) (r : Nat), m.data = .v r →
     let x := s.view c w
     let ofs := toSigned 16 (m.ofs % 65536)
     let ea := fun l => wrapTo 56 ((x.rd l 2 m.base : Int) + ofs)
     let pea := fun l => (s.privBase w + 0x2000000000 + wrapTo 40 ((x.rd l 2 m.base : Int) + ofs)) % 2 ^ 56
     let completes := fun (i : Instr) (addr : Nat → Nat) (asks : Bool) =>
       ∃ t w', exec i s = .next t ∧ t.warp? c k = some w' ∧ w'.pc = w.pc + 1 ∧ w'.v = w.v ∧ w'.k = w.k ∧ w'.p = w.p
         ∧ w'.stores = w.stores ∧ t.mem = s.mem
         ∧ (∃ ls : List PendLoad, w'.loads.drop w.loads.length = ls ∧ ls.map (fun l => l.lane) = w.active m.g
           ∧ ∀ l ∈ ls, l.reg = r ∧ l.words = m.size.words ∧ l.bytes.length = m.size.bytes ∧ l.addr = addr l.lane
             ∧ ∀ n b, n < m.size.bytes → forwarded w.stores l.lane m.lsid ((l.addr + n) % 2 ^ 56) = some b → l.bytes[n]? = some (some b))
         ∧ (asks = true → ∀ l ∈ w.active m.g, ∀ p ∈ lineParts (addr l) m.size.bytes,
             (∀ n, n < p.2.2 → forwarded w.stores l m.lsid ((p.2.1 + n) % 2 ^ 56) = none) →
             s.copyFor c (s.asidOf w) p.2.1 m.hint {} = none →
             ∃ n q, Map.find? t.reqs n = some q ∧ q.kind = .load ∧ q.core = c ∧ q.asid = s.asidOf w ∧ q.va = p.2.1 ∧ q.size = p.2.2
               ∧ q.state = .moving)
     completes (.ldg m) ea true ∧ completes (.ldc m) ea false ∧ completes (.ldp m) pea true ∧ completes (.lda m) ea false
     ∧ (m.bmode = false ∨ (∀ l ∈ w.active m.g, (s.region (dieOf c) (s.asidOf w) (ea l)).2.kind ≠ 1) → completes (.ldb m) ea false))
  ∧ (∀ (s : State) (c k : Nat) (w : Warp), State.InTurn s c k w → w.insts.length ≤ 32 →
     (∀ i f p, s.frame? c i = some f → f.infl.get p + 64 ≤ 65535) → ∀ m : FmtM, bits (w.uni (bits m.ofs 11 5)) 20 12 = 0 →
     (∀ r, m.data = .f r → r + replyTokens m.size.bytes ≤ 256 → ∀ i ∈ [Instr.ldg m, .ldc m, .ldp m, .lda m, .ldb m],
       ∃ t w', exec i s = .next t ∧ t.warp? c k = some w' ∧ w'.pc = w.pc + 1 ∧ w'.loads = w.loads ∧ w'.v = w.v ∧ w'.stores = w.stores
         ∧ t.mem = s.mem)
     ∧ (∃ t w', exec (.roundv m) s = .next t ∧ t.warp? c k = some w' ∧ w'.pc = w.pc + 1 ∧ w'.loads = w.loads ∧ w'.stores = w.stores
         ∧ t.mem = s.mem
         ∧ ∀ l ∈ w.active m.g, ∃ n q, Map.find? t.reqs n = some q ∧ q.kind = .roundv ∧ q.lane = l ∧ q.size = 4
           ∧ q.va = wrapTo 56 (((s.view c w).rd l 2 m.base : Int) + toSigned 11 (m.ofs % 2048)) / 4 * 4))

/-- LDS and STS through the stash where no counter that they raise is at its limit of 65,535 and no fill of their core
has met a fault. Where every part of its lanes' addresses lies in no window of the graph or is present in the stash,
LDS starts its loads, and bytes of a present line are there at once; where a part is absent its line begins to fill
and the warp waits. STS, in windows that are writable, always completes: it buffers one access for each part of a
line, for the stash where a window maps it and for memory elsewhere, and its commit waits for the lines that were
absent (R13, R29, R203, R211, R216, R219). -/
def Obligations.StashAccesses : Prop :=
  ∀ (s : State) (c k : Nat) (w : Warp), State.InTurn s c k w → w.insts.length ≤ 32 →
    (∀ i f p, s.frame? c i = some f → f.infl.get p + 128 ≤ 65535) → (∀ q ∈ s.stashFills, q.1 = c → q.2.fault = none) → ∀ m : FmtM,
    let x := s.view c w
    let q := s.core c
    let asid := s.asidOf w
    let ea := fun l => wrapTo 56 ((x.rd l 2 m.base : Int) + toSigned 16 (m.ofs % 65536))
    let present := ∀ l ∈ w.active m.g, ∀ p ∈ q.stashParts w.graph asid (ea l) m.size.bytes, q.stashHas p.1 asid p.2.1 p.2.2 = true
    let slots := (w.active m.g).flatMap (fun l => (lineParts (ea l) m.size.bytes).map (fun p =>
      let part := ((toBytes m.size.bytes (x.rd l m.size.words m.data)).drop p.1).take p.2.2
      StoreSlot.mk m.lsid l p.2.1 p.2.2 (if (q.windowOf w.graph asid p.2.1).isSome then .stashStore part else .store part false) none
        false m.hint false))
    (∀ r, m.data = .v r → present → ∃ t w', exec (.lds m) s = .next t ∧ t.warp? c k = some w' ∧ w'.pc = w.pc + 1 ∧ w'.v = w.v
      ∧ w'.stores = w.stores ∧ w'.loads.length = w.loads.length + (w.active m.g).length ∧ t.mem = s.mem
      ∧ ∀ l, w.active m.g = [l] → w.stores = [] → ∀ win y, q.windowOf w.graph asid (ea l) = some win →
          lineParts (ea l) m.size.bytes = [(0, ea l, m.size.bytes)] → Map.find? q.stash (win.2.index (ea l)) = some y →
          ∃ z, w'.loads.drop w.loads.length = [z] ∧ z.lane = l ∧ z.reg = r ∧ z.words = m.size.words
            ∧ z.bytes = (List.range m.size.bytes).map (fun n => if n < y.data.length - ea l % 128 then some (nthD 0 (y.data.drop (ea l % 128)) n) else none))
    ∧ (¬ present → ∃ t w', exec (.lds m) s = .next t ∧ t.warp? c k = some w' ∧ w' = { w with stall := some (w.stall.getD s.now), edge := false }
        ∧ t.mem = s.mem ∧ ∀ l ∈ w.active m.g, ∀ p ∈ q.stashParts w.graph asid (ea l) m.size.bytes,
          q.stashHas p.1 asid p.2.1 p.2.2 = false → ∃ y ∈ t.stashFills, y.1 = c ∧ y.2.index = p.1 ∧ y.2.asid = asid ∧ y.2.line = p.2.1 / 128)
    ∧ ((∀ l ∈ w.active m.g, ∀ p ∈ lineParts (ea l) m.size.bytes, ∀ win, q.windowOf w.graph asid p.2.1 = some win → win.2.wr = true) →
      (present → exec (.sts m) s = .next (s.buffered c k w slots))
      ∧ (∃ t w', exec (.sts m) s = .next t ∧ t.warp? c k = some w' ∧ w'.pc = w.pc + 1 ∧ w'.stores = w.stores ++ slots ∧ w'.v = w.v
          ∧ t.mem = s.mem ∧ ∀ l ∈ w.active m.g, ∀ p ∈ q.stashParts w.graph asid (ea l) m.size.bytes,
            q.stashHas p.1 asid p.2.1 p.2.2 = false → p.1 ∈ w'.stashWait))

/-- SMAP leaves its window for the commit where its descriptor passes the checks at issue; PREF and ACQ touch no
register and no counter of a frame (R218, R220, R228). -/
def Obligations.WindowsPrefetchesAndAcquires : Prop :=
  ∀ (s : State) (c k : Nat) (w : Warp), State.InTurn s c k w → ∀ m : FmtM,
    let x := s.view c w
    let ea := fun l => wrapTo 56 ((x.rd l 2 m.base : Int) + toSigned 16 (m.ofs % 65536))
    let wide := m.scope = .auto ∨ m.scope = .package
    let regions := uniSet [] ((w.active m.g).map (fun l => (s.region (dieOf c) (s.asidOf w) (ea l)).1))
    ((∀ l ∈ w.active m.g, (s.core c).badWindow w.graph (m.ofs % 16) (s.asidOf w) (x.rd l 4 m.data) = false) →
      exec (.smap m) s = .next (s.buffered c k w ((w.active m.g).map (fun l =>
        ⟨m.lsid, l, 0, 0, .smap (m.ofs % 16) (x.rd l 4 m.data), none, false, .normal, false⟩))))
    ∧ (∃ t w', exec (.pref m) s = .next t ∧ t.warp? c k = some w' ∧ w' = { w with pc := w.pc + 1, stall := none, edge := false }
        ∧ (t.core c).frames = (s.core c).frames ∧ t.mem = s.mem)
    ∧ (¬ wide → exec (.acq m) s = .next (s.issued c k w))
    ∧ (wide → ∃ t w', exec (.acq m) s = .next t ∧ t.warp? c k = some w' ∧ w' = { w with pc := w.pc + 1, stall := none, edge := false, acqWait := uniSet w.acqWait regions }
        ∧ (t.core c).frames = (s.core c).frames ∧ t.mem = s.mem)

/-! ### Row 0x7_ -/

/-- A row instruction whose warp may use the row engine completes at issue with its act for the commit: ROWP takes a
credit of each valid target, or two for a 6-bit row, where each has as many; ROWS an engine entry and a charge, where
one of the 64 entries is free and the activation's counter stands below 65,535; ACCST's act takes the rounding mode
of its issue; and ACCRD reads its accumulator row, two columns to a lane. Without the engine each waits (R13, R233,
R239, R242, R244 to R250, R271). A missing credit entry waits by log entry 43, and that a warp sees its own
uncommitted FCHBIND at once is the reading of entry 41. -/
def Obligations.RowInstructionsIssue : Prop :=
  ∀ (s : State) (c k : Nat) (w : Warp), State.InTurn s c k w → ∀ a : FmtX,
    let x := s.view c w
    let q := s.core c
    let ch := q.row.chanFor w a.fch
    let quad := (List.range 4).map (fun i => BitVec.ofNat 32 (w.uni (Sel.kIndex a.sb + i)))
    let targets := (quad.filter (fun t => bitOf t.toNat 0)).map (fun t => (bits t.toNat 23 9, bits t.toNat 20 3))
    (s.mayRow c w = false → ∀ i ∈ [Instr.bldq a, .rowp a, .rows a, .accz a, .accrd a, .accwb a, .accst a, .fchbind a, .mxseq a],
      exec i s = .next (s.stalled c k w))
    ∧ (s.mayRow c w = true →
      exec (.accz a) s = .next (s.acted c k w (.accz a.unit))
      ∧ exec (.accwb a) s = .next (s.acted c k w (.accwb a.unit (x.rd 0 2 a.sa) (x.rd 0 1 a.sb) a.flags))
      ∧ exec (.accst a) s = .next (s.acted c k w (.accst a.unit (x.rd 0 2 a.sa) (x.rd 0 1 a.sb % 32)
          (bits a.flags 0 3 + 8 * (if bits a.flags 3 3 = 7 then x.dflt 0 else bits a.flags 3 3)) w.pc))
      ∧ (badChan (x.rd 0 1 a.sa) = false → exec (.fchbind a) s =
          .next (s.acted c k w (.fchbind a.fch (BitVec.ofNat 32 (x.rd 0 1 a.sa)) (BitVec.ofNat 32 (x.rd 0 1 a.sb)))))
      ∧ (bits (x.rd 0 1 a.sb) 20 12 = 0 → bits (x.rd 0 1 a.sa) 0 9 = 0 → exec (.mxseq a) s =
          .next (s.acted c k w (.mxseq a.unit (BitVec.ofNat 32 (x.rd 0 1 a.sa)) (BitVec.ofNat 32 (x.rd 0 1 a.sb))
            (BitVec.ofNat 32 (x.rd 0 1 a.sc)) a.flags)))
      ∧ (let t := q.row.tile a.unit
         let e := fun col => t.elem (x.rd 0 1 a.sb % 32) col
         (∀ l ∈ w.lanes, t.bad (x.rd 0 1 a.sb % 32) (2 * l) = false ∧ t.bad (x.rd 0 1 a.sb % 32) (2 * l + 1) = false) →
         exec (.accrd a) s = .next (s.issued c k ((w.write w.lanes a.sa 2 (fun l => e (2 * l) + 2 ^ 32 * e (2 * l + 1))).offer a.sa
           (w.lanes.flatMap (fun l => [decodeF .f32 (e (2 * l)), decodeF .f32 (e (2 * l + 1))])))))
      ∧ (q.tooShallow (Ty.isSix ch.ty) targets = false →
          let n := if Ty.isSix ch.ty then 2 else 1
          (∀ t ∈ targets, ∃ y, q.creditOf t = some y ∧ n * targets.count t ≤ y.avail) →
          ∃ q1 w' ps, takeCredits n targets q = some q1 ∧ exec (.rowp a) s = .next ((s.setCore c q1).issued c k w')
            ∧ w'.taken = w.taken ++ targets.map (fun (t : Nat × Nat) => Taken.credit t.1 t.2 n) ∧ w'.acts = w.acts ++ [.rowp ps] ∧ w'.v = w.v ∧ w'.k = w.k
            ∧ ps.map (fun p : RowPacket => (p.dst, p.rin)) = targets
            ∧ ∀ p ∈ ps, p.src = c ∧ p.ch = a.fch ∧ p.tile = a.unit ∧ p.graph = w.graph ∧ p.poison = false
                ∧ p.arow = bits (x.rd 0 1 a.sc) 0 5 ∧ p.seq = bits (x.rd 0 1 a.sc) 16 16 ∧ p.stop = bits (x.rd 0 1 a.sc) 5 3)
      ∧ (bits (w.uni (Sel.kIndex a.sa + 2)) 16 16 = 0 → q.tooShallow (Ty.isSix ch.ty) targets = false →
          s.engineEntries c < 64 → (∀ f, s.frame? c (w.frameOf 0) = some f → f.infl.e < 65535) →
          ∃ s1 y, s.reserveEngine c w .e = some (s1, y) ∧ exec (.rows a) s = .next (s1.issued c k { w with
            taken := w.taken ++ [.engine y]
            acts := w.acts ++ [.engine { s.blankCmd w .rows y (w.descriptor (Sel.kIndex a.sa)) with
              flags := a.flags, tile := a.unit, chan := a.fch, targets := quad, total := bits (w.uni (Sel.kIndex a.sa + 2)) 0 16 }] })))

/-- MXCFG reserves the row engine for its graph where no other graph holds it and none waits before it, and BLDQ reads
its quarters' data, and their scales, or the blocks of coded data, at issue, leaves them for the commit, and ends the
charges that it kept while the reads were under way: one for each line read, on that line's path, each counted once,
however often the warp tries (R13, R239, R241, R243). That the charges last until the reads are over is the model's
choice (log entry 97); which channel a quarter is loaded under is the reading of entry 41, that BLDQ reads in one
piece that of entry 36, and one decode error for each cf8 block is the choice of entry 84. -/
def Obligations.RowConfigurationAndQuarters : Prop :=
  ∀ (s : State) (c k : Nat) (w : Warp), State.InTurn s c k w → ∀ a : FmtX,
    let x := s.view c w
    let q := s.core c
    let words := w.descriptor (Sel.kIndex a.sa)
    ((q.row.freeFor w.graph = true ∧ (q.row.owner = some w.graph ∨ q.row.resv = some w.graph ∨ (s.rowWaiters c).headD w.graph = w.graph)) →
      (∀ v ∈ words, bits v.toNat 8 15 = 0) →
      (words.map (fun v => v.toNat % 256)).foldl (fun m n => m + n) 0 ≤ bits q.sramPart.toNat 24 8 * 1024 →
      exec (.mxcfg a) s = .next ((s.setCore c { q with row := { q.row with resv := some w.graph, waiters := delSet q.row.waiters w.graph } }).issued
        c k { w with taken := w.taken ++ [.rowEngine], acts := w.acts ++ [.mxcfg words] }))
    ∧ (let ch := q.row.chanFor w a.fch
       let qs := if a.subop = 4 then [0, 1, 2, 3] else [a.subop]
       let addr := x.rd 0 2 a.sa % 2 ^ 56
       let aux := x.rd 0 2 a.sb % 2 ^ 56
       let rd := fun (t : State) (va n : Nat) => t.readNow c w.graph (s.asidOf w) (s.identOf w) true false va n
       let qb := Ty.quarterBytes ch.ty
       let sb := 16 * (Ty.rowK ch.ty / 32)
       let paths := s.rangePaths c (s.asidOf w)
       let main := [(addr, qb * qs.length)]
       let table := [((aux + 4 * x.rd 0 1 a.sc) % 2 ^ 56, 4 * (32 * qs.length + 1))]
       let load := fun (t : State) (v : Warp) (data : Nat → List Byte) (scales : Nat → List Byte) =>
         exec (.bldq a) s = .next ((t.endReads c v).acted c k v.dropKept (.bldq ((qs.zipIdx).map (fun p => (p.1, ⟨data p.2, ch, scales p.2⟩)))))
       s.mayRow c w = true →
       (∀ s0 w0 s1 data, Ty.isCf8 ch.ty = false → s.keepReads c k w (paths main) = some (s0, w0) →
         rd s0 addr (qb * qs.length) = .data s1 data [] →
         (ch.bscaled = false → load s1 w0 (fun i => (data.drop (qb * i)).take qb) (fun _ => []))
         ∧ (∀ s2 w2 s3 scales, ch.bscaled = true →
             s1.keepReads c k w0 (paths main ++ s1.rangePaths c (s1.asidOf w0) [(aux, sb * qs.length)]) = some (s2, w2) →
             rd s2 aux (sb * qs.length) = .data s3 scales [] →
             load s3 w2 (fun i => (data.drop (qb * i)).take qb) (fun i => (scales.drop (sb * i)).take sb)))
       ∧ (∀ s0 w0 s1 tab s2 w2 s3, Ty.isCf8 ch.ty = true → s.keepReads c k w (paths table) = some (s0, w0) →
           rd s0 ((aux + 4 * x.rd 0 1 a.sc) % 2 ^ 56) (4 * (32 * qs.length + 1)) = .data s1 tab [] →
           let blocks := cf8Lengths (cf8Table tab)
           let ranges := (blocks.filter (fun b => cf8Readable b.2)).map (fun b => ((addr + b.1) % 2 ^ 56, b.2))
           s1.keepReads c k w0 (paths table ++ s1.rangePaths c (s1.asidOf w0) ranges) = some (s2, w2) →
           (readBlocks rd addr blocks s2).1 = .data s3 [] [] →
           let r := (readBlocks rd addr blocks s1).2
           load (s3.count c 0x041 3 r.2) w2 (cf8Quarter r.1) (fun _ => []))
       ∧ (∀ ps, w.keptAll.length = List.length ps → s.keepReads c k w ps = some (s.setWarp c k w, w))
       ∧ (∀ p ps s1 y s2 w2, w.keptAll = [] → s.charge c (w.frameOf 0) p = some (s1, y) → s.keepReads c k w (p :: ps) = some (s2, w2) →
           w2.keptAll.head? = some y ∧ w2.keptAll.length = ps.length + 1)
       ∧ (s.lateAt c (w.frameOf 0) = false → s.endReads c w = s.dischargeAll w.keptAll))

/-- The sparse-unit instructions complete at issue while no other graph holds the row engine: ISCFG, SACCI with one
pair of each lane, and SACCF leave their act for the commit; ISX and NZSCAN an engine command, where one of the 64
entries is free and the activation's counter stands below 65,535 (R13, R251 to R253, R255 to R257, R271). -/
def Obligations.SparseInstructionsIssue : Prop :=
  ∀ (s : State) (c k : Nat) (w : Warp), State.InTurn s c k w → (s.core c).row.freeFor w.graph = true → ∀ a : FmtX,
    let x := s.view c w
    let cfg := x.rd 0 1 a.sa
    let reply := x.rd 0 1 a.sb
    let d := w.descriptor (Sel.kIndex a.sa)
    (bitOf cfg 1 = false → bits cfg 7 9 = 0 → bits reply 20 12 = 0 →
      exec (.iscfg a) s = .next (s.acted c k w (.iscfg a.unit (BitVec.ofNat 32 cfg) (BitVec.ofNat 32 reply))))
    ∧ exec (.sacci a) s = .next (s.acted c k w (.sacci a.unit (w.lanes.map (fun l =>
        (BitVec.ofNat 32 (x.rd l 1 a.sa), BitVec.ofNat 32 (x.rd l 1 a.sb))))))
    ∧ exec (.saccf a) s = .next (s.acted c k w (.saccf a.unit (x.rd 0 2 a.sa) (x.rd 0 2 a.sb) (BitVec.ofNat 32 (x.rd 0 1 a.sc)) a.flags))
    ∧ (s.engineEntries c < 64 → (∀ f, s.frame? c (w.frameOf 0) = some f → f.infl.e < 65535) →
        ∃ s1 y, s.reserveEngine c w .e = some (s1, y) ∧ (badIsx d = false → exec (.isx a) s = .next (s1.issued c k { w with
          taken := w.taken ++ [.engine y]
          acts := w.acts ++ [.engine { s.blankCmd w .isx y d with unit := a.unit, total := descWord d 4 }] }))
        ∧ (badNzscan d (x.rd 0 1 a.sb) = false → exec (.nzscan a) s = .next (s1.issued c k { w with
          taken := w.taken ++ [.engine y]
          acts := w.acts ++ [.engine { s.blankCmd w .nzscan y d with
            unit := a.unit, ctl := BitVec.ofNat 32 (x.rd 0 1 a.sb), total := descWord d 2, rblock := bits (x.rd 0 1 a.sb) 8 12
            rslot := bits (x.rd 0 1 a.sb) 0 8, rscope := (match bits a.flags 0 2 with | 1 => .core | 2 => .die | 3 => .package | _ => .auto) }] })))

/-! ### Row 0xA_ -/

/-- An engine command whose descriptor passes its checks, where one of the 64 entries is free and the activation's
counter of its path stands below 65,535, reserves its entry and charges its path at issue, and leaves the command,
with the descriptor's eight words as they stand, for the commit (R13, R271, R293 to R303). -/
def Obligations.EngineCommandsIssue : Prop :=
  ∀ (s : State) (c k : Nat) (w : Warp), State.InTurn s c k w → ∀ a : FmtG, s.engineEntries c < 64 →
    (∀ f, s.frame? c (w.frameOf 0) = some f → f.infl.get a.path < 65535) →
    ∃ (s1 : State) (y : Charge), s.reserveEngine c w a.path = some (s1, y) ∧
    let q := s.core c
    let d := (List.range 8).map (fun i => BitVec.ofNat 32 (w.uni (a.desc + i)))
    let cmd := fun (kind : EngKind) => { s.blankCmd w kind y d with
      flags := a.flags, subop := a.subop, rblock := a.rblock, rslot := a.rslot, rscope := a.rscope, rcomb := a.rcomb }
    let enters := fun (i : Instr) (e : EngCmd) =>
      exec i s = .next (s1.issued c k { w with taken := w.taken ++ [.engine y], acts := w.acts ++ [.engine e] })
    let buffer := fun (lo hi : Int) => q.badBuffer a.flags lo hi = false
    ((dword d 5 = 0 ∧ dword d 6 = 0 ∧ dword d 7 = 0) → buffer (dpair d 0) ((dpair d 0 + dword d 4 : Nat) : Int) →
        s.badDest c w (a.flags % 4) (dpair d 2) (dword d 4) = none →
        enters (.cpy a) { cmd .cpy with total := if a.flags % 4 = 2 then dword d 4 / 4 else ceilDiv (dword d 4) 128 })
    ∧ (let bpr := dword d 4 % 2 ^ 24
       let rows := dword d 5 % 2 ^ 24
       let span := rowSpan (dpair d 0 : Int) (toSigned 32 (dword d 6)) rows bpr
       bits (dword d 4) 24 8 = 0 → bits (dword d 5) 24 8 = 0 → buffer span.1 span.2 →
       (a.flags % 4 = 1 → ∀ r, r < rows → inWindows q w.graph (s.asidOf w) 17
          (wrapTo 56 ((dpair d 2 : Int) + (r : Int) * toSigned 32 (dword d 7))) bpr = true) →
       enters (.cpy2d a) { cmd .cpy2d with total := rows * ceilDiv bpr 128 })
    ∧ (s.badCpyb c d = false → enters (.cpyb a) { cmd .cpyb with total := ceilDiv (dword d 5) 128 })
    ∧ (s.badIndexed c w d = false → (a.flags % 4 = 2 → elemSize d = 4) →
        s.badDest c w (a.flags % 4) (dpair d 4) (dword d 6 * elemSize d) = none → enters (.gath a) { cmd .gath with total := dword d 6 })
    ∧ (s.badIndexed c w d = false → buffer (dpair d 2) ((dpair d 2 + dword d 6 * elemSize d : Nat) : Int) →
        enters (.scat a) { cmd .scat with total := dword d 6 })
    ∧ enters (.strm a) { cmd .strm with total := (streamDims d).foldl (fun m n => m * n) 1, run := bitOf a.flags 4 }
    ∧ enters (.strmgo a) (cmd .strmgo)
    ∧ ((a.flags % 2 = 1 → ∀ n t, q.targetStream w.graph (a.subop % 2) q.nextEng = some (n, t) → EngCmd.strmSize t ≠ 8) →
        enters (.strmx a) { cmd .strmx with values := w.lanes.map (fun l => BitVec.ofNat 64
          (w.reg l (a.flags % 64) + (if a.flags % 2 = 0 then 2 ^ 32 * w.reg l (a.flags % 64 + 1) else 0))) })
    ∧ (∀ g me, Map.find? s.exchange (a.flags % 256) = some g → g.indexOf s.chipId = some me → (∀ i, 2 ≤ i → i < 8 → dword d i = 0) →
        enters (.dpost a) (cmd .dpost))
    ∧ enters (.dxch a) (cmd .dxch) ∧ enters (.dxq a) (cmd .dxq)

/-! ### Rows 0xB_ and 0xF_ -/

/-- The reading instructions give every lane of the warp the same value: a histogram bin of the warp's own channel, a
counter, a system register, the draw of lane 0, a word of a die's state; and a read of CORE.SYSWR_STATUS clears it
(R143, R145 to R149, R333, R336, R340, R346, R355). The instructions of rows 0xB_ and 0xF_ that act at commit leave
one act with the values that they read at issue; a check that fails at issue is an instance fault with code 0x02
(R336, R339, R341 to R345, R347 to R354, R356). -/
def Obligations.SystemInstructionsIssue : Prop :=
  (∀ (s : State) (c k : Nat) (w : Warp), State.InTurn s c k w → ∀ a : FmtS,
     let gives := fun (i : Instr) (n v : Nat) => exec i s = .next (s.issued c k (w.write w.lanes a.opnd n (fun _ => v)))
     let h := Map.getD (s.core c).hists (a.sysn % 8) Hist.reset
     gives (.hread a) 1 (if h.valid = true ∧ h.graph = w.graph then Map.getD h.bins (a.imm % 64) 0 else 0)
     ∧ gives (.srdraw a) 1 ((s.view c w).draw 0 (a.imm % 256))
     ∧ gives (.ctrd a) (if ctrWide a.sysn then 2 else 1) (s.counterRead c w.graph a.sysn a.imm)
     ∧ gives (.sysrd a) (if a.sysn = 0x804 then 2 else 1) (s.sysRead c (s.asidOf w) a.sysn)
     ∧ gives (.dieq a) 1 (s.dieRead (a.sysn % 32) (a.imm % 4) (bits a.imm 2 4))
     ∧ exec (.syswrStatusRead a) s = .next ((s.setCore c { s.core c with syswrStatus := 0 }).issued c k
         (w.write w.lanes a.opnd 1 (fun _ => (s.core c).syswrStatus.toNat))))
  ∧ (∀ (s : State) (c k : Nat) (w : Warp), State.InTurn s c k w → ∀ a : FmtS,
     let x := s.view c w
     let d := (List.range 8).map (fun i => BitVec.ofNat 32 (w.uni (Sel.kIndex a.opnd + i)))
     let h := Map.getD (s.core c).hists (a.sysn % 8) Hist.reset
     let v := if a.opnd.isZero then a.imm else x.rd 0 1 a.opnd
     let leaves := fun (i : Instr) (t : AtCommit) => exec i s = .next (s.acted c k w t)
     let when := fun (ok : Prop) (i : Instr) (t : AtCommit) =>
       (ok → exec i s = .next (s.acted c k w t)) ∧ (¬ ok → exec i s = .next (s.takeFault c k w [⟨0, 0x02, 0⟩]))
     when (a.imm % 4 ≠ 3 ∧ (h.valid = false ∨ h.graph = w.graph)) (.hbind a) (.hbind (a.sysn % 8) (a.imm % 4))
     ∧ when (x.rd 0 2 a.opnd % 65536 = 0 ∧ x.rd 0 2 a.opnd < 2 ^ 56) (.tron a) (.tron (x.rd 0 2 a.opnd) (a.imm % 65536))
     ∧ when (launchOk d = true) (.launch a) (.launch d a.imm)
     ∧ when (bits (descWord d 0) 12 8 < 8 ∨ bits (descWord d 0) 12 8 = 0xFF) (.dirfl a) (.dirfl d a.imm)
     ∧ leaves (.hbindRelease a) (.hbindRelease (a.sysn % 8)) ∧ leaves (.hclr a) (.hclr (a.sysn % 256)) ∧ leaves (.troff a) .troff
     ∧ leaves (.trmark a) (.trmark (a.imm % 65536) (BitVec.ofNat 32 (x.rd 0 1 a.opnd)))
     ∧ leaves (.srseed a) (.srseed (BitVec.ofNat 64 (x.rd 0 2 a.opnd)))
     ∧ leaves (.syswr a) (.syswr a.sysn (BitVec.ofNat 32 v)) ∧ leaves (.sramPartWrite a) (.syswr 1 (BitVec.ofNat 32 v))
     ∧ leaves (.gload a) (.gload d a.imm) ∧ leaves (.gunld a) (.gunld (x.rd 0 1 a.opnd % 256) a.imm)
     ∧ leaves (.tgen a) (.tgen (x.rd 0 1 a.opnd % 4096) a.imm) ∧ leaves (.preempt a) (.preempt (x.rd 0 1 a.opnd % 256) a.imm)
     ∧ leaves (.resume a) (.resume (x.rd 0 1 a.opnd % 256) a.imm) ∧ leaves (.tretReplay a) (.tret 0 d a.imm)
     ∧ leaves (.tretPoison a) (.tret 1 d a.imm) ∧ leaves (.tretRaiseMark a) (.tret 2 d a.imm) ∧ leaves (.tretAnswer a) (.tret 3 d a.imm)
     ∧ leaves (.jrnl a) (.jrnl (a.imm % 65536) (BitVec.ofNat 64 (x.rd 0 2 a.opnd))))

/-- No instruction of the opcode map changes memory, the caches' versions or the poison of memory as it issues,
whatever its operands: what it stores waits in the commit buffer (R31, R33, R210, R336). -/
def Obligations.IssueLeavesMemory : Prop :=
  ∀ (i : Instr) (s t : State) (c k : Nat) (w : Warp) (word : Nat), encode i = some word → State.InTurn s c k w → exec i s = .next t →
    t.mem = s.mem ∧ t.poison = s.poison ∧ t.versions = s.versions ∧ ∀ a, memRead t.mem a = memRead s.mem a

/-- The instructions that read and write only their warp's registers, and those that only add to what their warp will
commit, change nothing else: no other warp, no frame, no table, no memory (R29, R30, R33, R142). -/
def Obligations.RegisterFormsTouchTheirWarpOnly : Prop :=
  (∀ a : FmtA, ∀ i ∈ [Instr.iadd a, .isub a, .imul a, .imulh a, .imad a, .imadw a, .iaddc a, .isubb a, .imin a, .imax a, .iabs a,
      .ineg a, .isad a, .idot4 a, .idot2 a, .lea a, .and a, .or a, .xor a, .andn a, .not a, .shl a, .shr a, .shra a, .rotl a, .funnel a,
      .popc a, .clz a, .ctz a, .brev a, .bfx a, .bfi a, .sel a, .mov a, .movp a, .bytsel a, .movk a, .fptr a, .fpsplit a, .fadd a,
      .fsub a, .fmul a, .ffma a, .fmin a, .fmax a, .fclass a, .fscale a, .fdot2 a, .pkfma a, .pkadd a, .pkmul a, .frcp a, .frsq a,
      .fsqrt a, .fexp2 a, .flog2 a, .fsin a, .fcos a, .ftanh a], TouchesWarpOnly i)
  ∧ (∀ a : FmtI, ∀ i ∈ [Instr.iaddi a, .imuli a, .andi a, .ori a, .xori a, .shli a, .shri a, .shrai a, .movi a, .movki a, .leai a],
      TouchesWarpOnly i)
  ∧ (∀ a : FmtCvt, ∀ i ∈ [Instr.cnvi a, .fcvt a, .f2i a, .i2f a, .mxpack a, .mxunpk a], TouchesWarpOnly i)
  ∧ (∀ a : FmtCmp, TouchesWarpOnly (.icmp a) ∧ TouchesWarpOnly (.fcmp a))
  ∧ (∀ a, TouchesWarpOnly (.icmpi a)) ∧ (∀ a, TouchesWarpOnly (.plop a)) ∧ (∀ a, TouchesWarpOnly (.lanex a))
  ∧ (∀ a, TouchesWarpOnly (.poll a)) ∧ (∀ a, TouchesWarpOnly (.peers a)) ∧ (∀ a, TouchesWarpOnly (.fredw a))
  ∧ (∀ a : FmtM, ∀ i ∈ [Instr.stg a, .stl a, .stp a, .swb a, .sinv a, .putf a, .sete a, .fence a, .rounda a], TouchesWarpOnly i)
  ∧ (∀ a, TouchesWarpOnly (.atom a)) ∧ (∀ a, TouchesWarpOnly (.join a) ∧ TouchesWarpOnly (.gate a))
  ∧ (∀ a : FmtS, ∀ i ∈ [Instr.trap a, .brk a, .nop a, .done a, .hread a, .srdraw a, .ctrd a, .sysrd a, .dieq a, .hbindRelease a, .hclr a,
      .troff a, .trmark a, .srseed a, .syswr a, .sramPartWrite a, .gload a, .gunld a, .tgen a, .preempt a, .resume a, .tretReplay a,
      .tretPoison a, .tretRaiseMark a, .tretAnswer a, .jrnl a], TouchesWarpOnly i)

/-! ### Device steps: memory -/

/-- A request at its home on this chip, or one that has come from another chip, that has left its core's injection
queue, over boundaries that are up, with its page in the home's TLB, its checks passed and nothing before it, performs
at its physical address: a store writes its bytes there (but for bytes that only the device writes, which keep what
they hold, also where a stash line is written back), an atomic its new value unless the word is poisoned or the
operation writes none, PUTF its eight bytes; nothing else changes memory (R7, R125, R206 to R208, R214, R219, R223 to
R226). The order of checks and the copies patched are the readings of log entries 27 and 29, and which bytes only the
device writes that of entry 92. -/
def Obligations.HomeAccessPerforms : Prop :=
  ∀ (s : State) (n : Nat) (r : Req) (e : TlbEntry),
    Map.find? s.reqs n = some r → (r.state = .moving ∨ r.state = .port) → r.fresh = false → s.behind n r = false → s.inQueue n r = false →
    s.pathUp (s.reqDirs r) = true → ((s.reqHome r).1 = s.chipId ∨ r.back.isSome = true) → ReqKind.isRound r.kind = false →
    s.replayHolds (s.reqHome r).2 n r = false →
    (r.hw = true ∨ s.recallFor (dieOf r.core) (s.reqHome r).2 r.asid (lineOf r.va) = none) →
    s.aboveMark r.graph r.asid r.va r.size r.priv = false → s.tlbHit (8 + (s.reqHome r).2) r.asid r.va = some e →
    s.faultOf (s.reqHome r).2 r.markGraph r.asid r.ident r.va r.size r.kind.want (some e.leaf) r.priv = none → s.parkedBefore n r = false →
    let st := (s.reqHome r).2
    let pa := st * 2 ^ 36 + localAddr r.va e.leaf (s.region (8 + st) r.asid r.va).2.pinned
    ∃ t, exec (.homeAccess n) s = .next t ∧ t = (s.tlbUse st e).performReq n { r with fresh := false } st pa
      ∧ t.mem = (match r.kind with
          | .store data _ => memWrites s.mem pa (s.writable r pa data)
          | .atomic k ws => if s.poisoned pa r.size then s.mem else
              (match (atomAct k r.size (memNat s.mem pa r.size) (operandNat ws)).1 with
                | none => s.mem
                | some v => memWrites s.mem pa (s.writable r pa (toBytes r.size v)))
          | .full .putf d => memWrites s.mem pa (s.writable r pa (toBytes 8 d.toNat))
          | _ => s.mem)
      ∧ (((r.hw = true ∧ r.wb = false) ∨ ∀ i, i < r.size → s.deviceByte r.asid ((r.va + i) % 2 ^ 56) = false) →
          ∀ data bad, r.kind = .store data bad → data.length ≤ r.size → s.writable r pa data = data)
      ∧ ((r.hw = false ∨ r.wb = true) → s.byLogEngine r = false → ∀ (data : List Byte) (i : Nat), i < data.length → i < r.size →
          s.deviceByte r.asid ((r.va + i) % 2 ^ 56) = true → (s.writable r pa data)[i]? = (memReads s.mem pa data.length)[i]?)

/-- A round request at its home, that has left its core's injection queue, over boundaries that are up: ROUNDA of a kind
1 region raises the home round by one modulo 2^32 and sends it to the views of its scope, and waits for them; one that
has come from another chip answers the new round there; in a region that is not of kind 1 it parks with code 0x02, and
the round stays. ROUNDV answers the home round in four bytes, 0 where the region is no kind 1 region (R134, R207, R213,
R229, R230, R315). That a round request is not translated is the reading
of log entry 31. -/
def Obligations.RoundRequestsPerform : Prop :=
  ∀ (s : State) (n : Nat) (r : Req), Map.find? s.reqs n = some r → (r.state = .moving ∨ r.state = .port) → s.behind n r = false →
    s.inQueue n r = false →
    s.pathUp (s.reqDirs r) = true → ((s.reqHome r).1 = s.chipId ∨ r.back.isSome = true) → s.replayHolds (s.reqHome r).2 n r = false →
    let st := (s.reqHome r).2
    let q := s.region (8 + st) r.asid r.va
    let old := Map.getD (s.die (8 + st)).rounds (regionKey r.asid q.1) 0
    (∀ sc, r.kind = .rounda sc → q.2.kind = 1 → r.back = none → ∃ t, exec (.homeAccess n) s = .next t
      ∧ Map.find? (t.die (8 + st)).rounds (regionKey r.asid q.1) = some ((old + 1) % 2 ^ 32)
      ∧ t.views = s.views ++ (roundDies sc (dieOf r.core)).map (fun d => ViewMsg.mk d r.asid q.1 ((old + 1) % 2 ^ 32))
      ∧ t.roundWaits = s.roundWaits ++ [RoundWait.mk n r.group r.asid q.1 ((old + 1) % 2 ^ 32) (roundDies sc (dieOf r.core)) r.charge]
      ∧ t.mem = s.mem)
    ∧ (∀ sc, r.kind = .rounda sc → q.2.kind = 1 → r.back.isSome = true → exec (.homeAccess n) s = .next
        (((s.setDie (8 + st) { s.die (8 + st) with rounds := Map.put (s.die (8 + st)).rounds (regionKey r.asid q.1) ((old + 1) % 2 ^ 32) }).answer
          st r (toBytes 4 ((old + 1) % 2 ^ 32)) [] false).endReq n st r))
    ∧ (∀ sc, r.kind = .rounda sc → q.2.kind ≠ 1 → r.warp = none → r.sync = false → s.unloaded r = false →
        exec (.homeAccess n) s = .next (s.park n r st 0x02 none)
        ∧ ((s.park n r st 0x02 none).die (8 + st)).rounds = (s.die (8 + st)).rounds)
    ∧ (r.kind = .roundv → exec (.homeAccess n) s =
        .next ((s.answer st r (toBytes 4 (if q.2.kind = 1 then old else 0)) [] false).endReq n st r))

/-- What comes back from memory: a page walk's leaf of the current generation enters the TLB of its stack and serves
the requests that waited, where their answers have a way back; one of an older generation enters nothing and serves
only its own request; a load with all its bytes writes its registers, the least significant word first, and its
charges end, and one that read poison aborts its warp, on a halted die only after the release; an ended access lowers
its activation's counter; over boundaries that are up, a fill behind no other of its line takes the place of the die's
copies of the line: one of current tags and stamp enters the cache and the remote-data cache, one whose tags or stamp
have grown stale enters neither; a round raises a view; a ROUNDA ends once every view of its scope has it and its way
back is up; a sweep leaves no copy of its region (R13, R14, R33, R126, R198, R200 to R202, R212, R229, R318, R319,
R364). That the warp of a halted die waits with its poison for the release is the reading of log entry 71 (R364). The
places in the TLB and the remote-data cache are the model's (log entry 30), and only membership is claimed; that a
fill's stamp is tested on arrival and that a view sweeps at once are the choices of entry 86. -/
def Obligations.MemoryRepliesReturn : Prop :=
  ∀ s : State,
    (∀ d w, (s.die d).walks = [w] →
      let s1 := s.setDie d { s.die d with walks := [] }
      (∀ l, s.walk w.asid w.va = some l → w.tgen = s.tgenOf d w.asid → exec (.pageWalkComplete d 0) s =
        .next ((w.reqs.filter (s.walker true)).foldl (fun a n => a.wake n (fun b r =>
            if b.pathUp (b.reqDirs r) then b.finishReq n r (d - 8) (some l) else { b with reqs := Map.put b.reqs n r }))
          (s1.tlbPut (d - 8) w.asid w.va l)))
      ∧ (∀ n r, w.tgen ≠ s.tgenOf d w.asid → w.reqs = [n] → Map.find? s.reqs n = some r → r.state = .walking →
          s.pathUp (s.reqDirs { r with state := .moving }) = true →
          exec (.pageWalkComplete d 0) s = .next (s1.finishReq n { r with state := .moving } (d - 8) (s.walk w.asid w.va))))
    ∧ (∀ c k n w l, s.warp? c k = some w → w.loads[n]? = some l → l.bytes.all Option.isSome = true →
        (∀ x ∈ l.charges, s.lateAt (fpCore x.fp) (fpIndex x.fp) = false) →
        (l.poison = false → exec (.loadReturn c k n) s = .next ((s.setWarp c k ({ w with loads := dropNth w.loads n }.setRegs l.lane l.reg l.words
          (ofBytes (l.bytes.map (fun b : Option Byte => b.getD 0))))).dischargeAll l.charges))
        ∧ (l.poison = true → s.halted (dieOf c) = false → exec (.loadReturn c k n) s = .next (s.takeFault c k w [⟨l.lane, 0x04, l.addr⟩]))
        ∧ (l.poison = true → s.halted (dieOf c) = true → exec (.loadReturn c k n) s = .next s))
    ∧ (∀ n x, s.decrs[n]? = some x → s.lateAt (fpCore x.fp) (fpIndex x.fp) = false →
        exec (.inFlightDecrement n) s = .next (State.discharge { s with decrs := dropNth s.decrs n } x)
        ∧ (∀ f, s.frame? (fpCore x.fp) (fpIndex x.fp) = some f → f.serial = x.serial → f.resident = true → f.chain = [] →
            (∀ e ∈ f.entries, e.state ≠ .matching) → exec (.inFlightDecrement n) s = .next (State.setFrame { s with
              decrs := dropNth s.decrs n } (fpCore x.fp) (fpIndex x.fp) { f with infl := f.infl.set x.path (f.infl.get x.path - 1) })))
    ∧ (∀ n f, s.fills[n]? = some f → s.pathUp (s.fillDirs f) = true →
        (∀ j g, j < n → s.fills[j]? = some g → g.die = f.die → g.line.asid = f.line.asid → g.line.line ≠ f.line.line) →
        let current := f.line.rgen = (s.die f.die).gen f.line.asid f.line.region ∧ f.line.tgen = s.tgenOf f.die f.line.asid
          ∧ f.line.stamp = (s.die f.die).view f.line.asid f.line.region % 256
        let s1 := (State.countFlits { s with fills := dropNth s.fills n } (s.fillDirs f) 128).dropCopies f.die f.line.asid f.line.line
        let s2 := if f.hint = .noAlloc then s1 else s1.installLine f.die f.line
        (current → exec (.cacheFillArrival n) s = .next (if f.toRdc && !((s2.die f.die).rdcBusy.any (fun w =>
          w.asid == f.line.asid && w.region == f.line.region)) then s2.installRdc f.die f.line else s2))
        ∧ (¬ current → exec (.cacheFillArrival n) s = .next s1))
    ∧ (∀ n v, s.views[n]? = some v → s.pathUp (s.viewDirs v) = true → exec (.roundViewUpdate n) s =
        .next (State.setDie (State.countFlits { s with views := dropNth s.views n } (s.viewDirs v) 16) v.die ((s.die v.die).raiseView v.asid v.region v.round)))
    ∧ (∀ n w r, s.roundWaits[n]? = some w → (∀ d ∈ w.dies, ahead w.round ((s.die d).view w.asid w.region) = false) →
        Map.find? s.reqs w.req = some r → s.pathUp (s.reqDirs r) = true →
        exec (.roundaComplete n) s = .next ((State.later { s with roundWaits := dropNth s.roundWaits n } w.charge).endReq w.req 0 r))
    ∧ (∀ d n w, (s.die d).sweeps[n]? = some w → exec (.genWrapSweep d n) s = .next (s.setDie d { s.die d with
        sweeps := dropNth (s.die d).sweeps n
        lines := (s.die d).lines.filter (fun l => l.home || l.asid != w.asid || l.region != w.region) }))
    ∧ (∀ d n w, (s.die d).rdcBusy[n]? = some w → exec (.rdcSweepWalker d n) s = .next (s.setDie d { s.die d with
        rdcBusy := dropNth (s.die d).rdcBusy n
        rdc := (s.die d).rdc.filter (fun l => l.asid != w.asid || l.region != w.region) }))

/-- The ownership of lines: a stash line that its core may hold is filled from memory, present in every word, its
die's directory names the core, and those that waited for it are counted no more; a recalled line is written back and
leaves its stash and its entry; a request of a live incarnation that is the first for its line takes the entry where
its set has room and its translation can be made, unless its die drains, and where its set is full the oldest way is
recalled; its grant, and a recall, cross boundaries that are up, and with its grant the requester owns the line, its
copy replaced where the data came with it (R203 to R205, R320, R327, R367, R392). Which
accesses recall a line is the reading of log entry 32, and a fill from another chip is that of entry 88. -/
def Obligations.LineOwnershipMoves : Prop :=
  ∀ s : State,
    (∀ c p x s2, s.stashFills = [p] → p.1 = c → p.2.fault = none → s.homeOf (dieOf c) p.2.asid (p.2.line * 128) = (s.chipId, dieOf c) →
      s.pathUp (s.trip (dieOf c) (8 + dieOf c)) = true → (s.die (dieOf c)).dieDir = [] → s.reqs = [] → (s.die (8 + dieOf c)).owners = [] → Map.find? (s.core c).stash p.2.index = none →
      s.translate (dieOf c) p.2.asid (p.2.line * 128) = some (s2, some x) →
      s.faultOf (dieOf c) p.2.graph p.2.asid (match s.graph? p.2.graph with | some y => y.identity | none => 0) (p.2.line * 128) 128
        ⟨true, false, none, false⟩ (some x) = none →
      let pa := s.physOf (dieOf c) p.2.asid (p.2.line * 128) x
      ∃ t, exec (.stashFill c 0) s = .next t ∧ t.stashFills = [] ∧ t.mem = s.mem ∧ t.decrs = s.decrs ++ p.2.waiters.map (fun y => y.2.2)
        ∧ Map.find? (t.core c).stash p.2.index = some ⟨p.2.asid, p.2.line, memReads s.mem pa 128, s.poisonIn pa 128, 65535, false, 0, 0⟩
        ∧ Map.find? (t.die (dieOf c)).dieDir (dirKey p.2.asid p.2.line) = some c)
    ∧ (∀ d k r, (s.die d).recalls[k]? = some r → exec (.dieDirectoryRecall d k) s =
        .next ((s.setDie d { s.die d with recalls := dropNth (s.die d).recalls k }).recallFrom d r.asid r.line))
    ∧ (∀ d k o, (s.die d).owners[k]? = some o → o.recalled = true →
        (∀ p ∈ s.owns, p.granted = true → p.die = o.owner → p.asid = o.asid → p.line ≠ o.line) → s.pathUp (s.homeWay d (roundTrip d o.owner)) = true →
        let s1 := (s.countFlits (s.homeWay d (roundTrip d o.owner)) 16).recallFrom o.owner o.asid o.line
        exec (.ownerRecall d k) s = .next (s1.setDie d { s1.die d with
          owners := (s1.die d).owners.filter (fun p => !(p.asid == o.asid && p.line == o.line)) }))
    ∧ (∀ k o, s.owns[k]? = some o → o.granted = false →
        (∀ j p, s.owns[j]? = some p → j ≠ k → p.asid = o.asid → p.line = o.line → k < j ∧ p.granted = false) →
        o.inc = (s.die o.die).incarnation → (s.die o.die).state ≠ .draining →
        let st := (s.homeOf o.die o.asid (o.line * 128)).2
        let x := s.die (8 + st)
        s.pathUp (s.trip o.die (8 + st)) = true → (s.translate st o.asid (o.line * 128)).isSome = true → s.askOwner st o.asid o.line o.die = none → s.askRecall st o.asid o.line = none →
        (x.fullSet o.asid o.line = [] → ∃ t y, exec (.ownershipRequest k) s = .next t ∧ y ∈ (t.die (8 + st)).owners ∧ y.owner = o.die
          ∧ y.asid = o.asid ∧ y.line = o.line ∧ y.inc = o.inc ∧ y.recalled = false ∧ y.granted = s.now ∧ t.mem = s.mem
          ∧ t.owns = setNth s.owns k { o with granted := true, withData := !(o.had && y.version == o.version) })
        ∧ (∀ y ys, x.fullSet o.asid o.line = y :: ys → ∃ z ∈ y :: ys, (∀ v ∈ y :: ys, z.granted ≤ v.granted)
          ∧ exec (.ownershipRequest k) s = .next (s.setDie (8 + st) { x with
              owners := x.owners.map (fun e => if e = z then { e with recalled := true } else e) })))
    ∧ (∀ k o, s.owns[k]? = some o → o.granted = true →
        let dirs := s.homeWay (s.homeDie o.die o.asid o.line) (routeDirs (s.homeDie o.die o.asid o.line) o.die)
        let d := { s.die o.die with owned := insSet (s.die o.die).owned (dirKey o.asid o.line) }
        let s1 := State.countFlits { s with owns := dropNth s.owns k } dirs (if o.withData then 128 else 16)
        s.pathUp dirs = true →
        exec (.upgradeGrant k) s = .next (if o.withData || o.needed then
          s1.setDie o.die { d with lines := d.lines.filter (fun l => l.home || l.asid != o.asid || l.line != o.line) }
          else s1.setDie o.die d))

/-! ### Device steps: tokens and instances -/

/-- The matching unit's turn: while its die runs and it has handled no token in this cycle, a token that nothing holds
back lands at its effective slot, after the acquire of a package release, and ends its charge; one whose place is
taken joins its frame's chain, with a log record where one is free, and else is held by the unit; a stray one is
dropped and counted, as is one that cannot land. The token that waited for a log record is handled the same way.
After a commit the frame's deferred tokens are presented again in chain order, one a cycle, before any other token: one
that is deferred anew keeps its place, any other leaves the chain and its record is free (R14 to R19, R73, R192 to R194,
R364). Log records and their bytes
are the model's (log entries 19 and 20), and that a token whose acquire waits for a sweep lets later ones land is the
choice of entry 99. -/
def Obligations.TokensLand : Prop :=
  ∀ (s : State) (c k : Nat) (src dst : Nat) (t : Token),
    let q := s.core c
    let free := s.halted (dieOf c) = false ∧ (∀ i, q.landed ≠ some (i, s.now)) ∧ q.represent.contains (fpIndex t.fp) = false
      ∧ (∀ j ∈ q.represent, s.presentable c j = false)
    let handled := fun (i : Instr) (s1 : State) =>
      let s2 := s1.address c t
      (s1.landing c t = .stray → exec i s = .next ((s1.stray c t.fp t.block t.iter t.ident).endCharge t))
      ∧ (∀ o, s1.landing c t = .defer o → (q.logFree ≠ [] ∨ q.logTop < Config.logRecords) →
          ∃ s3, (s2.openEntry c (fpIndex t.fp) o).appendChain c (fpIndex t.fp) (fun n => .deferred n t) = some s3
            ∧ exec i s = .next (s3.count c 0x024 0 1))
      ∧ (∀ h e fresh f g, s1.landing c t = .land h e fresh → s2.frame? c (fpIndex t.fp) = some f → s2.graph? f.graph = some g →
          (t.rel = .core ∨ t.rel = .die → exec i s = .next ((s2.landAt c t h e fresh).endCharge t))
          ∧ (t.rel = .auto → s2.sweeping (dieOf c) g.asid t.relWord = false → exec i s = .next ((s2.landAt c t h e fresh).endCharge t))
          ∧ (let a := s2.acquire (dieOf c) g.asid t.relWord
             t.rel = .package → a.sweeping (dieOf c) g.asid t.relWord = false →
              exec i s = .next ((a.landAt c t h e fresh).endCharge t)))
    (free → q.heldToken = none → q.firstOf k = some ⟨src, dst, .token t⟩ →
      let s1 := (s.setCore c { q with matchIn := dropNth q.matchIn k }).markLanded c (fpIndex t.fp)
      (t.bad73 = true → exec (.tokenLand c k) s = .next (s1.count c 0x040 0 1))
      ∧ (t.bad73 = false → handled (.tokenLand c k) s1)
      ∧ (∀ o, t.bad73 = false → s1.landing c t = .defer o → q.logFree = [] → Config.logRecords ≤ q.logTop →
          exec (.tokenLand c k) s = .next (s1.setCore c { s1.core c with heldToken := some ⟨src, dst, .token t⟩ })))
    ∧ (free → q.heldToken = some ⟨src, dst, .token t⟩ →
      handled (.tokenLogWaitResume c) ((s.setCore c { q with heldToken := none }).markLanded c (fpIndex t.fp)))
    ∧ (∀ i, s.halted (dieOf c) = false → (∀ j, q.landed ≠ some (j, s.now)) → q.represent.contains i = true →
        (s.nextDeferred c i = none → exec (.deferredTokenRepresent c i) s = .next (s.setCore c { q with represent := delSet q.represent i }))
        ∧ (∀ n u, s.nextDeferred c i = some (n, u) → s.heldRecord c i n = false →
            let s1 := s.markLanded c i
            (∀ o, s1.landing c u = .defer o → exec (.deferredTokenRepresent c i) s = .next
              (((s1.setCore c { s1.core c with presented := insSet q.presented n }).openEntry c i o).endPass c i))
            ∧ (∀ s2 f, (∀ o, s1.landing c u ≠ .defer o) → s1.handleToken c u false = .done s2 → s2.frame? c i = some f →
                exec (.deferredTokenRepresent c i) s = .next (((s2.setChain c i (swapDeferred n none f.chain)).freeLog c n).endPass c i)))
        ∧ (∀ f n u rest, s.frame? c i = some f → f.chain = .deferred n u :: rest → q.presented = [] → s.nextDeferred c i = some (n, u)))

/-- Where a token's payload goes: at a frame that has the slot, a token that does not combine leaves the low 32 bits
of its payload in its effective slot, which is then present, and no other slot of the frame changes (R15). -/
def Obligations.ALandingWritesItsSlot : Prop :=
  ∀ (s : State) (c : Nat) (t : Token) (h : Header) (e : Option Nat) (fresh : Bool) (f : Frame),
    s.frame? c (fpIndex t.fp) = some f → h.comb = false →
    ∃ f', (s.landAt c t h e fresh).frame? c (fpIndex t.fp) = some f'
      ∧ Map.getD f'.slots (effSlot h t) 0 = BitVec.ofNat 32 t.payload.toNat
      ∧ f'.presence.contains (effSlot h t) = true
      ∧ ∀ n, n ≠ effSlot h t → Map.getD f'.slots n 0 = Map.getD f.slots n 0 ∧ f'.presence.contains n = f.presence.contains n

/-- Ready instances become warps, while the die runs: the first waiting instance of a resident frame is recorded in
its block's carafe, where there is room; timers expire at their cycle; the chosen carafe pours its oldest instances
into a new warp at pc 0, whose k0 to k15 hold the graph's constants, at most one warp a cycle; and 1,024 cycles on a
synchronous resource abort a warp with cause 1 (R14, R22 to R29, R34, R364). -/
def Obligations.InstancesPour : Prop :=
  ∀ (s : State) (c : Nat), s.halted (dieOf c) = false →
    let k := s.core c
    (∀ i j w f x g b n, (s.recordable c).find? (fun w => w.frame == i && w.entry == j) = some w →
        (∀ y ∈ s.recordable c, recordBefore y w = false) → k.landed ≠ some (i, s.now) →
        s.frame? c i = some f → f.entries[j]? = some x → f.resident = true → f.draining = false →
        s.graph? f.graph = some g → g.state = .loaded → s.block? f.graph x.block = some b → k.carafeFor f.graph x.block = some n →
        (Map.getD k.carafes n Carafe.free).recs.length < 256 →
        ∃ t, exec (.recordInstance c i j) s = .next t ∧ t.mem = s.mem
          ∧ (∃ f' x', t.frame? c i = some f' ∧ f'.entries[j]? = some x' ∧ x'.state = .recorded ∧ x'.block = x.block ∧ x'.iter = x.iter)
          ∧ (∃ y r, Map.find? (t.core c).carafes n = some y ∧ r ∈ y.recs ∧ r.frame = i ∧ r.entry = j ∧ r.age = x.readyAt
            ∧ y.recs.length = (Map.getD k.carafes n Carafe.free).recs.length + 1))
    ∧ (∀ n y t, Map.find? k.carafes n = some y → y.timer = some t → t ≤ s.now →
        exec (.brewTimerExpiry c n) s = .next (s.setCore c { k with carafes := Map.put k.carafes n { y with timer := none, expired := true } }))
    ∧ (∀ n y t, Map.find? k.carafes n = some y → y.linger = some t → t ≤ s.now → y.recs = [] →
        exec (.carafeLingerExpiry c n) s = .next (s.setCore c { k with carafes := Map.del k.carafes n }))
    ∧ (∀ g p t, Map.find? k.prios g = some p → p.since = some t → t + 65536 ≤ s.now → k.holdsReady g = true →
        exec (.priorityAging c g) s = .next (s.setCore c { k with prios := Map.put k.prios g ⟨min 3 (p.level + 1), some (t + 65536)⟩ }))
    ∧ (∀ n y t b, Map.find? k.carafes n = some y → y.heldSince = some t → s.block? y.graph y.block = some b →
        t + 4 * brewPeriod b.hdr < s.now → y.recs ≠ [] →
        exec (.agePromotion c n) s = .next (s.setCore c { k with carafes := Map.put k.carafes n { y with promoted := true } }))
    ∧ (∀ n y b p slot g, k.poured ≠ some s.now → s.eligibles c = [(n, y)] → s.block? y.graph y.block = some b →
        k.place (b.hdr.gran + 1) (s.oldestCarafe c [(n, y)] == some n) = some p → k.freeSlotOf p = some slot → s.graph? y.graph = some g →
        ∃ t, exec (.pour c) s = .next t ∧ t.mem = s.mem ∧ (t.core c).poured = some s.now
          ∧ t.warp? c slot = some (newWarp s.next y b g.consts ((y.recs.take (b.hdr.fill + 1)).map (s.instOf c)) s.now)
          ∧ Map.find? (t.core c).carafes n = some (pouredCarafe y (y.recs.drop (b.hdr.fill + 1)) (brewPeriod b.hdr) s.now))
    ∧ (∀ n w t, s.warp? c n = some w → w.stall = some t → w.phase = .issuing → t + 1024 ≤ s.now →
        exec (.syncStallTimeout c n) s = .next (s.abort c n w 1 []) ∧ (s.abort c n w 1 []).warp? c n = none
          ∧ (s.abort c n w 1 []).mem = s.mem)

/-! ### Device steps: commits and frames -/

/-- A warp at its commit point commits; one that sends nothing leaves its slot free, its instances' entries free and
memory as it was, where no token has landed at its frames in this cycle, and behind one it waits; a commit that waited
goes on; what it held back leaves once its writes have performed, and its next group of accesses is sent once those
before it have (R13, R14, R33, R124, R129, R132, R266). Where tokens wait for room is the reading of log entry 26. -/
def Obligations.CommitsRun : Prop :=
  ∀ (s : State) (c k : Nat) (w : Warp), s.warp? c k = some w →
    (s.debugHold.contains (dieOf c) = false → w.phase = .issuing → s.issuedAll w = true → w.brk = none →
      (∀ x ∈ w.stores, x.kind.isStash = false) →
      exec (.commit c k) s = .next ((s.openCommit c k w).runCommit c k))
    ∧ (s.debugHold.contains (dieOf c) = false → w.phase = .issuing → s.issuedAll w = true → w.brk = none → w.stores = [] → w.acts = [] →
        w.emits = [] → (∀ i ∈ w.insts, s.landedNow c i.frame = false) →
        (∀ i ∈ w.insts, ∀ f, s.frame? c i.frame = some f → f.resident = true) → ∃ t, exec (.commit c k) s = .next t ∧ t.warp? c k = none ∧ t.mem = s.mem ∧ t.reqs = s.reqs
          ∧ ∀ i ∈ w.insts, ∀ f, s.frame? c i.frame = some f → i.entry < f.entries.length →
              ∃ f', t.frame? c i.frame = some f' ∧ f'.entries[i.entry]? = some Entry.empty)
    ∧ (∀ acts sends cid, w.phase = .committing acts sends cid → (∃ i ∈ w.insts, s.landedNow c i.frame = true) →
        (∀ v ∈ s.services, v.core ≠ c ∨ v.slot ≠ k) → exec (.commitResume c k) s = .next s)
    ∧ (∀ cid, w.phase = .committing [] [] cid → w.stores = [] → w.acts = [] → (∀ i ∈ w.insts, s.landedNow c i.frame = false) →
        ∃ t, exec (.commitResume c k) s = .next t ∧ t.warp? c k = none ∧ t.mem = s.mem)
    ∧ (∀ cid r n h, Map.find? s.commits cid = some r → r.held[n]? = some h → s.mayLeave cid h = true →
        (h.src < 1000 → (s.core h.src).inject.length < 64) → (∀ y ∈ r.held.take n, y.src = h.src → s.mayLeave cid y = false) →
        exec (.releasedTokenSend cid n) s = .next ((State.release { s with
          commits := Map.put s.commits cid { r with held := dropNth r.held n } } r.graph h.src h.pkt).retireCommit cid))
    ∧ (∀ cid r, Map.find? s.commits cid = some r → r.later ≠ [] →
        s.cores.any (fun q => q.2.warps.any (fun x => match x.2.phase with
          | .committing _ _ y => y == cid && !x.2.stores.isEmpty
          | _ => false)) = false →
        (s.core r.core).stash = [] → (∀ p ∈ s.reqs, p.2.cid ≠ some cid ∧ p.2.wb = false) → (∀ p ∈ r.later, p.2.kind.isStash = false) →
        exec (.fenceGroupAdvance cid) s = .next (((r.later.filter (fun p => p.1 == r.group + 1)).map (fun p => p.2)).foldl
          (fun a q => a.addReq { q with issuedAt := s.now }) { s with commits := Map.put s.commits cid { r with
            group := r.group + 1, later := r.later.filter (fun p => p.1 != r.group + 1) } }))

/-- What single instructions and accesses do at commit: ACCZ leaves +0 and sequence 0 in every row of its tile, SACCI
adds its lanes' pairs' values into the accumulator in lane order, HCLR leaves in the bins of its graph's channels what
was added in its own cycle, HBIND binds a channel that is free, SRSEED sets the seed, FCHBIND and MXSEQ their
settings, SMAP its window once no engine of the graph writes to the stash, TRON its ring's header and TROFF the end of
tracing, LAUNCH enters a launch and JRNL a record, both journaled, TGEN raises a generation, TRET resolves a record;
what replies waits while its counter is saturated. SYSWR of a limit register, of GRAPH.ROUND or of CORE.SRAM_PART (at
once, or pending while a graph has code on the core) writes a value within its limits, unless an event of the same
cycle prevails, and refuses a value outside them (reason 1) and one with a reserved bit set (reason 3), naming the
register; GRAPH.TRAP, which is read-only, has no SYSWR (R146, R147, R149, R220, R242, R246, R247, R255, R335, R339,
R341 to R345, R350, R351, R354, R356). That a reserved bit is refused before a value out of range is the reading of
log entry 45. -/
def Obligations.CommitActsTakeEffect : Prop :=
  ∀ (s : State) (c k cid : Nat) (w : Warp),
    let q := s.core c
    (∀ n, ∃ t, s.actOne c k cid w (.accz n) = .done t ∧ t.mem = s.mem
      ∧ (∀ row col, ((t.core c).row.tile n).elem row col = 0 ∧ ((t.core c).row.tile n).bad row col = false
          ∧ Map.getD ((t.core c).row.tile n).seqs row 0 = 0)
      ∧ ∀ p ∈ (t.core c).row.pool, p.tile ≠ n)
    ∧ (∀ n ps, s.actOne c k cid w (.sacci n ps) = .done (ps.foldl (fun a p =>
        a.insert c ⟨n, p.1.toNat, decodeF .f32 p.2.toNat, false, false⟩) s))
    ∧ (∀ m ch h, Map.find? q.hists ch = some h → ∃ t, s.actOne c k cid w (.hclr m) = .done t
        ∧ Map.find? (t.core c).hists ch = some (if bitOf m ch = true ∧ h.valid = true ∧ h.graph = w.graph then
          { h with bins := if h.addedAt = s.now then h.added else [] } else h))
    ∧ (∀ v x, s.graph? w.graph = some x → s.actOne c k cid w (.srseed v) = .done (s.setGraph w.graph { x with seed := v }))
    ∧ (∀ ch cfg sc, ∃ t, s.actOne c k cid w (.fchbind ch cfg sc) = .done t ∧ Map.getD (t.core c).row.chans ch Chan.reset = boundChan cfg sc)
    ∧ (∀ n f r ctl fl, ∃ t, s.actOne c k cid w (.mxseq n f r ctl fl) = .done t
        ∧ ((t.core c).row.tile n).drain = some ⟨ctl.toNat % 65536, 0, 0,
            ⟨f.toNat, bits r.toNat 8 12, r.toNat % 256, w.iterAt 0, s.identOf w, .auto⟩⟩
        ∧ ∀ row, row < 32 → bitOf fl 0 = true → Map.getD ((t.core c).row.tile n).seqs row 0 = bits ctl.toNat 16 16)
    ∧ (∀ v : Word, bits v.toNat 12 20 = 0 → 1000 ≤ v.toNat → v.toNat ≤ 3800 → s.actOne c k cid w (.syswr 0x801 v) =
        .done (if s.eventNow c 0x801 = true then s else { s with powerCap := v.toNat }))
    ∧ (∀ v : Word, bits v.toNat 16 16 = 0 → v.toNat ≠ 0 → s.actOne c k cid w (.syswr 0x802 v) = .done { s with drainLimit := v.toNat })
    ∧ (∀ v : Word, bits v.toNat 12 20 = 0 → (v.toNat < 1000 ∨ 3800 < v.toNat) → s.actOne c k cid w (.syswr 0x801 v) =
        .done (s.setCore c { q with syswrStatus := BitVec.ofNat 32 (2 ^ 31 + b2n (bitOf q.syswrStatus.toNat 31) * 2 ^ 30 + 1 * 2 ^ 12 + 0x801) }))
    ∧ (∀ v : Word, bits v.toNat 12 20 ≠ 0 → s.actOne c k cid w (.syswr 0x801 v) =
        .done (s.setCore c { q with syswrStatus := BitVec.ofNat 32 (2 ^ 31 + b2n (bitOf q.syswrStatus.toNat 31) * 2 ^ 30 + 3 * 2 ^ 12 + 0x801) }))
    ∧ s.actOne c k cid w (.syswr 0x802 0) =
        .done (s.setCore c { q with syswrStatus := BitVec.ofNat 32 (2 ^ 31 + b2n (bitOf q.syswrStatus.toNat 31) * 2 ^ 30 + 1 * 2 ^ 12 + 0x802) })
    ∧ (∀ v : Word, bits v.toNat 16 16 ≠ 0 → s.actOne c k cid w (.syswr 0x802 v) =
        .done (s.setCore c { q with syswrStatus := BitVec.ofNat 32 (2 ^ 31 + b2n (bitOf q.syswrStatus.toNat 31) * 2 ^ 30 + 3 * 2 ^ 12 + 0x802) }))
    ∧ (∀ (n : Nat) (v : Word), n < 256 → let r := 0x200 + n
        let st := fun (reason : Nat) => BitVec.ofNat 32 (2 ^ 31 + b2n (bitOf q.syswrStatus.toNat 31) * 2 ^ 30 + reason * 2 ^ 12 + r)
        let refused := fun (reason : Nat) => s.setCore c { q with syswrStatus := st reason }
        (v.toNat < 7 → s.eventNow c r = false → ∃ t, s.actOne c k cid w (.syswr r v) = .done t ∧ t.mem = s.mem
          ∧ (∀ c' asid, t.sysRead c' asid r = v.toNat) ∧ ∀ c' asid n', n' < 256 → n' ≠ n → t.sysRead c' asid (0x200 + n') = s.sysRead c' asid (0x200 + n'))
        ∧ (v.toNat < 7 → s.eventNow c r = true → s.actOne c k cid w (.syswr r v) = .done s)
        ∧ (v.toNat = 7 → s.actOne c k cid w (.syswr r v) = .done (refused 1))
        ∧ (8 ≤ v.toNat → s.actOne c k cid w (.syswr r v) = .done (refused 3))
        ∧ ∀ (b : BlockCtx) (a : FmtS), a.sysn = 0x300 + n → (Instr.syswr a).wellFormed b = false)
    ∧ (∀ v : Word, (partOk v.toNat = false → s.actOne c k cid w (.syswr 1 v) =
          .done (s.setCore c { q with syswrStatus := BitVec.ofNat 32 (2 ^ 31 + b2n (bitOf q.syswrStatus.toNat 31) * 2 ^ 30 + 1 * 2 ^ 12 + 1) }))
        ∧ (partOk v.toNat = true → s.eventNow c 1 = false → (∀ g ∈ s.graphs, ∀ i, i < g.2.blocks.length → s.inBlockRects g.1 i c = false) →
            s.actOne c k cid w (.syswr 1 v) = .done (s.setCore c { q with sramPart := v, pendingPart := none }))
        ∧ (partOk v.toNat = true → s.eventNow c 1 = false → (∃ g ∈ s.graphs, ∃ i, i < g.2.blocks.length ∧ s.inBlockRects g.1 i c = true) →
            s.actOne c k cid w (.syswr 1 v) = .done (s.setCore c { q with pendingPart := some v }))
        ∧ (partOk v.toNat = true ↔ 1 ≤ bits v.toNat 0 8 ∧ bits v.toNat 0 8 ≤ 16 ∧ 12 ≤ bits v.toNat 16 8 ∧ 1 ≤ bits v.toNat 24 8
            ∧ bits v.toNat 0 8 + bits v.toNat 8 8 + bits v.toNat 16 8 + bits v.toNat 24 8 = 48))
    ∧ (∀ ch f, let h := Map.getD q.hists ch Hist.reset
        (h.valid = true → h.graph ≠ w.graph → s.actOne c k cid w (.hbind ch f) = .done s ∧ s.actOne c k cid w (.hbindRelease ch) = .done s)
        ∧ (h.valid = false ∨ h.graph = w.graph → ∃ t h1, s.actOne c k cid w (.hbind ch f) = .done t ∧ Map.find? (t.core c).hists ch = some h1
            ∧ h1.valid = true ∧ h1.graph = w.graph ∧ h1.filter = f ∧ h1.bins = (if h.valid then h.bins else []))
        ∧ (h.valid = true → h.graph = w.graph → ∃ t, s.actOne c k cid w (.hbindRelease ch) = .done t ∧ Map.find? (t.core c).hists ch = none))
    ∧ (∀ g asid va n d, (s.stashEngines c g = true → s.stashAct c g asid cid va (.smap n d) = none)
        ∧ (s.stashEngines c g = false → ∃ t, s.stashAct c g asid cid va (.smap n d) = some t ∧ t.mem = s.mem
          ∧ Map.find? (t.core c).windows (g * 16 + n) = (if (windowOfDesc d).lines = 0 then none else some (windowOfDesc d))
          ∧ ∀ x, Map.find? q.windows (g * 16 + n) = some x → ∀ i ∈ x.places, Map.find? (t.core c).stash i = none))
    ∧ (∀ x ad len, s.graph? w.graph = some x →
        let r := s.ctlWrite w.graph x.asid x.identity ad (toBytes 8 64 ++ toBytes 8 64 ++ toBytes 8 (len * 65536) ++ List.replicate 40 0) none
        (∀ s1, r = .busy s1 → s.actOne c k cid w (.tron ad len) = .waits s1)
        ∧ (∀ s1 y, r = .done s1 → s1.graph? w.graph = some y → ∃ t, s.actOne c k cid w (.tron ad len) = .done t ∧ t.mem = s1.mem
            ∧ t.graph? w.graph = some { y with traceRing := ad, tracing := true, troffAt := none })
        ∧ s.actOne c k cid w .troff = .done (s.setGraph w.graph { x with
            tracing := false, troffAt := if x.tracing then some s.now else x.troffAt })
        ∧ ∀ n (v : Word), s.actOne c k cid w (.trmark n v) = .done (if x.tracing = true ∨ x.troffAt = some s.now then
            s.trace c w.graph 5 (n * 2 ^ 32 + v.toNat) else s))
    ∧ (∀ code v, ∃ t r, s.actOne c k cid w (.jrnl code v) = .done t ∧ t.control.seq = s.control.seq + 1 ∧ t.mem = s.mem
        ∧ Map.find? t.control.journal s.control.seq = some r ∧ r.kind = 1 ∧ r.command = code ∧ r.result = v ∧ r.seq = s.control.seq
        ∧ r.state = .completed ∧ r.tAccept = s.now)
    ∧ (∀ d n imm, s.replyCharge c k w = none → ∀ a ∈ [AtCommit.gload d imm, .gunld n imm, .preempt n imm, .resume n imm, .launch d imm,
        .tgen n imm, .dirfl d imm, .tret n d imm], s.actOne c k cid w a = .waits s)
    ∧ (∀ imm s1 x, s.replyCharge c k w = some (s1, x) → let r := s1.sysReplyOf c w imm
        (∀ d, ∃ t l j, s.actOne c k cid w (.launch d imm) = .done t ∧ t.control.seq = s1.control.seq + 1
          ∧ Map.find? t.control.journal s1.control.seq = some j ∧ j.kind = 2 ∧ j.command = descWord d 0 % 256
          ∧ Map.find? t.control.launches s1.control.nextLaunch = some l ∧ l.graph = descWord d 0 % 256 ∧ l.width = descWord d 1
          ∧ l.key = BitVec.ofNat 64 (descPair d 3) ∧ l.host = false ∧ l.queued = true ∧ l.reply = some (r, x)
          ∧ l.prio = (if bitOf (descWord d 2) 2 then bits (descWord d 2) 0 2 else 4)
          ∧ (s1.control.launchQ.length < 64 → s1.control.launchWait = [] → t.control.launchQ = s1.control.launchQ ++ [s1.control.nextLaunch])
          ∧ (64 ≤ s1.control.launchQ.length → t.control.launchWait = s1.control.launchWait ++ [s1.control.nextLaunch]))
        ∧ (∀ asid, Map.find? s1.spaces asid = none → s.actOne c k cid w (.tgen asid imm) =
            .done ((s1.sysAnswer (some cid) r x [0x100]).freeCharge c k))
        ∧ (∀ asid p, Map.find? s1.spaces asid = some p → ∃ t, s.actOne c k cid w (.tgen asid imm) = .done t
            ∧ Map.find? t.spaces asid = some { p with tgen := (p.tgen + 1) % 256 }
            ∧ t.sysReplies = s1.sysReplies ++ [⟨asid, List.range 16, (p.tgen + 1) % 256, r, x, cid⟩])
        ∧ (∀ n d, (∀ y ∈ s1.control.openRecs, y.handle ≠ descPair d 0) →
            s.actOne c k cid w (.tret n d imm) = .done ((s1.freeCharge c k).sysAnswer (some cid) r x [1]))
        ∧ (∀ n d y, s1.control.openRecs.find? (fun z => z.handle == descPair d 0) = some y →
            let core := y.die * 64 + y.core
            let frame := fpIndex y.fp
            let answered := fun (a : State) => Acted.done ((a.freeCharge c k).sysAnswer (some cid) r x [0])
            let open' := { s1 with control := { s1.control with openRecs := s1.control.openRecs.filter (fun z => z.serial != y.serial) } }
            (n < 2 → y.kind = 0 → s1.landedNow core frame = true → s.actOne c k cid w (.tret n d imm) = .waits s1)
            ∧ (n = 0 → y.kind = 0 → s1.landedNow core frame = false → s.actOne c k cid w (.tret n d imm) = answered (open'.resumeHeld core frame y.entry))
            ∧ (n = 1 → y.kind = 0 → s1.landedNow core frame = false → s.actOne c k cid w (.tret n d imm) = answered
                (if y.code = 4 then open'.clearInputs core frame y.entry else open'.poisonHeld core frame y.entry))
            ∧ (n = 0 → y.kind ≠ 0 → s.actOne c k cid w (.tret n d imm) = answered ((open'.replay (open'.parkedOf y)).leaveEntry y))
            ∧ (n = 1 → y.kind ≠ 0 → s.actOne c k cid w (.tret n d imm) = answered
                (((open'.parkedOf y).foldl (fun a i => a.poisonReq y.die i) open').leaveEntry y))
            ∧ (∀ g area, n = 2 → s1.graph? y.graph = some g → area = bits (descWord d 2) 0 2 → y.code = 8 → nthD 0 g.hwm area < descPair d 4 →
                s.actOne c k cid w (.tret n d imm) = answered ((s1.setGraph y.graph { g with hwm := setNth g.hwm area (descPair d 4) }).replayMarked s1 y.graph))
            ∧ (n = 2 → y.code ≠ 8 → s.actOne c k cid w (.tret n d imm) = answered s1)
            ∧ (2 < n → s.actOne c k cid w (.tret n d imm) = answered ((s1.cleanCore c (some cid)).sendReply 18 (some cid) 64
                [{ plainToken y.fp (bits (descWord d 2) 0 12) (bits (descWord d 2) 12 8) y.iter y.ident (descPair d 4) with
                    rel := .package, relWord := RelWord.every }]))))

/-- The life of a frame: it is created at the lowest run of free indices with its header at its reset values, closes
by a free request of its own identity, is released once no instance of it is left, comes into frame memory when it is
wanted and room can be made, lowers its parent's JOIN as it retires, over boundaries that are up; a request of it that
is outstanding for the drain limit drains its activation, whose instances leave their carafes while its frame leaves
frame memory; a task entry asks its core for a frame, over boundaries that are up, and the oldest spilled entry comes
back while 256 places are free, once its write has performed (R11, R36, R37, R39, R191, R270, R288, R361). The trigger
of a bring-in is the reading of log entry 22, the free run is R191's, and which requests count as outstanding is the
reading of entry 51. -/
def Obligations.FramesLive : Prop :=
  ∀ (s : State) (c : Nat),
    let q := s.core c
    (∀ cr rest i, q.creations = cr :: rest → q.freeRun (frameBlocks cr.slotblk) = some i → s.pathUp (cr.answerDirs c) = true →
      ∃ t, exec (.frameCreate c) s = .next t ∧ (t.core c).creations = rest ∧ t.mem = s.mem
        ∧ t.frame? c i = some (newFrame cr s.now (match s.graph? cr.graph with | some g => g.identity | none => 0)
            (decide (q.residentBlocks + frameBlocks cr.slotblk ≤ q.frameRoom))))
    ∧ (∀ i f g, s.frame? c i = some f → f.wants = true → s.graph? f.graph = some g → g.state = .loaded → f.moving = false →
        s.imageBusy c i f = false → s.landedNow c i = false → s.halted (dieOf c) = false →
        (∀ p ∈ q.frames, p.2.wants = true → createdBefore p (i, f) = false) →
        let here := fun (s1 : State) => (s1.setFrame c i { f with resident := true, broughtAt := s.now, drained := [], addressed := false }).count c 0x026 0 1
        (q.residentBlocks + frameBlocks f.slotblk ≤ q.frameRoom → exec (.frameBringIn c i) s = .next (here s))
        ∧ (∀ s1, s.makeRoom c (frameBlocks f.slotblk) 16385 = some s1 → exec (.frameBringIn c i) s = .next (here s1)))
    ∧ (∀ k src dst fp ident f g, q.firstOf k = some ⟨src, dst, .free fp ident⟩ → s.frame? c (fpIndex fp) = some f → s.graph? f.graph = some g →
        s.halted (dieOf c) = false → s.landedNow c (fpIndex fp) = false →
        let s1 := s.setCore c { q with matchIn := dropNth q.matchIn k }
        exec (.freeRequest c k) s = .next (if f.closing = false ∧ g.identity = ident then
          s1.storeFrame c (fpIndex fp) { f with closing := true } else s1.stray c fp 0 0 ident))
    ∧ (∀ i f, s.frame? c i = some f → f.closing = true → f.busy = false → f.moving = false → s.landedNow c i = false →
        ∃ t, exec (.frameRelease c i) s = .next t ∧ t = s.releaseFrame c i f ∧ t.frame? c i = none)
    ∧ (∀ k fp serial src f, s.retires[k]? = some (fp, serial, src) → s.pathUp (routeDirs (dieOf src) (dieOf c)) = true → fpCore fp = c → s.frame? c (fpIndex fp) = some f → f.serial = serial →
        s.lateAt c (fpIndex fp) = false →
        let s1 := State.storeFrame (State.countFlits { s with retires := dropNth s.retires k } (routeDirs (dieOf src) (dieOf c)) 16) c (fpIndex fp) { f with join := f.join - 1 }
        exec (.childRetirement k) s = .next (if f.join = 1 then s1.runWatches c (fpIndex fp) none f.chain else s1))
    ∧ (∀ e rest, q.tasks = e :: rest → e.asked = false → s.pathUp (routeDirs (dieOf (fpCore e.parent)) (dieOf e.target)) = true →
        let s1 := (s.setCore c { q with tasks := { e with asked := true } :: rest }).countFlits (routeDirs (dieOf (fpCore e.parent)) (dieOf e.target)) 16
        exec (.taskDispatch c) s = .next (s1.setCore e.target { s1.core e.target with creations := (s1.core e.target).creations ++
          [{ what := .spawn e.id, graph := e.graph, slotblk := e.slotblk, serial := serialMix e.parentSerial e.ordinal, parent := e.parent,
             depth := e.depth + 1, prio := e.prio, ordinal := e.ordinal, launch := e.launch, tokens := [] }] }))
    ∧ (∀ g x h e b rest, s.spill g c = ⟨h, (e, b) :: rest⟩ → s.graph? g = some x → x.state = .loaded → q.tasks.length + q.taskResv ≤ 256 →
        (∀ p ∈ s.reqs, p.2.hw = true → p.2.core = c → p.2.graph = g → p.2.va ≠ spillAddr x c h) →
        exec (.spillDrain c g) s = .next ((s.setSpill g c ⟨h + 1, rest⟩).setCore c { q with tasks := q.tasks ++ [e] }))
    ∧ (∀ i f o, s.frame? c i = some f → f.drained = [] → s.outstanding c i f = [o] →
        max o.since f.broughtAt + s.drainLimit * Config.cyclesPerUs ≤ s.now → s.halted (dieOf c) = false → s.landedNow c i = false →
        (∀ p ∈ q.warps, ∀ x ∈ p.2.insts, x.frame ≠ i) →
        ∃ g t, (s.withdraw c i o.mark f).frame? c i = some g ∧ exec (.drainLimitExpiry c i) s = .next t
          ∧ t = (s.withdraw c i o.mark f).drained c i g o.mark ∧ ∃ f', t.frame? c i = some f' ∧ f'.resident = false
          ∧ ∀ x ∈ (t.core c).carafes, ∀ r ∈ x.2.recs, r.frame ≠ i)

/-! ### Device steps: engines -/

/-- Engine commands run: the first startable one starts, a gather or scatter after its base die's queue; an element
moves its bytes as they stand: a chunk of CPY, of CPY2D or into an operand buffer, the indexed element of GATH and SCAT
(under a poisoned index poison, or nothing), an entry of ISX in its side's queue, a live element of NZSCAN with its
coordinate word, a DPOST's row to the baristas, a DXCH's array and, at its calendar's end, its status array; the
completion token leaves once every element has performed, and at once where its release stays within the core or no
stash line of the core is on its way home (R137, R253, R257, R271 to R273, R293 to R298, R301, R302).
Streams (R275, R299, R300): a store stream writes the oldest pushed value at its element's address, a load stream
sends its element's bytes, in two tokens for eight bytes, also those under way as its close comes; a closing load
stream sends a null token with stop 7; a store stream that wrote nothing completes at once; STRMGO and STRMX reach a
started target, and are counted without one, STRMX at a load stream with each of its elements: that count is the
model's reading, log entry 107. Reads in one piece, completion sources, buffers and stream corners are the readings of
log entries 36 to 39; what goes to baristas on other chips has the layout of log entry 61. -/
def Obligations.EnginesAndStreamsRun : Prop :=
  (∀ (s : State) (c eid : Nat) (e : EngCmd),
     let q := s.core c
     let atCore := Scope.beyondCore e.rscope = false ∨ (q.stash = [] ∧ ∀ p ∈ s.reqs, p.2.wb = false)
     (Map.find? q.engines eid = some e → e.state = .queued → q.startable e = true → (∀ p ∈ q.engines, p.1 < eid → p.2.state ≠ .queued) →
       let s1 := s.setEngine c eid { e with state := .running, run := if e.kind = .strm then e.run else true }
       (e.kind ∈ [EngKind.cpy, .cpy2d, .strm, .dpost, .dxch, .dxq, .nzscan] → exec (.engineCommandStart c eid) s = .next s1)
       ∧ (e.kind = .gath ∨ e.kind = .scat → let d := s.streamDie c e
           exec (.engineCommandStart c eid) s = .next (s1.setDie d { s.die d with streams := (s.die d).streams ++ [(c, eid)] }))
       ∧ (e.kind = .isx → e.total ≠ 0 → exec (.engineCommandStart c eid) s = .next s1)
       ∧ (e.kind = .isx → e.total = 0 → exec (.engineCommandStart c eid) s = .next ((s1.dropEngine c eid).later (some e.charge)))
       ∧ (e.kind = .cpyb → ∃ t b, exec (.engineCommandStart c eid) s = .next t ∧ Map.find? (t.core c).opbufs (e.word 2) = some b
           ∧ b.first = e.word 3 ∧ b.lines = e.word 4 ∧ b.refill = some eid))
     ∧ (∀ d p rest, (s.die d).streams = p :: rest → (s.die d).streamsOn.length < 16 →
         ∃ t, exec (.indirectStreamStart d) s = .next t ∧ (t.die d).streams = rest ∧ p ∈ (t.die d).streamsOn ∧ t.mem = s.mem)
     ∧ (∀ i, Map.find? q.engines eid = some e → e.state = .running → i < e.total → e.doneE.contains i = false →
         Map.find? e.parts (8 * i + 7) = none →
         (∀ b, (e.kind = .cpy ∨ e.kind = .cpy2d) → bitOf e.flags 11 = true → Map.find? q.opbufs (bits e.flags 12 4) = some b →
           let x := b.read (e.chunk i).src (e.chunk i).n
           exec (.engineElement c eid i) s = .next (s.elemWrite c eid i e (e.flags % 4) (e.pair 2) (e.chunk i).dst x.1 x.2))
         ∧ (∀ s1 data bad, (e.kind = .cpy ∨ e.kind = .cpy2d) → s.elemSource c eid i e (e.chunk i).src (e.chunk i).n = .data s1 data bad →
           exec (.engineElement c eid i) s = .next (s1.elemWrite c eid i e (e.flags % 4) (e.pair 2) (e.chunk i).dst data bad))
         ∧ (∀ s1 data bad, let n := min 128 (e.word 5 - 128 * i)
             e.kind = .cpyb → s.engRead c eid (8 * i + 1) e ((e.pair 0 + 128 * i) % 2 ^ 56) n = .data s1 data bad → data.length = n →
             let old := Map.getD (s1.core c).opbufs (e.word 2) ⟨0, 0, 0, [], [], false, none, []⟩
             ∃ t b f, exec (.engineElement c eid i) s = .next t ∧ Map.find? (t.core c).opbufs (e.word 2) = some b
               ∧ (∀ j, nthD 0 b.data j = if 128 * i ≤ j ∧ j < 128 * i + n then nthD 0 data (j - 128 * i) else nthD 0 old.data j)
               ∧ (∀ j, j < n → (128 * i + j ∈ b.poison ↔ j ∈ bad))
               ∧ Map.find? (t.core c).engines eid = some f ∧ f.doneE.contains i = true)
         ∧ (∀ s1 ib ibad, let iw := if bitOf (e.word 7) 3 then 8 else 4
             let n := 2 ^ bits (e.word 7) 0 3
             let x := ofBytes ib % 2 ^ 56
             s.streaming c eid e = true → s.engRead c eid (8 * i) e ((e.pair 0 + iw * i) % 2 ^ 56) iw = .data s1 ib ibad →
             let k := s1.keepPart c eid (8 * i) e ib ibad
             (e.kind = .gath → let dst := if e.flags % 4 = 2 then i else (e.pair 4 + n * i) % 2 ^ 64
               (ibad = [] → ∀ s2 data bad, k.1.engRead c eid (8 * i + 1) k.2 ((e.pair 2 + x * n) % 2 ^ 56) n = .data s2 data bad →
                 exec (.engineElement c eid i) s = .next (s2.elemWrite c eid i k.2 (e.flags % 4) (e.pair 4) dst data bad))
               ∧ (ibad ≠ [] → let f := { k.2 with poison := true }
                 exec (.engineElement c eid i) s = .next ((k.1.setEngine c eid f).elemWrite c eid i f (e.flags % 4) (e.pair 4) dst
                   (List.replicate n 0) (List.range n))))
             ∧ (e.kind = .scat →
               (ibad = [] → ∀ s2 data bad, k.1.elemSource c eid i k.2 ((e.pair 2 + n * i) % 2 ^ 64) n = .data s2 data bad →
                 exec (.engineElement c eid i) s = .next (s2.elemWrite c eid i k.2 0 0 ((e.pair 4 + x * n) % 2 ^ 64) data bad))
               ∧ (ibad ≠ [] → ∃ t f, exec (.engineElement c eid i) s = .next t ∧ t.mem = s1.mem ∧ t.reqs = s1.reqs
                 ∧ Map.find? (t.core c).engines eid = some f ∧ f.poison = true ∧ f.doneE.contains i = true))))
     ∧ (∀ i s1 cb cbad, Map.find? q.engines eid = some e → e.state = .running → e.kind = .isx → e.next < e.total →
         ((q.row.unit e.unit).side (EngCmd.isxSide e)).queue.length < 64 → q.isxBefore eid e = false →
         s.engRead c eid (8 * e.next) e ((e.pair 0 + 4 * e.next) % 2 ^ 56) 4 = .data s1 cb cbad →
         let x := ofBytes cb
         let queue := fun (a : State) => (((a.core c).row.unit e.unit).side (EngCmd.isxSide e)).queue
         (cbad = [] → bitOf x 31 = true → ∃ t, exec (.engineElement c eid i) s = .next t ∧ queue t =
             queue s1 ++ [⟨some (bits x 0 3), bits x 0 31, decodeF (EngCmd.isxType e) 0, false, false, eid, e.next + 1 == e.total⟩])
         ∧ (cbad ≠ [] ∨ bitOf x 31 = false → ∀ s2 v bad, let vb := (EngCmd.isxType e).width / 8
             let k := s1.keepPart c eid (8 * e.next) e cb cbad
             k.1.engRead c eid (8 * e.next + 1) k.2 ((e.pair 2 + vb * e.next) % 2 ^ 56) vb = .data s2 v bad →
             ∃ t f, exec (.engineElement c eid i) s = .next t ∧ queue t = queue s2 ++
                 [⟨none, bits x 0 31, decodeF (EngCmd.isxType e) (ofBytes v), !cbad.isEmpty, !bad.isEmpty, eid, e.next + 1 == e.total⟩]
               ∧ Map.find? (t.core c).engines eid = some f ∧ f.next = e.next + 1))
     ∧ (∀ i, Map.find? q.engines eid = some e → e.state = .running → e.kind = .nzscan →
         let vb := (EngCmd.nzType e).width / 8
         let ca := (e.pair 4 + 4 * e.lo) % 2 ^ 56
         (∀ s1 b bad, e.next < e.total → s.engRead c eid (8 * e.next) e ((e.pair 0 + vb * e.next) % 2 ^ 56) vb = .data s1 b bad →
           let f := s1.readsDone c eid [8 * e.next] e
           (bad ≠ [] → ∃ t g, exec (.engineElement c eid i) s = .next t ∧ Map.find? (t.core c).engines eid = some g
             ∧ g.state = .closing ∧ g.poison = true ∧ g.lo = f.lo)
           ∧ (bad = [] → isLive (EngCmd.nzType e) (ofBytes b) = false →
               exec (.engineElement c eid i) s = .next (s1.setEngine c eid { f with next := e.next + 1 }))
           ∧ (bad = [] → isLive (EngCmd.nzType e) (ofBytes b) = true →
               let va := (e.pair 6 + vb * e.lo) % 2 ^ 56
               let left := partsOf ca 4 + (if e.pair 6 ≠ 0 then partsOf va vb else 0)
               let s2 := (s1.setEngine c eid { f with next := e.next + 1, lo := e.lo + 1
                                                      parts := Map.put f.parts (8 * e.next + 7) ⟨[], [], true, left⟩ }).elemStore
                 c eid (8 * e.next + 7) f ca (toBytes 4 e.next) false e.cid
               exec (.engineElement c eid i) s = .next (if e.pair 6 ≠ 0 then s2.elemStore c eid (8 * e.next + 7) f va b false e.cid else s2)))
         ∧ (e.total ≤ e.next → bits e.ctl.toNat 20 3 = 0 →
             exec (.engineElement c eid i) s = .next (s.setEngine c eid { e with state := .closing, poison := false }))
         ∧ (e.total ≤ e.next → bits e.ctl.toNat 20 3 ≠ 0 →
             let f := { e with state := .closing, poison := false, parts := Map.put e.parts (8 * e.total + 7) ⟨[], [], true, partsOf ca 4⟩ }
             exec (.engineElement c eid i) s = .next ((s.setEngine c eid f).elemStore c eid (8 * e.total + 7)
               { e with state := .closing, poison := false } ca (toBytes 4 (stopWord (bits e.ctl.toNat 20 3))) false e.cid)))
     ∧ (∀ i g, Map.find? q.engines eid = some e → e.state = .running → Map.find? s.exchange e.exchGroup = some g →
         (∀ me s1 b bad, e.kind = .dpost → e.targets = [] → g.indexOf s.chipId = some me → s.pathUp (s.baristaDirs c g) = true →
           s.engRead c eid 1 e (e.pair 0 % 2 ^ 56) (4 * g.members.length) = .data s1 b bad →
           exec (.engineElement c eid i) s = .next ((s1.setEngine c eid { (s1.readsDone c eid [1] e) with targets := wordsAt b }).toBaristas
             c g (exchMessage 0 e.exchGroup me b)))
         ∧ (e.kind = .dxch → e.cal = none → ∀ x, (g.cals.filter (fun y => y.used.isEmpty))[s.earlierDxch e.exchGroup c eid e]? = some x →
             ∃ t f h, exec (.engineElement c eid i) s = .next t ∧ Map.find? (t.core c).engines eid = some f ∧ f.cal = some x.id
               ∧ f.sent = List.replicate g.members.length 0 ∧ f.recv = f.sent ∧ Map.find? t.exchange e.exchGroup = some h
               ∧ (∀ y ∈ h.cals, y.id = x.id → y.used ≠ []))
         ∧ (∀ n x, e.kind = .dxch → e.cal = some n → g.cal? n = some x →
             (∀ s1 b bad, e.targets = [] → s.engRead c eid 1 e (e.pair 4 % 2 ^ 56) (4 * g.members.length) = .data s1 b bad →
               exec (.engineElement c eid i) s = .next (s1.setEngine c eid { (s1.readsDone c eid [1] e) with targets := wordsAt b }))
             ∧ (e.targets ≠ [] → x.phases ≠ [] → exec (.engineElement c eid i) s = .next s)
             ∧ (e.targets ≠ [] → x.phases = [] → ∃ t f, exec (.engineElement c eid i) s = .next t
                 ∧ Map.find? (t.core c).engines eid = some f ∧ f.state = .closing ∧ f.next = e.residual
                 ∧ ∀ p ∈ lineRun (e.pair 6 % 2 ^ 56) e.status.length (e.status.length / 128 + 2) 0, ∃ r ∈ t.reqs,
                     r.2.va = p.2.1 ∧ r.2.kind = .store ((e.status.drop p.1).take p.2.2) false)))
     ∧ (Map.find? q.engines eid = some e → e.state = .running → (e.kind = .cpy ∨ e.kind = .cpy2d) → e.total ≤ e.doneE.length → atCore →
         exec (.engineCompletion c eid) s = .next ((s.dropEngine c eid).sendToken c (e.completion e.payload)))
     ∧ (Map.find? q.engines eid = some e → e.state = .running → (e.kind = .gath ∨ e.kind = .scat) → e.total ≤ e.doneE.length → atCore →
         exec (.engineCompletion c eid) s = .next (((s.endStream c eid e).dropEngine c eid).sendToken c (e.completion e.payload)))
     ∧ (∀ b, Map.find? q.engines eid = some e → e.state = .running → e.kind = .cpyb → e.total ≤ e.doneE.length → atCore → Map.find? q.opbufs (e.word 2) = some b →
         ∃ t b', exec (.engineCompletion c eid) s = .next t ∧ Map.find? (t.core c).opbufs (e.word 2) = some b' ∧ b'.filled = true
           ∧ b'.len = e.word 5 ∧ b'.data = b.data)
     ∧ (∀ buf, List.find? (fun p => EngCmd.fills p.2 buf && decide (p.2.state = .queued) && !p.2.run) q.engines = some (eid, e) →
         q.waitsOver e = true → exec (.operandsConsumed c buf) s = .next (s.setEngine c eid { e with run := true })))
  ∧ (∀ (s : State) (c n eid : Nat) (e : EngCmd),
     let q := s.core c
     let va := EngCmd.strmAddr e e.next
     let z := EngCmd.strmSize e
     (q.runningStream n = some (eid, e) → e.state = .running → e.run = true → e.next < e.total →
       (∀ v rest, EngCmd.isStoreStream e = true → e.pushes = v :: rest →
         let e1 := { e with pushes := rest, next := e.next + 1, wrote := true, lo := (if e.wrote then min e.lo va else va)
                            hi := (if e.wrote then max e.hi (va + z - 1) else va + z - 1)
                            parts := Map.put e.parts (8 * e.next + 7) ⟨[], [], true, partsOf va z⟩ }
         exec (.streamElement c n) s =
           .next ((s.setEngine c eid e1).elemStore c eid (8 * e.next + 7) e va (toBytes z v.toNat) false none))
       ∧ (∀ s1 data bad, EngCmd.isStoreStream e = false → (e.close = false ∨ (Map.find? e.parts (8 * e.next + 1)).isSome = true) → s.engRead c eid (8 * e.next + 1) e va z = .data s1 data bad →
         let s2 := s1.setEngine c eid { (s1.readsDone c eid [8 * e.next + 1] e) with next := e.next + 1 }
         (z ≠ 8 → exec (.streamElement c n) s = .next (s2.sendToken c (e.strmToken e.rslot (ofBytes data) (!bad.isEmpty))))
         ∧ (z = 8 → exec (.streamElement c n) s = .next ((s2.sendToken c (e.strmToken e.rslot (ofBytes data % 2 ^ 32) (!bad.isEmpty))).sendToken c
             (e.strmToken (e.rslot + 1) (ofBytes data / 2 ^ 32) (!bad.isEmpty))))))
     ∧ (q.runningStream n = some (eid, e) → e.total ≤ e.next → e.parts = [] →
         (EngCmd.isStoreStream e = false → exec (.streamClose c n) s = .next ((s.dropEngine c eid).sendToken c
           { plainToken e.fp e.rblock e.rslot (e.total % 1024) e.ident e.next with null := true, stop := 7, charges := [e.charge] }))
         ∧ (EngCmd.isStoreStream e = true → e.startAt = 0 → e.wrote = false → exec (.streamClose c n) s = .next (s.endStore c eid e))
         ∧ (EngCmd.isStoreStream e = true → e.startAt = 2 → exec (.streamClose c n) s = .next (s.endStore c eid e)))
     ∧ (Map.find? q.engines eid = some e → (∀ p ∈ q.engines, p.1 < eid → p.2.kind ≠ .strmgo ∧ p.2.kind ≠ .strmx) →
         (∀ tid t, e.kind = .strmgo → q.targetStream e.graph (EngCmd.streamEngine e) eid = some (tid, t) → t.state ≠ .queued →
           exec (.streamControlDelivery c eid) s = .next (((s.setEngine c tid { t with
             run := bitOf e.flags 0, close := t.close || bitOf e.flags 1 }).dropEngine c eid).later (some e.charge)))
         ∧ (∀ tid t, e.kind = .strmx → q.targetStream e.graph (EngCmd.streamEngine e) eid = some (tid, t) → t.state ≠ .queued →
             EngCmd.isStoreStream t = true → (EngCmd.strmSize t = 8 → e.flags % 2 = 0) → t.close = false →
             let room := t.total - t.next - t.pushes.length
             exec (.streamControlDelivery c eid) s = .next (((((s.setEngine c tid { t with pushes := t.pushes ++ e.values.take room }).count c 0x042 0
               (e.values.length - room))).dropEngine c eid).later (some e.charge)))
         ∧ (∀ tid t, e.kind = .strmx → q.targetStream e.graph (EngCmd.streamEngine e) eid = some (tid, t) → t.state ≠ .queued →
             EngCmd.isStoreStream t = false → exec (.streamControlDelivery c eid) s =
               .next (((s.count c 0x042 0 e.values.length).dropEngine c eid).later (some e.charge)))
         ∧ ((e.kind = .strmgo ∨ e.kind = .strmx) → q.targetStream e.graph (EngCmd.streamEngine e) eid = none →
             exec (.streamControlDelivery c eid) s = .next (((s.count c 0x042 0 1).dropEngine c eid).later (some e.charge)))))

/-! ### Device steps: the row engine and the sparse units -/

/-- The row engine by itself (R144, R233 to R238, R241, R243, R245, R246, R249, R260): packets of the owner from an
input's source enter it, over boundaries that are up, others are dropped with their credit; a row whose turn it is
fires into the reorder pool; the expected partial is added to its accumulator row; an end packet counts, and the last
one sends the drain token; credits come back and are granted, over boundaries that are up; ROWS sends its rows under
its channel as it is bound at each row, once its core's row injection queue has room; swaps and read-outs end; a
resumed graph takes the free engine, which it reads back from its image in memory (R260, R362: tiles, quarters and
rows from its bytes, the bookkeeping as written or, where its bytes were changed, a free value: log entry 48). The
sparse units by themselves (R251, R254): equal coordinates at the heads of both queues multiply into the unit's sum,
the lower of two leaves alone, in scale mode each pair inserts its product, and an insert adds into its entry, or is
counted outside the accumulator's 4,096 coordinates. That a due swap holds back firing, and the corners of packets,
credits and units, are the readings of log entries 40 and 42 to 44; that ROWS reads its channel at each row is that of
entry 41. -/
def Obligations.RowEngineAndSparseUnitsRun : Prop :=
  (∀ (s : State) (c : Nat),
     let r := (s.core c).row
     (∀ p rest, s.rowPkts = p :: rest → p.dst = c → s.pathUp (routeDirs (dieOf p.src) (dieOf c)) = true →
       s.rowWaits 0 p = false →
       let s1 := State.countFlits { s with rowPkts := rest } (routeDirs (dieOf p.src) (dieOf c)) (p.payload.length + p.scales.length)
       let x := nthD RowInput.reset r.inputs p.rin
       (r.owner = some p.graph → x.depth ≠ 0 → x.src = p.src → exec (.rowPacketArrival 0) s = .next (s1.setRow c { r with
         inputs := setNth r.inputs p.rin { x with entries := x.entries ++ [⟨p, false, r.nextNum, []⟩] }, nextNum := r.nextNum + 1 }))
       ∧ (r.owner ≠ some p.graph ∨ x.depth = 0 ∨ x.src ≠ p.src → ∃ t, exec (.rowPacketArrival 0) s = .next t
           ∧ t.rowPkts = rest ∧ t.rowReturns = s.rowReturns ++ [(p.src, c, p.rin, p.credits)] ∧ (t.core c).row = r))
     ∧ (∀ i e reserved, i < 8 → s.slotWithheld c 8 = false → (nthD RowInput.reset r.inputs i).head = some e → e.pkt.stop ≠ 7 →
         aheadOf (r.tile e.pkt.tile) e.pkt.arow e.pkt.seq < 8 → (r.tile e.pkt.tile).reading = false → r.bars e = false →
         slotFor (s.core c) (aheadOf (r.tile e.pkt.tile) e.pkt.arow e.pkt.seq) = some reserved →
         (∀ j, j ≠ i → (nthD RowInput.reset r.inputs j).entries = []) →
         ∃ t, exec (.rowFire c) s = .next t ∧ (t.core c).row.pool = r.pool ++ [⟨e.pkt.tile, e.pkt.arow, e.pkt.seq, r.partials e.pkt,
             Ty.isRowInt (r.chan e.pkt.ch).ty, e.pkt.poison, i, e.num, reserved⟩]
           ∧ (t.core c).row.rotate = (i + 1) % 8 ∧ (t.core c).row.tiles = r.tiles)
     ∧ (∀ k p, r.pool[k]? = some p → aheadOf (r.tile p.tile) p.arow p.seq = 0 →
         ∃ t, exec (.partialAdd c k) s = .next t ∧ (t.core c).row.tile p.tile = (r.tile p.tile).add p ∧ t.mem = s.mem)
     ∧ (∀ i e rest d, (nthD RowInput.reset r.inputs i).entries = e :: rest → e.pkt.stop = 7 → (r.tile e.pkt.tile).drain = some d →
         (d.count ≠ 0 → d.ends + 1 = d.count → ∃ t, exec (.endPacket c i) s = .next t ∧ ((t.core c).row.tile e.pkt.tile).drain = none
           ∧ (t.core c).inject = (s.core c).inject ++ [⟨c, fpCore d.reply.fp, .token (d.reply.token d.rows)⟩])
         ∧ ((d.count = 0 ∨ d.ends + 1 ≠ d.count) → ∃ t, exec (.endPacket c i) s = .next t
             ∧ ((t.core c).row.tile e.pkt.tile).drain = some { d with ends := d.ends + 1 } ∧ (t.core c).inject = (s.core c).inject))
     ∧ (∀ k src target rin n, s.rowReturns[k]? = some (src, target, rin, n) →
         s.pathUp (routeDirs (dieOf target) (dieOf src)) = true → ∃ t, exec (.rowCreditReturn k) s = .next t
         ∧ t.rowReturns = dropNth s.rowReturns k
         ∧ (t.core src).credits = (s.core src).credits.map (fun y =>
             if y.target == target && y.rin == rin then { y with avail := min y.depth (y.avail + n) } else y))
     ∧ (∀ pre y rest, (s.core c).grantWait = pre ++ y :: rest → (s.core c).credits.length < 32 →
         (∀ z ∈ pre, s.pathUp (routeDirs (dieOf z.target) (dieOf c)) = false) → let dirs := routeDirs (dieOf y.target) (dieOf c)
         s.pathUp dirs = true → exec (.rowCreditGrant c) s =
           .next ((s.setCore c { s.core c with credits := (s.core c).credits ++ [y], grantWait := pre ++ rest }).countFlits dirs 16))
     ∧ ((s.core c).grantWait ≠ [] → 32 ≤ (s.core c).credits.length → exec (.rowCreditGrant c) s = .next s)
     ∧ (∀ eid e, Map.find? (s.core c).engines eid = some e → e.kind = .rows → e.state = .running →
         (∀ t ∈ validTargets e.targets, ∃ y, (s.core c).creditOf t = some y
           ∧ (if Ty.isSix (r.chan e.chan).ty = true ∧ e.next < e.total then 2 else 1) * (validTargets e.targets).count t ≤ y.avail) →
         s.rowRoom c (validTargets e.targets).length = true →
         (e.total ≤ e.next → ∃ t, exec (.rowsRowSend c eid) s = .next t ∧ t.rowPkts = s.rowPkts ++ rowPackets c e.tile e.chan e.graph
             (validTargets e.targets)
             (if bitOf e.flags 0 then bits (e.word 4) 0 5 else (bits (e.word 4) 0 5 + e.next) % 32)
             (if bitOf e.flags 0 then (bits (e.word 4) 16 16 + e.next) % 65536 else bits (e.word 4) 16 16)
             7 false [] (List.replicate 64 0) false)
         ∧ (∀ s1 data bad scales errs, e.next < e.total → s.rowsRead c eid e (r.chan e.chan) e.next = (.data s1 data bad, scales, errs) →
             s1.core c = s.core c → ∃ t, exec (.rowsRowSend c eid) s = .next t ∧ t.rowPkts = s1.rowPkts ++ rowPackets c e.tile e.chan e.graph
             (validTargets e.targets)
             (if bitOf e.flags 0 then bits (e.word 4) 0 5 else (bits (e.word 4) 0 5 + e.next) % 32)
             (if bitOf e.flags 0 then (bits (e.word 4) 16 16 + e.next) % 65536 else bits (e.word 4) 16 16)
             (bits (e.word 4) 5 3) (!bad.isEmpty) scales data (Ty.isSix (r.chan e.chan).ty)))
     ∧ (∀ n, r.owed n = false → exec (.bqSwap c n) s = .next (s.setRow c (r.swap n)))
     ∧ (∀ n, exec (.accwbReadoutEnd c n) s = .next (s.setRow c (r.setTile n { r.tile n with reading := false })))
     ∧ (∀ g rest x im s0 m, s.rowWaiters c = g :: rest → s.graph? g = some x → r.owner = none → r.resv = none → x.resumeWait.contains c = true →
         x.state = .loaded → Map.find? x.saved c = some im → s.imageWrites c g = false →
         let mine := (Map.getD x.savedEng c []).filter (fun p => p.2.kind.isRow)
         s.readImage c g x (im.imageParts (mine.map (fun p => p.2))) = (s0, some m) → ∃ t, exec (.engineOwnershipTransfer c) s = .next t
           ∧ (t.core c).row = { im.reload m with owner := some g, resv := none, waiters := delSet r.waiters g }
           ∧ (m.keeps im.bookParts = true → (t.core c).row.chans = im.chans ∧ (t.core c).row.rotate = im.rotate)
           ∧ (∀ p ∈ (t.core c).row.tiles, m.keeps im.bookParts = true → ∃ q ∈ im.tiles, q.1 = p.1
               ∧ p.2 = q.2.reload (m.part (tileAt p.1) q.2.bytes))))
  ∧ (∀ (s : State) (c n : Nat),
     let u := (s.core c).row.unit n
     (∀ x y, u.scale = false → u.a.look = .data x → u.b.look = .data y →
       (x.coord = y.coord → ∃ t, exec (.intersectStep c n) s = .next t ∧ ((t.core c).row.unit n).sum = Val.sum false [u.sum, Val.mul x.val y.val]
         ∧ ((t.core c).row.unit n).matched = true ∧ ((t.core c).row.unit n).a.queue = u.a.queue.drop 1
         ∧ ((t.core c).row.unit n).b.queue = u.b.queue.drop 1)
       ∧ (x.coord < y.coord → ∃ t, exec (.intersectStep c n) s = .next t ∧ ((t.core c).row.unit n).sum = u.sum
         ∧ ((t.core c).row.unit n).a.queue = u.a.queue.drop 1 ∧ ((t.core c).row.unit n).b.queue = u.b.queue))
     ∧ (∀ x y, u.scale = true → u.a.look = .data x → u.b.look = .data y → ∃ t, exec (.intersectStep c n) s = .next t
         ∧ (t.core c).row.inserts = (s.core c).row.inserts ++ [⟨u.acc, y.coord, Val.mul x.val y.val, x.poisonV || y.poisonV, false⟩]
         ∧ ((t.core c).row.unit n).b.queue = u.b.queue.drop 1 ∧ ((t.core c).row.unit n).a.queue = u.a.queue)
     ∧ (∀ x rest, (s.core c).row.inserts = x :: rest → (s.core c).row.notifies = [] →
         let a := (s.core c).row.sacc x.acc
         ∃ t, exec (.sparseInsert c 0) s = .next t ∧ (t.core c).row.inserts = rest ∧
           (x.fibPoison = false → a.base ≤ x.coord → x.coord ≤ a.base + 4095 →
             Map.find? ((t.core c).row.sacc x.acc).ents (x.coord - a.base) = some (BitVec.ofNat 32 (match Map.find? a.ents (x.coord - a.base) with
               | none => roundF .f32 .rne false 0 false x.val
               | some old => roundF .f32 .rne false 0 false (Val.sum false [decodeF .f32 old.toNat, x.val]))))
           ∧ (x.fibPoison = false → (x.coord < a.base ∨ a.base + 4095 < x.coord) → (t.core c).row.sacc x.acc = a)))

/-! ### Device steps: launches, records and the host -/

/-- Launches run and records are delivered (R9, R139, R264, R278, R314, R342, R350, R351, R358): the first queued
launch starts unless sixteen are being delivered; root tokens are sent in turn, once the sweeps of its dies have
ended, each from its own creation on the entry block's cores, over boundaries that are up, as a record's activation
is; a launch whose effects have performed, with no stash line still dirty, completes; a fault record takes the next
serial and becomes a trap activation; trace words leave for the ring that TRON's header describes; and a core takes up
a tag generation that a service sent it. The roots' slots and order, the records' first serial and what a completion
waits for are the readings of log entries 18, 25 and 50. -/
def Obligations.LaunchesRun : Prop :=
  ∀ s : State,
    (∀ n l g, s.control.launchQ = [n] → Map.find? s.control.launches n = some l → l.queued = true → s.control.paused = false →
      s.control.launches.length < 16 → s.launchFails l = none → s.graph? l.graph = some g →
      ∃ t, exec .launchStart s = .next t ∧ Map.find? t.control.launches n = some (l.settled g) ∧ t.mem = s.mem
        ∧ ∃ g', t.graph? l.graph = some g' ∧ g'.launches = g.launches + 1)
    ∧ (∀ n l g c, s.control.launches = [(n, l)] → l.delivering = true → s.graph? l.graph = some g → g.state = .loaded →
        (∀ d ∈ g.dies, s.sweeping d g.asid RelWord.every = false) → (s.coresOf l.graph g.entry)[l.next % (s.coresOf l.graph g.entry).length]? = some c →
        s.pathUp (routeDirs 18 (dieOf c)) = true →
        ∃ t, exec .rootTokenSend s = .next t ∧ (t.core c).creations = (s.core c).creations ++ [rootCreation g n l.next l]
          ∧ Map.find? t.control.launches n = some { l with next := l.next + 1, live := l.live + 1, delivering := decide (l.next + 1 < l.width) })
    ∧ (∀ n l g, Map.find? s.control.launches n = some l → s.launchDone n l = true → s.graph? l.graph = some g →
        (∀ k ∈ s.cores, k.2.dirtyOf l.graph = []) →
        exec (.launchComplete n) s = .next ((State.endLaunch (s.setGraph l.graph { g with launches := g.launches - 1 }) n l 0).lastLaunch l.graph))
    ∧ (∀ r rest sg blk sup y c cs, s.control.recQueue = r :: rest → s.control.openRecs.length < 65536 → s.trapOf r.graph = some (sg, blk) →
        s.graph? sg = some sup → s.block? sg blk = some y → s.coresOf sg blk = c :: cs → s.pathUp (routeDirs 18 (dieOf c)) = true →
        let r' : FaultRec := { r with serial := s.control.recSerial
                                      aux := if r.kind = 1 then min (2 ^ 32 - 1) (s.parkedOf r).length else r.aux }
        ∃ t, exec .faultRecordDelivery s = .next t ∧ t.control.recQueue = rest ∧ t.control.recSerial = (s.control.recSerial + 1) % 2 ^ 24
          ∧ t.control.openRecs = (if r.kind < 2 then s.control.openRecs ++ [r'] else s.control.openRecs)
          ∧ (t.core c).creations = (s.core c).creations ++ [trapCreation sup sg blk y.hdr.ibase r'])
    ∧ (∀ c n v more x s1 b bad s2 lost s3, (s.core c).trace.buf = v :: more → s.graph? v.graph = some x → x.traceRing ≠ 0 →
        s.ctlRead v.graph x.asid x.identity x.traceRing 24 = .data s1 b bad →
        let words := (s.core c).trace.burst v.graph n
        let len := leAt b 16 8
        let m := (len - 64) / 8
        let pos := (leAt b 0 8 - 64) / 8
        words ≠ [] → (pos + m - (leAt b 8 8 - 64) / 8 % m) % m + words.length < m →
        s1.traceWords v.graph x len false pos 0 words = (s2, some lost) →
        s2.ctlWrite v.graph x.asid x.identity x.traceRing (toBytes 8 (64 + 8 * ((pos + words.length) % m))) none = .done s3 →
        exec (.traceDrain c n) s = .next (s3.burstDone c v.graph words.length lost))
    ∧ (∀ c g x, s.graphs = [(g, x)] → x.tracing = true → x.cores.contains c = true → (s.core c).trace.lost ≠ 0 → (s.core c).trace.buf.length + 3 ≤ 1024 →
        ∃ t, exec (.traceLoss c) s = .next t ∧ (t.core c).trace.lost = 0 ∧ (t.core c).trace.buf.length = (s.core c).trace.buf.length + 3)
    ∧ (∀ k y d, s.sysReplies[k]? = some y → y.dies.contains d = true → (s.sysReplies.take k).any (fun z => z.asid == y.asid && z.dies.contains d) = false →
        y.gen ≠ 0 → delSet y.dies d ≠ [] → ∃ t, exec (.tgenTakeUp d k) s = .next t ∧ t.tgenOf d y.asid = y.gen
          ∧ t.sysReplies = setNth s.sysReplies k { y with dies := delSet y.dies d })

/-- A host command's life (R2, R263, R264, R373 to R375, R378): its 64 bytes give its fields; before the host has
configured the package only H_CONFIGURE is taken (log entry 101); a legal command with a credit is journalled under
the next sequence number and enters its queue, one without is refused, one that names no die of the package is
discarded; the first startable command starts while the queues run, a launch command in the next place of the launch
queue; a command whose effect is made ends and leaves its queue. From when commands are taken is the reading of log
entries 55 and 101, and which commands are discarded as naming no die or refused besides that of entry 52. -/
def Obligations.HostCommandsQueue : Prop :=
  ∀ s : State,
    (∀ cmd : HostCommand, cmd.opcode < 256 → cmd.queue < 64 → cmd.reserved < 2 ^ 14 → cmd.signal < 4096 → cmd.wait0 < 4096 → cmd.wait1 < 4096 →
      cmd.body.length = 12 → HostCommand.parse (HostCommand.bytes cmd) = cmd)
    ∧ (∀ id bytes se, s.control.sessions.find? (fun x => x.live && x.id == id) = some se → s.control.ready = true →
      let cmd := HostCommand.parse bytes
      (¬(cmd.opcode = 12 ∨ s.configured = true) → exec (.commandAccept id bytes) s = .next s)
      ∧ ((cmd.opcode = 12 ∨ s.configured = true) →
      (HostCommand.namesNoDie cmd = true → exec (.commandAccept id bytes) s = .next s)
      ∧ (HostCommand.namesNoDie cmd = false → HostCommand.legal cmd = true → Map.getD se.credits (HostCommand.queueOf cmd) 0 ≠ 0 → cmd.wait0 = 0 → cmd.wait1 = 0 →
        ∃ t, exec (.commandAccept id bytes) s = .next t ∧ t.control.seq = s.control.seq + 1
          ∧ Map.getD t.control.queues (HostCommand.queueOf cmd) [] = Map.getD s.control.queues (HostCommand.queueOf cmd) [] ++ [s.control.seq]
          ∧ (∃ x, Map.find? t.control.cmds s.control.seq = some x ∧ x.cmd = cmd ∧ x.session = id ∧ x.state = .accepted)
          ∧ ∃ r, Map.find? t.control.journal s.control.seq = some r ∧ r.tag = cmd.tag ∧ r.command = cmd.opcode ∧ r.kind = 0)
      ∧ (HostCommand.namesNoDie cmd = false → (HostCommand.legal cmd = false ∨ Map.getD se.credits (HostCommand.queueOf cmd) 0 = 0) →
          exec (.commandAccept id bytes) s = .next (s.pushStatus ⟨0, cmd.tag, 0, HostCommand.queueOf cmd, 7, 0, id⟩))))
    ∧ (∀ q seq x, s.control.paused = false → s.control.firstQueue (List.range 64) = some (q, seq) → Map.find? s.control.cmds seq = some x →
        ∃ t, exec .commandStart s = .next t ∧ Map.find? t.control.cmds seq = some { x with
            state := .started, launch := if x.cmd.opcode = 3 then some s.control.nextLaunch else x.launch } ∧ t.mem = s.mem)
    ∧ (∀ seq x, Map.find? s.control.cmds seq = some x → x.ready = true →
        ∃ t, exec (.commandEnd seq) s = .next t ∧ Map.find? t.control.cmds seq = none
          ∧ (Map.getD t.control.queues (HostCommand.queueOf x.cmd) []).contains seq = false ∧ t.mem = s.mem)

/-- What each host command does once it runs (R291, R322, R333, R348 to R350, R353, R364, R372, R376, R377, R379,
R385, R391, R392): loads, unloads, pre-emptions and resumptions end with the words of their services; a launch is made
in the place that it took in the launch queue; a copy moves piece by piece, after its acquire's sweep, stops at its
first fault, and ends once its writes have performed; queries answer, and journal reads while a session exists, as
does what a copy moves to or from the host; a die reset starts with the device-level event, an attestation repeats the
challenge of the named die. What the debug and configuration commands do (R263, R291, R322, R364, R377, R384, R385): a
compute die halts and is released, breakpoints are armed and disarmed, and each item of H_CONFIGURE sets its piece of
the package, refused outside its limits. What load, pre-emption, copy, journal read and the debug and configuration
commands do in corners are the readings of log entries 48, 49, 52 to 54, 71 and 94, and the fields of an exchange
group are free values (entry 11); that a group is refused is entry 81, any 12-bit chip id entry 83, and counters that
belong to a key entry 57. -/
def Obligations.HostCommandsAct : Prop :=
  (∀ (s : State) (seq : Nat) (x : Cmd),
     let b := HostCommand.b x.cmd
     (∀ s1 g, s.running seq 1 = some x → s.loadGraph ⟨x.cmd.body.take 8, 256, b 8 % 4096, hostIdent, true, none⟩ = .ok s1 g →
       exec (.hLoad seq) s = .next (s1.readyCmd seq false (g * 256)))
     ∧ (∀ s1 ws, s.running seq 2 = some x → s.unloadGraph 256 (hostKey seq) (b 0 % 256) = .done s1 ws →
         exec (.hUnload seq) s = .next (s1.readyCmd seq false (nthD 0 ws 0 + 2 ^ 32 * nthD 0 ws 1)))
     ∧ (∀ n, s.running seq 3 = some x → x.launch = some n → Map.find? s.control.launches n = none → exec (.hLaunch seq) s =
         .next { s with control := { s.control with launches := Map.put s.control.launches n (launchFrom x.cmd.body seq true none []) } })
     ∧ (∀ data, s.running seq 4 = some x → (b 0 % 4 = 0 ∨ s.control.liveSessions ≠ []) →
         (x.step = 0 → exec (.hCopy seq data) s =
           .next ((if b 0 % 4 = 1 then s else s.acquire 0 (b 1 % 4096) RelWord.every).setCmd seq { x with step := 1 }))
         ∧ (∀ n, x.step = n + 1 → n < b 7 → (b 0 % 4 = 2 ∨ (s.copyWrites (b 4 % 4096) (b 5 + 2 ^ 32 * b 6) n = false
               ∧ s.copyFault (b 4 % 4096) (b 5 + 2 ^ 32 * b 6) n = none)) → (b 0 % 4 = 1 → 64 ≤ data.length ∧ data.length ≤ 4096) → (b 0 % 4 ≠ 1 → s.sweeping 0 (b 1 % 4096) RelWord.every = false) → 0 < (if b 0 % 4 = 1 then min (min (b 7 - n) (min (toPage (b 2 + n)) (toPage (b 5 + n)))) data.length
               else min (b 7 - n) (min (toPage (b 2 + n)) (toPage (b 5 + n)))) →
             exec (.hCopy seq data) s = .next (s.copyPiece seq x n (if b 0 % 4 = 1 then
               min (min (b 7 - n) (min (toPage (b 2 + n)) (toPage (b 5 + n)))) data.length
               else min (b 7 - n) (min (toPage (b 2 + n)) (toPage (b 5 + n)))) data))
         ∧ (∀ n o, x.step = n + 1 → b 0 % 4 ≠ 2 → s.copyWrites (b 4 % 4096) (b 5 + 2 ^ 32 * b 6) n = false →
             s.copyFault (b 4 % 4096) (b 5 + 2 ^ 32 * b 6) n = some o →
             exec (.hCopy seq data) s = .next ((s.clearCopy (b 4 % 4096) (b 5 + 2 ^ 32 * b 6) n).readyCmd seq true (o + 2 ^ 32 * o)))
         ∧ (∀ n, x.step = n + 1 → b 7 ≤ n → (b 0 % 4 = 2 ∨ s.copyFault (b 4 % 4096) (b 5 + 2 ^ 32 * b 6) n = none) → (∀ p ∈ s.reqs, p.2.graph = 256 → p.2.kind.isStore = false) →
             (b 0 % 4 ≠ 1 → s.sweeping 0 (b 1 % 4096) RelWord.every = false) → exec (.hCopy seq data) s = .next (s.readyCmd seq false (b 7))))
     ∧ (∀ s1 ws, s.running seq 5 = some x → s.preemptGraph 256 (hostKey seq) (b 0 % 256) = .done s1 ws →
         exec (.hPreempt seq) s = .next (s1.readyCmd seq false (nthD 0 ws 0 + 2 ^ 32 * nthD 0 ws 1)))
     ∧ (∀ s1 ws, s.running seq 6 = some x → s.resumeGraph 256 (b 0 % 256) = .done s1 ws →
         exec (.hResume seq) s = .next (s1.readyCmd seq false (nthD 0 ws 0 + 2 ^ 32 * nthD 0 ws 1)))
     ∧ (s.running seq 7 = some x →
         (bits (b 0) 8 8 = 0 → exec (.hQueryDieEntry seq) s = .next (s.readyCmd seq false (s.die (b 0 % 32)).entry))
         ∧ (bits (b 0) 8 8 = 1 → exec (.hQueryErrorCounter seq) s = .next (s.readyCmd seq false (Map.getD (s.die (b 0 % 32)).errors (b 1) 0)))
         ∧ (bits (b 0) 8 8 = 2 → exec (.hQueryExchange seq) s = .next (s.readyCmd seq false (s.exchangeWord (b 1)))))
     ∧ (s.running seq 8 = some x → s.control.liveSessions ≠ [] → exec (.hJournalRead seq) s = .next (State.readyCmd { s with control := { s.control with
         reads := s.control.reads ++ (List.range (min 4096 (b 2))).map (fun i => s.control.journalBytes (b 0 + 2 ^ 32 * b 1 + i)) } }
         seq false (min 4096 (b 2))))
     ∧ (s.running seq 9 = some x → x.step = 0 →
         (bitOf (b 0) 8 = false → exec (.hDieReset seq) s = .next (((s.setCmd seq { x with step := 2 }).deviceEvent 1).resetDie (b 0 % 32)))
         ∧ (bitOf (b 0) 8 = true → (s.die (b 0 % 32)).state = .active →
             exec (.hDieReset seq) s = .next (((s.setCmd seq { x with step := 1 }).deviceEvent 1).drainDie (b 0 % 32))))
     ∧ (s.running seq 10 = some x → x.step = 0 → b 0 % 32 < 18 → (s.die (b 0 % 32)).state = .active →
         ∃ t, exec (.hAttest seq) s = .next t ∧ (t.die (b 0 % 32)).attStep = 25 ∧ (t.die (b 0 % 32)).attAt = s.now))
  ∧ (∀ (s : State) (seq : Nat) (x : Cmd),
     let b := HostCommand.b x.cmd
     (s.running seq 11 = some x →
       (b 0 % 16 = 0 → b 1 % 32 < 8 → (s.die (b 1 % 32)).state = .active →
         exec (.hDebugHalt seq) s = .next ((s.haltDie (b 1 % 32)).readyCmd seq false 0))
       ∧ (b 0 % 16 = 0 → (8 ≤ b 1 % 32 ∨ (s.die (b 1 % 32)).state ≠ .active) → exec (.hDebugHalt seq) s = .next (s.readyCmd seq false 1))
       ∧ (b 0 % 16 = 1 → (s.die (b 1 % 32)).state = .halted →
           exec (.hDebugRelease seq) s = .next ((s.releaseDie (b 1 % 32)).readyCmd seq false 0))
       ∧ (∀ g, b 0 % 16 = 2 → s.graph? (b 1 % 256) = some g →
           exec (.hDebugArm seq) s = .next ((s.setGraph (b 1 % 256) { g with brk := true }).readyCmd seq false 0))
       ∧ (∀ g, b 0 % 16 = 3 → s.graph? (b 1 % 256) = some g →
           exec (.hDebugDisarm seq) s = .next ((s.setGraph (b 1 % 256) { g with brk := false }).readyCmd seq false 0)))
     ∧ (s.running seq 12 = some x →
       (b 0 % 16 = 0 → exec (.hConfigureQueuePriority seq) s = .next (State.readyCmd { s with control := { s.control with
           queuePrio := Map.put s.control.queuePrio (b 1 % 64) (b 2 % 4) } } seq false 0))
       ∧ (b 0 % 16 = 1 → exec (.hConfigurePowerCap seq) s = .next (if 1000 ≤ b 1 ∧ b 1 ≤ 3800
           then State.readyCmd (State.byEvent { s with powerCap := b 1 } 0 0x801) seq false 0 else s.readyCmd seq false 1))
       ∧ (b 0 % 16 = 2 → Map.find? s.exchange (b 1 % 256) = none →
           let g := groupFrom (memReads s.mem ((b 2 + 2 ^ 32 * b 3) % 2 ^ 39) 160) s.now
           exec (.hConfigureExchangeGroup seq) s = .next (if g.primary ≠ g.standby ∧ 1700 ≤ g.timeout ∧ g.timeout ≤ 17000000
             then (s.setGroup (b 1 % 256) g).readyCmd seq false 0 else s.readyCmd seq false 1))
       ∧ (b 0 % 16 = 3 → s.control.chipSet = false → exec (.hConfigureChip seq) s = .next (State.readyCmd { s with
           chipId := b 1 % 4096, reachable := bitmapChips (memReads s.mem ((b 2 + 2 ^ 32 * b 3) % 2 ^ 39) 384)
           control := { s.control with chipSet := true } } seq false 0))
       ∧ (b 0 % 16 = 4 → exec (.hConfigureInstallKey seq) s = .next (State.readyCmd { s with
           domainKeys := Map.put s.domainKeys (b 1 % 2) (HostCommand.key x.cmd)
           portCount := dropKey s.portCount (b 1 % 2) } seq false 0))
       ∧ (b 0 % 16 = 5 → exec (.hConfigureSendKey seq) s = .next (State.readyCmd { s with
           sendKey := b 1 % 2 } seq false 0))
       ∧ (b 0 % 16 = 6 → exec (.hConfigureEraseKey seq) s = .next (State.readyCmd { s with
           domainKeys := Map.del s.domainKeys (b 1 % 2), portCount := dropKey s.portCount (b 1 % 2) } seq false 0))))

/-! ### Device steps: attestation, keys, the fabric -/

/-- The SPDM exchange (R324, R326, R372, R373, R389 to R392): GET_VERSION starts a die's attestation as it is sent;
each message of the root's exchange that a die answers well takes the die one step on, and a bad one quarantines it; a
host's request is answered by the control die, its KEY_EXCHANGE opens one of four sessions, FINISH makes it live,
KEY_UPDATE changes its keys, END_SESSION and a failed check end it; another version is answered with an error; without
response a die fails after 10 ms, and is asked again 1 ms after a failure. Whether a message is right is the operand's
(log entry 56), the bounds on sessions are the reading of entry 52, the flits of a message are free values (entry 87),
and the DMTF layout is entry 102. -/
def Obligations.SpdmMessagesAct : Prop :=
  ∀ (s : State) (a : SpdmAnswer),
    let c := s.control
    let msgs : List (SpdmPeer → SpdmAnswer → Instr) := [.getVersion, .getCapabilities, .negotiateAlgorithms, .getDigests, .getCertificate, .challenge,
      .getMeasurements, .keyExchange]
    (∀ n d m, msgs[n]? = some m → d < 18 → c.powered = true → c.hot = false → (s.die d).state = .attesting → (s.die d).attStep = n → n ≠ 0 →
      s.mgmtUp (roundTrip 18 d) = true → a.silent = false → a.good = true → a.version = 0x13 → exec (m (.die d) a) s = .next ((s.countMgmt n d).setDie d { (s.die d).learn n a with
        state := .attesting, attStep := n + 1, attAt := s.now }))
    ∧ (∀ d, d < 18 → c.powered = true → c.hot = false → (s.die d).state = .quarantined → (s.die d).attTry = 0 →
        s.mgmtUp (roundTrip 18 d) = true → (d = 16 ∨ c.ready = true ∨ (s.die 16).keyed = true) →
        (a.silent = true → exec (.getVersion (.die d) a) s = .next ((s.countMgmt 0 d).setDie d { s.die d with
          state := .attesting, attStep := 0, attAt := s.now }))
        ∧ (a.silent = false → a.good = true → a.version = 0x13 → exec (.getVersion (.die d) a) s = .next ((s.countMgmt 0 d).setDie d { s.die d with
          state := .attesting, attStep := 1, attAt := s.now })))
    ∧ (∀ d, d < 18 → c.powered = true → c.hot = false → (s.die d).state = .attesting → (s.die d).attStep = 8 → a.silent = false → a.good = true →
        s.mgmtUp (roundTrip 18 d) = true → a.version = 0x13 → exec (.finish (.die d) a) s =
          .next (((dirsOf d).foldl (fun t k => t.countMgmt 9 (senderOf k)) ((s.countMgmt 8 d).setDie d { s.die d with
            measures := (s.die d).newMeasures, blocks := (s.die d).newBlocks, sess := true, sessGen := 0
            state := .attesting, attStep := 9, attAt := s.now })).keyLinks d))
    ∧ (∀ n d m, msgs[n]? = some m → d < 18 → c.powered = true → c.hot = false → (s.die d).state = .attesting → (s.die d).attStep = n → a.silent = false →
        s.mgmtUp (roundTrip 18 d) = true → (a.good = false ∨ a.version ≠ 0x13) → ∃ e, exec (m (.die d) a) s = .next ((s.countMgmt n d).attestFail d e) ∧ (a.version ≠ 0x13 → e = 2))
    ∧ (∀ x, c.powered = true → c.hot = false → a.version = 0x13 →
        exec (.getVersion (.host x) a) s = .next (s.spdmReply x .served [] (.version 0x13))
        ∧ exec (.getCapabilities (.host x) a) s = .next (s.spdmReply x .served [] (.capabilities [.cert, .chal, .measSig, .keyEx, .encrypt, .mac, .keyUpd]))
        ∧ exec (.negotiateAlgorithms (.host x) a) s = .next (s.spdmReply x .served []
            (.algorithms [.ecdsaP384, .sha384Base, .sha384Meas, .secp384r1, .aes256Gcm, .keySchedule]))
        ∧ exec (.getDigests (.host x) a) s = .next (s.spdmReply x .served [] (.digests (nthD ⟨[], []⟩ (s.die 18).certs 0).digest))
        ∧ exec (.getCertificate (.host x) a) s = .next (s.spdmReply x .served [] (.certificate (nthD ⟨[], []⟩ (s.die 18).certs 0).chain))
        ∧ exec (.challenge (.host x) a) s = .next (s.spdmReply x .served [])
        ∧ exec (.getMeasurements (.host x) a) s = .next (s.spdmReply x .served s.hostBlocks (.measurements (s.hostBlocks.map dmtfBlock)))
        ∧ exec (.unsupportedRequest (.host x) a) s = .next (s.spdmReply x .unsupportedRequest [])
        ∧ (a.good = true → c.sessions.length < 4 → (∀ y ∈ c.sessions, y.id ≠ x) → exec (.keyExchange (.host x) a) s =
            .next (State.spdmReply { s with control := { c with sessions := c.sessions ++ [⟨x, 1, false, 0, []⟩] } } x .served []))
        ∧ (∀ y, c.sessions.find? (fun y => y.id == x && !y.live) = some y → a.good = true → exec (.finish (.host x) a) s =
            .next ((State.spdmReply { s with control := { c with sessions := c.sessions.filter (fun z => z.id != x) ++ [{ y with live := true, step := 2 }] } }
              x .served []).grantAll.sendStatusHeld))
        ∧ (a.good = true → c.sessions.any (fun y => y.id == x && y.live) = true → exec (.keyUpdate (.host x) a) s = .next (State.spdmReply { s with
            control := { c with sessions := c.sessions.map (fun y => if y.id == x then { y with keyGen := y.keyGen + 1 } else y) } } x .served []))
        ∧ (c.sessions.any (fun y => y.id == x) = true → exec (.endSession (.host x) a) s = .next ((s.spdmReply x .served []).endSession x)))
    ∧ (∀ x m, m ∈ msgs → c.powered = true → c.hot = false → a.version ≠ 0x13 → exec (m (.host x) a) s = .next (s.spdmReply x .versionMismatch []))
    ∧ (∀ x, c.powered = true → c.hot = false → a.version ≠ 0x13 → ∀ i ∈ [Instr.finish (.host x) a, .keyUpdate (.host x) a, .endSession (.host x) a],
        exec i s = .next (s.spdmReply x .versionMismatch []))
    ∧ (∀ d, d < 18 → c.powered = true → c.hot = false → (s.die d).sess = true → s.mgmtUp (roundTrip 18 d) = true → a.good = true → a.version = 0x13 →
        exec (.keyUpdate (.die d) a) s = .next ((s.countMgmt 9 d).setDie d { s.die d with sessGen := (s.die d).sessGen + 1 })
        ∧ exec (.endSession (.die d) a) s = .next ((s.countMgmt 9 d).setDie d { s.die d with sess := false }))
    ∧ (∀ x, ∃ t, exec (.securedMessageCheckFailure x) s = .next t ∧ (∀ y ∈ t.control.sessions, y.id ≠ x) ∧ t.control.cmds = c.cmds)
    ∧ (∀ d, d < 18 → c.powered = true → (s.die d).attAt + 17000000 ≤ s.now → (s.die d).state = .attesting → (s.die d).attStep < 9 → s.halted d = false →
        exec (.attestationResponseTimeout d) s = .next (s.attestFail d 1))
    ∧ (∀ d, d < 18 → c.hot = false → (s.die d).state = .quarantined → 1 ≤ (s.die d).attTry → (s.die d).attTry ≤ 2 → (s.die d).attAt + 1700000 ≤ s.now →
        exec (.attestationRetry d) s = .next (s.setDie d { s.die d with state := .attesting, attStep := 0, attAt := s.now }))

/-- A key rollover and the boundaries (R49, R266, R325, R392, R393): the five steps of a rollover in their order, a
sender that stops at its counter's limit, a crossing that reaches its core and returns its credits, and the two dies
of a failed boundary quarantined. Packets and ports of the fabric (R381, R382, R384, R385): a packet leaves through
the port of its chip under the sending key and the port's next counter under that key, and a token for a chip outside
the reachable set is dropped and counted; one that arrives is handed on by its class, or dropped and counted. Routes,
key changes, counters and packet payloads are the model's readings (log entries 26, 33, 57 and 58), as is what packets
of classes 3 and 4 do (entries 60, 59 and 61), and that a packet with a bad header counts as that alone (entry 124). -/
def Obligations.BoundariesAndFabric : Prop :=
  (∀ (s : State) (d : Nat),
     let x := s.link d
     (d < 44 → x.up = true → 2 ^ 47 < x.txCount → x.step = 0 → (s.link (mateOf d)).step = 0 → (s.die (senderOf d)).sess = true →
         (s.die (receiverOf d)).sess = true → s.rollsBefore d = false → s.mgmtUp (roundTrip 18 (receiverOf d)) = true →
         let s1 := s.countMgmt 9 (receiverOf d)
         let y := s1.link d
         exec (.keyRolloverStart d) s = .next (State.setLink { s1 with keySerial := s.keySerial + 1 } d { y with
           step := 1, newKey := s.keySerial + 1, rxKeys := Map.put y.rxKeys (1 - y.txIdx) (s.keySerial + 1), rxCounts := Map.put y.rxCounts (1 - y.txIdx) 0 }))
     ∧ (let s1 := s.countMgmt 9 (senderOf d)
        let y := s1.link d
        y.step = 1 → s.mgmtUp (routeDirs 18 (senderOf d)) = true → exec (.senderKeyDelivery d) s = .next ((s1.setLink d { y with
          step := 2, txIdx := 1 - y.txIdx, txKey := y.newKey, txCount := 0, rolls := min 65535 (y.rolls + 1), stopped := false }).settle))
     ∧ (x.step = 2 → exec (.firstNewKeyFlit d) s = .next (s.setLink d { x with step := 3, rxIdx := x.txIdx, drainPend := true }))
     ∧ (x.step = 3 → exec (.drainMarkerSend d) s = .next (s.setLink d { x.pass 1 with step := 4 }))
     ∧ (let s1 := s.countMgmt 9 (receiverOf d)
        let y := s1.link d
        y.step = 4 → s.mgmtUp (routeDirs (receiverOf d) 18) = true → exec (.drainMarkerArrival d) s = .next (s1.setLink d { y with
          step := 0, rxKeys := Map.del y.rxKeys (1 - y.rxIdx), rxCounts := Map.del y.rxCounts (1 - y.rxIdx), drainPend := false, rxRolls := min 65535 (y.rxRolls + 1) }))
     ∧ (d < 44 → x.up = true → 2 ^ 48 ≤ x.txCount → exec (.flitCounterLimit d) s = .next (s.setLink d { x with stopped := true }))
     ∧ (∀ what, d < 44 → x.up = true → senderOf d ≠ receiverOf d → ∃ t, exec (.boundaryTagFailure ⟨d, what⟩) s = .next t
         ∧ (t.die (senderOf d)).state = .quarantined ∧ (t.die (receiverOf d)).state = .quarantined ∧ (t.link d).up = false)
     ∧ (∀ k y, s.crossings[k]? = some y → y.dirs ≠ [] → (∀ z ∈ s.crossings.take k, z.pkt.src ≠ y.pkt.src ∨ z.pkt.goal ≠ y.pkt.goal) →
         s.pathUp y.dirs = true → (s.core y.pkt.dst).matchIn.length < 32 →
         exec (.boundaryTokenCreditReturn k) s = .next (((State.moveCredits { s with crossings := dropNth s.crossings k } y.dirs
           (dieOf y.pkt.dst) false).arrive y.pkt).settle)))
  ∧ (∀ s : State,
     (∀ k p port, s.fabricOut[k]? = some p → (∀ q ∈ s.fabricOut.take k, q.dchip ≠ p.dchip ∨ q.cls ≠ p.cls) → ((p.cls ≠ 0 ∧ p.dchip = s.chipId) ∨ s.reachable.contains p.dchip = true) →
       s.livePorts[p.dchip % s.livePorts.length]? = some port → (Map.find? s.domainKeys s.sendKey).isSome = true → s.keySpent = false →
       exec (.fabricPacketSend k) s = .next { s with
         fabricOut := dropNth s.fabricOut k
         fabricSent := s.fabricSent ++ [FabricPacket.wire { p with keyIdx := s.sendKey, sport := port, counter := Map.getD s.portCount (portKey s.sendKey port) 0 }]
         portCount := Map.put s.portCount (portKey s.sendKey port) (Map.getD s.portCount (portKey s.sendKey port) 0 + 1) })
     ∧ (∀ k p port n, s.fabricOut[k]? = some p → s.reachable.contains p.dchip = true → s.livePorts[p.dchip % s.livePorts.length]? = some port →
         Map.find? s.portCount (portKey s.sendKey n) = some (2 ^ 48) → n < 64 → exec (.fabricPacketSend k) s = .next s)
     ∧ (∀ k p, s.fabricOut[k]? = some p → (∀ q ∈ s.fabricOut.take k, q.dchip ≠ p.dchip ∨ q.cls ≠ p.cls) → p.cls = 0 → s.reachable.contains p.dchip = false →
         exec (.fabricPacketSend k) s = .next (State.countDie { s with fabricOut := dropNth s.fabricOut k } (s.fabricDieOf p.dchip) 0 1))
     ∧ (∀ d w, (d = 16 ∨ d = 17) → (s.die d).state = .active →
         let p := FabricPacket.parse w
         ((Map.find? s.domainKeys p.keyIdx).isSome = true → p.cls < 5 → p.reserved = 0 → p.dchip = s.chipId → p.tagGood = true →
           (p.cls = 0 → exec (.fabricPacketReceive d w) s = .next (s.sendFrom d (Token.parse p.payload)))
           ∧ (p.cls = 1 → exec (.fabricPacketReceive d w) s = .next (s.remoteIn p.schip p.payload))
           ∧ (p.cls = 2 → exec (.fabricPacketReceive d w) s = .next (s.remoteAnswer p.payload))
           ∧ (p.cls = 3 → exec (.fabricPacketReceive d w) s = .next ((s.exchangeData d p.schip p.payload p.sentIn).getD s))
           ∧ (p.cls = 4 → exec (.fabricPacketReceive d w) s = s.exchangeControl p.schip p.payload))
         ∧ (Map.find? s.domainKeys p.keyIdx = none ∨ 5 ≤ p.cls ∨ p.reserved ≠ 0 ∨ p.dchip ≠ s.chipId →
             exec (.fabricPacketReceive d w) s = .next (s.countDie d 2 1))
         ∧ ((Map.find? s.domainKeys p.keyIdx).isSome = true → p.cls < 5 → p.reserved = 0 → p.dchip = s.chipId → p.tagGood = false →
             exec (.fabricPacketReceive d w) s = .next (s.countDie d 1 1)))
     ∧ (∀ n, n < 36 → exec (.fabricPortChange n false) s = .next { s with ports := Map.put s.ports n false }
         ∧ ((s.die (if n < 18 then 16 else 17)).state = .active → exec (.fabricPortChange n true) s = .next { s with
             ports := Map.put s.ports n true, control := { s.control with trained := true } })))

/-! ### Device steps: the exchange, the dies, the package -/

/-- The exchange between chips (R301, R302, R323, R386 to R388): a post joins its group, and the last one makes the
calendar; a phase ends with its last marker or its timeout, with the units that its senders did not use and those of
this chip that were not accepted; a unit of a grant in the port's queue leaves, and then the marker; the heartbeat is
kept, the standby takes over without it, also where its notice reaches a member, and ports then drop the primary's
grants. One record for both baristas, units and message layouts are the model's (log entries 59 to 61), as is that the
failure of a barista is an input (entry 122). -/
def Obligations.ExchangeRuns : Prop :=
  ∀ (s : State) (n : Nat) (g : Group), Map.find? s.exchange n = some g →
    (∀ m row, g.failed = false → m < g.members.length → g.indexOf s.chipId ≠ some m →
      let g1 := { g with posts := Map.put g.posts m ((List.range g.members.length).map (fun j => nthD 0 row j % 2 ^ 32)), waiters := g.waiters ++ [] }
      exec (.postArrival n m row) s = .next (if g1.posts.length = g.members.length then s.makeCalendar n g1 else s.setGroup n g1))
    ∧ (∀ m c p rest unused lost alive, g.current = some c → c.phases = p :: rest → c.started.isSome = true → p.senders.contains m = true →
        c.markers.contains m = false → s.delivered n g c p ⟨m, unused, lost, alive⟩ = true →
        let c1 := { c with markers := insSet c.markers m, unused := c.unused + if g.indexOf s.chipId = some m then 0 else min unused p.len }
        exec (.phaseDoneMarker n ⟨m, unused, lost, alive⟩) s = .next (if p.senders.all (fun i => (insSet c.markers m).contains i)
          then s.endPhase n g c1 0 lost alive false else s.setGroup n (g.setCal c1)))
    ∧ (∀ c t unused lost alive, g.current = some c → c.started = some t → t + g.timeout ≤ s.now → s.debugHold = [] →
        exec (.phaseTimeout ⟨n, unused, lost, alive⟩) s = .next (s.endPhase n g c (min unused (c.unmarked (g.indexOf s.chipId))) lost alive true))
    ∧ (∀ core eid e c me x j, Map.find? (s.core core).engines eid = some e → e.exchGroup = n → e.kind = .dxch → e.state = .running →
        g.current = some c → g.indexOf s.chipId = some me → g.grants.find? (fun y => y.cal == c.id && y.phase == c.ended + 1) = some x →
        g.indexOf x.dst = some j → e.cal = some c.id → e.targets ≠ [] → c.started.isSome = true → e.next ≤ c.ended →
        let room := min (nthD 0 e.amounts j) (nthD 0 (nthD [] c.demand me) j) - (nthD 0 e.sent j - e.lo)
        (e.lo < min x.units room → exec (.dxchGrant core eid) s = .next (s.sendUnit core eid e g c me j))
        ∧ (min x.units room ≤ e.lo → s.pathUp (s.baristaDirs core g) = true → exec (.dxchGrant core eid) s = .next (((s.setEngine core eid { e with next := c.ended + 1, startAt := s.now }).setGroup n
            { g with grants := g.grants.filter (fun y => y != x) }).toBaristas core g
            (exchMessage 1 n me (toBytes 4 (c.ended + 1) ++ toBytes 4 (x.units - e.lo) ++ toBytes 4 0)))))
    ∧ (g.inCharge = false → g.failed = false → g.down = false → g.primary = s.chipId → (s.die g.primaryDie).state = .active → g.beat + 13600 ≤ s.now →
        exec (.baristaHeartbeat n) s = .next (if g.standby != s.chipId
          then (s.setGroup n { g with beat := s.now }).fabric g.standby 4 (exchMessage 2 n 0 []) else s.setGroup n { g with beat := s.now }))
    ∧ (g.inCharge = false → g.failed = false → g.beat + 40800 ≤ s.now → (∀ c, g.current = some c → c.started = none ∧ g.issued ≤ c.ended) → (g.standby = s.chipId → (s.die g.standbyDie).state = .active) →
        exec (.standbyTakeover n) s = .next ((s.sendNotices n g).startPhase n { g with inCharge := true, down := false, cals := g.cals.map (fun c =>
          if c.running then { c with phases := phasesOf c.left, standby := true } else c) }))
    ∧ (g.inCharge = true → exec (.takeoverNotice n) s = .next (s.setGroup n { g with noticed := true, grants := g.grants.filter (fun x => x.epoch) }))
    ∧ (g.inCharge = false → g.standby = s.chipId → exec (.takeoverNotice n) s = .next s)
    ∧ (g.inCharge = false → g.standby ≠ s.chipId → exec (.takeoverNotice n) s = .next (s.setGroup n { g with
        inCharge := true, down := false, noticed := true, grants := g.grants.filter (fun x => x.epoch)
        cals := g.cals.map (fun c => { c with standby := true })
        issued := match g.current with | none => 0 | some c => c.ended + b2n c.started.isSome }))
    ∧ (∀ core eid e id, Map.find? (s.core core).engines eid = some e → e.exchGroup = n → e.kind = .dxch → e.state = .running → e.cal = some id →
        e.targets ≠ [] → s.standbyFailed g = true → e.startAt + 4 * g.timeout ≤ s.now → s.halted (dieOf core) = false →
        exec (.dxchGrantTimeout core eid) s = .next ((s.setGroup n { g with
          failed := true, posts := [], cals := g.cals.map (fun c => if c.id = id then { c with phases := [], started := none } else c) }).dxchEnd core eid e))

/-- Resets, errors and power (R150, R190, R262, R324, R333, R365, R366, R368, R369, R371, R394 to R396): a reset die
is quarantined with the next incarnation and its holds are over; an attested one becomes ACTIVE; errors are counted
and poison what they hit, in memory, in the stash with its operand buffers and in flight; a heartbeat is kept, and 10
ms without one reset the management processor, whose SRAM mirror is what the ring holds; power-on and the package
reset leave the journal and memory; the cap is kept by withholding a share. What resets lose and keep, how far an
error reaches and the twenty samples are the readings of log entries 62 to 67, where the journal's copies lie is entry
100, that the control die is ACTIVE at power-on entry 115, that a heartbeat is an operand of a power sample entry 93,
and the share withheld is a free value (entry 9). -/
def Obligations.DiesAndPackage : Prop :=
  ∀ s : State,
    (∀ d, d < 18 → s.control.powered = true → exec (.dieReset d) s = .next ((s.deviceEvent 1).resetDie d))
    ∧ (∀ d, (s.die d).state = .attesting → (s.die d).attStep = 9 → (∀ n ∈ dirsOf d, (Map.getD s.links n LinkDir.reset).up = true) →
        ∃ t, exec (.dieRejoin d) s = .next t ∧ (t.die d).state = .active ∧ (t.die d).attStep = 0 ∧ t.mem = s.mem)
    ∧ (∀ c, exec (.uncorrectableMatchingError c) s = .next (((s.count c 0x045 0 1).deviceEvent 6).maybeResume))
    ∧ (∀ c i n pa len,
        exec (.memoryError (.frameSlot c i n) true) s = .next (s.count c 0x044 0 1)
        ∧ exec (.memoryError (.frameSlot c i n) false) s = .next ((s.count c 0x045 0 1).slotError c i n)
        ∧ exec (.memoryError (.dram pa len) true) s = .next (s.countDie (8 + pa / 2 ^ 36 % 8) 0 1)
        ∧ (∃ t, exec (.memoryError (.dram pa len) false) s = .next t ∧ t.mem = s.mem
            ∧ { t with control := s.control } = (s.countDie (8 + pa / 2 ^ 36 % 8) 1 1).poisonRange pa len)
        ∧ exec (.memoryError (.reorder c n) true) s = .next (s.count c 0x044 0 1)
        ∧ (∀ q, (s.core c).row.pool[n]? = some q → ∃ t, exec (.memoryError (.reorder c n) false) s = .next t
            ∧ (t.core c).row.pool = setNth (s.core c).row.pool n { q with poison := true }))
    ∧ (∀ k p, (s.rowPkts[k]? = some p → exec (.memoryError (.rowPacket k) false) s =
          .next { s with rowPkts := setNth s.rowPkts k { p with poison := true } }))
    ∧ (∀ k y, (s.crossings[k]? = some y → exec (.memoryError (.tokenCrossing k) false) s =
          .next { s with crossings := setNth s.crossings k { y with pkt := y.pkt.poisoned } }))
    ∧ (s.control.powered = true → s.control.mgmtBeat + 17000000 ≤ s.now → ∃ t, exec .mgmtHeartbeatTimeout s = .next t
        ∧ t.control.mgmtBeat = s.now ∧ t.control.seq = t.control.seqOfJournal ∧ t.mem = s.mem
        ∧ t.control.mirrorFrom = 0 ∧ t.control.mirrorLost = t.control.ringLost)
    ∧ (∀ c i w b, exec (.memoryError (.stash c i w) true) s = .next (s.count c 0x044 0 1)
        ∧ ∃ t, exec (.memoryError (.stash c i w) false) s = .next t ∧ t.mem = s.mem
          ∧ (∀ l, Map.find? (s.core c).stash i = some l → ∃ l', Map.find? (t.core c).stash i = some l' ∧ l'.data = l.data
              ∧ ∀ k, k < 8 → 8 * (w % 16) + k ∈ l'.poison)
          ∧ (∀ y, Map.find? (s.core c).opbufs b = some y → ∃ y', Map.find? (t.core c).opbufs b = some y' ∧ y'.data = y.data
              ∧ (y.first ≤ i → i < y.first + y.lines → ∀ k, k < 8 → 128 * (i - y.first) + 8 * (w % 16) + k < y.data.length →
                  128 * (i - y.first) + 8 * (w % 16) + k ∈ y'.poison)))
    ∧ (∀ w j beat, s.control.hot = false → exec (.powerSample w ⟨j, beat⟩) s = .next { s with control := { s.control with
        samples := (s.control.samples ++ [(w, j)]).drop (s.control.samples.length + 1 - 20)
        junction := j
        mgmtBeat := if beat = true then s.now else s.control.mgmtBeat } })
    ∧ (20 ≤ s.control.samples.length → ∃ t, exec .powerControlInterval s = .next t ∧ t.control.samples = []
        ∧ (s.control.samples.foldl (fun a x => a + x.1) 0 ≤ s.powerCap * s.control.samples.length → (∀ x ∈ s.control.samples, x.2 ≤ 100) →
            t.control.withheld = 0))
    ∧ (s.control.powered = true → exec .packageReset s = .next s.resetPackage
        ∧ (115 ≤ s.control.junction → s.control.hot = false → exec .thermalTrip s = .next (State.resetPackage { s with control := { s.control with hot := true } })))
    ∧ (s.control.powered = false → s.control.signed = true → ∃ t, exec .powerOn s = .next t ∧ t.now = 0 ∧ t.control.powered = true ∧ t.control.seq = s.control.seqOfJournal
        ∧ (t.die 18).state = .active ∧ (∀ d, d < 18 → (t.die d).state = .quarantined) ∧ t.mem = s.mem)
end

