-- ==== Sys2Proof/Laws/Data.lean ====
section
/-! SUPPORT. Laws of the sparse tables: reading after setting and after deleting, and their canonical form. -/
namespace Sys2Proof

@[simp] theorem Map.find?_put_same {α : Type} (m : Map α) (i : Nat) (a : α) : Map.find? (Map.put m i a) i = some a := by
  induction m with
  | nil => simp [Map.put, Map.find?]
  | cons p t ih =>
    obtain ⟨k, v⟩ := p
    simp only [Map.put]
    split
    · next h => simp [Map.find?, Nat.ne_of_lt h, ih]
    · split <;> simp [Map.find?]

theorem Map.find?_put_ne {α : Type} (m : Map α) {i j : Nat} (a : α) (h : j ≠ i) :
    Map.find? (Map.put m i a) j = Map.find? m j := by
  induction m with
  | nil => simp [Map.put, Map.find?, Ne.symm h]
  | cons p t ih =>
    obtain ⟨k, v⟩ := p
    simp only [Map.put]
    split
    · simp [Map.find?, ih]
    · split
      · next hk => subst hk; simp [Map.find?, Ne.symm h]
      · simp [Map.find?, Ne.symm h]

@[simp] theorem Map.find?_del_same {α : Type} (m : Map α) (i : Nat) : Map.find? (Map.del m i) i = none := by
  induction m with
  | nil => rfl
  | cons p t ih =>
    obtain ⟨k, v⟩ := p
    simp only [Map.del]
    split
    · exact ih
    · next h => simp [Map.find?, h, ih]

theorem Map.find?_del_ne {α : Type} (m : Map α) {i j : Nat} (h : j ≠ i) : Map.find? (Map.del m i) j = Map.find? m j := by
  induction m with
  | nil => rfl
  | cons p t ih =>
    obtain ⟨k, v⟩ := p
    simp only [Map.del]
    split
    · next hk => subst hk; simp [Map.find?, Ne.symm h, ih]
    · simp [Map.find?, ih]

/-- A value found at a key is listed there. -/
theorem Map.mem_of_find? {α : Type} {m : Map α} {i : Nat} {a : α} (h : Map.find? m i = some a) : (i, a) ∈ m := by
  induction m with
  | nil => cases h
  | cons p t ih =>
    simp only [Map.find?] at h
    split at h
    · rename_i e; cases h; exact e ▸ List.mem_cons_self ..
    · exact List.mem_cons_of_mem _ (ih h)

@[simp] theorem Map.getD_put_same {α : Type} (m : Map α) (i : Nat) (a d : α) : Map.getD (Map.put m i a) i d = a := by
  simp [Map.getD]

theorem Map.getD_put_ne {α : Type} (m : Map α) {i j : Nat} (a d : α) (h : j ≠ i) : Map.getD (Map.put m i a) j d = Map.getD m j d := by
  simp [Map.getD, Map.find?_put_ne m a h]

@[simp] theorem Map.getD_putD_same {α : Type} [DecidableEq α] (m : Map α) (i : Nat) (a d : α) :
    Map.getD (Map.putD d m i a) i d = a := by
  unfold Map.putD
  split
  · next h => simp [Map.getD, h]
  · simp

theorem Map.getD_putD_ne {α : Type} [DecidableEq α] (m : Map α) {i j : Nat} (a d : α) (h : j ≠ i) :
    Map.getD (Map.putD d m i a) j d = Map.getD m j d := by
  unfold Map.putD
  split
  · simp [Map.getD, Map.find?_del_ne m h]
  · exact Map.getD_put_ne m a d h

theorem Map.find?_mapVals {α : Type} (f : Nat → α → α) (m : Map α) (i : Nat) :
    Map.find? (Map.mapVals f m) i = (Map.find? m i).map (f i) := by
  induction m with
  | nil => rfl
  | cons p t ih =>
    obtain ⟨k, v⟩ := p
    have hc : Map.mapVals f ((k, v) :: t) = (k, f k v) :: Map.mapVals f t := rfl
    rw [hc]
    by_cases h : k = i
    · simp [Map.find?, h]
    · simp [Map.find?, h, ih]

/-- Every key of a table lies above a bound. -/
def Map.above {α : Type} (b : Nat) (m : Map α) : Prop := ∀ p ∈ m, b < p.1

theorem Map.wf_cons {α : Type} (p : Nat × α) (m : Map α) : Map.wf (p :: m) = true ↔ Map.above p.1 m ∧ Map.wf m = true := by
  induction m generalizing p with
  | nil => simp [Map.wf, Map.above]
  | cons q t ih =>
    obtain ⟨k, v⟩ := p
    obtain ⟨k', v'⟩ := q
    have h1 : Map.wf ((k, v) :: (k', v') :: t) = (decide (k < k') && Map.wf ((k', v') :: t)) := rfl
    rw [h1, Bool.and_eq_true, decide_eq_true_eq]
    constructor
    · rintro ⟨h, hw⟩
      refine ⟨?_, hw⟩
      intro r hr
      rcases List.mem_cons.mp hr with h' | h'
      · subst h'; exact h
      · exact Nat.lt_trans h (((ih (k', v')).mp hw).1 r h')
    · rintro ⟨h, hw⟩
      exact ⟨h (k', v') (by simp), hw⟩

theorem Map.mem_put {α : Type} {m : Map α} {i : Nat} {a : α} {p : Nat × α} (h : p ∈ Map.put m i a) : p = (i, a) ∨ p ∈ m := by
  induction m with
  | nil => simpa [Map.put] using h
  | cons q t ih =>
    obtain ⟨k, v⟩ := q
    simp only [Map.put] at h
    split at h
    · rcases List.mem_cons.mp h with h' | h'
      · exact Or.inr (by simp [h'])
      · rcases ih h' with h'' | h''
        · exact Or.inl h''
        · exact Or.inr (List.mem_cons_of_mem _ h'')
    · split at h
      · rcases List.mem_cons.mp h with h' | h'
        · exact Or.inl h'
        · exact Or.inr (List.mem_cons_of_mem _ h')
      · rcases List.mem_cons.mp h with h' | h'
        · exact Or.inl h'
        · exact Or.inr h'

theorem Map.mem_del {α : Type} {m : Map α} {i : Nat} {p : Nat × α} (h : p ∈ Map.del m i) : p ∈ m := by
  induction m with
  | nil => exact h
  | cons q t ih =>
    obtain ⟨k, v⟩ := q
    simp only [Map.del] at h
    split at h
    · exact List.mem_cons_of_mem _ (ih h)
    · rcases List.mem_cons.mp h with h' | h'
      · simp [h']
      · exact List.mem_cons_of_mem _ (ih h')

/-- Setting a key keeps the canonical form. -/
theorem Map.wf_put {α : Type} (m : Map α) (i : Nat) (a : α) (h : Map.wf m = true) : Map.wf (Map.put m i a) = true := by
  induction m with
  | nil => rfl
  | cons p t ih =>
    obtain ⟨k, v⟩ := p
    have hw := (Map.wf_cons _ _).mp h
    simp only [Map.put]
    split
    · next hk =>
      refine (Map.wf_cons _ _).mpr ⟨?_, ih hw.2⟩
      intro q hq
      rcases Map.mem_put hq with h' | h'
      · subst h'; exact hk
      · exact hw.1 q h'
    · split
      · next hk => subst hk; exact (Map.wf_cons _ _).mpr ⟨hw.1, hw.2⟩
      · next h1 h2 =>
        refine (Map.wf_cons _ _).mpr ⟨?_, h⟩
        intro q hq
        rcases List.mem_cons.mp hq with h' | h'
        · subst h'; exact Nat.lt_of_le_of_ne (Nat.le_of_not_lt h1) (Ne.symm h2)
        · exact Nat.lt_trans (Nat.lt_of_le_of_ne (Nat.le_of_not_lt h1) (Ne.symm h2)) (hw.1 q h')

/-- Deleting a key keeps the canonical form. -/
theorem Map.wf_del {α : Type} (m : Map α) (i : Nat) (h : Map.wf m = true) : Map.wf (Map.del m i) = true := by
  induction m with
  | nil => rfl
  | cons p t ih =>
    obtain ⟨k, v⟩ := p
    have hw := (Map.wf_cons _ _).mp h
    simp only [Map.del]
    split
    · exact ih hw.2
    · exact (Map.wf_cons _ _).mpr ⟨fun q hq => hw.1 q (Map.mem_del hq), ih hw.2⟩

theorem Map.wf_putD {α : Type} [DecidableEq α] (d : α) (m : Map α) (i : Nat) (a : α) (h : Map.wf m = true) :
    Map.wf (Map.putD d m i a) = true := by
  unfold Map.putD
  split
  · exact Map.wf_del m i h
  · exact Map.wf_put m i a h

end Sys2Proof
end

