-- ==== Sys2Proof/Laws/State.lean ====
section
/-! SUPPORT. What each update of the state leaves and sets: one lemma per field per update. -/
namespace Sys2Proof.Machine

/-! ### setCore -/

@[simp] theorem setCore_agenda (s : State) (c : Nat) (k : Core) : (s.setCore c k).agenda = s.agenda := rfl
@[simp] theorem setCore_now (s : State) (c : Nat) (k : Core) : (s.setCore c k).now = s.now := rfl
@[simp] theorem setCore_cur (s : State) (c : Nat) (k : Core) : (s.setCore c k).cur = s.cur := rfl
@[simp] theorem setCore_next (s : State) (c : Nat) (k : Core) : (s.setCore c k).next = s.next := rfl
@[simp] theorem setCore_dies (s : State) (c : Nat) (k : Core) : (s.setCore c k).dies = s.dies := rfl
@[simp] theorem setCore_graphs (s : State) (c : Nat) (k : Core) : (s.setCore c k).graphs = s.graphs := rfl
@[simp] theorem setCore_spaces (s : State) (c : Nat) (k : Core) : (s.setCore c k).spaces = s.spaces := rfl
@[simp] theorem setCore_mem (s : State) (c : Nat) (k : Core) : (s.setCore c k).mem = s.mem := rfl
@[simp] theorem setCore_poison (s : State) (c : Nat) (k : Core) : (s.setCore c k).poison = s.poison := rfl
@[simp] theorem setCore_versions (s : State) (c : Nat) (k : Core) : (s.setCore c k).versions = s.versions := rfl
@[simp] theorem setCore_lost (s : State) (c : Nat) (k : Core) : (s.setCore c k).lost = s.lost := rfl
@[simp] theorem setCore_covered (s : State) (c : Nat) (k : Core) : (s.setCore c k).covered = s.covered := rfl
@[simp] theorem setCore_full (s : State) (c : Nat) (k : Core) : (s.setCore c k).full = s.full := rfl
@[simp] theorem setCore_reqs (s : State) (c : Nat) (k : Core) : (s.setCore c k).reqs = s.reqs := rfl
@[simp] theorem setCore_fills (s : State) (c : Nat) (k : Core) : (s.setCore c k).fills = s.fills := rfl
@[simp] theorem setCore_stashFills (s : State) (c : Nat) (k : Core) : (s.setCore c k).stashFills = s.stashFills := rfl
@[simp] theorem setCore_asksFailed (s : State) (c : Nat) (k : Core) : (s.setCore c k).asksFailed = s.asksFailed := rfl
@[simp] theorem setCore_splits (s : State) (c : Nat) (k : Core) : (s.setCore c k).splits = s.splits := rfl
@[simp] theorem setCore_batches (s : State) (c : Nat) (k : Core) : (s.setCore c k).batches = s.batches := rfl
@[simp] theorem setCore_owns (s : State) (c : Nat) (k : Core) : (s.setCore c k).owns = s.owns := rfl
@[simp] theorem setCore_commits (s : State) (c : Nat) (k : Core) : (s.setCore c k).commits = s.commits := rfl
@[simp] theorem setCore_decrs (s : State) (c : Nat) (k : Core) : (s.setCore c k).decrs = s.decrs := rfl
@[simp] theorem setCore_retires (s : State) (c : Nat) (k : Core) : (s.setCore c k).retires = s.retires := rfl
@[simp] theorem setCore_crossings (s : State) (c : Nat) (k : Core) : (s.setCore c k).crossings = s.crossings := rfl
@[simp] theorem setCore_credits (s : State) (c : Nat) (k : Core) : (s.setCore c k).credits = s.credits := rfl
@[simp] theorem setCore_rowPkts (s : State) (c : Nat) (k : Core) : (s.setCore c k).rowPkts = s.rowPkts := rfl
@[simp] theorem setCore_rowReturns (s : State) (c : Nat) (k : Core) : (s.setCore c k).rowReturns = s.rowReturns := rfl
@[simp] theorem setCore_views (s : State) (c : Nat) (k : Core) : (s.setCore c k).views = s.views := rfl
@[simp] theorem setCore_roundWaits (s : State) (c : Nat) (k : Core) : (s.setCore c k).roundWaits = s.roundWaits := rfl
@[simp] theorem setCore_sysReplies (s : State) (c : Nat) (k : Core) : (s.setCore c k).sysReplies = s.sysReplies := rfl
@[simp] theorem setCore_services (s : State) (c : Nat) (k : Core) : (s.setCore c k).services = s.services := rfl
@[simp] theorem setCore_links (s : State) (c : Nat) (k : Core) : (s.setCore c k).links = s.links := rfl
@[simp] theorem setCore_keySerial (s : State) (c : Nat) (k : Core) : (s.setCore c k).keySerial = s.keySerial := rfl
@[simp] theorem setCore_ports (s : State) (c : Nat) (k : Core) : (s.setCore c k).ports = s.ports := rfl
@[simp] theorem setCore_reachable (s : State) (c : Nat) (k : Core) : (s.setCore c k).reachable = s.reachable := rfl
@[simp] theorem setCore_chipId (s : State) (c : Nat) (k : Core) : (s.setCore c k).chipId = s.chipId := rfl
@[simp] theorem setCore_domainKeys (s : State) (c : Nat) (k : Core) : (s.setCore c k).domainKeys = s.domainKeys := rfl
@[simp] theorem setCore_sendKey (s : State) (c : Nat) (k : Core) : (s.setCore c k).sendKey = s.sendKey := rfl
@[simp] theorem setCore_portCount (s : State) (c : Nat) (k : Core) : (s.setCore c k).portCount = s.portCount := rfl
@[simp] theorem setCore_fabricOut (s : State) (c : Nat) (k : Core) : (s.setCore c k).fabricOut = s.fabricOut := rfl
@[simp] theorem setCore_fabricSent (s : State) (c : Nat) (k : Core) : (s.setCore c k).fabricSent = s.fabricSent := rfl
@[simp] theorem setCore_exchange (s : State) (c : Nat) (k : Core) : (s.setCore c k).exchange = s.exchange := rfl
@[simp] theorem setCore_powerCap (s : State) (c : Nat) (k : Core) : (s.setCore c k).powerCap = s.powerCap := rfl
@[simp] theorem setCore_drainLimit (s : State) (c : Nat) (k : Core) : (s.setCore c k).drainLimit = s.drainLimit := rfl
@[simp] theorem setCore_debugHold (s : State) (c : Nat) (k : Core) : (s.setCore c k).debugHold = s.debugHold := rfl
@[simp] theorem setCore_eventAt (s : State) (c : Nat) (k : Core) : (s.setCore c k).eventAt = s.eventAt := rfl
@[simp] theorem setCore_control (s : State) (c : Nat) (k : Core) : (s.setCore c k).control = s.control := rfl

/-! ### setDie -/

@[simp] theorem setDie_agenda (s : State) (d : Nat) (x : Die) : (s.setDie d x).agenda = s.agenda := rfl
@[simp] theorem setDie_now (s : State) (d : Nat) (x : Die) : (s.setDie d x).now = s.now := rfl
@[simp] theorem setDie_cur (s : State) (d : Nat) (x : Die) : (s.setDie d x).cur = s.cur := rfl
@[simp] theorem setDie_next (s : State) (d : Nat) (x : Die) : (s.setDie d x).next = s.next := rfl
@[simp] theorem setDie_cores (s : State) (d : Nat) (x : Die) : (s.setDie d x).cores = s.cores := rfl
@[simp] theorem setDie_graphs (s : State) (d : Nat) (x : Die) : (s.setDie d x).graphs = s.graphs := rfl
@[simp] theorem setDie_spaces (s : State) (d : Nat) (x : Die) : (s.setDie d x).spaces = s.spaces := rfl
@[simp] theorem setDie_mem (s : State) (d : Nat) (x : Die) : (s.setDie d x).mem = s.mem := rfl
@[simp] theorem setDie_poison (s : State) (d : Nat) (x : Die) : (s.setDie d x).poison = s.poison := rfl
@[simp] theorem setDie_versions (s : State) (d : Nat) (x : Die) : (s.setDie d x).versions = s.versions := rfl
@[simp] theorem setDie_lost (s : State) (d : Nat) (x : Die) : (s.setDie d x).lost = s.lost := rfl
@[simp] theorem setDie_covered (s : State) (d : Nat) (x : Die) : (s.setDie d x).covered = s.covered := rfl
@[simp] theorem setDie_full (s : State) (d : Nat) (x : Die) : (s.setDie d x).full = s.full := rfl
@[simp] theorem setDie_reqs (s : State) (d : Nat) (x : Die) : (s.setDie d x).reqs = s.reqs := rfl
@[simp] theorem setDie_fills (s : State) (d : Nat) (x : Die) : (s.setDie d x).fills = s.fills := rfl
@[simp] theorem setDie_stashFills (s : State) (d : Nat) (x : Die) : (s.setDie d x).stashFills = s.stashFills := rfl
@[simp] theorem setDie_asksFailed (s : State) (d : Nat) (x : Die) : (s.setDie d x).asksFailed = s.asksFailed := rfl
@[simp] theorem setDie_splits (s : State) (d : Nat) (x : Die) : (s.setDie d x).splits = s.splits := rfl
@[simp] theorem setDie_batches (s : State) (d : Nat) (x : Die) : (s.setDie d x).batches = s.batches := rfl
@[simp] theorem setDie_owns (s : State) (d : Nat) (x : Die) : (s.setDie d x).owns = s.owns := rfl
@[simp] theorem setDie_commits (s : State) (d : Nat) (x : Die) : (s.setDie d x).commits = s.commits := rfl
@[simp] theorem setDie_decrs (s : State) (d : Nat) (x : Die) : (s.setDie d x).decrs = s.decrs := rfl
@[simp] theorem setDie_retires (s : State) (d : Nat) (x : Die) : (s.setDie d x).retires = s.retires := rfl
@[simp] theorem setDie_crossings (s : State) (d : Nat) (x : Die) : (s.setDie d x).crossings = s.crossings := rfl
@[simp] theorem setDie_credits (s : State) (d : Nat) (x : Die) : (s.setDie d x).credits = s.credits := rfl
@[simp] theorem setDie_rowPkts (s : State) (d : Nat) (x : Die) : (s.setDie d x).rowPkts = s.rowPkts := rfl
@[simp] theorem setDie_rowReturns (s : State) (d : Nat) (x : Die) : (s.setDie d x).rowReturns = s.rowReturns := rfl
@[simp] theorem setDie_views (s : State) (d : Nat) (x : Die) : (s.setDie d x).views = s.views := rfl
@[simp] theorem setDie_roundWaits (s : State) (d : Nat) (x : Die) : (s.setDie d x).roundWaits = s.roundWaits := rfl
@[simp] theorem setDie_sysReplies (s : State) (d : Nat) (x : Die) : (s.setDie d x).sysReplies = s.sysReplies := rfl
@[simp] theorem setDie_services (s : State) (d : Nat) (x : Die) : (s.setDie d x).services = s.services := rfl
@[simp] theorem setDie_links (s : State) (d : Nat) (x : Die) : (s.setDie d x).links = s.links := rfl
@[simp] theorem setDie_keySerial (s : State) (d : Nat) (x : Die) : (s.setDie d x).keySerial = s.keySerial := rfl
@[simp] theorem setDie_ports (s : State) (d : Nat) (x : Die) : (s.setDie d x).ports = s.ports := rfl
@[simp] theorem setDie_reachable (s : State) (d : Nat) (x : Die) : (s.setDie d x).reachable = s.reachable := rfl
@[simp] theorem setDie_chipId (s : State) (d : Nat) (x : Die) : (s.setDie d x).chipId = s.chipId := rfl
@[simp] theorem setDie_domainKeys (s : State) (d : Nat) (x : Die) : (s.setDie d x).domainKeys = s.domainKeys := rfl
@[simp] theorem setDie_sendKey (s : State) (d : Nat) (x : Die) : (s.setDie d x).sendKey = s.sendKey := rfl
@[simp] theorem setDie_portCount (s : State) (d : Nat) (x : Die) : (s.setDie d x).portCount = s.portCount := rfl
@[simp] theorem setDie_fabricOut (s : State) (d : Nat) (x : Die) : (s.setDie d x).fabricOut = s.fabricOut := rfl
@[simp] theorem setDie_fabricSent (s : State) (d : Nat) (x : Die) : (s.setDie d x).fabricSent = s.fabricSent := rfl
@[simp] theorem setDie_exchange (s : State) (d : Nat) (x : Die) : (s.setDie d x).exchange = s.exchange := rfl
@[simp] theorem setDie_powerCap (s : State) (d : Nat) (x : Die) : (s.setDie d x).powerCap = s.powerCap := rfl
@[simp] theorem setDie_drainLimit (s : State) (d : Nat) (x : Die) : (s.setDie d x).drainLimit = s.drainLimit := rfl
@[simp] theorem setDie_debugHold (s : State) (d : Nat) (x : Die) : (s.setDie d x).debugHold = s.debugHold := rfl
@[simp] theorem setDie_eventAt (s : State) (d : Nat) (x : Die) : (s.setDie d x).eventAt = s.eventAt := rfl
@[simp] theorem setDie_control (s : State) (d : Nat) (x : Die) : (s.setDie d x).control = s.control := rfl

/-! ### setGraph -/

@[simp] theorem setGraph_agenda (s : State) (g : Nat) (x : Graph) : (s.setGraph g x).agenda = s.agenda := rfl
@[simp] theorem setGraph_now (s : State) (g : Nat) (x : Graph) : (s.setGraph g x).now = s.now := rfl
@[simp] theorem setGraph_cur (s : State) (g : Nat) (x : Graph) : (s.setGraph g x).cur = s.cur := rfl
@[simp] theorem setGraph_next (s : State) (g : Nat) (x : Graph) : (s.setGraph g x).next = s.next := rfl
@[simp] theorem setGraph_cores (s : State) (g : Nat) (x : Graph) : (s.setGraph g x).cores = s.cores := rfl
@[simp] theorem setGraph_dies (s : State) (g : Nat) (x : Graph) : (s.setGraph g x).dies = s.dies := rfl
@[simp] theorem setGraph_spaces (s : State) (g : Nat) (x : Graph) : (s.setGraph g x).spaces = s.spaces := rfl
@[simp] theorem setGraph_mem (s : State) (g : Nat) (x : Graph) : (s.setGraph g x).mem = s.mem := rfl
@[simp] theorem setGraph_poison (s : State) (g : Nat) (x : Graph) : (s.setGraph g x).poison = s.poison := rfl
@[simp] theorem setGraph_versions (s : State) (g : Nat) (x : Graph) : (s.setGraph g x).versions = s.versions := rfl
@[simp] theorem setGraph_lost (s : State) (g : Nat) (x : Graph) : (s.setGraph g x).lost = s.lost := rfl
@[simp] theorem setGraph_covered (s : State) (g : Nat) (x : Graph) : (s.setGraph g x).covered = s.covered := rfl
@[simp] theorem setGraph_full (s : State) (g : Nat) (x : Graph) : (s.setGraph g x).full = s.full := rfl
@[simp] theorem setGraph_reqs (s : State) (g : Nat) (x : Graph) : (s.setGraph g x).reqs = s.reqs := rfl
@[simp] theorem setGraph_fills (s : State) (g : Nat) (x : Graph) : (s.setGraph g x).fills = s.fills := rfl
@[simp] theorem setGraph_stashFills (s : State) (g : Nat) (x : Graph) : (s.setGraph g x).stashFills = s.stashFills := rfl
@[simp] theorem setGraph_asksFailed (s : State) (g : Nat) (x : Graph) : (s.setGraph g x).asksFailed = s.asksFailed := rfl
@[simp] theorem setGraph_splits (s : State) (g : Nat) (x : Graph) : (s.setGraph g x).splits = s.splits := rfl
@[simp] theorem setGraph_batches (s : State) (g : Nat) (x : Graph) : (s.setGraph g x).batches = s.batches := rfl
@[simp] theorem setGraph_owns (s : State) (g : Nat) (x : Graph) : (s.setGraph g x).owns = s.owns := rfl
@[simp] theorem setGraph_commits (s : State) (g : Nat) (x : Graph) : (s.setGraph g x).commits = s.commits := rfl
@[simp] theorem setGraph_decrs (s : State) (g : Nat) (x : Graph) : (s.setGraph g x).decrs = s.decrs := rfl
@[simp] theorem setGraph_retires (s : State) (g : Nat) (x : Graph) : (s.setGraph g x).retires = s.retires := rfl
@[simp] theorem setGraph_crossings (s : State) (g : Nat) (x : Graph) : (s.setGraph g x).crossings = s.crossings := rfl
@[simp] theorem setGraph_credits (s : State) (g : Nat) (x : Graph) : (s.setGraph g x).credits = s.credits := rfl
@[simp] theorem setGraph_rowPkts (s : State) (g : Nat) (x : Graph) : (s.setGraph g x).rowPkts = s.rowPkts := rfl
@[simp] theorem setGraph_rowReturns (s : State) (g : Nat) (x : Graph) : (s.setGraph g x).rowReturns = s.rowReturns := rfl
@[simp] theorem setGraph_views (s : State) (g : Nat) (x : Graph) : (s.setGraph g x).views = s.views := rfl
@[simp] theorem setGraph_roundWaits (s : State) (g : Nat) (x : Graph) : (s.setGraph g x).roundWaits = s.roundWaits := rfl
@[simp] theorem setGraph_sysReplies (s : State) (g : Nat) (x : Graph) : (s.setGraph g x).sysReplies = s.sysReplies := rfl
@[simp] theorem setGraph_services (s : State) (g : Nat) (x : Graph) : (s.setGraph g x).services = s.services := rfl
@[simp] theorem setGraph_links (s : State) (g : Nat) (x : Graph) : (s.setGraph g x).links = s.links := rfl
@[simp] theorem setGraph_keySerial (s : State) (g : Nat) (x : Graph) : (s.setGraph g x).keySerial = s.keySerial := rfl
@[simp] theorem setGraph_ports (s : State) (g : Nat) (x : Graph) : (s.setGraph g x).ports = s.ports := rfl
@[simp] theorem setGraph_reachable (s : State) (g : Nat) (x : Graph) : (s.setGraph g x).reachable = s.reachable := rfl
@[simp] theorem setGraph_chipId (s : State) (g : Nat) (x : Graph) : (s.setGraph g x).chipId = s.chipId := rfl
@[simp] theorem setGraph_domainKeys (s : State) (g : Nat) (x : Graph) : (s.setGraph g x).domainKeys = s.domainKeys := rfl
@[simp] theorem setGraph_sendKey (s : State) (g : Nat) (x : Graph) : (s.setGraph g x).sendKey = s.sendKey := rfl
@[simp] theorem setGraph_portCount (s : State) (g : Nat) (x : Graph) : (s.setGraph g x).portCount = s.portCount := rfl
@[simp] theorem setGraph_fabricOut (s : State) (g : Nat) (x : Graph) : (s.setGraph g x).fabricOut = s.fabricOut := rfl
@[simp] theorem setGraph_fabricSent (s : State) (g : Nat) (x : Graph) : (s.setGraph g x).fabricSent = s.fabricSent := rfl
@[simp] theorem setGraph_exchange (s : State) (g : Nat) (x : Graph) : (s.setGraph g x).exchange = s.exchange := rfl
@[simp] theorem setGraph_powerCap (s : State) (g : Nat) (x : Graph) : (s.setGraph g x).powerCap = s.powerCap := rfl
@[simp] theorem setGraph_drainLimit (s : State) (g : Nat) (x : Graph) : (s.setGraph g x).drainLimit = s.drainLimit := rfl
@[simp] theorem setGraph_debugHold (s : State) (g : Nat) (x : Graph) : (s.setGraph g x).debugHold = s.debugHold := rfl
@[simp] theorem setGraph_eventAt (s : State) (g : Nat) (x : Graph) : (s.setGraph g x).eventAt = s.eventAt := rfl
@[simp] theorem setGraph_control (s : State) (g : Nat) (x : Graph) : (s.setGraph g x).control = s.control := rfl

/-! ### setWarp -/

@[simp] theorem setWarp_agenda (s : State) (c k : Nat) (w : Warp) : (s.setWarp c k w).agenda = s.agenda := rfl
@[simp] theorem setWarp_now (s : State) (c k : Nat) (w : Warp) : (s.setWarp c k w).now = s.now := rfl
@[simp] theorem setWarp_cur (s : State) (c k : Nat) (w : Warp) : (s.setWarp c k w).cur = s.cur := rfl
@[simp] theorem setWarp_next (s : State) (c k : Nat) (w : Warp) : (s.setWarp c k w).next = s.next := rfl
@[simp] theorem setWarp_dies (s : State) (c k : Nat) (w : Warp) : (s.setWarp c k w).dies = s.dies := rfl
@[simp] theorem setWarp_graphs (s : State) (c k : Nat) (w : Warp) : (s.setWarp c k w).graphs = s.graphs := rfl
@[simp] theorem setWarp_spaces (s : State) (c k : Nat) (w : Warp) : (s.setWarp c k w).spaces = s.spaces := rfl
@[simp] theorem setWarp_mem (s : State) (c k : Nat) (w : Warp) : (s.setWarp c k w).mem = s.mem := rfl
@[simp] theorem setWarp_poison (s : State) (c k : Nat) (w : Warp) : (s.setWarp c k w).poison = s.poison := rfl
@[simp] theorem setWarp_versions (s : State) (c k : Nat) (w : Warp) : (s.setWarp c k w).versions = s.versions := rfl
@[simp] theorem setWarp_lost (s : State) (c k : Nat) (w : Warp) : (s.setWarp c k w).lost = s.lost := rfl
@[simp] theorem setWarp_covered (s : State) (c k : Nat) (w : Warp) : (s.setWarp c k w).covered = s.covered := rfl
@[simp] theorem setWarp_full (s : State) (c k : Nat) (w : Warp) : (s.setWarp c k w).full = s.full := rfl
@[simp] theorem setWarp_reqs (s : State) (c k : Nat) (w : Warp) : (s.setWarp c k w).reqs = s.reqs := rfl
@[simp] theorem setWarp_fills (s : State) (c k : Nat) (w : Warp) : (s.setWarp c k w).fills = s.fills := rfl
@[simp] theorem setWarp_stashFills (s : State) (c k : Nat) (w : Warp) : (s.setWarp c k w).stashFills = s.stashFills := rfl
@[simp] theorem setWarp_asksFailed (s : State) (c k : Nat) (w : Warp) : (s.setWarp c k w).asksFailed = s.asksFailed := rfl
@[simp] theorem setWarp_splits (s : State) (c k : Nat) (w : Warp) : (s.setWarp c k w).splits = s.splits := rfl
@[simp] theorem setWarp_batches (s : State) (c k : Nat) (w : Warp) : (s.setWarp c k w).batches = s.batches := rfl
@[simp] theorem setWarp_owns (s : State) (c k : Nat) (w : Warp) : (s.setWarp c k w).owns = s.owns := rfl
@[simp] theorem setWarp_commits (s : State) (c k : Nat) (w : Warp) : (s.setWarp c k w).commits = s.commits := rfl
@[simp] theorem setWarp_decrs (s : State) (c k : Nat) (w : Warp) : (s.setWarp c k w).decrs = s.decrs := rfl
@[simp] theorem setWarp_retires (s : State) (c k : Nat) (w : Warp) : (s.setWarp c k w).retires = s.retires := rfl
@[simp] theorem setWarp_crossings (s : State) (c k : Nat) (w : Warp) : (s.setWarp c k w).crossings = s.crossings := rfl
@[simp] theorem setWarp_credits (s : State) (c k : Nat) (w : Warp) : (s.setWarp c k w).credits = s.credits := rfl
@[simp] theorem setWarp_rowPkts (s : State) (c k : Nat) (w : Warp) : (s.setWarp c k w).rowPkts = s.rowPkts := rfl
@[simp] theorem setWarp_rowReturns (s : State) (c k : Nat) (w : Warp) : (s.setWarp c k w).rowReturns = s.rowReturns := rfl
@[simp] theorem setWarp_views (s : State) (c k : Nat) (w : Warp) : (s.setWarp c k w).views = s.views := rfl
@[simp] theorem setWarp_roundWaits (s : State) (c k : Nat) (w : Warp) : (s.setWarp c k w).roundWaits = s.roundWaits := rfl
@[simp] theorem setWarp_sysReplies (s : State) (c k : Nat) (w : Warp) : (s.setWarp c k w).sysReplies = s.sysReplies := rfl
@[simp] theorem setWarp_services (s : State) (c k : Nat) (w : Warp) : (s.setWarp c k w).services = s.services := rfl
@[simp] theorem setWarp_links (s : State) (c k : Nat) (w : Warp) : (s.setWarp c k w).links = s.links := rfl
@[simp] theorem setWarp_keySerial (s : State) (c k : Nat) (w : Warp) : (s.setWarp c k w).keySerial = s.keySerial := rfl
@[simp] theorem setWarp_ports (s : State) (c k : Nat) (w : Warp) : (s.setWarp c k w).ports = s.ports := rfl
@[simp] theorem setWarp_reachable (s : State) (c k : Nat) (w : Warp) : (s.setWarp c k w).reachable = s.reachable := rfl
@[simp] theorem setWarp_chipId (s : State) (c k : Nat) (w : Warp) : (s.setWarp c k w).chipId = s.chipId := rfl
@[simp] theorem setWarp_domainKeys (s : State) (c k : Nat) (w : Warp) : (s.setWarp c k w).domainKeys = s.domainKeys := rfl
@[simp] theorem setWarp_sendKey (s : State) (c k : Nat) (w : Warp) : (s.setWarp c k w).sendKey = s.sendKey := rfl
@[simp] theorem setWarp_portCount (s : State) (c k : Nat) (w : Warp) : (s.setWarp c k w).portCount = s.portCount := rfl
@[simp] theorem setWarp_fabricOut (s : State) (c k : Nat) (w : Warp) : (s.setWarp c k w).fabricOut = s.fabricOut := rfl
@[simp] theorem setWarp_fabricSent (s : State) (c k : Nat) (w : Warp) : (s.setWarp c k w).fabricSent = s.fabricSent := rfl
@[simp] theorem setWarp_exchange (s : State) (c k : Nat) (w : Warp) : (s.setWarp c k w).exchange = s.exchange := rfl
@[simp] theorem setWarp_powerCap (s : State) (c k : Nat) (w : Warp) : (s.setWarp c k w).powerCap = s.powerCap := rfl
@[simp] theorem setWarp_drainLimit (s : State) (c k : Nat) (w : Warp) : (s.setWarp c k w).drainLimit = s.drainLimit := rfl
@[simp] theorem setWarp_debugHold (s : State) (c k : Nat) (w : Warp) : (s.setWarp c k w).debugHold = s.debugHold := rfl
@[simp] theorem setWarp_eventAt (s : State) (c k : Nat) (w : Warp) : (s.setWarp c k w).eventAt = s.eventAt := rfl
@[simp] theorem setWarp_control (s : State) (c k : Nat) (w : Warp) : (s.setWarp c k w).control = s.control := rfl

/-! ### setFrame -/

@[simp] theorem setFrame_agenda (s : State) (c i : Nat) (f : Frame) : (s.setFrame c i f).agenda = s.agenda := rfl
@[simp] theorem setFrame_now (s : State) (c i : Nat) (f : Frame) : (s.setFrame c i f).now = s.now := rfl
@[simp] theorem setFrame_cur (s : State) (c i : Nat) (f : Frame) : (s.setFrame c i f).cur = s.cur := rfl
@[simp] theorem setFrame_next (s : State) (c i : Nat) (f : Frame) : (s.setFrame c i f).next = s.next := rfl
@[simp] theorem setFrame_dies (s : State) (c i : Nat) (f : Frame) : (s.setFrame c i f).dies = s.dies := rfl
@[simp] theorem setFrame_graphs (s : State) (c i : Nat) (f : Frame) : (s.setFrame c i f).graphs = s.graphs := rfl
@[simp] theorem setFrame_spaces (s : State) (c i : Nat) (f : Frame) : (s.setFrame c i f).spaces = s.spaces := rfl
@[simp] theorem setFrame_mem (s : State) (c i : Nat) (f : Frame) : (s.setFrame c i f).mem = s.mem := rfl
@[simp] theorem setFrame_poison (s : State) (c i : Nat) (f : Frame) : (s.setFrame c i f).poison = s.poison := rfl
@[simp] theorem setFrame_versions (s : State) (c i : Nat) (f : Frame) : (s.setFrame c i f).versions = s.versions := rfl
@[simp] theorem setFrame_lost (s : State) (c i : Nat) (f : Frame) : (s.setFrame c i f).lost = s.lost := rfl
@[simp] theorem setFrame_covered (s : State) (c i : Nat) (f : Frame) : (s.setFrame c i f).covered = s.covered := rfl
@[simp] theorem setFrame_full (s : State) (c i : Nat) (f : Frame) : (s.setFrame c i f).full = s.full := rfl
@[simp] theorem setFrame_reqs (s : State) (c i : Nat) (f : Frame) : (s.setFrame c i f).reqs = s.reqs := rfl
@[simp] theorem setFrame_fills (s : State) (c i : Nat) (f : Frame) : (s.setFrame c i f).fills = s.fills := rfl
@[simp] theorem setFrame_stashFills (s : State) (c i : Nat) (f : Frame) : (s.setFrame c i f).stashFills = s.stashFills := rfl
@[simp] theorem setFrame_asksFailed (s : State) (c i : Nat) (f : Frame) : (s.setFrame c i f).asksFailed = s.asksFailed := rfl
@[simp] theorem setFrame_splits (s : State) (c i : Nat) (f : Frame) : (s.setFrame c i f).splits = s.splits := rfl
@[simp] theorem setFrame_batches (s : State) (c i : Nat) (f : Frame) : (s.setFrame c i f).batches = s.batches := rfl
@[simp] theorem setFrame_owns (s : State) (c i : Nat) (f : Frame) : (s.setFrame c i f).owns = s.owns := rfl
@[simp] theorem setFrame_commits (s : State) (c i : Nat) (f : Frame) : (s.setFrame c i f).commits = s.commits := rfl
@[simp] theorem setFrame_decrs (s : State) (c i : Nat) (f : Frame) : (s.setFrame c i f).decrs = s.decrs := rfl
@[simp] theorem setFrame_retires (s : State) (c i : Nat) (f : Frame) : (s.setFrame c i f).retires = s.retires := rfl
@[simp] theorem setFrame_crossings (s : State) (c i : Nat) (f : Frame) : (s.setFrame c i f).crossings = s.crossings := rfl
@[simp] theorem setFrame_credits (s : State) (c i : Nat) (f : Frame) : (s.setFrame c i f).credits = s.credits := rfl
@[simp] theorem setFrame_rowPkts (s : State) (c i : Nat) (f : Frame) : (s.setFrame c i f).rowPkts = s.rowPkts := rfl
@[simp] theorem setFrame_rowReturns (s : State) (c i : Nat) (f : Frame) : (s.setFrame c i f).rowReturns = s.rowReturns := rfl
@[simp] theorem setFrame_views (s : State) (c i : Nat) (f : Frame) : (s.setFrame c i f).views = s.views := rfl
@[simp] theorem setFrame_roundWaits (s : State) (c i : Nat) (f : Frame) : (s.setFrame c i f).roundWaits = s.roundWaits := rfl
@[simp] theorem setFrame_sysReplies (s : State) (c i : Nat) (f : Frame) : (s.setFrame c i f).sysReplies = s.sysReplies := rfl
@[simp] theorem setFrame_services (s : State) (c i : Nat) (f : Frame) : (s.setFrame c i f).services = s.services := rfl
@[simp] theorem setFrame_links (s : State) (c i : Nat) (f : Frame) : (s.setFrame c i f).links = s.links := rfl
@[simp] theorem setFrame_keySerial (s : State) (c i : Nat) (f : Frame) : (s.setFrame c i f).keySerial = s.keySerial := rfl
@[simp] theorem setFrame_ports (s : State) (c i : Nat) (f : Frame) : (s.setFrame c i f).ports = s.ports := rfl
@[simp] theorem setFrame_reachable (s : State) (c i : Nat) (f : Frame) : (s.setFrame c i f).reachable = s.reachable := rfl
@[simp] theorem setFrame_chipId (s : State) (c i : Nat) (f : Frame) : (s.setFrame c i f).chipId = s.chipId := rfl
@[simp] theorem setFrame_domainKeys (s : State) (c i : Nat) (f : Frame) : (s.setFrame c i f).domainKeys = s.domainKeys := rfl
@[simp] theorem setFrame_sendKey (s : State) (c i : Nat) (f : Frame) : (s.setFrame c i f).sendKey = s.sendKey := rfl
@[simp] theorem setFrame_portCount (s : State) (c i : Nat) (f : Frame) : (s.setFrame c i f).portCount = s.portCount := rfl
@[simp] theorem setFrame_fabricOut (s : State) (c i : Nat) (f : Frame) : (s.setFrame c i f).fabricOut = s.fabricOut := rfl
@[simp] theorem setFrame_fabricSent (s : State) (c i : Nat) (f : Frame) : (s.setFrame c i f).fabricSent = s.fabricSent := rfl
@[simp] theorem setFrame_exchange (s : State) (c i : Nat) (f : Frame) : (s.setFrame c i f).exchange = s.exchange := rfl
@[simp] theorem setFrame_powerCap (s : State) (c i : Nat) (f : Frame) : (s.setFrame c i f).powerCap = s.powerCap := rfl
@[simp] theorem setFrame_drainLimit (s : State) (c i : Nat) (f : Frame) : (s.setFrame c i f).drainLimit = s.drainLimit := rfl
@[simp] theorem setFrame_debugHold (s : State) (c i : Nat) (f : Frame) : (s.setFrame c i f).debugHold = s.debugHold := rfl
@[simp] theorem setFrame_eventAt (s : State) (c i : Nat) (f : Frame) : (s.setFrame c i f).eventAt = s.eventAt := rfl
@[simp] theorem setFrame_control (s : State) (c i : Nat) (f : Frame) : (s.setFrame c i f).control = s.control := rfl

/-! ### Lookups after updates -/

@[simp] theorem core_setCore_same (s : State) (c : Nat) (k : Core) : (s.setCore c k).core c = k := by
  simp [State.setCore, State.core]

theorem core_setCore_ne (s : State) {c d : Nat} (k : Core) (h : d ≠ c) : (s.setCore c k).core d = s.core d := by
  simp [State.setCore, State.core, Map.getD_put_ne _ _ _ h]

@[simp] theorem die_setDie_same (s : State) (d : Nat) (x : Die) : (s.setDie d x).die d = x := by
  simp [State.setDie, State.die]

theorem die_setDie_ne (s : State) {c d : Nat} (x : Die) (h : c ≠ d) : (s.setDie d x).die c = s.die c := by
  simp [State.setDie, State.die, Map.getD_put_ne _ _ _ h]

@[simp] theorem core_setDie (s : State) (d : Nat) (x : Die) (c : Nat) : (s.setDie d x).core c = s.core c := rfl
@[simp] theorem core_setGraph (s : State) (g : Nat) (x : Graph) (c : Nat) : (s.setGraph g x).core c = s.core c := rfl
@[simp] theorem die_setCore (s : State) (c : Nat) (k : Core) (d : Nat) : (s.setCore c k).die d = s.die d := rfl
@[simp] theorem die_setGraph (s : State) (g : Nat) (x : Graph) (d : Nat) : (s.setGraph g x).die d = s.die d := rfl
@[simp] theorem graph?_setCore (s : State) (c : Nat) (k : Core) (g : Nat) : (s.setCore c k).graph? g = s.graph? g := rfl
@[simp] theorem graph?_setDie (s : State) (d : Nat) (x : Die) (g : Nat) : (s.setDie d x).graph? g = s.graph? g := rfl
@[simp] theorem block?_setCore (s : State) (c : Nat) (k : Core) (g b : Nat) : (s.setCore c k).block? g b = s.block? g b := rfl
@[simp] theorem block?_setDie (s : State) (d : Nat) (x : Die) (g b : Nat) : (s.setDie d x).block? g b = s.block? g b := rfl
@[simp] theorem frame?_setDie (s : State) (d : Nat) (x : Die) (c i : Nat) : (s.setDie d x).frame? c i = s.frame? c i := rfl
@[simp] theorem warp?_setDie (s : State) (d : Nat) (x : Die) (c k : Nat) : (s.setDie d x).warp? c k = s.warp? c k := rfl
@[simp] theorem die_setWarp (s : State) (c k : Nat) (w : Warp) (d : Nat) : (s.setWarp c k w).die d = s.die d := rfl
@[simp] theorem die_setFrame (s : State) (c i : Nat) (f : Frame) (d : Nat) : (s.setFrame c i f).die d = s.die d := rfl
@[simp] theorem graph?_setWarp (s : State) (c k : Nat) (w : Warp) (g : Nat) : (s.setWarp c k w).graph? g = s.graph? g := rfl
@[simp] theorem graph?_setFrame (s : State) (c i : Nat) (f : Frame) (g : Nat) : (s.setFrame c i f).graph? g = s.graph? g := rfl
@[simp] theorem block?_setWarp (s : State) (c k : Nat) (w : Warp) (g b : Nat) : (s.setWarp c k w).block? g b = s.block? g b := rfl
@[simp] theorem block?_setFrame (s : State) (c i : Nat) (f : Frame) (g b : Nat) : (s.setFrame c i f).block? g b = s.block? g b := rfl

@[simp] theorem graph?_setGraph_same (s : State) (g : Nat) (x : Graph) : (s.setGraph g x).graph? g = some x := by
  simp [State.setGraph, State.graph?]

theorem graph?_setGraph_ne (s : State) {g h : Nat} (x : Graph) (n : h ≠ g) : (s.setGraph g x).graph? h = s.graph? h := by
  simp [State.setGraph, State.graph?, Map.find?_put_ne _ _ n]

@[simp] theorem core_setWarp_same (s : State) (c k : Nat) (w : Warp) :
    (s.setWarp c k w).core c = { s.core c with warps := Map.put (s.core c).warps k w } := by simp [State.setWarp]

theorem core_setWarp_ne (s : State) {c d : Nat} (k : Nat) (w : Warp) (h : d ≠ c) : (s.setWarp c k w).core d = s.core d := by
  simp [State.setWarp, core_setCore_ne _ _ h]

@[simp] theorem core_setFrame_same (s : State) (c i : Nat) (f : Frame) :
    (s.setFrame c i f).core c = { s.core c with frames := Map.put (s.core c).frames i f } := by simp [State.setFrame]

theorem core_setFrame_ne (s : State) {c d : Nat} (i : Nat) (f : Frame) (h : d ≠ c) : (s.setFrame c i f).core d = s.core d := by
  simp [State.setFrame, core_setCore_ne _ _ h]

@[simp] theorem warp?_setWarp_same (s : State) (c k : Nat) (w : Warp) : (s.setWarp c k w).warp? c k = some w := by
  simp [State.warp?]

theorem warp?_setWarp_ne (s : State) {c k k' : Nat} (w : Warp) (h : k' ≠ k) : (s.setWarp c k w).warp? c k' = s.warp? c k' := by
  simp [State.warp?, Map.find?_put_ne _ _ h]

@[simp] theorem frame?_setFrame_same (s : State) (c i : Nat) (f : Frame) : (s.setFrame c i f).frame? c i = some f := by
  simp [State.frame?]

theorem frame?_setFrame_ne (s : State) {c i j : Nat} (f : Frame) (h : j ≠ i) : (s.setFrame c i f).frame? c j = s.frame? c j := by
  simp [State.frame?, Map.find?_put_ne _ _ h]

@[simp] theorem frame?_setWarp (s : State) (c k : Nat) (w : Warp) (d i : Nat) : (s.setWarp c k w).frame? d i = s.frame? d i := by
  by_cases h : d = c
  · subst h; simp [State.frame?]
  · simp [State.frame?, core_setWarp_ne _ _ _ h]

@[simp] theorem warp?_setFrame (s : State) (c i : Nat) (f : Frame) (d k : Nat) : (s.setFrame c i f).warp? d k = s.warp? d k := by
  by_cases h : d = c
  · subst h; simp [State.warp?]
  · simp [State.warp?, core_setFrame_ne _ _ _ h]

end Sys2Proof.Machine
end

