-- ==== Sys2Proof/Laws/Ops.lean ====
section
/-! SUPPORT. What the shared operations on tokens, warps and frames leave alone: memory, and what an issue changes. -/
namespace Sys2Proof.Machine

/-- A fold of operations that keep memory keeps memory. -/
theorem foldl_mem {α : Type} (f : State → α → State) (h : ∀ s a, (f s a).mem = s.mem) (l : List α) (s : State) :
    (l.foldl f s).mem = s.mem := by
  induction l generalizing s with
  | nil => rfl
  | cons a t ih => simp [List.foldl_cons, ih, h]

@[simp] theorem count_mem (s : State) (c sysn i n : Nat) : (s.count c sysn i n).mem = s.mem := rfl
@[simp] theorem issued_mem (s : State) (c k : Nat) (w : Warp) : (s.issued c k w).mem = s.mem := rfl
@[simp] theorem stalled_mem (s : State) (c k : Nat) (w : Warp) : (s.stalled c k w).mem = s.mem := rfl
@[simp] theorem stalledOn_mem (s : State) (c k : Nat) (w : Warp) (e : Bool) : (s.stalledOn c k w e).mem = s.mem := rfl
@[simp] theorem inject_mem (s : State) (c : Nat) (p : Packet) : (s.inject c p).mem = s.mem := rfl
@[simp] theorem sendToken_mem (s : State) (c : Nat) (t : Token) : (s.sendToken c t).mem = s.mem := rfl
@[simp] theorem countDie_mem (s : State) (d i n : Nat) : (s.countDie d i n).mem = s.mem := rfl
@[simp] theorem fabric_mem (s : State) (chip cls : Nat) (b : List Byte) : (s.fabric chip cls b).mem = s.mem := rfl
@[simp] theorem countFlits_mem (s : State) (ds : List Nat) (n : Nat) : (s.countFlits ds n).mem = s.mem := rfl
@[simp] theorem addReq_mem (s : State) (r : Req) : (s.addReq r).mem = s.mem := rfl
@[simp] theorem keepRecs_mem (s : State) (c : Nat) (f : CarafeRec → Bool) : (s.keepRecs c f).mem = s.mem := rfl
@[simp] theorem moveCredits_mem (s : State) (ds : List Nat) (d : Nat) (b : Bool) : (s.moveCredits ds d b).mem = s.mem := rfl
@[simp] theorem freeLog_mem (s : State) (c n : Nat) : (s.freeLog c n).mem = s.mem := rfl
@[simp] theorem trace_mem (s : State) (c g ty b : Nat) : (s.trace c g ty b).mem = s.mem := rfl
@[simp] theorem dropAsks_mem (s : State) (c g : Nat) : (s.dropAsks c g).mem = s.mem := rfl
@[simp] theorem forgetWarp_mem (s : State) (c k : Nat) : (s.forgetWarp c k).mem = s.mem := rfl

@[simp] theorem sendOff_mem (s : State) (chip : Nat) (t : Token) : (s.sendOff chip t).mem = s.mem := by
  unfold State.sendOff; split <;> rfl

@[simp] theorem arrive_mem (s : State) (p : Packet) : (s.arrive p).mem = s.mem := by
  unfold State.arrive; split <;> simp

/-- A write of the hardware is sent toward its home: memory changes when it performs there (R194). -/
@[simp] theorem hwStore_mem (s : State) (c g va : Nat) (d : List Byte) : (s.hwStore c g va d).mem = s.mem := by
  unfold State.hwStore; split <;> rfl

@[simp] theorem hwWrite_mem (s : State) (c g va : Nat) (d : List Byte) : (s.hwWrite c g va d).mem = s.mem :=
  foldl_mem _ (fun a _ => hwStore_mem a _ _ _ _) _ _

@[simp] theorem writeImage_mem (s : State) (c i : Nat) (old : List Byte) (f : Frame) : (s.writeImage c i old f).mem = s.mem := by
  unfold State.writeImage
  split
  · rfl
  · exact foldl_mem _ (fun a p => by split <;> simp) _ _

/-- A frame changes in frame memory, or by writes of the hardware that are still on their way (R15, R192). -/
@[simp] theorem storeFrame_mem (s : State) (c i : Nat) (f : Frame) : (s.storeFrame c i f).mem = s.mem := by
  unfold State.storeFrame; dsimp only; split <;> simp

@[simp] theorem setChain_mem (s : State) (c i : Nat) (l : List ChainRec) : (s.setChain c i l).mem = s.mem := by
  unfold State.setChain
  split
  · rfl
  · dsimp only
    split
    · rfl
    · rw [foldl_mem _ (fun a p => by split <;> simp)]; rfl

@[simp] theorem startAging_mem (s : State) (c g : Nat) : (s.startAging c g).mem = s.mem := by
  unfold State.startAging; split <;> rfl

@[simp] theorem later_mem (s : State) (x : Option Charge) : (s.later x).mem = s.mem := by
  unfold State.later; split <;> rfl

@[simp] theorem report_mem (s : State) (c : Nat) (r : FaultRec) : (s.report c r).mem = s.mem := by
  unfold State.report; split <;> rfl

theorem grantCrossings_mem (l : List Crossing) (s : State) : (grantCrossings l s).mem = s.mem := by
  induction l generalizing s with
  | nil => rfl
  | cons x t ih =>
    simp only [grantCrossings]
    split
    · rw [ih]; rfl
    · rw [ih]

@[simp] theorem settle_mem (s : State) : s.settle.mem = s.mem := grantCrossings_mem _ _

@[simp] theorem launchPkt_mem (s : State) (p : Packet) : (s.launchPkt p).mem = s.mem := by
  unfold State.launchPkt; split <;> simp

@[simp] theorem sendFrom_mem (s : State) (d : Nat) (t : Token) : (s.sendFrom d t).mem = s.mem := launchPkt_mem _ _

@[simp] theorem becomeReady_mem (s : State) (c i j : Nat) : (s.becomeReady c i j).mem = s.mem := by
  unfold State.becomeReady
  split
  · rfl
  · split
    · rfl
    · dsimp only; split <;> simp

theorem evalGates_mem (n : Nat) (s : State) (c i : Nat) (p : Path) (j : Nat) : (s.evalGates c i p n j).mem = s.mem := by
  induction n generalizing s j with
  | zero => rfl
  | succ n ih =>
    simp only [State.evalGates]
    rw [ih]
    split
    · rfl
    · split
      · rfl
      · split
        · rfl
        · split <;> simp

theorem runWatches_mem (l : List ChainRec) (s : State) (c i : Nat) (p : Option Path) : (s.runWatches c i p l).mem = s.mem := by
  induction l generalizing s with
  | nil => rfl
  | cons r t ih =>
    simp only [State.runWatches]
    rw [ih]
    split
    · simp only [apply_ite State.mem, sendToken_mem, freeLog_mem, setChain_mem, ite_self]
    · rfl

@[simp] theorem discharge_mem (s : State) (x : Charge) : (s.discharge x).mem = s.mem := by
  simp only [State.discharge]
  split
  · rfl
  · split
    · rfl
    · rw [runWatches_mem, evalGates_mem, storeFrame_mem]

@[simp] theorem dischargeAll_mem (s : State) (xs : List Charge) : (s.dischargeAll xs).mem = s.mem := foldl_mem _ discharge_mem xs s
@[simp] theorem endCharge_mem (s : State) (t : Token) : (s.endCharge t).mem = s.mem := dischargeAll_mem s t.charges

@[simp] theorem setEntry_mem (s : State) (c i j : Nat) (f : Entry → Entry) : (s.setEntry c i j f).mem = s.mem := by
  unfold State.setEntry; split <;> simp

@[simp] theorem enterCarafe_mem (s : State) (c i j : Nat) : (s.enterCarafe c i j).mem = s.mem := by
  unfold State.enterCarafe
  split
  · rfl
  · dsimp only
    (repeat' split) <;> simp

@[simp] theorem giveBack_mem (s : State) (c g : Nat) (t : Taken) : (s.giveBack c g t).mem = s.mem := by
  cases t
  case rowEngine => simp only [State.giveBack]; split <;> rfl
  all_goals simp [State.giveBack]

/-- An abort writes no memory (R34). -/
@[simp] theorem abort_mem (s : State) (c k : Nat) (w : Warp) (cause : Nat) (held : List Nat) : (s.abort c k w cause held).mem = s.mem := by
  unfold State.abort
  dsimp only
  rw [foldl_mem _ (fun a p => by split <;> simp [apply_ite State.mem]), foldl_mem _ (fun a l => foldl_mem _ (fun b x => later_mem b _) _ _)]
  split <;> simp [foldl_mem _ (fun a t => giveBack_mem a c w.graph t)]

/-- Taking an instance fault writes no memory (R34, R359). -/
@[simp] theorem takeFault_mem (s : State) (c k : Nat) (w : Warp) (xs : List LaneFault) : (s.takeFault c k w xs).mem = s.mem := by
  unfold State.takeFault
  rw [foldl_mem _ (fun a x => report_mem a _ _), abort_mem]

@[simp] theorem takeWarpFault_mem (s : State) (c k : Nat) (w : Warp) (code addr : Nat) : (s.takeWarpFault c k w code addr).mem = s.mem :=
  takeFault_mem _ _ _ _ _

@[simp] theorem stray_mem (s : State) (c fp b i ident : Nat) : (s.stray c fp b i ident).mem = s.mem := by
  unfold State.stray
  dsimp only
  split
  · rfl
  · split
    · rfl
    · simp

@[simp] theorem landAt_mem (s : State) (c : Nat) (t : Token) (h : Header) (e : Option Nat) (fresh : Bool) :
    (s.landAt c t h e fresh).mem = s.mem := by
  unfold State.landAt
  dsimp only
  split
  · rfl
  · cases e with
    | none => simp only [storeFrame_mem, count_mem, apply_ite State.mem, ite_self]
    | some j => simp only [becomeReady_mem, storeFrame_mem, count_mem, apply_ite State.mem, ite_self]

@[simp] theorem askPass_mem (s : State) (c i : Nat) : (s.askPass c i).mem = s.mem := by
  unfold State.askPass; split <;> rfl

@[simp] theorem clearInputs_mem (s : State) (c i j : Nat) : (s.clearInputs c i j).mem = s.mem := by
  unfold State.clearInputs
  split
  · rfl
  · dsimp only
    split
    · simp
    · split <;> simp

@[simp] theorem charge_mem {s t : State} {c i : Nat} {p : Path} {x : Charge} (h : s.charge c i p = some (t, x)) : t.mem = s.mem := by
  unfold State.charge at h
  split at h
  · cases h; rfl
  · split at h
    · cases h
    · cases h; simp

@[simp] theorem withWarp_none (s : State) (f : Nat → Nat → Warp → Host.Outcome State Fault Refusal) (h : s.cur = none) :
    withWarp s f = .fault .noWarp := by
  unfold withWarp; rw [h]

end Sys2Proof.Machine
end

