-- ==== Sys2Proof/Laws/Issue.lean ====
section
/-! SUPPORT. What each shared instruction form answers for the warp in turn: one lemma per form, so that no proof about an
instruction unfolds the form it goes through. -/
namespace Sys2Proof.Machine

/-- With a warp in turn, an instruction is its meaning for that warp. -/
theorem withWarp_inTurn {s : State} {c k : Nat} {w : Warp} (h : State.InTurn s c k w)
    (f : Nat → Nat → Warp → Host.Outcome State Fault Refusal) : withWarp s f = f c k w := by
  simp [withWarp, h.1, h.2]

/-- An instruction that answers a next state had a warp in turn, and is its meaning for that warp. -/
theorem withWarp_next {s t : State} {f : Nat → Nat → Warp → Host.Outcome State Fault Refusal}
    (h : withWarp s f = .next t) : ∃ c k w, State.InTurn s c k w ∧ f c k w = .next t := by
  unfold withWarp at h
  split at h
  · cases h
  · rename_i c k hc
    split at h
    · cases h
    · rename_i w hw
      exact ⟨c, k, w, ⟨hc, hw⟩, h⟩

theorem warpStep_inTurn {s : State} {c k : Nat} {w : Warp} (h : State.InTurn s c k w) (f : View → Warp) :
    warpStep s f = .next (s.issued c k (f (s.view c w))) := withWarp_inTurn h _

theorem laneStep_inTurn {s : State} {c k : Nat} {w : Warp} (h : State.InTurn s c k w) (g : Guard) (d : Sel) (n : Nat)
    (f : View → Nat → Nat) : laneStep s g d n f = .next (s.wrote c k w g d n (f (s.view c w))) := warpStep_inTurn h _

theorem floatStep_inTurn {s : State} {c k : Nat} {w : Warp} (h : State.InTurn s c k w) (g : Guard) (d : Sel) (t : Ty)
    (f : View → Nat → List Nat) : floatStep s g d t f = .next (s.wroteFloat c k w g d t (f (s.view c w))) := warpStep_inTurn h _

theorem readForm_inTurn {s : State} {c k : Nat} {w : Warp} (h : State.InTurn s c k w) (a : FmtS) (n : Nat)
    (f : Nat → Warp → View → Nat) :
    readForm s a n f = .next (s.issued c k (w.write w.lanes a.opnd n (fun _ => f c w (s.view c w)))) := withWarp_inTurn h _

/-- An act is left for commit where its check passes; else the warp takes an illegal-instruction fault (R336). -/
theorem actForm_inTurn {s : State} {c k : Nat} {w : Warp} (h : State.InTurn s c k w) (ok : Nat → Warp → View → Bool)
    (f : View → AtCommit) :
    actForm s ok f = .next (if ok c w (s.view c w) then s.acted c k w (f (s.view c w)) else s.takeWarpFault c k w 0x02 0) := by
  rw [actForm, withWarp_inTurn h]
  dsimp only
  split <;> rfl

theorem rowForm_inTurn {s : State} {c k : Nat} {w : Warp} (h : State.InTurn s c k w)
    (f : Nat → Nat → Warp → View → Host.Outcome State Fault Refusal) :
    rowForm s f = if s.mayRow c w then f c k w (s.view c w) else .next (s.stalled c k w) := withWarp_inTurn h _

theorem sparseForm_inTurn {s : State} {c k : Nat} {w : Warp} (h : State.InTurn s c k w)
    (f : Nat → Nat → Warp → View → Host.Outcome State Fault Refusal) :
    sparseForm s f = if (s.core c).row.freeFor w.graph then f c k w (s.view c w) else .next (s.stalled c k w) := withWarp_inTurn h _

theorem bufferStep_eq (s : State) (c k : Nat) (w : Warp) (xs : List StoreSlot) : bufferStep s c k w xs = .next (s.buffered c k w xs) := rfl

theorem storeForm_inTurn {s : State} {c k : Nat} {w : Warp} (h : State.InTurn s c k w) (m : FmtM) (l' p : Bool) (ea : View → Nat → Nat) :
    storeForm s m l' p ea = .next (s.buffered c k w ((w.active m.g).map (fun l =>
      ⟨m.lsid, l, ea (s.view c w) l, m.size.bytes, .store (toBytes m.size.bytes ((s.view c w).rd l m.size.words m.data)) false,
        none, l', m.hint, p⟩))) := withWarp_inTurn h _

theorem bareForm_inTurn {s : State} {c k : Nat} {w : Warp} (h : State.InTurn s c k w) (m : FmtM) (n : Nat) (kind : ReqKind) :
    bareForm s m n kind = .next (s.buffered c k w ((w.active m.g).map (fun l =>
      ⟨m.lsid, l, alignTo (max n 1) ((s.view c w).ea l m false), n, kind, none, false, .normal, false⟩))) := withWarp_inTurn h _

/-- An access with replies goes into the commit buffer, or its lanes with a bad reply word fault (R63, R215). -/
theorem replyForm_inTurn {s : State} {c k : Nat} {w : Warp} (h : State.InTurn s c k w) (m : FmtM) (n : Nat)
    (kind : List Word → ReqKind) :
    replyForm s m n kind =
      let x := s.view c w
      let ls := w.active m.g
      let bad := s.badReplies x m false m.size.bytes ls
      .next (if bad.isEmpty then s.buffered c k w (ls.map (fun l =>
          ⟨m.lsid, l, alignTo m.size.bytes (x.ea l m true), m.size.bytes,
            kind ((List.range n).map (fun j => BitVec.ofNat 32 (x.rd l n m.data / 2 ^ (32 * j)))),
            s.replyOf x l m false m.size.bytes m.scope, false, .normal, false⟩))
        else s.takeFault c k w bad) := by
  rw [replyForm, withWarp_inTurn h]
  dsimp only
  cases List.isEmpty (s.badReplies (s.view c w) m false m.size.bytes (w.active m.g)) <;> rfl

/-- An emit of path L places its tokens in the commit buffer, or the lanes with a bad frame pointer fault (R281). -/
theorem emitForm_inTurn {s : State} {c k : Nat} {w : Warp} (h : State.InTurn s c k w) (a : FmtE) (val : View → Nat → Nat) :
    emitForm s a val =
      let x := s.view c w
      let ls := sendingLanes w a
      let bad := ls.filter (fun l => badFp (x.rd l 1 a.frm))
      .next (if bad.isEmpty then s.issued c k { w with emits := w.emits ++ ls.map (fun l =>
          Emitted.token a.edge l none (relOf a.scope (s.edge w a.edge) c (fpCore (x.rd l 1 a.frm)))
            (s.tokenE x l a (s.edge w a.edge) (relOf a.scope (s.edge w a.edge) c (fpCore (x.rd l 1 a.frm)))
              (x.rd l 1 a.frm) (val x l) (!w.guard a.g l))) }
        else s.takeFault c k w (bad.map (fun l => ⟨l, 0x05, 0⟩))) := by
  rw [emitForm, withWarp_inTurn h]
  dsimp only
  cases List.isEmpty ((sendingLanes w a).filter (fun l => badFp ((s.view c w).rd l 1 a.frm))) <;> rfl

/-- An engine command waits for an entry, faults on its check, or joins the acts of commit (R271, R293). -/
theorem engineForm_inTurn {s : State} {c k : Nat} {w : Warp} (h : State.InTurn s c k w) (a : FmtG) (kind : EngKind)
    (check : Nat → Warp → List Word → Option Nat) (more : Warp → List Word → EngCmd → EngCmd) :
    engineForm s a kind check more = .next (match s.reserveEngine c w a.path with
      | none => s.stalledOn c k w (s.engineFull c)
      | some (s1, x) =>
        let w1 := { w with taken := w.taken ++ [Taken.engine x] }
        match check c w (w.descriptor a.desc) with
        | some code => s1.takeWarpFault c k w1 code 0
        | none => s1.acted c k w1 (.engine (more w (w.descriptor a.desc) { s.blankCmd w kind x (w.descriptor a.desc) with
            flags := a.flags, subop := a.subop, rblock := a.rblock, rslot := a.rslot, rscope := a.rscope, rcomb := a.rcomb }))) := by
  rw [engineForm, withWarp_inTurn h]
  dsimp only
  cases s.reserveEngine c w a.path with
  | none => rfl
  | some p => cases check c w (w.descriptor a.desc) <;> rfl

/-- A sparse engine command faults on its descriptor, waits for an entry, or joins the acts of commit (R239, R271). -/
theorem sparseEngine_eq (s : State) (c k : Nat) (w : Warp) (bad : Bool) (mk : Charge → EngCmd) :
    sparseEngine s c k w bad mk = .next (if bad then s.takeWarpFault c k w 0x02 0 else
      match s.reserveEngine c w .e with
      | none => s.stalledOn c k w (s.engineFull c)
      | some (s1, x) => s1.acted c k { w with taken := w.taken ++ [Taken.engine x] } (.engine (mk x))) := by
  unfold sparseEngine
  cases bad with
  | true => rfl
  | false => cases s.reserveEngine c w .e <;> rfl

/-- What a load form answers: a fault of the lanes with a bad reply word, a wait, or the warp past its load (R216). -/
theorem loadForm_eq (s : State) (m : FmtM) (c k : Nat) (w : Warp) (ea : View → Nat → Nat) (how : Nat → LoadHow) :
    loadForm s m c k w ea how =
      let x := s.view c w
      let ls := w.active m.g
      let bad := if m.data.isSlot then s.badReplies x m true m.size.bytes ls else []
      if bad.isEmpty then afterLanes s c k w (overLanes (fun a l => a.loadLane c k l m (ea x l) (how (ea x l))
        (if m.data.isSlot then s.replyOf x l m true m.size.bytes .auto else none)) ls s)
      else .next (s.takeFault c k w bad) := by
  unfold loadForm
  dsimp only
  generalize (if m.data.isSlot then s.badReplies (s.view c w) m true m.size.bytes (w.active m.g) else []) = bad
  cases bad <;> rfl

/-- A running command is its sequence number's, has started, is not ready, and has its opcode. -/
theorem running_some {s : State} {seq op : Nat} {x : Cmd} (h : s.running seq op = some x) :
    Map.find? s.control.cmds seq = some x ∧ x.state = .started ∧ x.ready = false ∧ x.cmd.opcode = op := by
  unfold State.running at h
  split at h
  · cases h
  · rename_i y hy
    split at h
    · rename_i hc
      cases h
      simp only [Bool.and_eq_true, decide_eq_true_eq, Bool.not_eq_true', beq_iff_eq] at hc
      exact ⟨hy, hc.1.1, hc.1.2, hc.2⟩
    · cases h

/-- A query of the item that a running command names is ready with its answer (R376). -/
theorem queryCmd_running {s : State} {seq item : Nat} {x : Cmd} (f : State → Cmd → Nat) (h : s.running seq 7 = some x)
    (hi : bits (HostCommand.b x.cmd 0) 8 8 = item) : queryCmd seq item f s = .next (s.readyCmd seq false (f s x)) := by
  simp [queryCmd, h, hi]

/-- A debug command of the action that a running command names is done, or refused with 1 (R364). -/
theorem debugCmd_running {s : State} {seq action : Nat} {x : Cmd} (f : State → Nat → Option State) (h : s.running seq 11 = some x)
    (hi : HostCommand.b x.cmd 0 % 16 = action) :
    debugCmd seq action f s = .next (match f s (HostCommand.b x.cmd 1) with
      | some s1 => s1.readyCmd seq false 0
      | none => s.readyCmd seq false 1) := by
  simp only [debugCmd, h, hi]
  cases f s (HostCommand.b x.cmd 1) <;> simp

/-- A setting of the item that a running command names is done, or refused with 1 (R377). -/
theorem configCmd_running {s : State} {seq item : Nat} {x : Cmd} (f : State → HostCommand → Option State)
    (h : s.running seq 12 = some x) (hi : HostCommand.b x.cmd 0 % 16 = item) :
    configCmd seq item f s = .next (match f s x.cmd with
      | some s1 => s1.readyCmd seq false 0
      | none => s.readyCmd seq false 1) := by
  simp only [configCmd, h, hi]
  cases f s x.cmd <;> simp

/-- What a served command answers. -/
theorem servedCmd_next (seq : Nat) (r : Served) : ∃ t, servedCmd seq r = .next t := by
  cases r <;> exact ⟨_, rfl⟩

end Sys2Proof.Machine
end

