-- ==== Sys2Proof/Laws/Memory.lean ====
section
/-! SUPPORT. Every operation that writes memory keeps its canonical form, and reset memory has it. -/
namespace Sys2Proof.Machine

theorem memWrite_wf (m : List Host.Cell) (a : Nat) (b : Byte) (h : Memory.wf m = true) : Memory.wf (memWrite m a b) = true := by
  unfold Memory.wf at h ⊢
  rw [Bool.and_eq_true, List.all_eq_true] at h ⊢
  refine ⟨Map.wf_putD _ m a b h.1, ?_⟩
  intro c hc
  unfold memWrite Map.putD at hc
  split at hc
  · exact h.2 c (Map.mem_del hc)
  · next hb =>
    rcases Map.mem_put hc with h' | h'
    · subst h'; simpa using hb
    · exact h.2 c h'

theorem memWrites_wf (d : List Byte) (m : List Host.Cell) (a : Nat) (h : Memory.wf m = true) : Memory.wf (memWrites m a d) = true := by
  induction d generalizing m a with
  | nil => exact h
  | cons b t ih => exact ih _ _ (memWrite_wf m a b h)

/-- The one operation that writes memory keeps the invariant. -/
theorem homeWrite_inv (s : State) (pa : Nat) (d : List Byte) (p : Bool) (h : s.Inv) : (s.homeWrite pa d p).Inv :=
  memWrites_wf d s.mem pa h

/-- A state with the same memory meets the invariant too. -/
theorem inv_of_mem {s t : State} (h : s.Inv) (e : t.mem = s.mem) : t.Inv := by
  unfold State.Inv at h ⊢
  rw [e]; exact h

end Sys2Proof.Machine
end

