-- ==== Sys2Proof/Tests/Slice0.lean ====
section
/-! SUPPORT. Tests: words of the spec's cases decoded, an ill-formed instruction for each check, single results worked
out in the spec's cases, and for each obligation a state and operands that meet its hypotheses. -/
namespace Sys2Proof.Tests
set_option Elab.async false
open Sys2Proof Sys2Proof.Machine

/-! ### Decoding: words that the spec's cases spell out field by field -/

/-- Guarded always. -/
def al : Guard := ⟨false, 7⟩

theorem test_decode_integer_rows : -- cases of R77, chapter 20, R158, R166
    decode 0x1070201804046800 = .ok (.iadd ⟨al, .rne, .i32, .v 3, .v 1, .v 2, .zero, Mods.none⟩)
    ∧ decode 0x1470600C0C864900 = .ok (.imad ⟨al, .rne, .n32, .v 1, .f 3, .k 3, .k 9, Mods.none⟩)
    ∧ decode 0x2A70E4055FFFFFFD = .ok (.icmpi ⟨al, .i32, .p 2, .v 5, .lt, 0x1FFFFFFD⟩)
    ∧ decode 0x2674030100000001 = .ok (.shri ⟨al, .n32, .v 1, .f 1, 1⟩)
    ∧ decode 0x4572604820A26800 = .ok (.lanex ⟨al, .rot, .n32, .v 9, .v 8, .k 17, .zero, Mods.none⟩) := by decide

theorem test_decode_float : -- the case of R176
    decode 0x537A801804040410 = .ok (.ffma ⟨al, .sr, .f32, .v 3, .v 1, .v 2, .v 4, ⟨.none, .neg, .none, false⟩⟩) := by decide

theorem test_decode_emits_and_frames : -- cases of R77, chapter 22, R287
    decode 0x00300502021A8100 = .ok (.emit ⟨⟨false, 3⟩, 5, 2, .v 4, .fp, .auto, .none, true, .same, 0, 0⟩)
    ∧ decode 0x0290050480C10201 = .ok (.emitc ⟨⟨true, 1⟩, 5, 4, .f 1, .f 4, .auto, .addI32, false, .same, 0, 1⟩)
    ∧ decode 0x08700700028240D0 = .ok (.spawnq ⟨al, 7, 0, .v 5, .v 9, .auto, 0, .zero, 2, 0⟩) := by decide

theorem test_decode_memory : -- cases of R63, R225, R227, chapter 24
    decode 0x9970806682204000 = .ok (.readf ⟨al, 1, .auto, 0, false, .b8, .zero, .k 4, .normal, 0x4000⟩)
    ∧ decode 0x8170046040100000 = .ok (.ldb ⟨al, 0, .auto, 2, false, .b8, .v 4, .v 2, .normal, 0⟩)
    ∧ decode 0x9470004070108800 = .ok (.incw ⟨al, 0, .auto, 0, false, .b4, .v 7, .v 2, .normal, 34816⟩)
    ∧ decode 0x9B70E00683400000 = .ok (.fence ⟨al, 1, .package, 0, false, .b1, .zero, .zero, .normal, 0⟩)
    ∧ decode 0x9C70E00682100000 = .ok (.rounda ⟨al, 1, .package, 0, false, .b1, .zero, .k 2, .normal, 0⟩) := by decide

theorem test_decode_row_engine : -- cases of R244 and chapters 21 to 23
    decode 0x7270100CA0540500 = .ok (.rowp ⟨al, 0, 2, .v 3, .k 16, .k 20, 5, 0⟩)
    ∧ decode 0x7370094090680002 = .ok (.rows ⟨al, 0, 1, .k 16, .k 8, .zero, 0, 2⟩)
    ∧ decode 0x767000109C680003 = .ok (.accwb ⟨al, 0, 0, .v 4, .k 14, .zero, 0, 3⟩)
    ∧ decode 0x7E7001A88E070001 = .ok (.mxseq ⟨al, 0, 0, .fp, .k 7, .v 7, 0, 1⟩)
    ∧ decode 0x7870013090680000 = .ok (.iscfg ⟨al, 0, 0, .k 12, .k 8, .zero, 0, 0⟩)
    ∧ decode 0x79700140D0680000 = .ok (.isx ⟨al, 0, 0, .k 16, .zero, .zero, 0, 0⟩)
    ∧ decode 0x7B7000100C4A00C4 = .ok (.saccf ⟨al, 0, 0, .v 4, .v 6, .k 10, 0, 0xC4⟩)
    ∧ decode 0x7C70010090680003 = .ok (.nzscan ⟨al, 0, 0, .k 0, .k 8, .zero, 0, 3⟩) := by decide

theorem test_decode_engines : -- cases of chapters 23 and 24
    decode 0xA27800181A190000 = .ok (.gath ⟨al, 16, 3, 3, .f, 0, .package, .addI32, 0⟩)
    ∧ decode 0xA77800181A080005 = .ok (.dpost ⟨al, 16, 3, 3, .f, 0, .core, .none, 5⟩)
    ∧ decode 0xA878002022080005 = .ok (.dxch ⟨al, 16, 4, 4, .f, 0, .core, .none, 5⟩)
    ∧ decode 0xA078003040090000 = .ok (.cpy ⟨al, 16, 6, 8, .l, 0, .core, .addI32, 0⟩) := by decide

theorem test_decode_system : -- cases of R68 and R340
    decode 0xF071052800000000 = .ok (.sysrd ⟨al, 0x105, .k 16, 0⟩)
    ∧ decode 0xB170020180000029 = .ok (.hread ⟨al, 2, .v 3, 0x29⟩) := by decide

theorem test_decode_refusals : -- R53, R74, R176's case: a free code, a reserved selector, MOD 0x11; an ill-formed guard decodes
    decode 0x0F70201804046800 = .refused 1 ∧ decode 0x107020180400C800 = .refused 3 ∧ decode 0x537A801804040411 = .refused 0x0A
    ∧ (match decode 0x10F0201804046800 with | .ok i => i.reasons ⟨1, 8, [true], false⟩ | .refused _ => []) = [8] := by decide

/-! ### Ill-formed instructions: one for each check of R77 on a single instruction -/

/-- A block of one granule in a user graph of eight blocks, with edge 0 declared. -/
def ctx : BlockCtx := ⟨1, 8, [true], false⟩

/-- An addition, the well-formed instruction that the ill-formed ones differ from. -/
def add : FmtA := ⟨al, .rne, .i32, .v 3, .v 1, .v 2, .zero, Mods.none⟩
def addi : FmtI := ⟨al, .i32, .v 3, .v 1, 5⟩
def sys : FmtS := ⟨al, 0, .zero, 0⟩
def mem : FmtM := ⟨al, 0, .auto, 0, false, .b4, .v 3, .v 4, .normal, 0⟩
def eng : FmtG := ⟨al, 16, 1, 0, .l, 0, .auto, .none, 0⟩
def row : FmtX := ⟨al, 0, 0, .zero, .zero, .zero, 0, 0⟩
def emt : FmtE := ⟨al, 1, 0, .v 4, .fp, .auto, .none, false, .same, 0, 0⟩

theorem test_wellformed_terms :
    (Instr.iadd add).wellFormed ctx = true ∧ (Instr.iaddi addi).wellFormed ctx = true ∧ (Instr.nop sys).wellFormed ctx = true
    ∧ (Instr.ldg mem).wellFormed ctx = true ∧ (Instr.stg mem).wellFormed ctx = true ∧ (Instr.cpy eng).wellFormed ctx = true
    ∧ (Instr.accz row).wellFormed ctx = true ∧ (Instr.emit emt).wellFormed ctx = true := by decide

/-- Each refused for the reason of its check: reserved field, operand kinds and places, pairs and granules, type, mode,
guard, range, modifiers, immediate, block and edge, privilege. -/
theorem test_illformed_terms :
    [(Instr.nop { sys with imm := 1 }, 0x02), (.accz { row with flags := 1 }, 0x02),
     (.iadd { add with sc := .v 0 }, 0x04), (.iadd { add with dst := .p 0 }, 0x04), (.iadd { add with dst := .k 15 }, 0x04),
     (.iadd { add with sa := .p 0 }, 0x04), (.sel { add with sc := .v 1 }, 0x04), (.iaddc { add with sc := .p 7 }, 0x04),
     (.movp { add with dst := .v 1, sb := .zero }, 0x04), (.movki { addi with dst := .k 15, sa := .zero }, 0x04),
     (.poll ⟨al, .mask, .i32, .k 16, .v 1, .zero, .zero, Mods.none⟩, 0x04), (.ldg { mem with data := .k 16 }, 0x04),
     (.stg { mem with size := .b16, data := .k 16 }, 0x04), (.cas128 { mem with size := .b16, data := .k 16 }, 0x04),
     (.emit { emt with val := .p 1 }, 0x04), (.mxcfg { row with sa := .k 25 }, 0x04), (.rowp { row with sa := .v 1, sb := .k 17, sc := .v 2 }, 0x04),
     (.emitb { emt with frm := .v 0 }, 0x04), (.emitx { emt with frm := .f 1 }, 0x05),
     (.iadd { add with dst := .v 19 }, 0x05), (.iadd { add with ty := .i64, dst := .v 3, sa := .v 2, sb := .v 4 }, 0x05),
     (.stg { mem with size := .b16, data := .v 2 }, 0x05), (.cas128 { mem with size := .b16, data := .v 4 }, 0x05),
     (.iadd { add with ty := .f32 }, 0x06), (.iadd { add with rnd := .rtz }, 0x07),
     (.icmpi ⟨al, .i32, .p 2, .v 5, .ord, 0⟩, 0x07), (.nop { sys with g := ⟨false, 3⟩ }, 0x08), (.iadd { add with g := ⟨true, 7⟩ }, 0x08),
     (.accz { row with unit := 64 }, 0x09), (.cpy { eng with subop := 1 }, 0x09), (.ldg { mem with scope := .die }, 0x09),
     (.iadd { add with mods := ⟨.neg, .none, .none, false⟩ }, 0x0A), (.shli { addi with imm := 32 }, 0x0B),
     (.emit { emt with block := 8 }, 0x0C), (.emit { emt with edge := 1 }, 0x0C), (.jrnl { sys with opnd := .v 2 }, 0x11)].all
      (fun p => !(p.1.wellFormed ctx) && (p.1.reasons ctx).contains p.2) = true
    ∧ (Instr.fcvt ⟨al, .rne, .f32, .i64, .v 3, .v 1, .zero, Mods.none⟩).reasons ctx = [0x06] := by decide

/-! ### Results of single instructions, from the spec's cases -/

/-- The machine with one warp in turn: core 0, slot 0, its graph and block loaded. -/
def demo : State := { State.reset.placeWord 0 with agenda := [], cur := some (0, 0) }

/-- That machine with another warp in the slot. -/
def turn (w : Warp) : State := demo.setWarp 0 0 w

/-- A warp of n lanes of frame 0 with these lane registers (lane × 64 + number), uniform registers and predicates. -/
def lanesOf (n : Nat) (v k : Map Word) (p : Map Bool) : Warp :=
  { bareWarp with insts := List.replicate n ⟨0, 0, 0, 0, 0, 0, false, []⟩, v := v, k := k, p := p }

/-- The warp after an instruction, with nothing in it where the instruction did not complete. -/
def after (i : Instr) (w : Warp) : Warp :=
  match exec i (turn w) with
  | .next t => (t.warp? 0 0).getD { w with pc := 99 }
  | .fault _ | .refused _ => { w with pc := 99 }

/-- What holds of the next state, where an instruction has one. -/
def gets (i : Instr) (s : State) (f : State → Bool) : Bool :=
  match exec i s with
  | .next t => f t
  | .fault _ | .refused _ => false

/-- Register n of each lane after an instruction. -/
def gives (i : Instr) (w : Warp) (n : Nat) : List Nat := w.lanes.map (fun l => (after i w).reg l n)

def one (v : Map Word) : Warp := lanesOf 1 v [] []

theorem test_iadd_wraps_and_saturates : -- R152, R153
    gives (.iadd add) (one [(1, 0x7FFFFFFF), (2, 1)]) 3 = [0x80000000]
    ∧ gives (.iadd { add with mods := ⟨.none, .none, .none, true⟩ }) (one [(1, 0x7FFFFFFF), (2, 1)]) 3 = [0x7FFFFFFF] := by decide

theorem test_iaddc_carries : -- the case of R154
    let i := Instr.iaddc ⟨al, .rne, .n64, .v 0, .v 0, .v 4, .p 1, Mods.none⟩
    let w := one [(0, 0xFFFFFFFF), (1, 0xFFFFFFFF), (2, 5), (4, 1)]
    gives i w 0 = [0] ∧ gives i w 1 = [0] ∧ (after i w).pred 0 1 = true
    ∧ gives (.iaddc ⟨al, .rne, .n64, .v 2, .v 2, .v 6, .p 1, Mods.none⟩) (after i w) 2 = [6] := by decide

theorem test_icmpi_case : -- the case of R158
    (after (.icmpi ⟨al, .i32, .p 2, .v 5, .lt, 0x1FFFFFFD⟩) (one [(5, 0xFFFFFFF0)])).pred 0 2 = true := by decide

theorem test_bfx_case : -- the case of R160
    let bfx := fun t k => gives (.bfx ⟨al, .rne, t, .v 1, .v 2, .k 16, .zero, Mods.none⟩) (lanesOf 1 [(2, 0x0F50)] [(16, k)] []) 1
    bfx .i32 0x604 = [0xFFFFFFF5] ∧ bfx .n32 0x604 = [0x35] ∧ bfx .i32 0x61E = [0] := by decide

theorem test_bytsel_case : -- the case of R163
    gives (.bytsel ⟨al, .rne, .n32, .v 1, .v 2, .v 3, .k 16, Mods.none⟩)
      (lanesOf 1 [(2, 0x88442211), (3, 0xC0)] [(16, 0x14302303)] []) 1 = [0x0088FF88] := by decide

/-- The warp of the case of R168: v8 = 10 × lane in six lanes, p1 set but in lane 3, k17 = 2. -/
def six : Warp := lanesOf 6 [(72, 10), (136, 20), (200, 30), (264, 40), (328, 50)] [(17, 2)]
  [(1, true), (9, true), (17, true), (33, true), (41, true)]

theorem test_lanex_and_poll_case : -- the case of R168
    gives (.lanex ⟨⟨false, 1⟩, .rot, .n32, .v 9, .v 8, .k 17, .zero, Mods.none⟩) six 9 = [20, 30, 40, 0, 0, 10]
    ∧ gives (.poll ⟨⟨false, 1⟩, .mask, .n32, .v 10, .v 8, .zero, .zero, Mods.none⟩) six 10 = [0x36, 0x36, 0x36, 0, 0x36, 0x36]
    ∧ gives (.poll ⟨⟨false, 1⟩, .count, .n32, .v 11, .v 8, .zero, .zero, Mods.none⟩) six 11 = [4, 4, 4, 0, 4, 4] := by decide

theorem test_fscale_case : -- the case of R177
    let r := fun m => gives (.fscale ⟨al, m, .f32, .v 1, .v 2, .v 3, .zero, Mods.none⟩) (one [(2, 0x3F800000), (3, 0xFFFFFF6A)]) 1
    [r .rne, r .rna, r .rup, r .rtz, r .rdn] = [[0], [1], [1], [0], [0]] := by decide

theorem test_frcp_case : -- the case of R184
    let r := fun m => gives (.frcp ⟨al, m, .f32, .v 1, .v 2, .zero, .zero, Mods.none⟩) (one [(2, 0x40400000)]) 1
    [r .rne, r .rna, r .rup, r .rtz, r .rdn] = [[0x3EAAAAAB], [0x3EAAAAAB], [0x3EAAAAAB], [0x3EAAAAAA], [0x3EAAAAAA]] := by
  decide +kernel

theorem test_fcvt_case : -- the case of R104
    let r := fun m => gives (.fcvt ⟨al, m, .bf16, .f32, .v 1, .v 2, .zero, Mods.none⟩) (one [(2, 0x3F802000)]) 1
    [r .rne, r .rna, r .rtz, r .rdn, r .rup] = [[0x3F80], [0x3F80], [0x3F80], [0x3F80], [0x3F81]] := by decide

theorem test_f2i_case : -- the case of R186
    gives (.f2i ⟨al, .rne, .i8, .f32, .v 1, .v 2, .zero, Mods.none⟩)
      (lanesOf 4 [(2, 0xC348B333), (66, 0x7FC00000), (130, 0x7F800000), (194, 0x40200000)] [] []) 1 = [0xFFFFFF80, 0, 0x7F, 2] := by decide

/-- The warp of the case of R189. -/
def four : Warp := lanesOf 4 [(5, 0x3F800000), (69, 0xC0400000), (133, 0x43960000), (197, 0x3C23D70A)] [] []

theorem test_mxpack_case : -- the case of R189
    gives (.mxpack ⟨al, .rne, .e4m3, .f32, .v 6, .v 5, .zero, Mods.none⟩) four 6 = [0x7F38, 0x7FC4, 0x7F79, 0x7F05] := by decide

theorem test_mxunpk_case : -- the case of R189
    gives (.mxunpk ⟨al, .rne, .f32, .e4m3, .v 7, .v 6, .zero, Mods.none⟩)
      (after (.mxpack ⟨al, .rne, .e4m3, .f32, .v 6, .v 5, .zero, Mods.none⟩) four) 7
      = [0x3F800000, 0xC0400000, 0x43900000, 0x3C200000] := by decide

theorem test_cf8_case : -- the case of R116: the first two nibble bytes and stream bytes of a block of table A, base 7
    (cf8Block ((0x07 :: 0x92 :: 0x40 :: List.replicate 14 0) ++ [0xD2, 0x03] ++ List.replicate 4 0)).1.take 4 = [0x3A, 0xC1, 0x30, 0x04] := by
  decide +kernel

theorem test_atomics : -- cases of R225
    atomAct .faddb 4 0xFFFFFFF0 (0x20 + 2 ^ 32 * 0xFFFFFFFF) = (none, true)
    ∧ atomAct .faddb 4 0xFFFFFFF0 (0x0F + 2 ^ 32 * 0xFFFFFFFF) = (some 0xFFFFFFFF, false) := by decide

/-! ### Witnesses: for each obligation with hypotheses, a state and operands that meet them together -/

theorem inTurn (w : Warp) : State.InTurn (turn w) 0 0 w := ⟨rfl, by simp [turn]⟩

theorem witness_DecodeOfEncode :
    (Instr.iadd add).fits = true ∧ encode (.iadd add) = some 0x1070201804046800
    ∧ (Instr.sysrd ⟨al, 0xFFF, .f 255, 2 ^ 31 - 1⟩).fits = true ∧ (encode (.sysrd ⟨al, 0xFFF, .f 255, 2 ^ 31 - 1⟩)).isSome = true := by decide

theorem witness_EncodeOfDecode : 0x1070201804046800 < 2 ^ 64 ∧ decode 0x1070201804046800 = .ok (.iadd add) := by decide

theorem witness_FreeCodesRefused :
    bits 0x0F00000000000000 56 8 = 0x0F ∧ bits 0xFFFFFFFFFFFFFFFF 56 8 = 0xFF ∧ bits 0xC000000000000000 60 4 = 0xC
    ∧ bits 0xEFFFFFFFFFFFFFFF 60 4 = 0xE := by decide

/-- A warp whose next word is an addition, its issue scheduled: the step adds. -/
theorem witness_StepRunsTheDecodedInstruction :
    let s := State.reset.placeWord 0x1070201804046800
    s.agenda = [⟨0, .issue 0 0⟩] ∧ s.warp? 0 0 = some bareWarp ∧ bareWarp.phase = .issuing ∧ bareWarp.ended = false
    ∧ s.debugHold.contains (dieOf 0) = false ∧ (∀ x ∈ bareWarp.insts, (s.core 0).landed ≠ some (x.frame, s.now))
    ∧ Map.find? (s.core 0).issuedAt (0 / 16) ≠ some s.now ∧ s.slotWithheld 0 (0 / 16) = false
    ∧ Map.find? (s.core 0).lastIssued (0 / 16) = some 0
    ∧ State.hasTurn { s with agenda := [], cur := some (0, 0) } 0 0 bareWarp = true
    ∧ (s.block? 0 0).bind (fun b => b.code[0]?) = some 0x1070201804046800
    ∧ State.mustWait { s with agenda := [], cur := some (0, 0) } 0 bareWarp 0x1070201804046800 (.iadd add) = false := by decide

theorem witness_a_step_happens :
    (match step { State.reset with agenda := [⟨0, .happen .packageReset⟩] } with | .next t => t.agenda.isEmpty | _ => false) = true
    ∧ (match step (State.reset.placeWord 0x1070201804046800) with
      | .next t => (t.warp? 0 0).map (fun w => w.pc) == some 1 | _ => false) = true := by decide

theorem witness_StepKeepsTheInvariant : State.Inv State.reset ∧ ∃ t, step State.reset = .next t := ⟨(rfl : Memory.wf State.reset.mem = true), _, rfl⟩

theorem witness_MemoryWritesReadBack :
    Memory.wf [(3, 1), (7, 2)] = true ∧ memReads (memWrites [(3, 1), (7, 2)] 6 [5, 0]) 3 5 = [1, 0, 0, 5, 0] := by decide

theorem witness_RegisterWritesReadBack :
    [0, 31].Nodup ∧ (∀ l ∈ [0, 31], l < 32) ∧ 62 + 2 ≤ 64 ∧ 30 + 2 ≤ 32
    ∧ (one []).write [0] (.v 63) 1 (fun _ => 5) ≠ one [] ∧ ((one []).write [0, 1] (.k 31) 1 (fun l => 7 + l)).uni 31 = 7 := by decide

theorem witness_IntegerArithmetic : State.InTurn (turn (one [(1, 5)])) 0 0 (one [(1, 5)]) := inTurn _
theorem witness_CarryWideningAndAddress : State.InTurn (turn (one [])) 0 0 (one []) ∧ ({ add with sc := .p 6 } : FmtA).sc = .p 6 := ⟨inTurn _, rfl⟩
theorem witness_ImmediateFormsLogicAndShifts : State.InTurn (turn (one [(2, 1)])) 0 0 (one [(2, 1)]) := inTurn _
theorem witness_ComparesSelectionsAndMoves : State.InTurn (turn (one [(3, 1)])) 0 0 (one [(3, 1)]) := inTurn _
theorem witness_FramePointers : State.InTurn (turn (one [])) 0 0 (one [])
    ∧ (Instr.fptr { add with ty := .n32, sc := .v 2 }).wellFormed ctx = true ∧ (Instr.fpsplit { add with ty := .n32, sb := .zero }).wellFormed ctx = true :=
  ⟨inTurn _, by decide, by decide⟩
theorem witness_LaneExchanges : State.InTurn (turn six) 0 0 six := inTurn _
theorem witness_FloatArithmetic : State.InTurn (turn (one [(4, 1)])) 0 0 (one [(4, 1)]) := inTurn _
theorem witness_FloatCompare : State.InTurn (turn (one [(5, 1)])) 0 0 (one [(5, 1)]) := inTurn _
theorem witness_FloatClass : State.InTurn (turn (one [(6, 1)])) 0 0 (one [(6, 1)]) := inTurn _
theorem witness_PackedDotAndReduction : State.InTurn (turn six) 0 0 six ∧ six.active ⟨false, 1⟩ ≠ [] := ⟨inTurn _, by decide⟩
theorem witness_ElementaryFunctions : State.InTurn (turn (one [(7, 1)])) 0 0 (one [(7, 1)]) := inTurn _
theorem witness_Conversions : State.InTurn (turn four) 0 0 four := inTurn _
theorem witness_StochasticDraw : (one []).insts[0]? = some ⟨0, 0, 0, 0, 0, 0, false, []⟩ := rfl

/-- Frame pointers whose low nine bits are 0, the last chip, and no sending lane's pointer is bad. -/
theorem witness_EmitsAppendTokens :
    let w := lanesOf 2 [(2, 0x200), (3, 3071), (66, 0xFFFFFE00), (67, 0)] [(20, 0x400), (21, 0)] []
    State.InTurn (turn w) 0 0 w ∧ (∀ l ∈ w.lanes, bits (((turn w).view 0 w).rd l 1 (.v 2)) 0 9 = 0)
    ∧ (∀ l ∈ w.lanes, let q := ((turn w).view 0 w).rd l 2 (.v 2); bits q 0 9 = 0 ∧ bits q 32 12 < 3072 ∧ bits q 44 20 = 0)
    ∧ (∀ i, i ≤ 1 → bits (w.uni (20 + i)) 0 9 = 0) := ⟨inTurn _, by decide, by decide, by decide⟩

theorem test_emit_payload : -- R281: two words of an even register, and a null token on a false guard
    ((after (.emit { emt with g := ⟨false, 1⟩, nullf := true, val := .v 4, frm := .v 2 })
      (lanesOf 2 [(4, 7), (5, 1)] [] [(1, true)])).emits.map (fun e => match e with
        | .token _ l _ _ t => (l, t.payload.toNat, t.null) | _ => (9, 0, false))) = [(0, 7 + 2 ^ 32, false), (1, 0, true)] := by decide

theorem witness_FramesAndWatches :
    let w := one [(2, 0x400)]
    State.InTurn (turn w) 0 0 w ∧ (∀ l ∈ w.active al, (turn w).depthOf 0 w l ≠ 10 ∧ bits (((turn w).view 0 w).rd l 1 (.v 2)) 0 9 = 0) :=
  ⟨inTurn _, by decide⟩

def spawnForm : FmtSpawn := ⟨al, 0, 0, .v 4, .v 2, .auto, 0, .zero, 1, 0⟩

theorem witness_SpawnsReserveAndComplete :
    let w := one [(2, 0)]
    let s := turn w
    State.InTurn s 0 0 w
    ∧ (∀ l ∈ w.active al, s.depthOf 0 w l ≠ 10 ∧ bits ((s.view 0 w).rd l 1 (.v 2)) 0 9 = 0 ∧ s.inBlockRects 0 0 (bits ((s.view 0 w).rd l 1 (.v 2)) 23 9) = true
      ∧ (match s.frame? 0 (w.frameOf l) with | some f => f.join | none => 0) + w.frameSpawns (w.active al) l < 2 ^ 32)
    ∧ (s.core 0).tasks.length + (s.core 0).taskResv + (w.active al).length ≤ 512 ∧ (s.spill 0 0).ents = [] ∧ w.active al ≠ []
    ∧ (after (.spawn spawnForm) w).taken = [Taken.task] ∧ (after (.spawnq spawnForm) w).taken = [Taken.task]
    ∧ (let full := s.setCore 0 { s.core 0 with taskResv := 512 }
       full.cur = some (0, 0) ∧ full.warp? 0 0 = some w ∧ w.active al = [0] ∧ (full.spill 0 0).ents.length + Map.getD (full.core 0).spillResv 0 0 < 4194304
       ∧ gets (.spawn spawnForm) full (fun t => (t.warp? 0 0).map (fun x => x.taken) == some [Taken.spill]) = true
       ∧ gets (.spawnq spawnForm) full (fun t => (t.warp? 0 0).map (fun x => (x.taken.length, x.pred 0 1)) == some (0, true)) = true) :=
  ⟨inTurn _, by decide⟩

/-- Two lanes with room for one task: the second child is the ring's, or is not reserved; and no guard-true lane. -/
theorem witness_SpawnsReserveAndComplete_split :
    let w := lanesOf 2 [] [] []
    let s := turn w
    let full := s.setCore 0 { s.core 0 with taskResv := 511 }
    let none' := { spawnForm with g := ⟨false, 1⟩ }
    State.InTurn full 0 0 w ∧ w.active al = [0, 1] ∧ w.active none'.g = []
    ∧ (∀ l ∈ w.active al, full.depthOf 0 w l ≠ 10 ∧ bits ((full.view 0 w).rd l 1 (.v 2)) 0 9 = 0 ∧ full.inBlockRects 0 0 (bits ((full.view 0 w).rd l 1 (.v 2)) 23 9) = true)
    ∧ (full.spill 0 0).ents = []
    ∧ gets (.spawn spawnForm) full (fun t => (t.warp? 0 0).map (fun x => x.taken) == some [Taken.task, Taken.spill] && (t.core 0).taskResv == 512
        && Map.getD (t.core 0).spillResv 0 0 == 1) = true
    ∧ gets (.spawnq spawnForm) full (fun t => (t.warp? 0 0).map (fun x => (x.acts.length, x.pred 0 1, x.pred 1 1)) == some (1, false, true)) = true
    ∧ [Instr.spawn none', .spawnq none'].all (fun i => gets i full (fun t => (t.warp? 0 0).map (fun x => (x.pc, x.spawnPos, x.taken.length)) == some (1, 1, 0))) = true :=
  ⟨⟨rfl, by decide⟩, by decide⟩

theorem witness_TrapsAndWarpControl :
    let s := (turn (one [])).setGraph 0 { bareGraph 0 with brk := true }
    ((turn (one [])).graph? 0).map (fun g => g.brk) = some false ∧ (s.graph? 0).map (fun g => g.brk) = some true
    ∧ State.InTurn s 0 0 (one []) ∧ State.InTurn (turn (one [])) 0 0 (one []) := ⟨by decide, by decide, ⟨rfl, by decide⟩, inTurn _⟩

/-- A frame pointer with bit 0 set; and a warp of one instance whose frame holds its entry, with and without a trap
block. -/
theorem witness_InstanceFaultsAreTaken :
    let w := one [(2, 1)]
    let s := turn w
    let g := { bareGraph 0 with trap := 0x80000000 }
    State.InTurn s 0 0 w ∧ (w.lanes.filter (fun l => bits ((s.view 0 w).rd l 1 (.v 2)) 0 9 != 0)) = [0] ∧ w.taken = [] ∧ w.loads = []
    ∧ s.warp? 0 0 = some w ∧ w.insts = [⟨0, 0, 0, 0, 0, 0, false, []⟩] ∧ (s.frame? 0 0).map (fun f => f.entries.length) = some 11
    ∧ s.trapOf 0 = none ∧ (s.setGraph 0 g).trapOf 0 ≠ none
    ∧ ((s.setGraph 0 g).takeFault 0 0 w [⟨0, 5, 3⟩]).control.recQueue.map (fun r => (r.code, r.addr, r.aux)) = [(5, 3, 1)]
    ∧ (s.takeFault 0 0 w [⟨0, 5, 3⟩]).control.recQueue = [] := ⟨inTurn _, by decide⟩
/-- Well-formed instructions for the static clauses of IntegerArithmetic, FloatClass and FramePointers. -/
theorem witness_StaticClauses :
    let un := { add with sb := .zero }
    let f := { add with ty := .f32, sb := .zero }
    let three := { add with sc := .v 4 }
    [Instr.iadd add, .isub add, .imul add, .imulh add, .imin add, .imax add, .iabs un, .ineg un, .imad three, .isad three,
      .fclass f, .fptr { three with ty := .n32 }, .fpsplit { un with ty := .n32 }].all (fun i => i.wellFormed ctx) = true := by decide


theorem witness_StoresAndAccessesWithoutReply : State.InTurn (turn (one [(4, 0x1000)])) 0 0 (one [(4, 0x1000)])
    ∧ ((after (.stg mem) (one [(4, 0x1000), (3, 0x11223344)])).stores.map (fun x => (x.va, x.kind)))
      = [(0x1000, ReqKind.store [0x44, 0x33, 0x22, 0x11] false)]
    ∧ ((after (.stg { mem with ofs := 0xFFFF }) (one [(4, 0)])).stores.map (fun x => x.va)) = [2 ^ 56 - 1] := ⟨inTurn _, by decide, by decide⟩

theorem witness_AccessesWithReply :
    let w := lanesOf 1 [(2, 0x2000)] [(17, 0x000FFFFF)] []
    State.InTurn (turn w) 0 0 w ∧ bits (w.uni (bits 34816 11 5)) 20 12 = 0 ∧ bits (w.uni (bits 34816 11 5)) 0 8 + replyTokens 4 ≤ 256 :=
  ⟨inTurn _, by decide⟩

/-- Counters that stand n below their limit in every frame of a core have room for n. -/
theorem roomy {s : State} {c n : Nat} (h2 : ∀ q ∈ (s.core c).frames,
    q.2.infl.l + n ≤ 65535 ∧ q.2.infl.f + n ≤ 65535 ∧ q.2.infl.s + n ≤ 65535 ∧ q.2.infl.e + n ≤ 65535) :
    ∀ i f p, s.frame? c i = some f → f.infl.get p + n ≤ 65535 := by
  intro i f p h
  have h3 := h2 _ (Map.mem_of_find? h)
  dsimp only at h3
  cases p <;> simp only [InFlight.get] <;> omega

/-- Loads of the largest size a slot takes and of the last slot; the counters stand 64 below their limit. -/
theorem witness_LoadsIssue :
    let w := one [(4, 0x1000)]
    let s := (turn w).setFrame 0 0 { bareFrame with infl := ⟨65471, 65471, 65471, 65471⟩ }
    State.InTurn s 0 0 w ∧ (∀ i f p, s.frame? 0 i = some f → f.infl.get p + 64 ≤ 65535)
    ∧ w.insts.length ≤ 32 ∧ 254 + replyTokens 8 ≤ 256 ∧ bits (w.uni 0) 20 12 = 0
    ∧ gets (.ldg mem) s (fun t => (t.warp? 0 0).map (fun x => x.loads.length) == some 1 && t.reqs.length == 1) = true
    ∧ gets (.ldg { mem with data := .f 255 }) s (fun t => (t.warp? 0 0).map (fun x => (x.loads.length, x.pc)) == some (0, 1)) = true
    ∧ gets (.roundv { mem with data := .f 255 }) s (fun t => (t.warp? 0 0).map (fun x => x.pc) == some 1 && t.reqs.length == 1) = true :=
  ⟨⟨rfl, by decide⟩, roomy (by decide), by decide⟩

/-- The machine with a stash of one line at address 0 in a writable window of it, all present. -/
def stashed (w : Warp) : State :=
  let s := turn w
  s.setCore 0 { s.core 0 with
    windows := [(0, ⟨0, 1, 0, true, 0⟩)], stash := [(0, ⟨0, 0, List.replicate 128 0, [], 65535, false, 0, 0⟩)] }

theorem witness_StashAccesses :
    let w := one [(4, 0x78)]
    let m := { mem with size := .b8, ofs := 4, data := .v 2 }
    let s := stashed w
    let away := s.setCore 0 { s.core 0 with stash := [] }
    let ea := fun l => wrapTo 56 (((s.view 0 w).rd l 2 m.base : Int) + toSigned 16 (m.ofs % 65536))
    State.InTurn s 0 0 w ∧ State.InTurn away 0 0 w ∧ (∀ i f p, s.frame? 0 i = some f → f.infl.get p + 128 ≤ 65535)
    ∧ w.insts.length ≤ 32 ∧ s.stashFills = []
    ∧ (∀ l ∈ w.active m.g, ∀ p ∈ (s.core 0).stashParts w.graph (s.asidOf w) (ea l) m.size.bytes, (s.core 0).stashHas p.1 (s.asidOf w) p.2.1 p.2.2 = true)
    ∧ (s.core 0).stashParts 0 0 0x7C 8 ≠ [] ∧ (∀ p ∈ (away.core 0).stashParts 0 0 0x7C 8, (away.core 0).stashHas p.1 0 p.2.1 p.2.2 = false)
    ∧ (s.core 0).windows.map (fun win => win.2.wr) = [true]
    ∧ gets (.lds m) s (fun t => (t.warp? 0 0).map (fun x => x.loads.length) == some 1) = true
    ∧ gets (.lds m) away (fun t => t.stashFills.length == 1 && (t.warp? 0 0).map (fun x => x.stall) == some (some 0)) = true
    ∧ gets (.sts m) away (fun t => t.stashFills.length == 1 && (t.warp? 0 0).map (fun x => (x.stores.length, x.stashWait)) == some (2, [0])) = true :=
  ⟨⟨rfl, by decide⟩, ⟨rfl, by decide⟩, roomy (by decide), by decide⟩

theorem witness_WindowsPrefetchesAndAcquires :
    let w := one [(2, 0), (3, 0x20000000), (4, 0x200), (5, 0)]
    State.InTurn (turn w) 0 0 w ∧ ((turn w).core 0).badWindow 0 15 0 (((turn w).view 0 w).rd 0 4 (.v 2)) = false
    ∧ ¬ (({ mem with scope := .die } : FmtM).scope = .auto ∨ ({ mem with scope := .die } : FmtM).scope = .package)
    ∧ (mem.scope = .auto ∨ mem.scope = .package) := ⟨inTurn _, by decide⟩

/-- A warp whose graph owns the row engine of core 0, with room for packets to row input 3 of core 9. -/
def rowing (w : Warp) : State :=
  let s := turn w
  s.setCore 0 { s.core 0 with
    row := { RowEngine.reset with owner := some 0, bq := [(0, ⟨[], Chan.reset, []⟩)] }, credits := [⟨9, 3, 2, 1⟩] }

/-- A target quad at k20 that names core 9, input 3, and a descriptor at k16. -/
def targeted : Warp := lanesOf 2 [(2, 0x200)] [(16, 3), (20, 9 * 2 ^ 23 + 3 * 2 ^ 20 + 1)] []

theorem witness_RowInstructionsIssue :
    let s := rowing targeted
    State.InTurn s 0 0 targeted ∧ s.mayRow 0 targeted = true ∧ (turn targeted).mayRow 0 targeted = false
    ∧ badChan 8 = true ∧ badChan ((s.view 0 targeted).rd 0 1 (.k 24)) = false ∧ badChan 9 = false ∧ badChan 0x10B = false
    ∧ bits ((s.view 0 targeted).rd 0 1 (.v 3)) 20 12 = 0 ∧ bits ((s.view 0 targeted).rd 0 1 (.v 2)) 0 9 = 0
    ∧ (∀ l ∈ targeted.lanes, ((s.core 0).row.tile 63).bad 31 (2 * l) = false ∧ ((s.core 0).row.tile 63).bad 31 (2 * l + 1) = false)
    ∧ (s.core 0).tooShallow false [(9, 3)] = false ∧ ((s.core 0).creditOf (9, 3)).map (fun y => y.avail) = some 1
    ∧ bits (targeted.uni 18) 16 16 = 0 ∧ s.engineEntries 0 < 64 ∧ (s.frame? 0 0).map (fun f => f.infl) = some ⟨0, 0, 0, 0⟩
    ∧ (s.reserveEngine 0 targeted .e).isSome = true
    ∧ (match exec (.rowp { row with sa := .v 3, sb := .k 20, sc := .v 4, unit := 5 }) s with
      | .next t => (t.warp? 0 0).map (fun w => w.acts.length) == some 1 && (t.core 0).credits.map (fun y => y.avail) == [0]
      | _ => false) = true := ⟨⟨rfl, by decide⟩, by decide⟩

/-- Every direction of every boundary, up. -/
def allUp : Map LinkDir := (List.range 44).map (fun n => (n, { LinkDir.reset with up := true }))

/-- A machine whose dies are ACTIVE, each with a session. -/
def lively (s : State) : State := { s with dies := (List.range 18).foldl (fun m d => Map.put m d { Map.getD m d Die.reset with state := .active, sess := true }) s.dies }

/-- An address outside the private range whose home is stack 0. -/
def va0 : Nat := 2 ^ 41 + 0x4000

/-- The machine with its readable and writable page of 1 GiB in the home of stack 0. -/
def paged (s : State) : State := s.setDie 8 { s.die 8 with tlb := [⟨0, 2048, 30, 0, 0, 0, true, true, 0⟩] }

theorem witness_RowConfigurationAndQuarters :
    let w := one [(4, 0x4000), (5, 0x200)]
    let s := rowing w
    let t := paged (lively { s with links := allUp })
    State.InTurn t 0 0 w ∧ (s.core 0).row.freeFor 0 = true ∧ (s.core 0).row.owner = some 0
    ∧ (w.descriptor 24).all (fun v => bits v.toNat 8 15 == 0) = true
    ∧ ((w.descriptor 24).map (fun v => v.toNat % 256)).foldl (fun m n => m + n) 0 = 0
    ∧ t.mayRow 0 w = true ∧ (t.charge 0 (w.frameOf 0) (t.pathOf 0 (t.asidOf w) va0)).isSome = true
    ∧ Ty.isCf8 ((t.core 0).row.chanFor w 0).ty = false ∧ ((t.core 0).row.chanFor w 0).bscaled = false
    ∧ (match t.readNow 0 0 (t.asidOf w) (t.identOf w) true false va0 (Ty.quarterBytes .f16) with
      | .data _ b p => (b.length, p) == (1024, []) | _ => false) = true := ⟨⟨rfl, by decide⟩, by decide +kernel⟩

/-- A warp that has kept the charges of its quarter's eight lines ends them with its read; one that has kept none counts them first. -/
theorem witness_RowConfigurationAndQuarters_kept :
    let w0 := one [(4, 0x4000), (5, 0x200)]
    let s0 := paged (lively { rowing w0 with links := allUp })
    let ps := s0.rangePaths 0 0 [(va0, 1024)]
    let p := s0.pathOf 0 0 va0
    let w := { w0 with taken := List.replicate 8 (.infl ⟨0, 0, p⟩) }
    let s := (paged (lively { rowing w with links := allUp })).setFrame 0 0 { bareFrame with infl := (⟨0, 0, 0, 0⟩ : InFlight).set p 8 }
    let f := Instr.bldq { row with sa := .v 4 }
    ps = List.replicate 8 p ∧ w.kept.isSome = true ∧ w.keptAll.length = ps.length ∧ w0.keptAll = [] ∧ s.lateAt 0 (w.frameOf 0) = false
    ∧ (s.keepReads 0 0 w ps).map (fun r => r.2) = some w ∧ (s0.keepReads 0 0 w0 ps).map (fun r => r.2.keptAll) = some (List.replicate 8 ⟨0, 0, p⟩)
    ∧ gets f s (fun t => (t.warp? 0 0).map (fun x => (x.keptAll.length, x.acts.length)) == some (0, 1)
        && (t.frame? 0 0).map (fun x => x.infl) == some ⟨0, 0, 0, 0⟩) = true
    ∧ gets f s0 (fun t => (t.warp? 0 0).map (fun x => (x.keptAll.length, x.acts.length)) == some (0, 1)
        && (t.frame? 0 0).map (fun x => x.infl) == some ⟨0, 0, 0, 0⟩) = true := by decide +kernel

/-- The other reads of a quarter: with scales, and coded with its index table. -/
theorem witness_ScaledAndCodedQuarters :
    let w := one [(4, 0x4000), (5, 0x200)]
    let s := paged (lively { rowing w with links := allUp })
    let mx := s.setRow 0 { (s.core 0).row with chans := [(3, boundChan 0x10B 0)] }
    let cf := s.setRow 0 { (s.core 0).row with chans := [(3, boundChan 17 0)] }
    let rd := fun (a : State) (va n : Nat) => a.readNow 0 0 0 0 true false va n
    ((mx.core 0).row.chanFor w 3).bscaled = true ∧ ((cf.core 0).row.chanFor w 3).ty = .cf8
    ∧ (match rd mx va0 (Ty.quarterBytes .e4m3) with
      | .data s1 _ p => (match rd s1 va0 (16 * (Ty.rowK .e4m3 / 32)) with | .data _ _ q => p ++ q == [] | _ => false) | _ => false) = true
    ∧ (match rd cf va0 132 with
      | .data s1 b p => (match (readBlocks rd va0 (cf8Lengths (cf8Table b)) s1).1 with | .data _ x q => (x, p ++ q) == ([], []) | _ => false)
      | _ => false) = true := by decide +kernel

theorem witness_SparseInstructionsIssue :
    let w := lanesOf 1 [] [(2, 1), (3, 8), (4, 2)] []
    let s := turn w
    State.InTurn s 0 0 w ∧ (s.core 0).row.freeFor 0 = true ∧ bitOf 0 1 = false ∧ bits 0x7D 7 9 = 0 ∧ bits 0xFFFFF 20 12 = 0
    ∧ s.engineEntries 0 < 64 ∧ (s.frame? 0 0).map (fun f => f.infl) = some ⟨0, 0, 0, 0⟩ ∧ (s.reserveEngine 0 w .e).isSome = true ∧ badIsx (w.descriptor 8) = false ∧ badNzscan (w.descriptor 0) 0 = false := ⟨inTurn _, by decide⟩

/-- A descriptor of zeros passes every engine's checks but the stream's window; the buffer flag is 0. -/
theorem witness_EngineCommandsIssue :
    let w := lanesOf 1 [] [(20, 4), (23, 2)] []
    let s := turn w
    let d := w.descriptor 16
    State.InTurn s 0 0 w ∧ s.engineEntries 0 < 64 ∧ (s.frame? 0 0).map (fun f => f.infl) = some ⟨0, 0, 0, 0⟩
    ∧ (s.reserveEngine 0 w .l).isSome = true ∧ (s.reserveEngine 0 w .f).isSome = true
    ∧ dword d 5 = 0 ∧ dword d 6 = 0 ∧ dword (w.descriptor 8) 7 = 0 ∧ (s.core 0).badBuffer 0 0 4 = false ∧ s.badDest 0 w 0 0 4 = none
    ∧ s.badDest 0 w 2 (255 * 2 ^ 32) 4 = none ∧ bits (dword d 4) 24 8 = 0 ∧ bits (dword d 5) 24 8 = 0
    ∧ s.badCpyb 0 [0, 0, 15, 8191, 1, 128, 0, 0] = false ∧ s.badIndexed 0 w d = false ∧ elemSize d = 4 ∧ s.badDest 0 w 2 0 0 = none
    ∧ (s.core 0).targetStream 0 0 0 = none
    ∧ (Map.find? (s.setGroup 5 ⟨[0, 1], 0, 16, 1, 17, 1000, 0, [], [], false, 0, true, false, 0, [], [], false⟩).exchange 5).bind
        (fun g => g.indexOf s.chipId) = some 0
    ∧ (List.range 8).all (fun i => decide (i < 2) || dword (w.descriptor 8) i == 0) = true := ⟨inTurn _, by decide⟩

/-- A channel of another graph and a free one, aligned and unaligned rings, good and bad descriptors: both sides of each
check. -/
theorem witness_SystemInstructionsIssue :
    let w := lanesOf 1 [] [(16, 0x10000), (18, 0x8000)] []
    let s := turn w
    let h : Hist := Map.getD (s.core 0).hists 7 Hist.reset
    State.InTurn s 0 0 w ∧ h.valid = false ∧ (2 % 4 ≠ 3) ∧ (3 % 4 = 3)
    ∧ ((s.view 0 w).rd 0 2 (.k 16) % 65536 = 0 ∧ (s.view 0 w).rd 0 2 (.k 16) < 2 ^ 56) ∧ (s.view 0 w).rd 0 2 (.k 18) % 65536 ≠ 0
    ∧ launchOk [7, 16777216, 0, 0, 0, 0, 0, 0] = true ∧ launchOk [7, 16777217, 0, 0, 0, 0, 0, 0] = false
    ∧ bits (descWord [0xFF000] 0) 12 8 = 0xFF ∧ ¬ (bits (descWord [0x8000] 0) 12 8 < 8 ∨ bits (descWord [0x8000] 0) 12 8 = 0xFF) :=
  ⟨inTurn _, by decide⟩

theorem witness_IssueLeavesMemory : encode (.stg mem) ≠ none ∧ State.InTurn (turn (one [(4, 0)])) 0 0 (one [(4, 0)])
    ∧ (match exec (.stg mem) (turn (one [(4, 0)])) with | .next t => t.mem.isEmpty | _ => false) = true := ⟨by decide, inTurn _, by decide⟩

theorem witness_RegisterFormsTouchTheirWarpOnly : State.InTurn (turn (one [(1, 1)])) 0 0 (one [(1, 1)])
    ∧ ∃ t, exec (.iadd add) (turn (one [(1, 1)])) = .next t := ⟨inTurn _, _, rfl⟩
/-- A request of core 0 at the paged home of stack 0. -/
def reqAt (va size : Nat) (kind : ReqKind) : Req := demo.mkReq 0 bareWarp va size kind

/-- The machine with region 1, of one kind, around that address, with its page, and with its boundaries up. -/
def regioned (kind : Nat) : State :=
  let tab := [(0, [Region.empty, ⟨2 ^ 29, 2 ^ 30, 0, 0, false, kind, true, 0⟩])]
  let put := fun (s : State) (d : Nat) => s.setDie d { s.die d with regTab := tab }
  put (put (put (lively (paged { demo with links := allUp })) 0) 8) 9

/-- That machine with one request on its way. -/
def requested (kind : Nat) (r : Req) : State := { regioned kind with reqs := [(0, r)] }

/-- A page of 1 GiB at frame 0. -/
def giga : Leaf := ⟨30, 0, 0, true, true⟩

/-- Whether the hypotheses of HomeAccessPerforms hold of the request. -/
def homeReady (s : State) (n : Nat) (r : Req) : Bool :=
  s.reqHome r == (s.chipId, 0) && s.pathUp (s.reqDirs r) && !s.replayHolds 0 n r && !s.parkedBefore n r && !s.behind n r && !ReqKind.isRound r.kind && (s.recallFor 0 0 r.asid (lineOf r.va)).isNone
    && !s.aboveMark r.graph r.asid r.va r.size && (s.tlbHit 8 r.asid r.va).map TlbEntry.leaf == some giga
    && (s.faultOf 0 r.graph r.asid r.ident r.va r.size r.kind.want (some giga)).isNone

theorem witness_HomeAccessPerforms :
    [reqAt va0 2 (.store [1, 2] false), reqAt (va0 + 4) 4 (.atomic (.rmw .add) [7]), reqAt (va0 + 8) 8 (.full .putf 5), reqAt va0 1 .load].all
      (fun r => homeReady (requested 2 r) 0 r && decide (r.state = .moving) && !r.fresh) = true
    ∧ gets (.homeAccess 0) (requested 2 (reqAt va0 2 (.store [1, 2] false))) (fun t => t.mem == [(0, 1), (1, 2)]) = true
    ∧ gets (.homeAccess 0) (requested 2 (reqAt (va0 + 4) 4 (.atomic (.rmw .add) [7]))) (fun t => t.mem == [(4, 7)]) = true
    ∧ gets (.homeAccess 0) (requested 2 (reqAt (va0 + 8) 8 (.full .putf 5))) (fun t => t.mem == [(8, 5)]) = true := by decide +kernel

theorem witness_RoundRequestsPerform :
    let a := requested 1 (reqAt va0 4 (.rounda .package))
    let v := requested 1 (reqAt va0 4 .roundv)
    a.reqHome (reqAt va0 4 (.rounda .package)) = (0, 1) ∧ v.reqHome (reqAt va0 4 .roundv) = (0, 1)
    ∧ a.pathUp (a.reqDirs (reqAt va0 4 (.rounda .package))) = true
    ∧ a.replayHolds 1 0 (reqAt va0 4 (.rounda .package)) = false ∧ v.replayHolds 1 0 (reqAt va0 4 .roundv) = false
    ∧ a.behind 0 (reqAt va0 4 (.rounda .package)) = false ∧ v.behind 0 (reqAt va0 4 .roundv) = false
    ∧ (a.region 9 0 va0).2.kind = 1 ∧ (reqAt va0 4 (.rounda .package)).back = none
    ∧ gets (.homeAccess 0) a (fun t => Map.getD (t.die 9).rounds (regionKey 0 1) 0 == 1 && t.roundWaits.length == 1) = true
    ∧ gets (.homeAccess 0) v (fun t => t.reqs.isEmpty) = true
    ∧ (let r := { reqAt va0 4 (.rounda .package) with back := some (7, 3) }
       let b := requested 1 r
       b.pathUp (b.reqDirs r) = true ∧ b.replayHolds 1 0 r = false ∧ b.behind 0 r = false ∧ b.inQueue 0 r = false
       ∧ gets (.homeAccess 0) b (fun t => Map.getD (t.die 9).rounds (regionKey 0 1) 0 == 1 && t.roundWaits.isEmpty && t.reqs.isEmpty
          && t.fabricOut.length == 1) = true)
    ∧ (let r := reqAt va0 4 (.rounda .package)
       let b := requested 2 r
       (b.region 9 0 va0).2.kind = 2 ∧ r.warp = none ∧ r.sync = false ∧ b.unloaded r = false
       ∧ gets (.homeAccess 0) b (fun t => Map.getD (t.die 9).rounds (regionKey 0 1) 0 == 0 && (t.die 9).faultq.length == 1
          && t.reqs.length == 1) = true) := by decide +kernel

/-- A load of lane 0 of the warp, its four bytes come. -/
def loadDone : PendLoad := ⟨0, [], 0, va0, 3, 1, [some 1, some 2, some 3, some 4], false⟩

/-- A copy of the line of that address on die 0. -/
def copyLine : Line := ⟨0, lineOf va0, 1, 0, 0, 0, false, false, List.replicate 128 7, [], 0, 0, false⟩

/-- The three tables that lead from 2 ^ 20 to a page of 1 GiB at frame 0 for that address. -/
def tables : List Host.Cell :=
  [(0x100000, 1), (0x100001, 0x10), (0x100002, 0x10), (0x101020, 1), (0x101021, 0x20), (0x101022, 0x10), (0x102000, 27)]

theorem witness_MemoryRepliesReturn :
    let base := requested 1 { reqAt va0 4 .load with state := .walking }
    let walked := fun (g : Nat) => ({ base with mem := tables, spaces := [(0, ⟨2 ^ 20, 2 ^ 20, 0⟩)] } : State).setDie 8
      { base.die 8 with tlb := [], walks := [⟨0, va0, g, [0]⟩] }
    let loaded := fun (l : PendLoad) => turn { bareWarp with loads := [l] }
    let filled := fun (l : Line) => ({ lively { demo with links := allUp } with fills := [⟨0, l, .normal, false⟩] } : State)
    let rounded : State := { requested 1 (reqAt va0 4 (.rounda .die)) with views := [⟨0, 0, 1, 1⟩], roundWaits := [⟨0, 0, 0, 1, 0, [0], none⟩] }
    let swept := demo.setDie 0 { demo.die 0 with sweeps := [⟨0, 1⟩], rdcBusy := [⟨0, 1⟩], lines := [copyLine], rdc := [copyLine] }
    ((walked 0).walk 0 va0 = some giga ∧ (walked 0).tgenOf 8 0 = 0
      ∧ gets (.pageWalkComplete 8 0) (walked 0) (fun t => (t.die 8).tlb.length == 1 && (t.die 8).walks.isEmpty) = true
      ∧ gets (.pageWalkComplete 8 0) (walked 3) (fun t => (t.die 8).tlb.isEmpty && (t.die 8).walks.isEmpty) = true)
    ∧ ((loaded loadDone).warp? 0 0).map (fun w => w.loads) = some [loadDone] ∧ loadDone.bytes.all Option.isSome = true ∧ loadDone.charges = []
    ∧ gets (.loadReturn 0 0 0) (loaded loadDone) (fun t => (t.warp? 0 0).map (fun w => w.reg 0 3) == some 0x04030201) = true
    ∧ gets (.loadReturn 0 0 0) (loaded { loadDone with poison := true }) (fun t => t.warp? 0 0 == none) = true
    ∧ (let bad := loaded { loadDone with poison := true }
       let held : State := { bad with debugHold := [0] }
       held.halted (dieOf 0) = true ∧ gets (.loadReturn 0 0 0) held (fun t => decide (t = held)) = true)
    ∧ ((filled copyLine).die 0).gen 0 1 = copyLine.rgen ∧ (filled copyLine).tgenOf 0 0 = copyLine.tgen
    ∧ copyLine.stamp = ((filled copyLine).die 0).view 0 1 % 256
    ∧ gets (.cacheFillArrival 0) (filled copyLine) (fun t => (t.die 0).lines.length == 1) = true
    ∧ gets (.cacheFillArrival 0) (filled { copyLine with rgen := 1 }) (fun t => (t.die 0).lines.isEmpty) = true
    ∧ (demo.frame? 0 0).map (fun f => (f.serial, f.resident, f.chain.length, f.entries.any (fun e => decide (e.state = .matching)))) = some (0, true, 0, false)
    ∧ gets (.inFlightDecrement 0) { demo with decrs := [⟨0, 0, .l⟩] } (fun t => t.decrs.isEmpty) = true
    ∧ gets (.roundViewUpdate 0) rounded (fun t => (t.die 0).view 0 1 == 1) = true
    ∧ ahead 0 ((rounded.die 0).view 0 1) = false ∧ (Map.find? rounded.reqs 0).isSome = true
    ∧ gets (.roundaComplete 0) rounded (fun t => t.roundWaits.isEmpty && t.reqs.isEmpty) = true
    ∧ gets (.genWrapSweep 0 0) swept (fun t => (t.die 0).lines.isEmpty) = true
    ∧ gets (.rdcSweepWalker 0 0) swept (fun t => (t.die 0).rdc.isEmpty) = true := by decide +kernel

/-- Core 0's stash line 2 for the line of that address, dirty, its die's directory naming the core. -/
def owning : State :=
  let s := regioned 0
  let s1 := s.setDie 0 { s.die 0 with dieDir := [(dirKey 0 (lineOf va0), 0)], recalls := [⟨0, 0, lineOf va0⟩] }
  s1.setCore 0 { s1.core 0 with stash := [(2, ⟨0, lineOf va0, List.replicate 128 9, [], 65535, true, 2 ^ 128 - 1, 0⟩)] }

theorem witness_LineOwnershipMoves :
    let line := lineOf va0
    let x : StashFillReq := ⟨2, 0, line, 0, [], none, none, 0⟩
    let base := ({ regioned 0 with mem := tables, spaces := [(0, ⟨2 ^ 20, 2 ^ 20, 0⟩)], stashFills := [(0, x)] } : State)
    let owned := (regioned 0).setDie 8 { (regioned 0).die 8 with owners := [⟨0, line, 3, 0, 0, true, 0⟩] }
    let asked : State := { regioned 0 with owns := [⟨3, 200, 0, line, 0, 0, false, false, false, false⟩] }
    let granted : State := { regioned 0 with owns := [⟨3, 200, 0, line, 0, 0, true, false, true, true⟩] }
    (base.homeOf 0 0 (line * 128) = (0, 0) ∧ (base.die 0).dieDir = [] ∧ base.reqs = [] ∧ (base.die 8).owners = [] ∧ (base.core 0).stash = []
      ∧ (base.leafAt 0 0 (line * 128) false).isSome = true
      ∧ (base.faultOf 0 0 0 0 (line * 128) 128 ⟨true, false, none, false⟩ (base.leafAt 0 0 (line * 128) false)).isNone = true
      ∧ gets (.stashFill 0 0) base (fun t => (t.core 0).stash.length == 1 && (t.die 0).dieDir.length == 1) = true)
    ∧ gets (.dieDirectoryRecall 0 0) owning (fun t => (t.core 0).stash.isEmpty && (t.die 0).dieDir.isEmpty && t.reqs.length == 1) = true
    ∧ ((owned.die 8).owners.map (fun o => o.recalled) = [true]
      ∧ gets (.ownerRecall 8 0) owned (fun t => (t.die 8).owners.isEmpty) = true)
    ∧ ((asked.homeOf 3 0 (line * 128)).2 = 0 ∧ asked.pathUp (roundTrip 3 8) = true ∧ (asked.die 8).fullSet 0 line = [] ∧ (asked.askOwner 0 0 line 3).isNone = true ∧ (asked.askRecall 0 0 line).isNone = true
      ∧ (asked.die 3).incarnation = 0
      ∧ gets (.ownershipRequest 0) asked (fun t => (t.die 8).owners.map (fun o => o.owner) == [3]) = true)
    ∧ gets (.upgradeGrant 0) granted (fun t => t.owns.isEmpty) = true := by decide +kernel

/-- Die 3 asks for line b, whose home is stack 0; die 5 holds sixteen entries for line a. -/
def crowded (a b : Nat) : State :=
  let up := { Die.reset with state := .active }
  { State.reset with
    links := allUp, dies := [(0, up), (1, up), (2, up), (3, { up with regTab := [(0, [⟨0, 0, 0, 0, true, 0, true, 0⟩])] }),
      (8, { up with owners := List.replicate 16 ⟨0, a, 5, 0, 0, false, 0⟩ })]
    owns := [⟨3, 200, 0, b, 0, 0, false, false, false, false⟩] }

/-- Of 4,097 lines two share a set of 4,096, whatever the hash: a full set for a request. -/
theorem witness_LineOwnershipMoves_full : ∃ a b, let s := crowded a b
    s.homeOf 3 0 (b * 128) = (s.chipId, 0) ∧ s.pathUp (roundTrip 3 8) = true ∧ s.askOwner 0 0 b 3 = none ∧ s.askRecall 0 0 b = none
    ∧ (s.die 8).fullSet 0 b = List.replicate 16 ⟨0, a, 5, 0, 0, false, 0⟩ := by
  obtain ⟨a, -, b, -, h, e⟩ := Finset.exists_ne_map_eq_of_card_lt_of_maps_to (s := Finset.range 4097) (t := Finset.range 4096)
    (f := ownerSet 0) (by simp) (fun x _ => Finset.mem_coe.mpr (Finset.mem_range.mpr (Nat.mod_lt _ (by decide))))
  refine ⟨a, b, rfl, rfl, ?_, rfl, ?_⟩
  · simp [State.askOwner, crowded, State.die, Map.getD, Map.find?, h]
  · simp [Die.fullSet, crowded, State.die, Map.getD, Map.find?, h, e]
/-- A token at slot n of frame 0, with its sender's frame. -/
def tok (slot payload : Nat) : Token := plainToken 0 0 slot 0 0 payload

/-- The machine with that token at its matching unit. -/
def matched (t : Token) : State := demo.setCore 0 { demo.core 0 with matchIn := [⟨0, 0, .token t⟩] }

/-- A token whose landing acquires at package scope over every region. -/
def acquiring : Token := { tok 5 7 with rel := .package, relWord := RelWord.every }

theorem witness_TokensLand :
    let ok := fun t : Token =>
      let s := matched t
      !s.halted 0 && (s.core 0).heldToken.isNone && decide ((s.core 0).firstOf 0 = some ⟨0, 0, .token t⟩)
        && !(s.core 0).represent.contains (fpIndex t.fp) && decide ((s.core 0).landed = none)
    let s1 := fun t : Token => ((matched t).setCore 0 { (matched t).core 0 with matchIn := [] }).markLanded 0 (fpIndex t.fp)
    let slot := fun (n : Nat) (t : State) => (t.frame? 0 0).map (fun f => Map.getD f.slots n 0)
    let full := (matched (tok 0 7)).setCore 0 { (matched (tok 0 7)).core 0 with logTop := Config.logRecords }
    let held := demo.setCore 0 { demo.core 0 with heldToken := some ⟨0, 0, .token (tok 5 7)⟩ }
    let deferred := (demo.setFrame 0 0 { bareFrame with chain := [.deferred 0 (tok 5 7)] })
    let again := deferred.setCore 0 { deferred.core 0 with represent := [0] }
    let anew := again.setFrame 0 0 { (demo.frame? 0 0).getD bareFrame with chain := [.deferred 0 (tok 0 7)] }
    ([tok 5 7, tok 0 7, { tok 5 7 with fp := 0x200 }, acquiring].all ok
      ∧ [tok 5 7, tok 0 7, { tok 5 7 with fp := 0x200 }, acquiring].all (fun t => !t.bad73) = true)
    ∧ ok { tok 5 7 with bad73 := true } = true
    ∧ gets (.tokenLand 0 0) (matched { tok 5 7 with bad73 := true }) (fun t => Map.getD (t.core 0).counters (0x040 * 4096) 0 == 1) = true
    ∧ ((s1 { tok 5 7 with fp := 0x200 }).landing 0 { tok 5 7 with fp := 0x200 } = .stray
      ∧ gets (.tokenLand 0 0) (matched { tok 5 7 with fp := 0x200 }) (fun t => Map.getD (t.core 0).counters (0x040 * 4096) 0 == 1) = true)
    ∧ ((s1 (tok 0 7)).landing 0 (tok 0 7) = .defer none
      ∧ ((((s1 (tok 0 7)).address 0 (tok 0 7)).openEntry 0 0 none).appendChain 0 0 (fun n => .deferred n (tok 0 7))).isSome = true
      ∧ gets (.tokenLand 0 0) (matched (tok 0 7)) (fun t => (t.frame? 0 0).map (fun f => f.chain.length) == some 1) = true)
    ∧ ((full.core 0).logFree = [] ∧ gets (.tokenLand 0 0) full (fun t => (t.core 0).heldToken.isSome && (t.core 0).matchIn.isEmpty) = true)
    ∧ ((s1 (tok 5 7)).landing 0 (tok 5 7) = .land (bareBlock 0).hdr none false ∧ (s1 (tok 5 7)).sweeping 0 0 RelWord.none = false
      ∧ gets (.tokenLand 0 0) (matched (tok 5 7)) (fun t => slot 5 t == some 7) = true)
    ∧ ((s1 acquiring).landing 0 acquiring = .land (bareBlock 0).hdr none false
      ∧ ((s1 acquiring).acquire 0 0 RelWord.every).sweeping 0 0 RelWord.every = false
      ∧ gets (.tokenLand 0 0) (matched acquiring) (fun t => slot 5 t == some 7 && Map.getD (t.die 0).genBase 0 0 == 1) = true)
    ∧ gets (.tokenLogWaitResume 0) held (fun t => slot 5 t == some 7 && (t.core 0).heldToken.isNone) = true
    ∧ (again.nextDeferred 0 0 = some (0, tok 5 7) ∧ again.heldRecord 0 0 0 = false ∧ (again.core 0).landed = none ∧ (again.core 0).presented = []
      ∧ (match (again.markLanded 0 0).landing 0 (tok 5 7) with | .defer _ => false | _ => true) = true
      ∧ (match (again.markLanded 0 0).handleToken 0 (tok 5 7) false with | .done t => (t.frame? 0 0).isSome | _ => false) = true
      ∧ gets (.deferredTokenRepresent 0 0) again (fun t => slot 5 t == some 7 && (t.core 0).represent.isEmpty) = true)
    ∧ ((anew.markLanded 0 0).landing 0 (tok 0 7) = .defer none ∧ anew.nextDeferred 0 0 = some (0, tok 0 7)
      ∧ gets (.deferredTokenRepresent 0 0) anew (fun t => (t.frame? 0 0).map (fun f => f.chain.length) == some 1 && (t.core 0).represent.isEmpty) = true)
    ∧ ((again.setFrame 0 0 bareFrame).nextDeferred 0 0 = none
      ∧ gets (.deferredTokenRepresent 0 0) ((again.setFrame 0 0 bareFrame)) (fun t => (t.core 0).represent.isEmpty) = true) := by decide +kernel

/-- Core 0 with one full carafe of the block, for the entry of frame 0. -/
def brewed (y : Carafe) : State :=
  let s := { demo with now := 70000 }
  s.setCore 0 { s.core 0 with warps := [], carafes := [(0, y)] }

def full : Carafe := ⟨0, 0, [⟨0, 0, 0, 0, 0⟩], some 65, false, none, some 0, false⟩

theorem witness_InstancesPour :
    let x := { Entry.empty with state := .waiting }
    let wait := ({ demo with now := 5 } : State).setFrame 0 0 { bareFrame with entries := x :: List.replicate 10 Entry.empty }
    let aged := (brewed full).setCore 0 { (brewed full).core 0 with prios := [(0, ⟨0, some 4464⟩)] }
    let s := brewed full
    let stalled := ({ demo with now := 1024 } : State).setWarp 0 0 { bareWarp with stall := some 0 }
    ((wait.recordable 0).map (fun w => (w.frame, w.entry, w.graph)) = [(0, 0, 0)] ∧ (wait.recordable 0).all (fun y => !(recordBefore y y)) = true
      ∧ (wait.core 0).landed = none ∧ bareFrame.draining = false ∧ (wait.core 0).carafeFor 0 0 = some 0
      ∧ gets (.recordInstance 0 0 0) wait (fun t => (Map.getD (t.core 0).carafes 0 Carafe.free).recs.length == 1) = true)
    ∧ gets (.brewTimerExpiry 0 0) s (fun t => (Map.getD (t.core 0).carafes 0 Carafe.free).expired) = true
    ∧ gets (.carafeLingerExpiry 0 0) (brewed { full with recs := [], linger := some 70000 }) (fun t => (t.core 0).carafes.isEmpty) = true
    ∧ gets (.priorityAging 0 0) aged (fun t => Map.find? (t.core 0).prios 0 == some ⟨1, some 70000⟩) = true
    ∧ 0 + 4 * brewPeriod (bareBlock 0).hdr < 70000
    ∧ gets (.agePromotion 0 0) s (fun t => (Map.getD (t.core 0).carafes 0 Carafe.free).promoted) = true
    ∧ (s.halted 0 = false ∧ (s.core 0).poured = none ∧ s.eligibles 0 = [(0, full)] ∧ s.oldestCarafe 0 [(0, full)] = some 0 ∧ (s.core 0).place 4 true = some 0
      ∧ (s.core 0).freeSlotOf 0 = some 0
      ∧ gets (.pour 0) s (fun t => (t.warp? 0 0).map (fun w => w.insts.length) == some 1) = true)
    ∧ gets (.syncStallTimeout 0 0) stalled (fun t => t.warp? 0 0 == none) = true := by decide +kernel

theorem witness_ALandingWritesItsSlot : (demo.frame? 0 0).isSome = true ∧ (bareBlock 0).hdr.comb = false
    ∧ ((demo.landAt 0 (tok 5 7) (bareBlock 0).hdr none false).frame? 0 0).map (fun f => Map.getD f.slots 5 0) = some 7 := by decide

/-- The warp in the slot has issued its last instruction; a commit of it. -/
def ended (w : Warp) : State := turn { w with ended := true }

/-- A commit of graph 0 on core 0 that holds one token back and has one access still to send. -/
def holding : CommitRec :=
  ⟨0, 0, 0, 0, 0, [.core], [(1, reqAt va0 4 (.store [1, 2, 3, 4] false))], [⟨.token 0 0 none .package (tok 5 7), .package, 0, none⟩], [], []⟩

theorem witness_CommitsRun :
    let s := ended bareWarp
    let stored := ended { bareWarp with stores := [⟨0, 0, va0, 4, .store [1, 2, 3, 4] false, none, false, .normal, false⟩] }
    let w := { bareWarp with ended := true }
    let closing := turn { bareWarp with phase := .committing [] [] 9 }
    let held : State := { demo with commits := [(1, { holding with later := [] })] }
    let later : State := { demo with commits := [(1, holding)] }
    (s.debugHold.contains 0 = false ∧ s.issuedAll w = true ∧ w.brk = none ∧ w.phase = .issuing
      ∧ s.landedNow 0 0 = false ∧ (s.frame? 0 0).map (fun f => (f.resident, f.entries.length)) = some (true, 11)
      ∧ gets (.commit 0 0) s (fun t => t.warp? 0 0 == none) = true)
    ∧ (stored.issuedAll w = true ∧ ReqKind.isStash (.store [1, 2, 3, 4] false) = false
      ∧ gets (.commit 0 0) stored (fun t => t.reqs.length == 1 && t.warp? 0 0 == none) = true)
    ∧ gets (.commitResume 0 0) closing (fun t => t.warp? 0 0 == none) = true
    ∧ (held.mayLeave 1 ⟨.token 0 0 none .package (tok 5 7), .package, 0, none⟩ = true ∧ held.injectRoom 0 = true
      ∧ gets (.releasedTokenSend 1 0) held (fun t => t.commits.isEmpty) = true)
    ∧ ((later.core 0).stash = [] ∧ later.reqs = []
      ∧ later.cores.any (fun q => q.2.warps.any (fun x => match x.2.phase with | .committing _ _ _ => true | _ => false)) = false
      ∧ gets (.fenceGroupAdvance 1) later (fun t => t.reqs.length == 1) = true) := by decide +kernel

/-- Every clause of CommitActsTakeEffect holds of the machine with a bound histogram channel; limits and reserved bits. -/
theorem witness_CommitActsTakeEffect :
    let s := demo.setCore 0 { demo.core 0 with hists := [(7, ⟨true, 0, 0, [(3, 4)], [(3, 1)], 9⟩)] }
    (Map.find? (s.core 0).hists 7).isSome = true ∧ (s.graph? bareWarp.graph).isSome = true ∧ bitOf (128 : Nat) 7 = true
    ∧ (match s.actOne 0 0 1 bareWarp (.hclr 128) with | .done t => (Map.find? (t.core 0).hists 7).map (fun h => h.bins.length) == some 0 | _ => false) = true
    ∧ s.eventNow 0 0x801 = false ∧ (({ s with eventAt := [(0x801, s.now + 1)] } : State).eventNow 0 0x801) = true
    ∧ (match (s.setCore 0 { s.core 0 with hists := [(7, ⟨true, 0, 0, [(3, 4)], [(3, 1)], s.now⟩)] }).actOne 0 0 1 bareWarp (.hclr 128) with
      | .done t => (Map.find? (t.core 0).hists 7).map (fun h => h.bins) == some [(3, 1)] | _ => false) = true
    ∧ bits 1000 12 20 = 0 ∧ bits 3800 12 20 = 0 ∧ bits 999 12 20 = 0 ∧ bits 3801 12 20 = 0 ∧ bits 65535 16 16 = 0 ∧ bits 65536 16 16 = 1
    ∧ bitOf 1 0 = true := by decide +kernel

/-- A task entry for core 0 of the warp's own frame. -/
def task : TaskEntry := ⟨4, 9, 0, 0, 0, 0, 0, 0, 0, .auto, RelWord.none, ⟨0, RelWord.none⟩, 0, 0, 0, none, none, false⟩

theorem witness_FramesLive :
    let core := fun (f : Core → Core) => demo.setCore 0 (f (demo.core 0))
    let cr : Creation := { what := .falloc 0 0 3 0 0, graph := 0, slotblk := 15, serial := 5, parent := 0, depth := 1, prio := 0, ordinal := 0, launch := none, tokens := [] }
    let made := core (fun q => { q with creations := [cr] })
    let away := demo.setFrame 0 0 { bareFrame with resident := false, addressed := true, drained := [2] }
    let freed := core (fun q => { q with matchIn := [⟨0, 0, .free 0 0⟩] })
    let closed := (core (fun q => { q with warps := [] })).setFrame 0 0 { bareFrame with closing := true }
    let child := fun (n : Nat) => ({ demo with retires := [(0, 0)] } : State).setFrame 0 0 { bareFrame with join := n }
    let sent := core (fun q => { q with tasks := [task] })
    let g := { bareGraph 0 with spills := [(0, ⟨0, [(task, true)]⟩)] }
    let spilt := demo.setGraph 0 g
    let late : State := { demo with now := 10 ^ 9, reqs := [(0, { reqAt va0 4 .load with reply := some ⟨0, 0, 3, 0, 0, .auto⟩, charge := some ⟨0, 0, .l⟩ })] }
    let idle := late.setCore 0 { late.core 0 with warps := [] }
    ((made.core 0).freeRun (frameBlocks 15) = some 18 ∧ gets (.frameCreate 0) made (fun t => (t.frame? 0 18).map (fun f => f.serial) == some 5) = true)
    ∧ ((away.frame? 0 0).map Frame.wants = some true ∧ (away.makeRoom 0 (frameBlocks 15) 16385).isSome = true
      ∧ (away.core 0).frames.all (fun p => p.1 == 0) = true ∧ (away.core 0).residentBlocks + frameBlocks 15 ≤ (away.core 0).frameRoom
      ∧ away.imageBusy 0 0 bareFrame = false ∧ away.landedNow 0 0 = false ∧ away.halted 0 = false
      ∧ gets (.frameBringIn 0 0) away (fun t => (t.frame? 0 0).map (fun f => f.resident) == some true) = true)
    ∧ ((freed.core 0).firstOf 0 = some ⟨0, 0, .free 0 0⟩
      ∧ gets (.freeRequest 0 0) freed (fun t => (t.frame? 0 0).map (fun f => f.closing) == some true) = true)
    ∧ ((closed.frame? 0 0).map (fun f => (f.closing, f.busy)) = some (true, false) ∧ gets (.frameRelease 0 0) closed (fun t => t.frame? 0 0 == none) = true)
    ∧ (fpCore 0 = 0 ∧ gets (.childRetirement 0) (child 2) (fun t => (t.frame? 0 0).map (fun f => f.join) == some 1) = true
      ∧ gets (.childRetirement 0) (child 1) (fun t => (t.frame? 0 0).map (fun f => f.join) == some 0) = true)
    ∧ gets (.taskDispatch 0) sent (fun t => (t.core 0).creations.length == 1) = true
    ∧ (spilt.spill 0 0 = ⟨0, [(task, true)]⟩ ∧ spilt.reqs = []
      ∧ gets (.spillDrain 0 0) spilt (fun t => (t.core 0).tasks.length == 1) = true)
    ∧ ((idle.outstanding 0 0 bareFrame).map (fun o => decide (max o.since 0 + idle.drainLimit * Config.cyclesPerUs ≤ idle.now)) = [true]
      ∧ (idle.core 0).warps = [] ∧ gets (.drainLimitExpiry 0 0) idle (fun t => (t.frame? 0 0).map (fun f => f.resident) == some false) = true)
    := by decide +kernel

/-- A command of the warp with a descriptor, and the paged machine with one command number 3 on core 0. -/
def cmd (kind : EngKind) (desc : List Word) : EngCmd := demo.blankCmd bareWarp kind ⟨0, 0, .l⟩ desc
def with' (e : EngCmd) : State := (regioned 0).setEngine 0 3 e

/-- Four bytes from that address to the next four; one element of each kind. -/
def copying : EngCmd := { cmd .cpy [0x4000, 512, 0x4004, 512, 4, 0, 0, 0] with state := .running, total := 1 }
def copyRows : EngCmd := { cmd .cpy2d [0x4000, 512, 0x4004, 512, 4, 1, 4, 4] with state := .running, total := 1 }
def filling : EngCmd := { cmd .cpyb [0x4000, 512, 2, 0, 1, 4, 0, 0] with state := .running, total := 1 }
def gathering : EngCmd := { cmd .gath [0x4000, 512, 0x4004, 512, 0x4008, 512, 1, 2] with state := .running, total := 1 }

theorem witness_EnginesAndStreamsRun_commands :
    let queued := fun (e : EngCmd) => with' { e with state := .queued }
    let streaming := fun (e : EngCmd) => (with' e).setDie 8 { (with' e).die 8 with streamsOn := [(0, 3)] }
    let waiting := (with' gathering).setDie 8 { (with' gathering).die 8 with streams := [(0, 3)] }
    let refill := (with' { filling with state := .queued }).setCore 0 { (with' { filling with state := .queued }).core 0 with opbufs := [(2, ⟨0, 1, 0, [], [], false, some 3, []⟩)] }
    let filled := (with' { filling with doneE := [0] }).setCore 0 { (with' { filling with doneE := [0] }).core 0 with opbufs := [(2, ⟨0, 1, 0, [], [], false, some 3, []⟩)] }
    let buffered := fun (fl : Nat) => (with' { copying with flags := fl }).setCore 0 { (with' { copying with flags := fl }).core 0 with
      opbufs := [(2, ⟨0, 1, 128, List.replicate 128 5, [], true, none, []⟩)] }
    [cmd .cpy [], cmd .cpy2d [], cmd .strm [], cmd .dpost [], cmd .dxch [], cmd .dxq [], cmd .nzscan [], gathering, { gathering with kind := .scat }, { filling with run := true }].all
      (fun e => ((queued e).core 0).startable e) = true
    ∧ gets (.engineCommandStart 0 3) (queued copying) (fun t => (Map.find? (t.core 0).engines 3).map (fun e => e.state) == some .running) = true
    ∧ gets (.engineCommandStart 0 3) (queued gathering) (fun t => (t.die 8).streams == [(0, 3)]) = true
    ∧ gets (.engineCommandStart 0 3) (queued { cmd .isx [] with total := 1 }) (fun t => (t.core 0).engines.length == 1) = true
    ∧ gets (.engineCommandStart 0 3) (queued (cmd .isx [])) (fun t => (t.core 0).engines.isEmpty) = true
    ∧ gets (.engineCommandStart 0 3) (queued { filling with run := true }) (fun t => (t.core 0).opbufs.length == 1) = true
    ∧ ((waiting.die 8).streamsOn.length < 16 ∧ gets (.indirectStreamStart 8) waiting (fun t => (t.die 8).streamsOn == [(0, 3)]) = true)
    ∧ (match (with' copying).elemSource 0 3 0 copying (copying.chunk 0).src (copying.chunk 0).n with | .data _ b p => (b, p) == ([0, 0, 0, 0], []) | _ => false) = true
    ∧ (match (with' copyRows).elemSource 0 3 0 copyRows (copyRows.chunk 0).src (copyRows.chunk 0).n with | .data _ b p => (b, p) == ([0, 0, 0, 0], []) | _ => false) = true
    ∧ gets (.engineElement 0 3 0) (with' copying) (fun t => t.reqs.length == 1) = true
    ∧ gets (.engineElement 0 3 0) (buffered 0x2800) (fun t => t.reqs.length == 1) = true
    ∧ ((with' copying).core 0).stash = [] ∧ (with' copying).reqs = [] ∧ Scope.beyondCore copying.rscope = false ∧ Scope.beyondCore .die = true
    ∧ gets (.engineCompletion 0 3) (streaming { gathering with doneE := [0] }) (fun t => (t.core 0).engines.isEmpty && (t.die 8).streamsOn.isEmpty) = true
    ∧ gets (.engineElement 0 3 0) (with' filling) (fun t => (Map.find? (t.core 0).engines 3).map (fun e => e.doneE) == some [0]) = true
    ∧ ((streaming gathering).streaming 0 3 gathering = true ∧ gets (.engineElement 0 3 0) (streaming gathering) (fun t => t.reqs.length == 1) = true)
    ∧ [cmd .isx [0, 0, 0, 0, 0, 0, 0, 0], cmd .nzscan [0, 0, 0, 0, 0, 0, 0, 0]].all (fun e => gets (.engineElement 0 3 0) (with' { e with state := .running, total := 1 }) (fun _ => true)) = true
    ∧ gets (.engineCompletion 0 3) (with' { copying with doneE := [0] }) (fun t => (t.core 0).engines.isEmpty) = true
    ∧ gets (.engineCompletion 0 3) filled (fun t => (Map.find? (t.core 0).opbufs 2).map (fun b => (b.filled, b.len)) == some (true, 4)) = true
    ∧ (List.find? (fun p => EngCmd.fills p.2 2 && decide (p.2.state = .queued) && !p.2.run) (refill.core 0).engines = some (3, { filling with state := .queued })
      ∧ (refill.core 0).waitsOver filling = true
      ∧ gets (.operandsConsumed 0 2) refill (fun t => (Map.find? (t.core 0).engines 3).map (fun e => e.run) == some true) = true) := by decide +kernel

/-- Elements whose first read has been kept: an index, a coordinate, an element of a scan; good and poisoned. -/
theorem witness_EnginesAndStreamsRun_elements :
    let kept := fun (e : EngCmd) (b : List Byte) (bad : List Nat) => { e with parts := [(0, ⟨b.map some, bad, true, 0⟩)] }
    let on := fun (e : EngCmd) => (with' e).setDie 8 { (with' e).die 8 with streamsOn := [(0, 3)] }
    let eng := fun (t : State) => Map.find? (t.core 0).engines 3
    let scat := { gathering with kind := .scat }
    let zeros : List Byte := List.replicate 4 0
    let isx := { cmd .isx [0x4000, 512, 0x4004, 512, 1, 0, 0, 0] with state := .running, total := 1 }
    let queue := fun (t : State) => (t.core 0).row.unit 0 |>.side false |>.queue
    let scan := fun (ctl : Word) => { cmd .nzscan [0x4000, 512, 1, encTy .f32, 0x4100, 512, 0x4200, 512] with state := .running, total := 1, ctl := ctl }
    let reads := fun (e : EngCmd) (n : Nat) => match (on e).engRead 0 3 n e va0 4 with | .data _ b p => some (b.length, p) | _ => none
    reads filling 1 = some (4, [])
    ∧ gets (.engineElement 0 3 0) (with' filling) (fun t => (Map.find? (t.core 0).opbufs 2).map (fun b => (b.data.take 4, b.poison)) == some (zeros, [])) = true
    ∧ (reads (kept gathering zeros []) 0 = some (4, []) ∧ reads (kept gathering zeros [1]) 0 = some (4, [1]))
    ∧ gets (.engineElement 0 3 0) (on (kept gathering zeros [])) (fun t => t.reqs.length == 1 && (eng t).map (fun e => e.poison) == some false) = true
    ∧ gets (.engineElement 0 3 0) (on (kept gathering zeros [1])) (fun t => t.reqs.length == 1 && (eng t).map (fun e => e.poison) == some true) = true
    ∧ gets (.engineElement 0 3 0) (on (kept scat zeros [])) (fun t => t.reqs.length == 1) = true
    ∧ gets (.engineElement 0 3 0) (on (kept scat zeros [1])) (fun t => t.reqs.isEmpty && (eng t).map (fun e => (e.poison, e.doneE)) == some (true, [0])) = true
    ∧ gets (.engineElement 0 3 0) (with' (kept isx [3, 0, 0, 0x80] [])) (fun t => (queue t).map (fun x => (x.stop, x.last)) == [(some 3, true)]) = true
    ∧ gets (.engineElement 0 3 0) (with' (kept isx [3, 0, 0, 0] [])) (fun t => (queue t).map (fun x => (x.stop, x.coord, x.poisonC)) == [(none, 3, false)]) = true
    ∧ gets (.engineElement 0 3 0) (with' (kept isx [3, 0, 0, 0] [2])) (fun t => (queue t).map (fun x => x.poisonC) == [true]) = true
    ∧ isLive .f32 0x3F800000 = true ∧ isLive .f32 0x80000000 = false
    ∧ gets (.engineElement 0 3 0) (with' (kept (scan 0) [0, 0, 0x80, 0x3F] [])) (fun t => t.reqs.length == 2 && (eng t).map (fun e => (e.next, e.lo)) == some (1, 1)) = true
    ∧ gets (.engineElement 0 3 0) (with' (kept (scan 0) [0, 0, 0, 0x80] [])) (fun t => t.reqs.isEmpty && (eng t).map (fun e => (e.next, e.lo)) == some (1, 0)) = true
    ∧ gets (.engineElement 0 3 0) (with' (kept (scan 0) zeros [0])) (fun t => (eng t).map (fun e => (e.state, e.poison)) == some (.closing, true)) = true
    ∧ gets (.engineElement 0 3 0) (with' { scan 0 with next := 1 }) (fun t => t.reqs.isEmpty && (eng t).map (fun e => e.state) == some .closing) = true
    ∧ gets (.engineElement 0 3 0) (with' { scan (BitVec.ofNat 32 (3 * 2 ^ 20)) with next := 1 }) (fun t => t.reqs.length == 1 && (eng t).map (fun e => e.state) == some .closing) = true
    := by decide +kernel

/-- A stream of two elements of 4 bytes, and of 8 bytes; bit 3 of its flags makes it store. -/
def stream (flags : Nat) : EngCmd := { cmd .strm [0x4000, 512, 2, 0, 4, 0, 0, 0] with flags := flags, state := .running, run := true, total := 2 }

/-- A control command, number 4, beside the stream. -/
def controlled (t e : EngCmd) : State := (with' t).setEngine 0 4 e

theorem witness_EnginesAndStreamsRun :
    let run := fun (e : EngCmd) => (with' e).core 0
    let go : EngCmd := { cmd .strmgo [] with flags := 3 }
    let push : EngCmd := { cmd .strmx [] with values := [5, 6, 7] }
    (run (stream 10)).runningStream 0 = some (3, stream 10)
    ∧ gets (.streamElement 0 0) (with' { stream 10 with pushes := [5] }) (fun t => t.reqs.length == 1) = true
    ∧ [stream 2, stream 3].all (fun e => match (with' e).engRead 0 3 1 e (EngCmd.strmAddr e 0) (EngCmd.strmSize e) with | .data _ _ p => p.isEmpty | _ => false) = true
    ∧ EngCmd.strmSize (stream 3) = 8 ∧ EngCmd.strmSize (stream 2) = 4 ∧ EngCmd.isStoreStream (stream 10) = true ∧ EngCmd.isStoreStream (stream 2) = false
    ∧ gets (.streamElement 0 0) (with' (stream 2)) (fun t => (t.core 0).inject.length == 1) = true
    ∧ gets (.streamElement 0 0) (with' (stream 3)) (fun t => (t.core 0).inject.length == 2) = true
    ∧ gets (.streamClose 0 0) (with' { stream 2 with next := 2 }) (fun t => (t.core 0).engines.isEmpty) = true
    ∧ gets (.streamClose 0 0) (with' { stream 10 with next := 2 }) (fun t => (t.core 0).engines.isEmpty) = true
    ∧ gets (.streamClose 0 0) (with' { stream 10 with next := 2, startAt := 2, wrote := true, state := .closing }) (fun t => (t.core 0).engines.isEmpty) = true
    ∧ ((controlled (stream 10) go).core 0).targetStream 0 0 4 = some (3, stream 10)
    ∧ gets (.streamControlDelivery 0 4) (controlled (stream 10) go) (fun t => (Map.find? (t.core 0).engines 3).map (fun e => (e.run, e.close)) == some (true, true)) = true
    ∧ gets (.streamControlDelivery 0 4) (controlled (stream 10) push) (fun t => (Map.find? (t.core 0).engines 3).map (fun e => e.pushes) == some [5, 6]) = true
    ∧ ((with' go).core 0).targetStream 0 0 3 = none
    ∧ gets (.streamControlDelivery 0 3) (with' go) (fun t => (t.core 0).engines.isEmpty) = true := by decide +kernel

/-- A packet from core 9 for row 5 of tile 2 through input 3 of core 0. -/
def packet (stop : Nat) : RowPacket := ⟨9, 0, 3, 0, 2, 5, 0, stop, false, 0, [], List.replicate 64 0, false⟩

/-- The page and the region table of base die 8, on every base die. -/
def everywhere (s : State) : State := (List.range 8).foldl (fun a k =>
  a.setDie (8 + k) { a.die (8 + k) with tlb := (s.die 8).tlb, regTab := (s.die 8).regTab }) s

/-- A row engine of graph 0 whose input 3 takes packets of core 9, with these entries. -/
def engineOf (es : List RowEntry) : RowEngine :=
  { RowEngine.reset with owner := some 0, inputs := setNth RowEngine.reset.inputs 3 ⟨9, 4, es⟩ }

/-- The paged machine with a row engine on core 0. -/
def rows (r : RowEngine) : State := (regioned 0).setRow 0 r

def partial1 : Partial := ⟨2, 5, 0, List.replicate 64 (some 0x3F800000), false, false, 3, 0, false⟩

/-- A ROWS of one row at that address for input 3 of core 9. -/
def sendingRows : EngCmd :=
  { cmd .rows [0x4000, 512, 1, 64, 5, 0, 0, 0] with state := .running, total := 1, tile := 2, targets := [9 * 2 ^ 23 + 3 * 2 ^ 20 + 1] }

theorem witness_RowEngineAndSparseUnitsRun_rows :
    let drain : Drain := ⟨1, 0, 5, ⟨0, 0, 6, 0, 0, .auto⟩⟩
    let ends := fun (n : Nat) => rows { engineOf [⟨packet 7, false, 0, []⟩] with tiles := [(2, { Tile.reset with drain := some { drain with count := n } })] }
    let fires := rows (engineOf [⟨packet 0, false, 0, []⟩])
    let r := (fires.core 0).row
    let e : RowEntry := ⟨packet 0, false, 0, []⟩
    let pooled := rows { engineOf [⟨packet 0, true, 0, []⟩] with pool := [partial1] }
    let credits := demo.setCore 9 { demo.core 9 with credits := [⟨0, 3, 4, 1⟩] }
    let grants := demo.setCore 0 { demo.core 0 with grantWait := [⟨9, 3, 4, 4⟩] }
    let sent := fun (n : Nat) =>
      let s := (rows (engineOf [])).setEngine 0 3 { sendingRows with next := n }
      s.setCore 0 { s.core 0 with credits := [⟨9, 3, 4, 1⟩] }
    let swaps := rows { engineOf [] with loading := [(1, ⟨[7], Chan.reset, []⟩)] }
    let reading := rows { engineOf [] with tiles := [(2, { Tile.reset with reading := true })] }
    let im := { RowEngine.reset with tiles := [(2, Tile.reset)] }
    let mine : Graph := { bareGraph 0 with privBase := 2 ^ 41, saved := [(0, im)], resumeWait := [0] }
    let back := (everywhere (rows { RowEngine.reset with waiters := [0] })).setGraph 0 mine
    (gets (.rowPacketArrival 0) { rows (engineOf []) with rowPkts := [packet 0] } (fun t => (t.core 0).row.inputs.map (fun x => x.entries.length) == [0, 0, 0, 1, 0, 0, 0, 0]) = true
      ∧ (nthD RowInput.reset (engineOf []).inputs 3).src = 9 ∧ (engineOf []).owner = some 0)
    ∧ gets (.rowPacketArrival 0) { rows { engineOf [] with owner := some 1 } with rowPkts := [packet 0] } (fun t => t.rowReturns == [(9, 0, 3, 1)]) = true
    ∧ (fires.slotWithheld 0 8 = false ∧ (nthD RowInput.reset r.inputs 3).head = some e ∧ aheadOf (r.tile 2) 5 0 < 8 ∧ (r.tile 2).reading = false ∧ r.bars e = false
      ∧ slotFor (fires.core 0) 0 = some false ∧ [0, 1, 2, 4, 5, 6, 7, 8].all (fun j => (nthD RowInput.reset r.inputs j).entries.isEmpty) = true
      ∧ gets (.rowFire 0) fires (fun t => (t.core 0).row.pool.length == 1 && (t.core 0).row.rotate == 4) = true)
    ∧ (aheadOf ((pooled.core 0).row.tile 2) 5 0 = 0 ∧ gets (.partialAdd 0 0) pooled (fun t => ((t.core 0).row.tile 2).elem 5 0 == 0x3F800000) = true)
    ∧ gets (.endPacket 0 3) (ends 1) (fun t => (t.core 0).inject.length == 1) = true
    ∧ gets (.endPacket 0 3) (ends 2) (fun t => (t.core 0).inject.isEmpty && ((t.core 0).row.tile 2).drain.map (fun d => d.ends) == some 1) = true
    ∧ gets (.rowCreditReturn 0) { credits with rowReturns := [(9, 0, 3, 2)] } (fun t => (t.core 9).credits == [⟨0, 3, 4, 3⟩]) = true
    ∧ gets (.rowCreditGrant 0) grants (fun t => (t.core 0).credits.length == 1) = true
    ∧ (((sent 0).core 0).creditOf (9, 3) = some ⟨9, 3, 4, 1⟩ ∧ validTargets sendingRows.targets = [(9, 3)]
      ∧ (match (sent 0).rowsRead 0 3 sendingRows Chan.reset 0 with | (.data s1 b p, _, _) => decide (s1.core 0 = (sent 0).core 0) && b.length == 64 && p.isEmpty | _ => false) = true
      ∧ gets (.rowsRowSend 0 3) (sent 0) (fun t => t.rowPkts.length == 1) = true ∧ gets (.rowsRowSend 0 3) (sent 1) (fun t => t.rowPkts.map (fun p => p.stop) == [7]) = true)
    ∧ ((swaps.core 0).row.owed 1 = false ∧ gets (.bqSwap 0 1) swaps (fun t => ((t.core 0).row.bq).length == 1) = true)
    ∧ gets (.accwbReadoutEnd 0 2) reading (fun t => !((t.core 0).row.tile 2).reading) = true
    ∧ back.pathUp (routeDirs (dieOf 9) (dieOf 0)) = true ∧ back.imageWrites 0 0 = false
    ∧ (back.rowWaiters 0 = [0] ∧ gets (.engineOwnershipTransfer 0) back (fun t => (t.core 0).row.owner == some 0) = true)
    ∧ (match (back.readImage 0 0 mine (im.imageParts [])).2 with | some m => m.keeps im.bookParts | none => false) = true ∧ mine.state = .loaded := by decide +kernel

/-- A datum of a fibre. -/
def datum (coord : Nat) (v : Nat) : FibEntry := ⟨none, coord, decodeF .f32 v, false, false, 3, false⟩

/-- Core 0's intersection unit 1 with these heads. -/
def unitOf (scale : Bool) (a b : FibEntry) : State :=
  rows { RowEngine.reset with units := [(1, { IsUnit.reset with scale := scale, a := ⟨[a], none, false⟩, b := ⟨[b], none, false⟩ })] }

theorem witness_RowEngineAndSparseUnitsRun :
    let two := 0x40000000
    let inserts := fun (coord : Nat) => rows { RowEngine.reset with inserts := [⟨0, coord, decodeF .f32 two, false, false⟩] }
    let u := fun (t : State) => (t.core 0).row.unit 1
    let same := unitOf false (datum 7 two) (datum 7 two)
    let less := unitOf false (datum 6 two) (datum 7 two)
    ((match (u same).a.look, (u same).b.look with | .data x, .data y => x == datum 7 two && y == datum 7 two | _, _ => false) = true
      ∧ gets (.intersectStep 0 1) same (fun t => (u t).matched && (u t).a.queue.isEmpty && (u t).b.queue.isEmpty) = true)
    ∧ gets (.intersectStep 0 1) less (fun t => !(u t).matched && (u t).a.queue.isEmpty && (u t).b.queue.length == 1) = true
    ∧ gets (.intersectStep 0 1) (unitOf true (datum 6 two) (datum 9 two)) (fun t => (t.core 0).row.inserts.map (fun x => x.coord) == [9]) = true
    ∧ [0, 4095].all (fun n => gets (.sparseInsert 0 0) (inserts n) (fun t => Map.find? ((t.core 0).row.sacc 0).ents n == some 0x40000000)) = true
    ∧ gets (.sparseInsert 0 0) (inserts 4096) (fun t => ((t.core 0).row.sacc 0).ents.isEmpty) = true := by decide +kernel

/-- A supervisor graph of one block on core 0 alone, its own trap graph, traced into the ring at that address. -/
def tiny : Graph := { bareGraph 0 with rects := [⟨0, 0, 0, 0, 1, 1⟩], trap := 2 ^ 31, tracing := true, traceRing := va0 }

/-- The machine with that graph, an address space whose region 0 is plain, and a ring header of 65,536 bytes in memory. -/
def launching (ls : Map Launch) (q : List Nat) : State :=
  let s := (paged (lively { demo with links := allUp })).setGraph 0 tiny
  let s1 := s.setDie 0 { s.die 0 with regTab := [(0, [⟨0, 0, 0, 0, false, 0, true, 0⟩])] }
  { s1 with mem := [(0, 64), (8, 64), (18, 1)], control := { s1.control with launches := ls, launchQ := q, nextLaunch := 9 } }

/-- A launch of graph 0 of width 2, queued, delivering its roots, or done. -/
def launch1 (queued delivering : Bool) : Launch :=
  ⟨0, 2, 0, true, 0, true, 0, 0, 0, queued, delivering, 0, false, none, []⟩

def record1 (kind : Nat) : FaultRec := ⟨0, 0, 0, 0, 0, 0, 0, 0, kind, 4, 0, 8, 0, 0, 0⟩

theorem witness_LaunchesRun :
    let queued := launching [(7, launch1 true false)] [7]
    let roots := launching [(7, launch1 false true)] [7]
    let done := launching [(7, launch1 false false)] []
    let records := fun (k : Nat) => ({ launching [] [] with control := { (launching [] []).control with recQueue := [record1 k] } } : State)
    let base := launching [] []
    let traced := base.setCore 0 { base.core 0 with trace := ⟨[⟨0, 5, true⟩, ⟨0, 6, false⟩], 0, 0, 0⟩ }
    let lossy := { base.setCore 0 { base.core 0 with trace := ⟨[], 0, 0, 3⟩ } with graphs := [(0, tiny)] }
    let gens : State := { demo with sysReplies := [⟨0, [8, 9], 4, ⟨0, 0, 0, 0, 0, .auto⟩, ⟨0, 0, .l⟩, 0⟩] }
    (queued.launchFails (launch1 true false) = none ∧ queued.control.paused = false
      ∧ gets .launchStart queued (fun t => (Map.find? t.control.launches 7).map (fun l => (l.queued, l.delivering)) == some (false, true)) = true)
    ∧ (roots.coresOf 0 0 = [0] ∧ tiny.dies.all (fun d => !(roots.sweeping d 0 RelWord.every)) = true
      ∧ gets .rootTokenSend roots (fun t => (t.core 0).creations.length == 1 && (Map.find? t.control.launches 7).map (fun l => l.next) == some 1) = true)
    ∧ (done.launchDone 7 (launch1 false false) = true ∧ done.cores.all (fun k => (k.2.dirtyOf 0).isEmpty) = true ∧ gets (.launchComplete 7) done (fun t => t.control.launches.isEmpty) = true)
    ∧ ((records 0).trapOf 0 = some (0, 0) ∧ (records 0).coresOf 0 0 = [0]
      ∧ [0, 1, 2].all (fun k => gets .faultRecordDelivery (records k) (fun t => (t.core 0).creations.length == 1
        && t.control.openRecs.length == (if k < 2 then 1 else 0))) = true)
    ∧ ((traced.core 0).trace.burst 0 8 = [⟨0, 5, true⟩, ⟨0, 6, false⟩]
      ∧ (match traced.ctlRead 0 0 0 va0 24 with | .data _ b _ => b == toBytes 24 (64 + 64 * 2 ^ 64 + 65536 * 2 ^ 128) | _ => false) = true
      ∧ gets (.traceDrain 0 8) traced (fun t => memNat t.mem 64 8 == 5 && memNat t.mem 72 8 == 6 && memNat t.mem 0 8 == 80) = true)
    ∧ (tiny.cores = [0] ∧ gets (.traceLoss 0) lossy (fun t => (t.core 0).trace.buf.length == 3) = true)
    ∧ gets (.tgenTakeUp 8 0) gens (fun t => t.tgenOf 8 0 == 4 && t.sysReplies.length == 1) = true := by decide +kernel

/-- What holds where an act of the commit of warp 0 of core 0 is done. -/
def acted (s : State) (x : AtCommit) (f : State → Bool) : Bool := match s.actOne 0 0 1 bareWarp x with | .done t => f t | _ => false

/-- The further clauses of CommitActsTakeEffect: registers, histograms, windows, the trace, the journal. -/
theorem witness_CommitActsTakeEffect_registers :
    let s := launching [] []
    let bare := { s with graphs := [] }
    let part : Word := 0x040C1010
    let hists := fun (g : Nat) => s.setCore 0 { s.core 0 with hists := [(7, ⟨true, g, 0, [(3, 4)], [], 9⟩)] }
    let hist := fun (t : State) (n : Nat) => (Map.find? (t.core 0).hists n).map (fun h => (h.graph, h.filter, h.bins.length))
    let window := 2 ^ 41 * 2 ^ 72 + 4 * 2 ^ 57 + 2 ^ 41
    let traced := fun (t : State) => (t.graph? 0).map (fun g => (g.traceRing, g.tracing)) == some (va0, true)
    (s.eventNow 0 0x207 = false ∧ acted s (.syswr 0x207 5) (fun t => t.sysRead 0 0 0x207 == 5 && t.sysRead 0 0 0x208 == s.sysRead 0 0 0x208) = true)
    ∧ acted { s with eventAt := [(0x207, s.now + 1)] } (.syswr 0x207 5) (fun t => t.sysRead 0 0 0x207 == s.sysRead 0 0 0x207) = true
    ∧ [(7, 1), (8, 3)].all (fun p => acted s (.syswr 0x207 (BitVec.ofNat 32 p.1)) (fun t => (t.core 0).syswrStatus.toNat == 2 ^ 31 + p.2 * 2 ^ 12 + 0x207)) = true
    ∧ (Instr.syswr { sys with sysn := 0x307, opnd := .v 2 }).wellFormed ⟨4, 1, [], true⟩ = false
    ∧ (partOk part.toNat = true ∧ partOk 0 = false ∧ s.eventNow 0 1 = false ∧ s.inBlockRects 0 0 0 = true
      ∧ acted bare (.syswr 1 part) (fun t => (t.core 0).sramPart == part && (t.core 0).pendingPart.isNone) = true
      ∧ acted s (.syswr 1 part) (fun t => (t.core 0).pendingPart == some part) = true
      ∧ acted s (.syswr 1 0) (fun t => (t.core 0).syswrStatus.toNat == 2 ^ 31 + 2 ^ 12 + 1) = true)
    ∧ (acted (hists 1) (.hbind 7 2) (fun t => hist t 7 == some (1, 0, 1)) = true ∧ acted (hists 1) (.hbindRelease 7) (fun t => hist t 7 == some (1, 0, 1)) = true
      ∧ acted (hists 0) (.hbind 7 2) (fun t => hist t 7 == some (0, 2, 1)) = true ∧ acted s (.hbind 6 2) (fun t => hist t 6 == some (0, 2, 0)) = true
      ∧ acted (hists 0) (.hbindRelease 7) (fun t => hist t 7 == none) = true)
    ∧ (let owned := (owning).setCore 0 { (owning).core 0 with windows := [(3, ⟨2 ^ 34, 2, 1, true, 0⟩)] }
       (owning).stashEngines 0 0 = false ∧ (owned.core 0).stash.length = 1
       ∧ (owned.stashAct 0 0 0 1 0 (.smap 3 0)).any (fun t => (t.core 0).windows.isEmpty && (t.core 0).stash.isEmpty) = true
       ∧ ((owning).stashAct 0 0 0 1 0 (.smap 3 window)).any (fun t => Map.find? (t.core 0).windows 3 == some (windowOfDesc window)) = true
       ∧ (windowOfDesc window).lines = 4
       ∧ ((with' { copying with flags := 1 }).stashEngines 0 0 = true ∧ ((with' { copying with flags := 1 }).stashAct 0 0 0 1 0 (.smap 3 0)).isNone = true))
    ∧ (acted s (.tron va0 1) traced = true ∧ acted s .troff (fun t => (t.graph? 0).map (fun g => (g.tracing, g.troffAt)) == some (false, some s.now)) = true
      ∧ acted s (.trmark 3 9) (fun t => !(t.core 0).trace.buf.isEmpty) = true)
    ∧ acted s (.jrnl 8 9) (fun t => t.control.seq == s.control.seq + 1
        && (Map.find? t.control.journal s.control.seq).map (fun r => (r.kind, r.command, r.result)) == some (1, 8, 9)) = true := by decide +kernel

/-- The clauses of what replies: a launch, a generation, a record resolved; with the counter saturated each waits. -/
theorem witness_CommitActsTakeEffect_replies :
    let s := launching [] []
    let full := s.setFrame 0 0 { bareFrame with infl := ⟨0, 0, 0, 65535⟩ }
    let spaced : State := { s with spaces := [(5, ⟨2 ^ 20, 2 ^ 20, 255⟩)] }
    let y : FaultRec := { record1 0 with die := 0 }
    let parked : FaultRec := { y with kind := 1 }
    let mark : FaultRec := { parked with code := 8 }
    let opened := fun (y : FaultRec) => ({ s with control := { s.control with openRecs := [y] } } : State)
    let d := fun (y : FaultRec) => [BitVec.ofNat 32 y.handle, BitVec.ofNat 32 (y.handle / 2 ^ 32), 0, 0, 7, 0, 0, 0]
    let replied := fun (t : State) => !(t.core 0).inject.isEmpty || !t.crossings.isEmpty
    (full.replyCharge 0 0 bareWarp).isNone = true ∧ (s.replyCharge 0 0 bareWarp).isSome = true
    ∧ ([AtCommit.gload [] 0, .gunld 0 0, .preempt 0 0, .resume 0 0, .launch [] 0, .tgen 0 0, .dirfl [] 0, .tret 0 [] 0].all
        (fun x => match full.actOne 0 0 1 bareWarp x with | .waits _ => true | _ => false)) = true
    ∧ acted s (.launch [7, 3, 5, 0, 0, 0, 0, 0] 0) (fun t => t.control.launchQ == [9] && t.control.seq == s.control.seq + 1
        && (Map.find? t.control.launches 9).map (fun l => (l.graph, l.width, l.prio, l.queued)) == some (7, 3, 1, true)) = true
    ∧ acted s (.tgen 5 0) replied = true
    ∧ acted spaced (.tgen 5 0) (fun t => (Map.find? t.spaces 5).map (fun p => p.tgen) == some 0 && t.sysReplies.length == 1) = true
    ∧ acted s (.tret 0 (d y) 0) replied = true
    ∧ ([0, 1].all (fun n => acted (opened y) (.tret n (d y) 0) (fun t => t.control.openRecs.isEmpty && replied t))) = true
    ∧ ([0, 1].all (fun n => acted (opened parked) (.tret n (d parked) 0) (fun t => t.control.openRecs.isEmpty && replied t))) = true
    ∧ acted (opened mark) (.tret 2 (d mark) 0) (fun t => (t.graph? 0).map (fun g => nthD 0 g.hwm 0) == some 7 && replied t) = true
    ∧ acted (opened y) (.tret 2 (d y) 0) replied = true ∧ acted (opened y) (.tret 3 (d y) 0) (fun _ => true) = true
    ∧ ((opened y).setCore 0 { (opened y).core 0 with landed := some (0, s.now) }).landedNow 0 0 = true := by decide +kernel

/-- A host command, and the machine with it started as number 5, its session live with a credit in queue 3. -/
def hostCmd (opcode : Nat) (body : List Word) : HostCommand := ⟨77, body, 0, 0, 0, 0, 3, opcode⟩
def started (c : HostCommand) : Cmd := ⟨c, 1, .started, [], false, false, 0, 0, none, 0⟩

def hosted (x : Cmd) : State :=
  let s := launching [] []
  { s with control := { s.control with
    powered := true, ready := true, sessions := [⟨1, 2, true, 0, [(3, 1)]⟩], cmds := [(5, x)], queues := [(3, [5])], seq := 6 } }

theorem witness_HostCommandsQueue :
    let x := started (hostCmd 7 [0, 0, 0, 0, 0, 0, 0, 0])
    let set := fun (s : State) => ({ s with domainKeys := [(0, 0)], control := { s.control with chipSet := true, trained := true } } : State)
    let hosted := fun (y : Cmd) => set (hosted y)
    let waiting := hosted { x with state := .accepted }
    let ended := hosted { x with ready := true }
    let cmds := fun (t : State) => (t.control.cmds.map (fun p => (p.1, p.2.state)))
    let bare := fun (c : List (Nat × Nat)) => ({ hosted x with control := { (hosted x).control with sessions := [⟨1, 2, true, 0, c⟩] } } : State)
    HostCommand.parse (HostCommand.bytes (hostCmd 7 (List.replicate 12 5))) = hostCmd 7 (List.replicate 12 5) ∧ HostCommand.namesNoDie x.cmd = false
    ∧ gets (.commandAccept 1 (HostCommand.bytes (hostCmd 7 [19, 0, 0, 0, 0, 0, 0, 0, 0, 0, 0, 0]))) (hosted x) (fun t => cmds t == [(5, .started)]) = true
    ∧ HostCommand.legal x.cmd = true ∧ HostCommand.legal { x.cmd with opcode := 13 } = false
    ∧ gets (.commandAccept 1 (HostCommand.bytes x.cmd)) (hosted x) (fun t => cmds t == [(5, .started), (6, .accepted)]) = true
    ∧ gets (.commandAccept 1 (HostCommand.bytes x.cmd)) (bare []) (fun t => cmds t == [(5, .started)] && t.control.statusOut.length == 1) = true
    ∧ gets (.commandAccept 1 (HostCommand.bytes { x.cmd with opcode := 13 })) (hosted x) (fun t => cmds t == [(5, .started)] && t.control.statusOut.length == 1) = true
    ∧ (waiting.control.firstQueue (List.range 64) = some (3, 5) ∧ gets .commandStart waiting (fun t => cmds t == [(5, .started)]) = true)
    ∧ gets (.commandEnd 5) ended (fun t => t.control.cmds.isEmpty && t.control.journal.isEmpty) = true := by decide +kernel

/-- An image of one block of one word (R96, R97). -/
def image (code : Nat) : List Byte :=
  toBytes 4 0x49474D4C ++ toBytes 2 1 ++ toBytes 2 0 ++ toBytes 2 1 ++ toBytes 2 0 ++ toBytes 1 1 ++ toBytes 3 0 ++ toBytes 2 0 ++ toBytes 2 3
    ++ toBytes 4 1 ++ toBytes 8 0 ++ toBytes 4 232 ++ toBytes 4 1 ++ List.replicate 88 0
    ++ toBytes 8 (2 ^ 54 + 3 * 2 ^ 31) ++ toBytes 8 0 ++ toBytes 4 0 ++ toBytes 4 1 ++ List.replicate 72 0
    ++ toBytes 8 (2 ^ 32 + 2 ^ 40) ++ toBytes 8 code

/-- The host's machine with an image at that address, and pages for it and for the private range above 2 ^ 41. -/
def imaged (x : Cmd) : State :=
  { hosted x with
    mem := memWrites (tables ++ [(0x1021E0, 27)]) 0 (image 0x0e70003400000000), spaces := [(0, ⟨2 ^ 20, 2 ^ 20, 0⟩)] }

theorem witness_HostCommandsAct_load :
    let x := started (hostCmd 1 [0x4000, 512, 0, 0, 0, 512, 0, 0, 0])
    (imaged x).running 5 1 = some x
    ∧ (match (imaged x).loadGraph ⟨x.cmd.body.take 8, 256, 0, hostIdent, true, none⟩ with | .ok s1 g => g == 1 && s1.graphs.length == 2 | _ => false) = true := by decide +kernel

/-- The host's machine with no warp, a command started. -/
def quiet (x : Cmd) : State := (hosted x).setCore 0 { (hosted x).core 0 with warps := [] }

/-- The words that a service answers at once, if it does. -/
def servedAt (r : Served) : Option (List Nat) := match r with | .done _ ws => some ws | .wait _ => none

theorem witness_HostCommandsAct :
    let at' := fun (op : Nat) (body : List Word) => started (hostCmd op body)
    let ends := fun (i : Instr) (s : State) (n : Nat) =>
      gets i s (fun t => (Map.find? t.control.cmds 5).map (fun x => (x.ready, x.result)) == some (true, BitVec.ofNat 64 n))
    let unload := at' 2 [0, 0, 0, 0, 0, 0, 0, 0]
    let launch := at' 3 [0, 0, 0, 0, 0, 0, 0, 0]
    let copy := at' 4 [1, 0, 0, 0, 0, 0x4000, 512, 4]
    let preempt := at' 5 [0, 0, 0, 0, 0, 0, 0, 0]
    let written := ((quiet preempt).setGraph 0 { tiny with state := .preempted, saver := some (hostKey 5) }).setFrame 0 0 { bareFrame with resident := false }
    let resume := at' 6 [0, 0, 0, 0, 0, 0, 0, 0]
    let asleep := (quiet resume).setGraph 0 { tiny with state := .preempted }
    let reset := at' 9 [0, 0, 0, 0, 0, 0, 0, 0]
    let drain := at' 9 [256, 0, 0, 0, 0, 0, 0, 0]
    let attest := at' 10 [3, 0, 0, 0, 0, 0, 0, 0]
    let active := fun (s : State) (d : Nat) => s.setDie d { s.die d with state := .active }
    (servedAt ((quiet unload).unloadGraph 256 (hostKey 5) 0) = some [0, 1] ∧ ends (.hUnload 5) (quiet unload) (2 ^ 32) = true)
    ∧ (Map.find? (hosted launch).control.launches 9 = none
      ∧ gets (.hLaunch 5) (hosted { launch with launch := some 9 }) (fun t => (Map.find? t.control.launches 9).map (fun l => l.queued) == some true) = true)
    ∧ (gets (.hCopy 5 [1, 2, 3, 4]) (hosted copy) (fun t => (Map.find? t.control.cmds 5).map (fun x => x.step) == some 1) = true
      ∧ gets (.hCopy 5 ([1, 2, 3, 4] ++ List.replicate 60 0)) ((hosted { copy with step := 1 }).setGraph 0 { tiny with traceRing := 0 }) (fun t => memNat t.mem 0 4 == 0x04030201) = true
      ∧ ends (.hCopy 5 []) (hosted { copy with step := 5 }) 4 = true)
    ∧ (gets (.hPreempt 5) (quiet preempt) (fun t => !t.reqs.isEmpty && (Map.find? t.control.cmds 5).map (fun x => x.ready) == some false) = true
      ∧ servedAt (written.preemptGraph 256 (hostKey 5) 0) = some [0, 1] ∧ ends (.hPreempt 5) written (2 ^ 32) = true)
    ∧ (servedAt (asleep.resumeGraph 256 0) = some [0] ∧ ends (.hResume 5) asleep 0 = true)
    ∧ ends (.hQueryDieEntry 5) (hosted (at' 7 [8, 0, 0, 0, 0, 0, 0, 0])) ((hosted (at' 7 [])).die 8).entry = true
    ∧ ends (.hQueryErrorCounter 5) (hosted (at' 7 [256, 0, 0, 0, 0, 0, 0, 0])) 0 = true
    ∧ ends (.hQueryExchange 5) (hosted (at' 7 [512, 0, 0, 0, 0, 0, 0, 0])) ((hosted (at' 7 [])).exchangeWord 0) = true
    ∧ bits 256 8 8 = 1 ∧ bits 512 8 8 = 2
    ∧ ends (.hJournalRead 5) (hosted (at' 8 [0, 0, 2, 0, 0, 0, 0, 0])) 2 = true
    ∧ gets (.hDieReset 5) (quiet reset) (fun t => (t.die 0).incarnation == 1) = true
    ∧ (((active (quiet drain) 0).die 0).state = .active ∧ bitOf 256 8 = true
      ∧ gets (.hDieReset 5) (active (quiet drain) 0) (fun t => (Map.find? t.control.cmds 5).map (fun x => x.step) == some 1) = true)
    ∧ gets (.hAttest 5) (active (hosted attest) 3) (fun t => (t.die 3).attStep == 25) = true := by decide +kernel

theorem witness_HostCommandsAct_debug :
    let at' := fun (op : Nat) (body : List Word) => hosted (started (hostCmd op body))
    let with'' := fun (s : State) (st : DieState) => s.setDie 1 { s.die 1 with state := st }
    let on := at' 11 [0, 1, 0, 0, 0, 0, 0, 0]
    let off := at' 11 [1, 1, 0, 0, 0, 0, 0, 0]
    gets (.hDebugHalt 5) (with'' on .active) (fun t => (t.die 1).state == .halted) = true
    ∧ gets (.hDebugHalt 5) (with'' on .quarantined) (fun t => (Map.find? t.control.cmds 5).map (fun x => x.result) == some 1) = true
    ∧ gets (.hDebugRelease 5) (with'' off .halted) (fun t => (t.die 1).state == .active) = true
    ∧ gets (.hDebugArm 5) (at' 11 [2, 0, 0, 0, 0, 0, 0, 0]) (fun t => (t.graph? 0).map (fun g => g.brk) == some true) = true
    ∧ gets (.hDebugDisarm 5) (at' 11 [3, 0, 0, 0, 0, 0, 0, 0]) (fun t => (t.graph? 0).map (fun g => g.brk) == some false) = true
    ∧ gets (.hConfigureQueuePriority 5) (at' 12 [0, 63, 3, 0, 0, 0, 0, 0]) (fun t => Map.getD t.control.queuePrio 63 0 == 3) = true
    ∧ [1000, 3800].all (fun n => gets (.hConfigurePowerCap 5) (at' 12 [1, BitVec.ofNat 32 n, 0, 0, 0, 0, 0, 0]) (fun t => t.powerCap == n)) = true
    ∧ [999, 3801].all (fun n => gets (.hConfigurePowerCap 5) (at' 12 [1, BitVec.ofNat 32 n, 0, 0, 0, 0, 0, 0]) (fun t => t.powerCap == 3800)) = true
    ∧ ((at' 12 [2, 5, 0, 0, 0, 0, 0, 0]).running 5 12).isSome = true ∧ Map.find? (at' 12 [2, 5, 0, 0, 0, 0, 0, 0]).exchange 5 = none
    ∧ gets (.hConfigureChip 5) (at' 12 [3, 7, 0, 0, 0, 0, 0, 0]) (fun t => t.chipId == 7 && t.control.chipSet) = true
    ∧ gets (.hConfigureInstallKey 5) (at' 12 [4, 1, 0, 0, 0, 0, 0, 0]) (fun t => (Map.find? t.domainKeys 1).isSome) = true
    ∧ gets (.hConfigureSendKey 5) (at' 12 [5, 1, 0, 0, 0, 0, 0, 0]) (fun t => t.sendKey == 1) = true
    ∧ gets (.hConfigureEraseKey 5) (at' 12 [6, 1, 0, 0, 0, 0, 0, 0]) (fun t => (Map.find? t.domainKeys 1).isNone) = true := by decide +kernel

/-- An answer that checks, of SPDM 1.3. -/
def answer : SpdmAnswer := ⟨true, false, 0, 0x13, [1, 2], [3], []⟩

/-- The package up, its control die ready, and a die at a step of its attestation. -/
def attested (d : Nat) (st : DieState) (step try' : Nat) : State :=
  let s := { demo with now := 20000000, control := { demo.control with powered := true, ready := true } }
  s.setDie d { s.die d with state := st, attStep := step, attTry := try' }

/-- The package up with these host sessions. -/
def inSessions (ys : List Session) : State :=
  { demo with control := { demo.control with powered := true, ready := true, sessions := ys } }

theorem witness_SpdmMessagesAct :
    let msgs : List (SpdmPeer → SpdmAnswer → Instr) := [.getVersion, .getCapabilities, .negotiateAlgorithms, .getDigests, .getCertificate, .challenge,
      .getMeasurements, .keyExchange]
    let st := fun (t : State) => ((t.die 17).state, (t.die 17).attStep)
    let live := inSessions [⟨1, 2, true, 0, []⟩]
    msgs.zipIdx.all (fun m => m.2 == 0 || gets (m.1 (.die 17) answer) (attested 17 .attesting m.2 0) (fun t => st t == (.attesting, m.2 + 1))) = true
    ∧ msgs.zipIdx.all (fun m => gets (m.1 (.die 17) { answer with good := false }) (attested 17 .attesting m.2 0) (fun t => st t == (.quarantined, 0))) = true
    ∧ gets (.getVersion (.die 17) answer) (attested 17 .quarantined 0 0) (fun t => st t == (.attesting, 1)) = true
    ∧ gets (.finish (.die 17) answer) (attested 17 .attesting 8 0) (fun t => st t == (.attesting, 9)) = true
    ∧ msgs.zipIdx.all (fun m => 6 ≤ m.2 || gets (m.1 (.host 1) answer) (inSessions []) (fun t => t.control.spdmOut.map (fun y => (y.session, y.code)) == [(1, .served)])) = true
    ∧ gets (.getMeasurements (.host 1) answer) (inSessions []) (fun t => t.control.spdmOut.length == 1) = true
    ∧ gets (.unsupportedRequest (.host 1) answer) (inSessions []) (fun t => t.control.spdmOut == [⟨1, .unsupportedRequest, [], .empty, 18⟩]) = true
    ∧ gets (.keyExchange (.host 1) answer) (inSessions []) (fun t => t.control.sessions == [⟨1, 1, false, 0, []⟩]) = true
    ∧ gets (.keyExchange (.host 1) answer) (inSessions [⟨2, 1, false, 0, []⟩, ⟨3, 1, false, 0, []⟩, ⟨4, 1, false, 0, []⟩]) (fun t => t.control.sessions.length == 4) = true
    ∧ gets (.finish (.host 1) answer) (inSessions [⟨1, 1, false, 0, []⟩]) (fun t => t.control.sessions.map (fun y => y.live) == [true]) = true
    ∧ gets (.keyUpdate (.host 1) answer) live (fun t => t.control.sessions.map (fun y => y.keyGen) == [1]) = true
    ∧ gets (.endSession (.host 1) answer) live (fun t => t.control.sessions.isEmpty) = true
    ∧ [Instr.finish (.host 1) { answer with version := 0x12 }, .keyUpdate (.host 1) { answer with version := 0x12 }, .endSession (.host 1) { answer with version := 0x12 },
        .getDigests (.host 1) { answer with version := 0x12 }].all
      (fun i => gets i (inSessions []) (fun t => t.control.spdmOut.map (fun y => (y.session, y.code)) == [(1, .versionMismatch)])) = true
    ∧ gets (.securedMessageCheckFailure 1) live (fun t => t.control.sessions.isEmpty) = true
    ∧ gets (.attestationResponseTimeout 17) (attested 17 .attesting 8 0) (fun t => st t == (.quarantined, 0)) = true
    ∧ [1, 2].all (fun n => gets (.attestationRetry 17) (attested 17 .quarantined 0 n) (fun t => st t == (.attesting, 0))) = true := by decide +kernel

/-- A direction of a boundary, up, at a step of its rollover. -/
def linked (d step : Nat) : State := (lively demo).setLink d { LinkDir.reset with up := true, step := step, txCount := 2 ^ 48 }

/-- A fabric die with a domain key, a port up, and a packet of a class to this chip. -/
def ported : State :=
  let s := { demo with domainKeys := [(0, 5)], ports := [(1, true)], reachable := [0] }
  s.setDie 16 { s.die 16 with state := .active }
def fpkt (cls : Nat) : FabricPacket := ⟨0, 7, cls, 0, 0, 0, 0, 0, List.replicate 48 0, true, none⟩

/-- The header's bits at the places that R382 gives, written out by hand. -/
theorem test_fabric_header :
    (FabricPacket.wire ⟨1, 2, 3, 1, 5, 6, 0, 7, [], true, none⟩).header = 0x00100239460000000000000000000007#128
    ∧ FabricPacket.parse ⟨0x00100239460000000000000000000007#128, [], true, none⟩ = ⟨1, 2, 3, 1, 5, 6, 0, 7, [], true, none⟩ := by decide +kernel

theorem witness_BoundariesAndFabric :
    let crossing := { linked 0 0 with crossings := [⟨⟨64, 0, .token (tok 5 7)⟩, [0]⟩] }
    let steps := fun (i : Nat → Instr) (n : Nat) (d : Nat) => gets (i d) (linked d n) (fun t => (t.link d).step == (n + 1) % 5)
    [0, 43].all (fun d => !(linked d 0).rollsBefore d && steps .keyRolloverStart 0 d && steps .senderKeyDelivery 1 d && steps .firstNewKeyFlit 2 d && steps .drainMarkerSend 3 d
      && steps .drainMarkerArrival 4 d && gets (.flitCounterLimit d) (linked d 0) (fun t => (t.link d).stopped)) = true
    ∧ (senderOf 0 ≠ receiverOf 0 ∧ gets (.boundaryTagFailure ⟨0, .other⟩) (linked 0 0) (fun t => (t.die (senderOf 0)).state == .quarantined && !(t.link 0).up) = true)
    ∧ gets (.boundaryTokenCreditReturn 0) crossing (fun t => t.crossings.isEmpty && (t.core 0).matchIn.length == 1) = true
    ∧ (ported.livePorts = [1] ∧ gets (.fabricPacketSend 0) { ported with fabricOut := [fpkt 0] } (fun t => t.fabricSent.map (fun w => ((FabricPacket.parse w).sport, (FabricPacket.parse w).counter)) == [(1, 0)]) = true)
    ∧ gets (.fabricPacketReceive 16 (FabricPacket.wire (fpkt 0))) ported (fun t => t.crossings.length == 1) = true
    ∧ gets (.fabricPacketReceive 16 (FabricPacket.wire (fpkt 1))) ported (fun t => t.reqs.length == 1) = true
    ∧ gets (.fabricPacketReceive 16 (FabricPacket.wire (fpkt 2))) ported (fun t => t.reqs.isEmpty) = true
    ∧ gets (.fabricPacketReceive 16 (FabricPacket.wire (fpkt 3))) ported (fun t => t.crossings.isEmpty) = true
    ∧ gets (.fabricPacketReceive 16 (FabricPacket.wire (fpkt 4))) ported (fun t => t.fabricOut.isEmpty) = true
    ∧ (({ linked 0 0 with links := [(0, { LinkDir.reset with up := true })] } : State).core 0).matchIn.length < 32 ∧ crossing.pathUp [0] = true
    ∧ gets (.fabricPacketReceive 16 (FabricPacket.wire { fpkt 0 with keyIdx := 1 })) ported (fun t => Map.getD (t.die 16).errors 2 0 == 1) = true
    ∧ gets (.fabricPacketReceive 16 (FabricPacket.wire { fpkt 0 with tagGood := false })) ported (fun t => Map.getD (t.die 16).errors 1 0 == 1) = true
    ∧ gets (.fabricPacketReceive 16 (FabricPacket.wire { fpkt 0 with dchip := 7, tagGood := false })) ported (fun t => Map.getD (t.die 16).errors 2 0 == 1
        && Map.getD (t.die 16).errors 1 0 == 0) = true
    ∧ (let spent := { ported with fabricOut := [fpkt 0], portCount := [(portKey 0 63, 2 ^ 48)] }
       ported.keySpent = false ∧ spent.keySpent = true ∧ gets (.fabricPacketSend 0) spent (fun t => decide (t = spent)) = true)
    ∧ gets (.fabricPortChange 17 true) { ported with control := { ported.control with trained := false } } (fun t => t.control.trained) = true
    ∧ [0, 35].all (fun n => gets (.fabricPortChange n false) demo (fun t => Map.find? t.ports n == some false)) = true
    ∧ gets (.fabricPortChange 17 true) ported (fun t => Map.find? t.ports 17 == some true) = true := by decide +kernel

/-- A group of chips 0 and 1 whose baristas are this chip's fabric dies. -/
def group1 : Group := ⟨[0, 1], 0, 16, 0, 17, 1700, 17, [], [], false, 0, false, false, 0, [], [], false⟩

/-- A calendar of one phase: member 0 is granted two units to member 1, and member 1 one to member 0. -/
def calendar1 : Calendar := ⟨17, [⟨2, [some 1, some 0]⟩], 0, some 0, [], [[0, 2], [1, 0]], [[0, 2], [1, 0]], false, [1], 0, [0, 0]⟩
def going : Group := { group1 with cals := [calendar1], issued := 2, nextCal := 18, grants := [⟨1, 0, 1, 2, 17, false⟩] }

/-- A DXCH of this chip bound to that calendar. -/
def exching : EngCmd :=
  { cmd .dxch [0x4000, 512, 0, 0, 0, 0, 0x4000, 512] with flags := 5, state := .running, cal := some 17, targets := [0, 2], sent := [0, 0], recv := [0, 0] }

/-- The paged machine at cycle 100,000 with that group, and the DXCH. -/
def exchanging (g : Group) (e : EngCmd) : State :=
  let s := { with' e with now := 100000 }
  (s.setGroup 5 g).setDie 16 { s.die 16 with state := .active }

theorem witness_ExchangeRuns :
    let posted := exchanging { group1 with posts := [(0, [0, 2])] } exching
    let s := exchanging going exching
    let group := fun (t : State) => Map.getD t.exchange 5 group1
    let standby := { going with inCharge := true, cals := [{ calendar1 with started := none }] }
    let dead := (exchanging standby exching).setDie 17 Die.reset
    (group1.indexOf 0 = some 0 ∧ gets (.postArrival 5 1 [1, 0]) posted (fun t => (group t).cals.length == 1) = true
      ∧ gets (.postArrival 5 1 [1, 0]) (exchanging group1 exching) (fun t => (group t).posts.length == 1) = true)
    ∧ (going.current = some calendar1 ∧ CalPhase.senders ⟨2, [some 1, some 0]⟩ = [0, 1]
      ∧ gets (.phaseDoneMarker 5 ⟨1, 3, 0, true⟩) s (fun t => (group t).current.map (fun c => (c.markers, c.unused)) == some ([1], 2)) = true
      ∧ gets (.phaseDoneMarker 5 ⟨1, 0, 0, true⟩) (exchanging { going with cals := [{ calendar1 with markers := [0] }] } { exching with recv := [0, 16] }) (fun t => (group t).current.isNone) = true)
    ∧ gets (.phaseTimeout ⟨5, 1, 0, true⟩) s (fun t => (group t).current.isNone) = true
    ∧ s.debugHold = [] ∧ going.grants.find? (fun y => y.cal == 17 && y.phase == 1) = some ⟨1, 0, 1, 2, 17, false⟩ ∧ going.indexOf 1 = some 1
    ∧ (exching.exchGroup = 5 ∧ gets (.dxchGrant 0 3) s (fun t => (Map.find? (t.core 0).engines 3).map (fun e => e.lo) == some 1 && t.fabricOut.length == 8) = true
      ∧ gets (.dxchGrant 0 3) (exchanging going { exching with lo := 2, sent := [0, 2] }) (fun t => (Map.find? (t.core 0).engines 3).map (fun e => e.next) == some 1) = true)
    ∧ gets (.baristaHeartbeat 5) s (fun t => (group t).beat == 100000) = true
    ∧ ((exchanging { going with cals := [], standbyDie := 16 } exching).die 16).state = .active
    ∧ gets (.standbyTakeover 5) (exchanging { going with cals := [], standbyDie := 16 } exching) (fun t => (group t).inCharge) = true
    ∧ gets (.takeoverNotice 5) (exchanging standby exching) (fun t => (group t).noticed) = true
    ∧ gets (.takeoverNotice 5) (exchanging { going with standby := 1, inCharge := false } exching)
        (fun t => (group t).inCharge && (group t).noticed && (group t).grants.isEmpty && (group t).issued == 1) = true
    ∧ gets (.takeoverNotice 5) (exchanging { going with inCharge := false } exching) (fun t => !(group t).noticed) = true
    ∧ gets (.phaseTimeout ⟨5, 0, 2, true⟩) (exchanging going { exching with sent := [0, 2] }) (fun t => (group t).current.isNone) = true
    ∧ (dead.halted 0 = false ∧ dead.standbyFailed standby = true
      ∧ gets (.dxchGrantTimeout 0 3) dead (fun t => (group t).failed) = true) := by decide +kernel

/-- A DPOST sends its row, and a DXCH takes up its calendar, reads its array and, when no phase is left, writes its status. -/
theorem witness_EnginesAndStreamsRun_exchange :
    let post : EngCmd := { cmd .dpost [0x4000, 512, 0, 0, 0, 0, 0, 0] with flags := 5, state := .running, total := 1 }
    let apart := { group1 with standby := 1 }
    let fresh := { exching with desc := [0x4000, 512, 0, 0, 0x4000, 512, 0x4000, 512], cal := none, targets := [], sent := [], recv := [] }
    let free := { group1 with cals := [{ calendar1 with used := [] }] }
    let ended := { group1 with cals := [{ calendar1 with phases := [], started := none }] }
    let eng := fun (t : State) => Map.find? (t.core 0).engines 3
    let reads := fun (s : State) (e : EngCmd) => match s.engRead 0 3 1 e va0 8 with | .data _ b p => some (b.length, p) | _ => none
    (post.exchGroup = 5 ∧ reads (exchanging apart post) post = some (8, []) ∧ (exchanging apart post).pathUp ((exchanging apart post).baristaDirs 0 apart) = true
      ∧ gets (.engineElement 0 3 0) (exchanging apart post) (fun t => (eng t).map (fun e => e.targets) == some [0, 0] && t.fabricOut.length == 1) = true)
    ∧ gets (.engineElement 0 3 0) (exchanging free fresh) (fun t => (eng t).map (fun e => (e.cal, e.sent)) == some (some 17, [0, 0])) = true
    ∧ gets (.engineElement 0 3 0) (exchanging going { fresh with cal := some 17 }) (fun t => (eng t).map (fun e => e.targets) == some [0, 0]) = true
    ∧ gets (.engineElement 0 3 0) (exchanging going exching) (fun t => decide (t = exchanging going exching)) = true
    ∧ gets (.engineElement 0 3 0) (exchanging ended exching) (fun t => !t.reqs.isEmpty && (eng t).map (fun e => e.state) == some .closing) = true := by decide +kernel

theorem witness_DiesAndPackage :
    let up := { demo with now := 20000000, control := { demo.control with powered := true, samples := List.replicate 20 (3800, 100) } }
    let keyed := dirsOf 3
    let ready := ({ up with links := keyed.map (fun n => (n, { LinkDir.reset with up := true })) } : State).setDie 3
      { up.die 3 with state := .attesting, attStep := 9 }
    let hot := { up with control := { up.control with samples := List.replicate 20 (3801, 100) } }
    let sampled := { up with control := { up.control with samples := [(1, 1)] } }
    gets (.dieReset 17) up (fun t => (t.die 17).state == .quarantined && (t.die 17).incarnation == 1) = true
    ∧ (keyed.all (fun n => (Map.getD ready.links n LinkDir.reset).up) = true ∧ gets (.dieRejoin 3) ready (fun t => (t.die 3).state == .active) = true)
    ∧ gets (.uncorrectableMatchingError 0) up (fun t => Map.getD (t.core 0).counters (0x045 * 4096) 0 == 1) = true
    ∧ gets (.memoryError (.frameSlot 0 0 0) true) demo (fun t => Map.getD (t.core 0).counters (0x044 * 4096) 0 == 1) = true
    ∧ gets (.memoryError (.dram 64 8) false) demo (fun t => t.poisoned 64 8 && !t.poisoned 72 8) = true
    ∧ gets .mgmtHeartbeatTimeout { up with control := { up.control with mirrorFrom := 3, mirrorLost := [] } }
        (fun t => t.control.mgmtBeat == 20000000 && t.control.mirrorFrom == 0 && t.control.mirrorLost == t.control.ringLost) = true
    ∧ (let buf := (owning).setCore 0 { (owning).core 0 with opbufs := [(4, ⟨2, 1, 128, List.replicate 128 0, [], true, none, []⟩)] }
       gets (.memoryError (.stash 0 2 15) false) buf (fun t => (Map.find? (t.core 0).stash 2).map (fun l => l.poison.length) == some 8
         && (Map.find? (t.core 0).opbufs 4).map (fun b => b.poison) == some ((List.range 8).map (fun i => 120 + i))) = true)
    ∧ gets (.memoryError (.rowPacket 0) false) { up with rowPkts := [packet 0] } (fun t => t.rowPkts.map (fun p => p.poison) == [true]) = true
    ∧ gets (.memoryError (.tokenCrossing 0) false) { up with crossings := [⟨⟨64, 0, .token (tok 5 7)⟩, [0]⟩] }
      (fun t => t.crossings == [⟨(⟨64, 0, .token (tok 5 7)⟩ : Packet).poisoned, [0]⟩]) = true
    ∧ gets (.powerSample 3800 ⟨100, true⟩) sampled (fun t => t.control.samples == [(1, 1), (3800, 100)] && t.control.mgmtBeat == 20000000) = true
    ∧ gets .powerControlInterval up (fun t => t.control.withheld == 0 && t.control.samples.isEmpty) = true
    ∧ gets .powerControlInterval hot (fun t => t.control.samples.isEmpty) = true
    ∧ gets .packageReset up (fun t => t.now == 0 || (t.die 0).state == .quarantined) = true
    ∧ gets .thermalTrip { up with control := { up.control with junction := 115 } } (fun t => t.control.hot) = true
    ∧ gets .powerOn demo (fun t => t.control.powered && (t.die 18).state == .active && (t.die 0).state == .quarantined) = true := by decide +kernel

end Sys2Proof.Tests
end

section
/-! PROOFS. Memory: what a read finds after a write (R6). -/
namespace Sys2Proof.Machine

@[simp] theorem memReads_length (m : List Host.Cell) (a n : Nat) : (memReads m a n).length = n := by
  induction n generalizing a with
  | zero => rfl
  | succ n ih => simp [memReads, ih]

@[simp] theorem memRead_memWrite_same (m : List Host.Cell) (a : Nat) (b : Byte) : memRead (memWrite m a b) a = b :=
  Map.getD_putD_same m a b _

theorem memRead_memWrite_ne (m : List Host.Cell) {a x : Nat} (b : Byte) (h : x ≠ a) : memRead (memWrite m a b) x = memRead m x :=
  Map.getD_putD_ne m b _ h

/-- A write leaves every address outside its range as it was. -/
theorem memRead_memWrites_outside (data : List Byte) (m : List Host.Cell) (a : Nat) {x : Nat} (h : x < a ∨ a + data.length ≤ x) :
    memRead (memWrites m a data) x = memRead m x := by
  induction data generalizing m a with
  | nil => rfl
  | cons b t ih =>
    rw [List.length_cons] at h
    rw [memWrites, ih _ _ (by omega), memRead_memWrite_ne m b (by omega)]

/-- What was written reads back: the first byte stands before the range of the rest. -/
theorem memReads_memWrites (data : List Byte) (m : List Host.Cell) (a : Nat) :
    memReads (memWrites m a data) a data.length = data := by
  induction data generalizing m a with
  | nil => rfl
  | cons b t ih =>
    rw [memWrites, List.length_cons, memReads, ih, memRead_memWrites_outside _ _ _ (by omega), memRead_memWrite_same]

/-- Settles O9: by induction on the bytes, over the laws of one byte's write. -/
theorem memoryWritesReadBack : Obligations.MemoryWritesReadBack := fun m a data hwf =>
  ⟨memWrites_wf data m a hwf, memReads_memWrites data m a, fun _ h => memRead_memWrites_outside data m a h⟩

end Sys2Proof.Machine
end

section
/-! PROOFS. What the end of a request leaves alone: answers, fills, write-backs and the messages of an ended access change no
byte of memory; only State.homeWrite does. -/
namespace Sys2Proof.Machine

theorem recordDone_mem (s : State) (c va i : Nat) (f : Frame) : (s.recordDone c va i f).mem = s.mem := by
  unfold State.recordDone
  split
  · rfl
  · exact foldl_mem _ (fun a p => runWatches_mem _ a c i p) _ _

@[simp] theorem hwDone_mem (s : State) (c va : Nat) : (s.hwDone c va).mem = s.mem :=
  foldl_mem _ (fun a p => by
    dsimp only
    split
    · exact recordDone_mem ..
    · split
      · simp [recordDone_mem]
      · exact recordDone_mem ..) _ _

@[simp] theorem retireCommit_mem (s : State) (cid : Nat) : (s.retireCommit cid).mem = s.mem := by
  unfold State.retireCommit
  split
  · rfl
  · split <;> rfl

/-! ### Stash lines and acquires -/

/-- A write-back is sent toward its home: memory changes when it performs there (R203). -/
@[simp] theorem writeBack_mem (s : State) (c g : Nat) (cid : Option Nat) (l : StashLine) : (s.writeBack c g cid l).mem = s.mem :=
  foldl_mem _ (fun a _ => addReq_mem a _) _ _

@[simp] theorem cleanCore_mem (s : State) (c : Nat) (cid : Option Nat) : (s.cleanCore c cid).mem = s.mem :=
  foldl_mem _ (fun a i => by
    dsimp only
    split
    · rfl
    · split <;> simp) _ _

@[simp] theorem disown_mem (s : State) (d asid line : Nat) : (s.disown d asid line).mem = s.mem := by
  unfold State.disown
  dsimp only
  split <;> rfl

@[simp] theorem dropStash_mem (s : State) (c idx : Nat) (write : Bool) (cid : Option Nat) : (s.dropStash c idx write cid).mem = s.mem := by
  unfold State.dropStash
  dsimp only
  split
  · rfl
  · simp only [disown_mem, setCore_mem]
    split <;> simp

@[simp] theorem acquireStash_mem (s : State) (d asid : Nat) (all : Bool) (ids : List Nat) : (s.acquireStash d asid all ids).mem = s.mem :=
  foldl_mem _ (fun a _ => foldl_mem _ (fun b _ => dropStash_mem b _ _ _ _) _ a) _ _

@[simp] theorem endLda_mem (s : State) (d asid : Nat) : (s.endLda d asid).mem = s.mem :=
  acquireStash_mem ..

/-! ### The end of a request -/

@[simp] theorem sendHeld_mem (s : State) (c : Nat) (cid : Option Nat) (t : Token) : (s.sendHeld c cid t).mem = s.mem := by
  unfold State.sendHeld
  cases cid with
  | none => rfl
  | some x =>
    have hclean : (if Scope.beyondCore t.rel then s.cleanCore c (some x) else s).mem = s.mem := by split <;> simp
    dsimp only
    split
    · rfl
    · generalize (if Scope.beyondCore t.rel then s.cleanCore c (some x) else s) = s1 at hclean ⊢
      split
      · exact hclean
      · split <;> simp [hclean]

@[simp] theorem batchStep_mem (s : State) (b : Option Nat) : (s.batchStep b).mem = s.mem := by
  unfold State.batchStep
  split
  · rfl
  · split
    · rfl
    · split
      · rfl
      · dsimp only
        split <;> simp [foldl_mem _ (fun a y => later_mem a (some y))]

@[simp] theorem endReq_mem (s : State) (rid st : Nat) (r : Req) : (s.endReq rid st r).mem = s.mem := by
  unfold State.endReq
  cases r.cid <;> simp [apply_ite State.mem]

/-! ### Answers -/

@[simp] theorem sendAll_mem (s : State) (d : Nat) (ts : List Token) : (s.sendAll d ts).mem = s.mem :=
  foldl_mem _ (fun a t => sendFrom_mem a d t) _ _

@[simp] theorem sendReply_mem (s : State) (d : Nat) (cid : Option Nat) (lsid : Nat) (ts : List Token) :
    (s.sendReply d cid lsid ts).mem = s.mem := by
  unfold State.sendReply
  split
  · simp
  · split
    · simp
    · refine foldl_mem _ (fun a t => ?_) _ _
      dsimp only
      split
      · simp
      · split
        · simp
        · split <;> simp

@[simp] theorem feedElem_mem (s : State) (c eid i ofs : Nat) (r : Req) (data : List Byte) (poison : List Nat) :
    (s.feedElem c eid i ofs r data poison).mem = s.mem := by
  unfold State.feedElem
  dsimp only
  split
  · rfl
  · split <;> rfl

@[simp] theorem fillLoad_mem (s : State) (c k id ofs : Nat) (data : List Byte) (poison : List Nat) (ch : Option Charge) :
    (s.fillLoad c k id ofs data poison ch).mem = s.mem := by
  unfold State.fillLoad
  split
  · simp
  · split <;> simp

@[simp] theorem fillSplit_mem (s : State) (d id ofs : Nat) (data : List Byte) (poison : List Nat) (ch : Option Charge) :
    (s.fillSplit d id ofs data poison ch).mem = s.mem := by
  unfold State.fillSplit
  split
  · simp
  · dsimp only
    split <;> simp

/-- An answer writes no memory: it gives back what the request has read (R215). -/
@[simp] theorem answer_mem (s : State) (d : Nat) (r : Req) (data : List Byte) (poison : List Nat) (null : Bool) :
    (s.answer d r data poison null).mem = s.mem := by
  unfold State.answer
  dsimp only
  split
  · simp
  · simp
  · split <;> simp

@[simp] theorem startFillOf_mem (s : State) (r : Req) (pa : Nat) : (s.startFillOf r pa).mem = s.mem := by
  unfold State.startFillOf
  dsimp only
  split <;> rfl

/-! ### What performs at a home besides the bytes -/

@[simp] theorem setFull_mem (s : State) (pa : Nat) (b : Bool) : (s.setFull pa b).mem = s.mem := rfl

@[simp] theorem homeWrite_mem (s : State) (pa : Nat) (data : List Byte) (poison : Bool) (skip : List Nat) :
    (s.homeWrite pa data poison skip).mem = memWrites s.mem pa data := rfl

@[simp] theorem poisonAt_mem (s : State) (pa : Nat) (ofs : List Nat) : (s.poisonAt pa ofs).mem = s.mem := by
  unfold State.poisonAt
  split <;> rfl

@[simp] theorem touchCopies_mem (s : State) (d asid va : Nat) (data : List Byte) (poison : List Nat) (drop : Bool) :
    (s.touchCopies d asid va data poison drop).mem = s.mem := by
  unfold State.touchCopies
  dsimp only
  split <;> rfl

@[simp] theorem poisonNotice_mem (s : State) (r : Req) : (s.poisonNotice r).mem = s.mem := report_mem ..

@[simp] theorem deferReader_mem (s : State) (rid : Nat) (r : Req) : (s.deferReader rid r).mem = s.mem := by
  unfold State.deferReader
  dsimp only
  split <;> rfl

/-- Deferred readers are served from memory as it stands (R226). -/
@[simp] theorem serveReaders_mem (l : List (Nat × Req)) (s : State) (st pa : Nat) : (s.serveReaders st pa l).mem = s.mem := by
  induction l generalizing s with
  | nil => rfl
  | cons q t ih =>
    unfold State.serveReaders
    split
    · exact foldl_mem _ (by intros; rfl) _ _
    · dsimp only
      split <;> simp [ih]

end Sys2Proof.Machine
end

section
/-! PROOFS. HOME_ACCESS: a checked request performs at its home, and what it writes there (R206, R207, R214, R219 to R226). -/
namespace Sys2Proof.Machine

/-! ### What a use of the home's TLB leaves -/

theorem regTab_tlbUse (s : State) (st : Nat) (e : TlbEntry) (d asid : Nat) : (s.tlbUse st e).regTab d asid = s.regTab d asid := by
  unfold State.regTab State.tlbUse
  by_cases h : d = 8 + st
  · subst h; simp
  · rw [die_setDie_ne _ _ h]

@[simp] theorem region_tlbUse (s : State) (st : Nat) (e : TlbEntry) (d asid va : Nat) :
    (s.tlbUse st e).region d asid va = s.region d asid va := by
  unfold State.region
  rw [regTab_tlbUse]

@[simp] theorem carved_tlbUse (s : State) (st : Nat) (e : TlbEntry) (m : Nat) : (s.tlbUse st e).carved m = s.carved m := by
  unfold State.carved State.rdcBytes State.tlbUse
  by_cases h : 8 + m = 8 + st
  · rw [h]; simp
  · rw [die_setDie_ne _ _ h]

@[simp] theorem faultOf_tlbUse (s : State) (st : Nat) (e : TlbEntry) (m g asid ident va n : Nat) (w : Want) (l : Option Leaf) (priv : Bool) :
    (s.tlbUse st e).faultOf m g asid ident va n w l priv = s.faultOf m g asid ident va n w l priv := by
  unfold State.faultOf
  rw [region_tlbUse, carved_tlbUse]
  rfl

/-! ### The way to the home -/

/-- A request that nothing stands before, and whose page the home's TLB holds, comes to its checks with that page's leaf. -/
theorem homeAccess_of_tlbHit {s : State} {n : Nat} {r : Req} {e : TlbEntry} (hreq : Map.find? s.reqs n = some r)
    (hstate : r.state = .moving ∨ r.state = .port) (hfresh : r.fresh = false) (hbehind : s.behind n r = false)
    (hqueue : s.inQueue n r = false) (hpath : s.pathUp (s.reqDirs r) = true)
    (hhome : (s.reqHome r).1 = s.chipId ∨ r.back.isSome = true) (hround : ReqKind.isRound r.kind = false)
    (hreplay : s.replayHolds (s.reqHome r).2 n r = false)
    (hrecall : r.hw = true ∨ s.recallFor (dieOf r.core) (s.reqHome r).2 r.asid (lineOf r.va) = none)
    (hmark : s.aboveMark r.graph r.asid r.va r.size r.priv = false) (hhit : s.tlbHit (8 + (s.reqHome r).2) r.asid r.va = some e) :
    exec (.homeAccess n) s = .next ((s.tlbUse (s.reqHome r).2 e).finishReq n r (s.reqHome r).2 (some e.leaf)) := by
  have hfar : ¬((s.reqHome r).1 ≠ s.chipId ∧ r.back = none) := by
    rintro ⟨hne, hback⟩
    rcases hhome with h | h
    · exact hne h
    · simp [hback] at h
  have hnone : (if r.hw = true then none else s.recallFor (dieOf r.core) (s.reqHome r).2 r.asid (lineOf r.va)) = none := by
    rcases hrecall with h | h <;> simp [h]
  have hexec : exec (.homeAccess n) s = execHomeAccess n s := rfl
  rw [hexec, execHomeAccess]
  rcases hstate with h | h <;>
    simp [hreq, h, hbehind, hqueue, hpath, hmark, hround, hreplay, hfar, hnone, hfresh, hhit]

/-- A request whose checks pass, and that no parked access of its warp holds back, performs at its physical address. -/
theorem finishReq_of_passed {s : State} {n : Nat} {r : Req} {st : Nat} {x : Leaf} (hround : ReqKind.isRound r.kind = false)
    (hfault : s.faultOf st r.markGraph r.asid r.ident r.va r.size r.kind.want (some x) r.priv = none) (hparked : s.parkedBefore n r = false) :
    s.finishReq n r st (some x) = s.performReq n { r with fresh := false } st
      (st * 2 ^ 36 + localAddr r.va x (s.region (8 + st) r.asid r.va).2.pinned) := by
  simp [State.finishReq, hround, hfault, hparked]

/-! ### What an access may write (R7) -/

/-- Without offsets to keep, the new bytes are written. -/
@[simp] theorem keepAt_nil (old new : List Byte) : keepAt [] old new = new := rfl

/-- At an offset to keep, the old byte stays. -/
theorem keepAt_getElem?_of_mem {ofs : List Nat} {old new : List Byte} {i : Nat} (hmem : i ∈ ofs) (hnew : i < new.length)
    (hold : i < old.length) : (keepAt ofs old new)[i]? = old[i]? := by
  have hne : ofs.isEmpty = false := by cases ofs <;> simp_all
  simp [keepAt, hne, hnew, hold, hmem, nthD]

theorem mem_deviceOfs {s : State} {asid va n i : Nat} :
    i ∈ s.deviceOfs asid va n ↔ i < n ∧ s.deviceByte asid ((va + i) % 2 ^ 56) = true := by
  simp [State.deviceOfs]

/-- A write of the device, and one that meets no byte that only the device writes, is written whole. -/
theorem writable_eq_of_no_deviceByte {s : State} {r : Req}
    (h : (r.hw = true ∧ r.wb = false) ∨ ∀ i, i < r.size → s.deviceByte r.asid ((r.va + i) % 2 ^ 56) = false) (pa : Nat) (data : List Byte) :
    s.writable r pa data = data := by
  have hskip : s.skipped r = [] := by
    unfold State.skipped
    split
    · rfl
    · next hdev =>
      rcases h with ⟨hhw, hwb⟩ | h
      · simp [hhw, hwb] at hdev
      · refine List.eq_nil_iff_forall_not_mem.mpr fun i hi => ?_
        obtain ⟨hlt, hbyte⟩ := mem_deviceOfs.mp hi
        exact absurd hbyte (Bool.eq_false_iff.mp (h i hlt))
  rw [State.writable, hskip, keepAt_nil]

/-- Any other write leaves the bytes that only the device writes as they stand, also a write-back of a stash line. -/
theorem writable_getElem?_of_deviceByte {s : State} {r : Req} (hdev : r.hw = false ∨ r.wb = true) (hlog : s.byLogEngine r = false)
    (pa : Nat) {data : List Byte} {i : Nat} (hlen : i < data.length) (hsize : i < r.size)
    (hbyte : s.deviceByte r.asid ((r.va + i) % 2 ^ 56) = true) :
    (s.writable r pa data)[i]? = (memReads s.mem pa data.length)[i]? := by
  have hskip : s.skipped r = s.deviceOfs r.asid r.va r.size := by
    rcases hdev with h | h <;> simp [State.skipped, hlog, h]
  have hmem : i ∈ s.deviceOfs r.asid r.va r.size := mem_deviceOfs.mpr ⟨hsize, hbyte⟩
  rw [State.writable, hskip, keepAt_getElem?_of_mem hmem hlen (by simpa using hlen)]

/-! ### What performing leaves in memory -/

/-- An access marks its home line, which is a table of the die, or marks nothing. -/
theorem atSlice_cases (s : State) (st asid va : Nat) (write onlyPresent : Bool) (hint : Hint) :
    s.atSlice st asid va write onlyPresent hint = s ∨ ∃ d x, s.atSlice st asid va write onlyPresent hint = s.setDie d x := by
  unfold State.atSlice State.touchHome State.installLine
  dsimp only
  split
  · split
    · exact .inl rfl
    · split
      · exact .inr ⟨_, _, rfl⟩
      · split <;> exact .inr ⟨_, _, rfl⟩
  · exact .inl rfl

@[simp] theorem atSlice_mem (s : State) (st asid va : Nat) (write onlyPresent : Bool) (hint : Hint) :
    (s.atSlice st asid va write onlyPresent hint).mem = s.mem := by
  rcases atSlice_cases s st asid va write onlyPresent hint with h | ⟨d, x, h⟩ <;> rw [h]
  rfl

@[simp] theorem atSlice_writable (s : State) (st asid va : Nat) (write onlyPresent : Bool) (hint : Hint) (r : Req) (pa : Nat) (data : List Byte) :
    (s.atSlice st asid va write onlyPresent hint).writable r pa data = s.writable r pa data := by
  rcases atSlice_cases s st asid va write onlyPresent hint with h | ⟨d, x, h⟩ <;> rw [h]
  rfl

@[simp] theorem atSlice_poisoned (s : State) (st asid va : Nat) (write onlyPresent : Bool) (hint : Hint) (pa n : Nat) :
    (s.atSlice st asid va write onlyPresent hint).poisoned pa n = s.poisoned pa n := by
  rcases atSlice_cases s st asid va write onlyPresent hint with h | ⟨d, x, h⟩ <;> rw [h]
  rfl

/-- A store writes the bytes that it may write (R7, R219). -/
theorem performReq_store_mem {s : State} {r : Req} {data : List Byte} {bad : Bool} (hk : r.kind = .store data bad) (n st pa : Nat) :
    (s.performReq n r st pa).mem = memWrites s.mem pa (s.writable r pa data) := by
  simp only [State.performReq, hk]
  split
  · rw [foldl_mem _ (fun a w => by split <;> simp)]
    simp
  · simp

/-- An atomic writes its new value, if it has one and the word is not poisoned (R214, R223 to R225). -/
theorem performReq_atomic_mem {s : State} {r : Req} {k : AtomKind} {ws : List Word} (hk : r.kind = .atomic k ws) (n st pa : Nat) :
    (s.performReq n r st pa).mem = if s.poisoned pa r.size then s.mem else
      (match (atomAct k r.size (memNat s.mem pa r.size) (operandNat ws)).1 with
        | none => s.mem
        | some v => memWrites s.mem pa (s.writable r pa (toBytes r.size v))) := by
  simp only [State.performReq, hk, atSlice_poisoned, atSlice_mem]
  split
  · split <;> simp
  · simp only [endReq_mem, answer_mem, memNat]
    split
    · next h => simp [h]
    · next h => simp [h]

/-- PUTF writes its eight bytes; no other full/empty operation writes memory (R226). -/
theorem performReq_full_mem {s : State} {r : Req} {op : FullOp} {d : DWord} (hk : r.kind = .full op d) (n st pa : Nat) :
    (s.performReq n r st pa).mem = match op with
      | .putf => memWrites s.mem pa (s.writable r pa (toBytes 8 d.toNat))
      | _ => s.mem := by
  simp only [State.performReq, hk]
  cases op with
  | putf =>
    simp only [State.fullAct]
    split <;> simp
  | sete => simp [State.fullAct]
  | take | readf =>
    dsimp only
    split
    · simp
    · simp only [State.fullAct]
      split <;> simp

/-- A load writes no memory, whether or not a fill leaves for its die (R216). -/
theorem performReq_load_mem {s : State} {r : Req} (hk : r.kind = .load) (n st pa : Nat) : (s.performReq n r st pa).mem = s.mem := by
  simp only [State.performReq, hk]
  split <;> simp

@[simp] theorem tlbUse_mem (s : State) (st : Nat) (e : TlbEntry) : (s.tlbUse st e).mem = s.mem := rfl

/-- Settles O42: the access comes to its checks, which hold, and performs; what it writes follows its kind. -/
theorem homeAccessPerforms : Obligations.HomeAccessPerforms := by
  intro s n r e hreq hstate hfresh hbehind hqueue hpath hhome hround hreplay hrecall hmark hhit hfault hparked st pa
  have hr : { r with fresh := false } = r := by cases r; cases hfresh; rfl
  have hperf : (s.tlbUse st e).finishReq n r st (some e.leaf) = (s.tlbUse st e).performReq n { r with fresh := false } st pa := by
    rw [finishReq_of_passed hround ((faultOf_tlbUse ..).trans hfault) hparked, region_tlbUse]
  refine ⟨_, homeAccess_of_tlbHit hreq hstate hfresh hbehind hqueue hpath hhome hround hreplay hrecall hmark hhit, hperf, ?_,
    fun h data _ _ _ => writable_eq_of_no_deviceByte h pa data,
    fun hdev hlog _ _ hlen hsize hbyte => writable_getElem?_of_deviceByte hdev hlog pa hlen hsize hbyte⟩
  rw [hperf, hr]
  -- A use of the TLB changes a die's table only, so that what its state writes is by definition what s writes.
  cases hk : r.kind with
  | load => exact performReq_load_mem hk n st pa
  | store data bad => exact performReq_store_mem hk n st pa
  | atomic k ws => exact performReq_atomic_mem hk n st pa
  | full op d =>
    have h := performReq_full_mem (s := s.tlbUse st e) hk n st pa
    cases op <;> exact h
  | rounda sc => simp [hk, ReqKind.isRound] at hround
  | roundv => simp [hk, ReqKind.isRound] at hround
  | stashStore x | smap x y | swb | sinv => simp [State.performReq, hk]

end Sys2Proof.Machine
end

section
/-! PROOFS. A host command: the bytes that carry it, and its acceptance, start and end (R263, R264, R373 to R375, R378). -/
namespace Sys2Proof.Machine

/-! ### Little-endian bytes (R6) -/

@[simp] theorem toBytes_length (n x : Nat) : (toBytes n x).length = n := by
  induction n generalizing x with
  | zero => rfl
  | succ n ih => simp [toBytes, ih]

/-- The bytes of a number hold it again, as far as they reach. -/
theorem ofBytes_toBytes (n x : Nat) : ofBytes (toBytes n x) = x % 2 ^ (8 * n) := by
  induction n generalizing x with
  | zero => simp [toBytes, ofBytes, Nat.mod_one]
  | succ n ih =>
    rw [toBytes, ofBytes, ih, BitVec.toNat_ofNat, Nat.mul_succ, Nat.add_comm (8 * n), Nat.pow_add, Nat.mod_mul]

theorem ofBytes_toBytes_of_lt {n x : Nat} (h : x < 2 ^ (8 * n)) : ofBytes (toBytes n x) = x := by
  rw [ofBytes_toBytes, Nat.mod_eq_of_lt h]

theorem ofBytes_append (a b : List Byte) : ofBytes (a ++ b) = ofBytes a + 2 ^ (8 * a.length) * ofBytes b := by
  induction a with
  | nil => simp [ofBytes]
  | cons x t ih => rw [List.cons_append, ofBytes, ih, ofBytes, List.length_cons, Nat.mul_succ, Nat.pow_add]; ring

/-! ### Words in a number -/

/-- The bytes of some words hold the number that the words form. -/
theorem ofBytes_words (ws : List Word) : ofBytes (ws.flatMap (fun w => toBytes 4 w.toNat)) = operandNat ws := by
  induction ws with
  | nil => rfl
  | cons w t ih =>
    rw [List.flatMap_cons, ofBytes_append, ih, ofBytes_toBytes_of_lt w.isLt, toBytes_length]
    rfl

theorem operandNat_lt (ws : List Word) : operandNat ws < 2 ^ (32 * ws.length) := by
  induction ws with
  | nil => exact Nat.one_pos
  | cons w t ih =>
    have hw := w.isLt
    have hcons : operandNat (w :: t) = w.toNat + 2 ^ 32 * operandNat t := rfl
    rw [hcons, List.length_cons, Nat.mul_succ, Nat.add_comm (32 * _), Nat.pow_add]
    nlinarith

/-- Word i of some words stands 32 i bits up, whatever follows the words. -/
theorem word_of_operandNat (ws : List Word) (high i : Nat) (h : i < ws.length) :
    BitVec.ofNat 32 ((operandNat ws + 2 ^ (32 * ws.length) * high) / 2 ^ (32 * i)) = ws[i] := by
  induction ws generalizing i with
  | nil => cases h
  | cons w t ih =>
    have hcons : operandNat (w :: t) + 2 ^ (32 * (w :: t).length) * high
        = w.toNat + 2 ^ 32 * (operandNat t + 2 ^ (32 * t.length) * high) := by
      rw [List.length_cons, Nat.mul_succ, Nat.pow_add]
      change w.toNat + 2 ^ 32 * operandNat t + _ = _
      ring
    rw [hcons]
    cases i with
    | zero =>
      apply BitVec.eq_of_toNat_eq
      have hw := w.isLt
      simp [Nat.add_mul_mod_self_left, Nat.mod_eq_of_lt hw]
    | succ j =>
      rw [Nat.mul_succ, Nat.add_comm (32 * j), Nat.pow_add, ← Nat.div_div_eq_div_mul, Nat.add_mul_div_left _ _ (by norm_num),
        Nat.div_eq_of_lt w.isLt, Nat.zero_add]
      exact ih j (by simpa using h)

/-! ### The 64 bytes of a command (R374) -/

/-- The first eight bytes of a command, its fields in their places. -/
def commandHead (c : HostCommand) : Nat :=
  c.opcode % 2 ^ 8 + c.queue % 2 ^ 6 * 2 ^ 8 + c.reserved % 2 ^ 14 * 2 ^ 14 + c.signal % 2 ^ 12 * 2 ^ 28 + c.wait0 % 2 ^ 12 * 2 ^ 40
    + c.wait1 % 2 ^ 12 * 2 ^ 52

theorem commandHead_lt (c : HostCommand) : commandHead c < 2 ^ 64 := by
  unfold commandHead
  omega

/-- A body of twelve words is sent word by word. -/
theorem body_bytes {c : HostCommand} (h : c.body.length = 12) :
    (List.range 12).flatMap (fun i => toBytes 4 (HostCommand.b c i)) = c.body.flatMap (fun w => toBytes 4 w.toNat) := by
  have hmap : (List.range 12).map (fun i => nthD 0 c.body i) = c.body := by
    apply List.ext_getElem
    · simp [h]
    · intro i _ hi
      simp [nthD, hi]
  conv_rhs => rw [← hmap, List.flatMap_map]
  rfl

/-- The number that the bytes of a command form: its head, its body 64 bits up, its tag 448 bits up. -/
theorem ofBytes_command {c : HostCommand} (h : c.body.length = 12) :
    ofBytes (HostCommand.bytes c) = commandHead c + 2 ^ 64 * (operandNat c.body + 2 ^ (32 * c.body.length) * c.tag.toNat) := by
  have hwords : (c.body.flatMap (fun w => toBytes 4 w.toNat)).length = 48 := by simp [List.length_flatMap, h]
  rw [HostCommand.bytes, body_bytes h, List.append_assoc, ofBytes_append, ofBytes_append, ofBytes_words,
    ofBytes_toBytes_of_lt (commandHead_lt c), ofBytes_toBytes_of_lt c.tag.isLt, toBytes_length, hwords, h,
    show 8 * 48 = 32 * 12 from rfl]
  rfl

/-- A field below bit k does not see what stands from bit k on. -/
theorem bits_add_mul_two_pow (x y : Nat) {k lo n : Nat} (h : lo + n ≤ k) : bits (x + 2 ^ k * y) lo n = bits x lo n := by
  obtain ⟨j, rfl⟩ := Nat.exists_eq_add_of_le h
  unfold bits
  rw [Nat.pow_add, Nat.pow_add, Nat.mul_assoc, Nat.mul_assoc, Nat.add_mul_div_left _ _ (by positivity), Nat.add_mul_mod_self_left]

/-- Above its head a command's number holds its body and its tag. -/
theorem ofBytes_command_div {c : HostCommand} (h : c.body.length = 12) (k : Nat) :
    ofBytes (HostCommand.bytes c) / 2 ^ (64 + k) = (operandNat c.body + 2 ^ (32 * c.body.length) * c.tag.toNat) / 2 ^ k := by
  rw [ofBytes_command h, Nat.pow_add, ← Nat.div_div_eq_div_mul, Nat.add_mul_div_left _ _ (by norm_num), Nat.div_eq_of_lt (commandHead_lt c),
    Nat.zero_add]

theorem commandHead_fields {c : HostCommand} (hop : c.opcode < 256) (hq : c.queue < 64) (hres : c.reserved < 2 ^ 14) (hsig : c.signal < 4096)
    (hw0 : c.wait0 < 4096) (hw1 : c.wait1 < 4096) :
    bits (commandHead c) 0 8 = c.opcode ∧ bits (commandHead c) 8 6 = c.queue ∧ bits (commandHead c) 14 14 = c.reserved
      ∧ bits (commandHead c) 28 12 = c.signal ∧ bits (commandHead c) 40 12 = c.wait0 ∧ bits (commandHead c) 52 12 = c.wait1 := by
  unfold bits commandHead
  omega

theorem body_of_command {c : HostCommand} (h : c.body.length = 12) :
    (List.range 12).map (fun i => BitVec.ofNat 32 (ofBytes (HostCommand.bytes c) / 2 ^ (64 + 32 * i))) = c.body := by
  apply List.ext_getElem
  · simp [h]
  · intro i _ hi
    rw [List.getElem_map, List.getElem_range, ofBytes_command_div h, word_of_operandNat _ _ _ hi]

theorem tag_of_command {c : HostCommand} (h : c.body.length = 12) : BitVec.ofNat 64 (ofBytes (HostCommand.bytes c) / 2 ^ 448) = c.tag := by
  have htag := ofBytes_command_div h (32 * c.body.length)
  rw [Nat.add_mul_div_left _ _ (by positivity), Nat.div_eq_of_lt (operandNat_lt _), Nat.zero_add, h] at htag
  rw [show 448 = 64 + 32 * 12 from rfl, htag, BitVec.ofNat_toNat, BitVec.setWidth_eq]

/-- A command whose fields fit their places is read back from its bytes (R374). -/
theorem parse_bytes {c : HostCommand} (hop : c.opcode < 256) (hq : c.queue < 64) (hres : c.reserved < 2 ^ 14) (hsig : c.signal < 4096)
    (hw0 : c.wait0 < 4096) (hw1 : c.wait1 < 4096) (hbody : c.body.length = 12) : HostCommand.parse (HostCommand.bytes c) = c := by
  have hhead : ∀ lo n, lo + n ≤ 64 → bits (ofBytes (HostCommand.bytes c)) lo n = bits (commandHead c) lo n := fun lo n hle => by
    rw [ofBytes_command hbody, bits_add_mul_two_pow _ _ hle]
  obtain ⟨h0, h1, h2, h3, h4, h5⟩ := commandHead_fields hop hq hres hsig hw0 hw1
  rw [HostCommand.parse, body_of_command hbody, tag_of_command hbody, hhead 0 8 (by decide), hhead 8 6 (by decide), hhead 14 14 (by decide),
    hhead 28 12 (by decide), hhead 40 12 (by decide), hhead 52 12 (by decide), h0, h1, h2, h3, h4, h5]

/-! ### What messages and the journal leave of the control die -/

/-- A status message changes only the messages sent and held (R372, R378). -/
theorem pushStatus_control (s : State) (m : Status) : ∃ out held,
    (s.pushStatus m).control = { s.control with statusOut := out, statusHeld := held } := by
  unfold State.pushStatus
  dsimp only
  split
  · exact ⟨_, s.control.statusHeld, rfl⟩
  · split <;> exact ⟨s.control.statusOut, _, rfl⟩

@[simp] theorem pushStatus_seq (s : State) (m : Status) : (s.pushStatus m).control.seq = s.control.seq := by
  obtain ⟨_, _, h⟩ := pushStatus_control s m
  rw [h]

@[simp] theorem pushStatus_queues (s : State) (m : Status) : (s.pushStatus m).control.queues = s.control.queues := by
  obtain ⟨_, _, h⟩ := pushStatus_control s m
  rw [h]

@[simp] theorem pushStatus_cmds (s : State) (m : Status) : (s.pushStatus m).control.cmds = s.control.cmds := by
  obtain ⟨_, _, h⟩ := pushStatus_control s m
  rw [h]

@[simp] theorem pushStatus_journal (s : State) (m : Status) : (s.pushStatus m).control.journal = s.control.journal := by
  obtain ⟨_, _, h⟩ := pushStatus_control s m
  rw [h]

@[simp] theorem pushStatus_mem (s : State) (m : Status) : (s.pushStatus m).mem = s.mem := by
  unfold State.pushStatus
  dsimp only
  split
  · rfl
  · split <;> rfl

/-- A record changed in place changes only the journal's tables (R379). -/
theorem journalSet_cases (s : State) (seq : Nat) (f : JRec → JRec) :
    s.journalSet seq f = s ∨ ∃ r, s.journalSet seq f = { s with control := s.control.writeRec r } := by
  unfold State.journalSet
  split
  · exact .inl rfl
  · exact .inr ⟨_, rfl⟩

@[simp] theorem journalSet_queues (s : State) (seq : Nat) (f : JRec → JRec) : (s.journalSet seq f).control.queues = s.control.queues := by
  rcases journalSet_cases s seq f with h | ⟨r, h⟩ <;> rw [h]
  rfl

@[simp] theorem journalSet_cmds (s : State) (seq : Nat) (f : JRec → JRec) : (s.journalSet seq f).control.cmds = s.control.cmds := by
  rcases journalSet_cases s seq f with h | ⟨r, h⟩ <;> rw [h]
  rfl

@[simp] theorem journalSet_nextLaunch (s : State) (seq : Nat) (f : JRec → JRec) :
    (s.journalSet seq f).control.nextLaunch = s.control.nextLaunch := by
  rcases journalSet_cases s seq f with h | ⟨r, h⟩ <;> rw [h]
  rfl

@[simp] theorem journalSet_mem (s : State) (seq : Nat) (f : JRec → JRec) : (s.journalSet seq f).mem = s.mem := by
  rcases journalSet_cases s seq f with h | ⟨r, h⟩ <;> rw [h]

/-- Credits granted from the pool leave the commands, their queues and memory. -/
theorem grantPool_frame (s : State) (q : Nat) : (s.grantPool q).control.cmds = s.control.cmds
    ∧ (s.grantPool q).control.queues = s.control.queues ∧ (s.grantPool q).mem = s.mem := by
  unfold State.grantPool
  split
  · exact ⟨rfl, rfl, rfl⟩
  · dsimp only
    split
    · exact ⟨rfl, rfl, rfl⟩
    · exact ⟨pushStatus_cmds .., pushStatus_queues .., pushStatus_mem ..⟩

/-! ### Acceptance (R2, R373, R375) -/

section
variable {s : State} {id : Nat} {bytes : List Byte} {se : Session}

theorem exec_commandAccept (s : State) (id : Nat) (bytes : List Byte) :
    exec (.commandAccept id bytes) s = execCommandAccept id bytes s := rfl

/-- Once the host has configured the package, and before for H_CONFIGURE, the test of the bring-up lets a command pass. -/
theorem bringUp_passes {cmd : HostCommand} (h : cmd.opcode = 12 ∨ s.configured = true) : (cmd.opcode != 12 && !s.configured) = false := by
  rcases h with h | h <;> simp [h]

/-- Before the bring-up is done, and where it names no die of the package, a command is discarded (R2, R394). -/
theorem commandAccept_discards (hse : s.control.sessions.find? (fun x => x.live && x.id == id) = some se)
    (h : ¬((HostCommand.parse bytes).opcode = 12 ∨ s.configured = true) ∨ HostCommand.namesNoDie (HostCommand.parse bytes) = true) :
    exec (.commandAccept id bytes) s = .next s := by
  rw [exec_commandAccept, execCommandAccept]
  rcases h with h | h
  · obtain ⟨hop, hconf⟩ := not_or.mp h
    simp [hse, hop, hconf]
  · simp [hse, h]

/-- A command that is not legal, or has no credit, is refused with a message (R373). -/
theorem commandAccept_refuses (hse : s.control.sessions.find? (fun x => x.live && x.id == id) = some se) (hready : s.control.ready = true)
    (htaken : (HostCommand.parse bytes).opcode = 12 ∨ s.configured = true) (hdie : HostCommand.namesNoDie (HostCommand.parse bytes) = false)
    (h : HostCommand.legal (HostCommand.parse bytes) = false ∨ Map.getD se.credits (HostCommand.queueOf (HostCommand.parse bytes)) 0 = 0) :
    exec (.commandAccept id bytes) s = .next (s.pushStatus
      ⟨0, (HostCommand.parse bytes).tag, 0, HostCommand.queueOf (HostCommand.parse bytes), 7, 0, id⟩) := by
  rw [exec_commandAccept, execCommandAccept]
  rcases h with h | h <;> simp only [hse, hready, bringUp_passes htaken, hdie, h] <;> simp

/-- A legal command with a credit, that waits for no event, enters its queue under the next sequence number, journalled as accepted
(R334, R373, R375). -/
theorem commandAccept_enters (hse : s.control.sessions.find? (fun x => x.live && x.id == id) = some se) (hready : s.control.ready = true)
    (htaken : (HostCommand.parse bytes).opcode = 12 ∨ s.configured = true) (hdie : HostCommand.namesNoDie (HostCommand.parse bytes) = false)
    (hlegal : HostCommand.legal (HostCommand.parse bytes) = true)
    (hcredit : Map.getD se.credits (HostCommand.queueOf (HostCommand.parse bytes)) 0 ≠ 0)
    (hw0 : (HostCommand.parse bytes).wait0 = 0) (hw1 : (HostCommand.parse bytes).wait1 = 0) :
    let cmd := HostCommand.parse bytes
    ∃ t, exec (.commandAccept id bytes) s = .next t ∧ t.control.seq = s.control.seq + 1
      ∧ Map.getD t.control.queues (HostCommand.queueOf cmd) [] = Map.getD s.control.queues (HostCommand.queueOf cmd) [] ++ [s.control.seq]
      ∧ (∃ x, Map.find? t.control.cmds s.control.seq = some x ∧ x.cmd = cmd ∧ x.session = id ∧ x.state = .accepted)
      ∧ ∃ r, Map.find? t.control.journal s.control.seq = some r ∧ r.tag = cmd.tag ∧ r.command = cmd.opcode ∧ r.kind = 0 := by
  have hlost : (s.control.waitsOf [(HostCommand.parse bytes).wait0, (HostCommand.parse bytes).wait1]).2 = false := by
    rw [hw0, hw1]
    rfl
  dsimp only
  rw [exec_commandAccept, execCommandAccept]
  simp only [hse, hready, bringUp_passes htaken, hdie, hlegal, hcredit, hlost]
  rw [if_neg (by simp), if_neg (by simp), if_neg (by simp)]
  refine ⟨_, rfl, ?_, ?_, ?_, ?_⟩
  · rw [pushStatus_seq]
    rfl
  · rw [pushStatus_queues]
    exact Map.getD_put_same ..
  · rw [pushStatus_cmds]
    exact ⟨_, Map.find?_put_same .., rfl, rfl, rfl⟩
  · rw [pushStatus_journal]
    exact ⟨_, Map.find?_put_same .., rfl, rfl, rfl⟩

end

/-! ### Start and end (R263, R264, R375) -/

/-- The command that may start first starts; a launch command takes the next place of the launch queue (R263, R264). -/
theorem commandStart_starts {s : State} {q seq : Nat} {x : Cmd} (hpaused : s.control.paused = false)
    (hfirst : s.control.firstQueue (List.range 64) = some (q, seq)) (hcmd : Map.find? s.control.cmds seq = some x) :
    ∃ t, exec .commandStart s = .next t ∧ Map.find? t.control.cmds seq = some { x with
      state := .started, launch := if x.cmd.opcode = 3 then some s.control.nextLaunch else x.launch } ∧ t.mem = s.mem := by
  have hexec : exec .commandStart s = execCommandStart s := rfl
  rw [hexec, execCommandStart]
  simp only [hpaused, hfirst, hcmd]
  refine ⟨_, rfl, ?_, journalSet_mem ..⟩
  unfold Control.placeLaunch
  split <;> simp

/-- A command that ends leaves the commands and its queue, and no memory changes (R375). -/
theorem closeCmd_frame (s : State) (seq : Nat) (x : Cmd) (st : CmdState) (cause : Nat) (result : DWord) :
    (s.closeCmd seq x st cause result).control.cmds = Map.del s.control.cmds seq
    ∧ (s.closeCmd seq x st cause result).control.queues = Map.put s.control.queues (HostCommand.queueOf x.cmd)
        (delSet (Map.getD s.control.queues (HostCommand.queueOf x.cmd) []) seq)
    ∧ (s.closeCmd seq x st cause result).mem = s.mem := by
  unfold State.closeCmd
  dsimp only
  split
  · simp [Control.refill, Control.addCredit]
  · simp [grantPool_frame, Control.refill]

/-- A command whose effect is made ends and leaves its queue (R375). -/
theorem commandEnd_ends {s : State} {seq : Nat} {x : Cmd} (hcmd : Map.find? s.control.cmds seq = some x) (hready : x.ready = true) :
    ∃ t, exec (.commandEnd seq) s = .next t ∧ Map.find? t.control.cmds seq = none
      ∧ (Map.getD t.control.queues (HostCommand.queueOf x.cmd) []).contains seq = false ∧ t.mem = s.mem := by
  have hexec : exec (.commandEnd seq) s = execCommandEnd seq s := rfl
  obtain ⟨hcmds, hqueues, hmem⟩ := closeCmd_frame s seq x (if x.fails then .failed else .completed) 0 x.result
  rw [hexec, execCommandEnd]
  simp only [hcmd, hready]
  refine ⟨_, rfl, ?_, ?_, hmem⟩
  · simp [State.finishCmd, Map.find?_mapVals, hcmds]
  · simp [State.finishCmd, hqueues, delSet]

/-- Settles O55: each clause is the lemma of its step. -/
theorem hostCommandsQueue : Obligations.HostCommandsQueue := fun _ =>
  ⟨fun _ => parse_bytes,
   fun _ _ _ hse hready => ⟨fun h => commandAccept_discards hse (.inl h), fun htaken =>
     ⟨fun h => commandAccept_discards hse (.inr h), commandAccept_enters hse hready htaken, commandAccept_refuses hse hready htaken⟩⟩,
   fun _ _ _ => commandStart_starts, fun _ _ => commandEnd_ends⟩

end Sys2Proof.Machine
end

section
/-! PROOFS. What an issue changes: its warp and the issue bookkeeping of its core (R30, R333). -/
namespace Sys2Proof

/-- Of two values set at one key the second stays. -/
@[simp] theorem Map.put_put_same {α : Type} (m : Map α) (i : Nat) (a b : α) : Map.put (Map.put m i a) i b = Map.put m i b := by
  induction m with
  | nil => simp [Map.put]
  | cons p t ih =>
    obtain ⟨k, v⟩ := p
    simp only [Map.put]
    split
    · next h => simp [Map.put, h, ih]
    · split
      · simp [Map.put]
      · simp [Map.put]

end Sys2Proof

namespace Sys2Proof.Machine

@[simp] theorem setCore_setCore_same (s : State) (c : Nat) (k k' : Core) : (s.setCore c k).setCore c k' = s.setCore c k' := by
  simp [State.setCore]

theorem warp?_setCore_ne (s : State) {c d : Nat} (q : Core) (k : Nat) (h : d ≠ c) : (s.setCore c q).warp? d k = s.warp? d k := by
  simp [State.warp?, core_setCore_ne _ _ h]

/-- What an issue leaves of its core: the warp at its next word, its partition's turn, and the issue counted (R30, R333). -/
def Core.afterIssue (q : Core) (k now : Nat) (w : Warp) : Core :=
  Core.count { q with
    warps := Map.put q.warps k { w with pc := w.pc + 1, stall := none, edge := false }
    lastIssued := Map.put q.lastIssued (slotPartition k) k
    issuedAt := Map.put q.issuedAt (slotPartition k) now } 0x022 0 1

/-- An issue replaces its core, and nothing else. -/
theorem issued_eq (s : State) (c k : Nat) (w : Warp) : s.issued c k w = s.setCore c ((s.core c).afterIssue k s.now w) := by
  simp [State.issued, State.count, State.setWarp, Core.afterIssue]

/-- A state whose core differs only where an instruction of its warp may differs only there (R30). -/
theorem sameButWarp_setCore (s : State) (c k : Nat) (q : Core)
    (hq : q = { s.core c with warps := q.warps, lastIssued := q.lastIssued, issuedAt := q.issuedAt, counters := q.counters })
    (hw : ∀ j, j ≠ k → Map.find? q.warps j = s.warp? c j) : State.SameButWarp s (s.setCore c q) c k := by
  refine ⟨rfl, fun d hd => core_setCore_ne s q hd, ?_, fun j hj => ?_⟩
  · rw [core_setCore_same]
    exact hq
  · rw [State.warp?, core_setCore_same]
    exact hw j hj

theorem issued_sameButWarp (s : State) (c k : Nat) (w : Warp) : State.SameButWarp s (s.issued c k w) c k := by
  rw [issued_eq]
  exact sameButWarp_setCore s c k _ rfl fun j hj => Map.find?_put_ne _ _ hj

@[simp] theorem warp?_issued_same (s : State) (c k : Nat) (w : Warp) :
    (s.issued c k w).warp? c k = some { w with pc := w.pc + 1, stall := none, edge := false } := by
  rw [issued_eq, State.warp?, core_setCore_same]
  exact Map.find?_put_same ..

/-- Settles O11: an issue replaces its core, and there writes only the warp and the issue bookkeeping. -/
theorem issueTouchesItsWarpOnly : Obligations.IssueTouchesItsWarpOnly := fun s c k w =>
  ⟨issued_sameButWarp s c k w, warp?_issued_same s c k w, by
    rw [issued_eq, core_setCore_same]
    exact ⟨Map.find?_put_same .., Map.find?_put_same .., Map.getD_put_same ..⟩⟩

/-- An instruction whose meaning is to issue, whatever it makes of its warp, touches its warp only. -/
theorem touchesWarpOnly_of_issues {i : Instr} {f : State → Nat → Nat → Warp → Warp}
    (h : ∀ s, exec i s = withWarp s (fun c k w => .next (s.issued c k (f s c k w)))) : TouchesWarpOnly i := by
  intro s t c k w hturn hnext
  rw [h, withWarp_inTurn hturn] at hnext
  cases hnext
  exact issued_sameButWarp ..

/-- STP reads the private base of the warp in turn, and then buffers as the other stores do. -/
theorem touchesWarpOnly_stp (m : FmtM) : TouchesWarpOnly (.stp m) := by
  intro s t c k w hturn hnext
  have hexec : exec (.stp m) s = withWarp s (fun _ _ w => storeForm s m false true (fun x l => x.privEa l m false (s.privBase w))) := rfl
  rw [hexec, withWarp_inTurn hturn, storeForm_inTurn hturn] at hnext
  cases hnext
  exact issued_sameButWarp ..

/-- Settles O41: each of these instructions issues, whatever it makes of its warp. -/
theorem registerFormsTouchTheirWarpOnly : Obligations.RegisterFormsTouchTheirWarpOnly := by
  refine ⟨fun a => ?formA, fun a => ?immediate, fun a => ?conversion, fun a => ⟨?_, ?_⟩, fun a => ?_, fun a => ?_, fun a => ?_, fun a => ?_,
    fun a => ?_, fun a => ?_, fun m => ?stores, fun a => ?_, fun a => ⟨?_, ?_⟩, fun a => ?system⟩
  case stores =>
    simp only [List.forall_mem_cons]
    exact ⟨touchesWarpOnly_of_issues fun _ => rfl, touchesWarpOnly_of_issues fun _ => rfl, touchesWarpOnly_stp m,
      touchesWarpOnly_of_issues fun _ => rfl, touchesWarpOnly_of_issues fun _ => rfl, touchesWarpOnly_of_issues fun _ => rfl,
      touchesWarpOnly_of_issues fun _ => rfl, touchesWarpOnly_of_issues fun _ => rfl, touchesWarpOnly_of_issues fun _ => rfl,
      List.forall_mem_nil _⟩
  case formA | immediate | conversion | system =>
    simp only [List.forall_mem_cons, List.not_mem_nil, false_imp_iff, implies_true, and_true]
    and_intros <;> exact touchesWarpOnly_of_issues fun _ => rfl
  all_goals exact touchesWarpOnly_of_issues fun _ => rfl

end Sys2Proof.Machine
end

section
/-! PROOFS. One step: an issue at once, a device step at once, and a cycle in which nothing is scheduled (R14, R30, R33). -/
namespace Sys2Proof.Machine

/-! ### No time passes -/

@[simp] theorem advance_zero (s : State) : s.advance 0 = s := by
  simp [State.advance, State.tickFull, State.tick]

/-! ### One issue (R30, R33, R142) -/

/-- A warp before which no other goes has the turn, where its partition has not issued in this cycle and its slot is not withheld. -/
theorem hasTurn_of_goBefore_nil {s : State} {c k : Nat} {w : Warp} (hcycle : Map.find? (s.core c).issuedAt (slotPartition k) ≠ some s.now)
    (hslot : s.slotWithheld c (slotPartition k) = false) (hbefore : (s.core c).goBefore k w = []) : s.hasTurn c k w = true := by
  simp [State.hasTurn, hcycle, hslot, hbefore]

/-- No warp goes before one that issued last on its partition, or that is alone there (R30). -/
theorem goBefore_nil {q : Core} {k : Nat} (w : Warp)
    (h : Map.find? q.lastIssued (slotPartition k) = some k ∨ ∀ x ∈ q.warps, slotPartition x.1 = slotPartition k → x.1 = k) :
    q.goBefore k w = [] := by
  unfold Core.goBefore
  dsimp only
  split
  · rfl
  · next hlast =>
    have halone := h.resolve_left hlast
    simp only [List.map_eq_nil_iff, List.filter_eq_nil_iff, Core.residents, List.mem_filter]
    rintro x ⟨hx, hp⟩
    simp [halone x hx (by simpa using hp)]

/-- An issue at once of a warp whose turn it is, and that need not wait, runs its next word's instruction. -/
theorem step_issue {s : State} {c k : Nat} {rest : List Item} {w : Warp} {b : Block} {word : Nat} {i : Instr}
    (hitem : s.agenda = ⟨0, .issue c k⟩ :: rest) (hwarp : s.warp? c k = some w) (hphase : w.phase = .issuing) (hended : w.ended = false)
    (hhold : s.debugHold.contains (dieOf c) = false) (hlanded : s.landedAt c w = false) (hblock : s.block? w.graph w.block = some b)
    (hword : b.code[w.pc]? = some word) (hdec : decode word = .ok i)
    (hwait : State.mustWait { s with agenda := rest, cur := some (c, k) } c w word i = false)
    (hturn : State.hasTurn { s with agenda := rest, cur := some (c, k) } c k w = true) :
    step s = spendTurn c k (exec i { s with agenda := rest, cur := some (c, k) }) := by
  have hcan : State.canIssue { s with agenda := rest, cur := some (c, k) } c w = true := by
    simpa [State.canIssue, State.halted, hphase, hended] using hhold
  have hfetch : State.fetch { s with agenda := rest, cur := some (c, k) } w = some word := by
    unfold State.fetch
    rw [show State.block? { s with agenda := rest, cur := some (c, k) } w.graph w.block = some b from hblock]
    exact hword
  have hland : State.landedAt { s with agenda := rest, cur := some (c, k) } c w = false := hlanded
  have hw : State.warp? { s with agenda := rest, cur := some (c, k) } c k = some w := hwarp
  simp [step, hitem, State.issue, hcan, hfetch, hland, hw, hturn, hdec, hwait]

theorem spendTurn_of_warp {c k : Nat} {t : State} {v : Warp} (h : t.warp? c k = some v) : spendTurn c k (.next t) = .next t := by
  simp [spendTurn, State.spend, h]

theorem spendTurn_of_no_warp {c k : Nat} {t : State} (h : t.warp? c k = none) :
    spendTurn c k (.next t) = .next (t.setCore c { t.core c with issuedAt := Map.put (t.core c).issuedAt (slotPartition k) t.now }) := by
  simp [spendTurn, State.spend, h]

theorem step_happen {s : State} {i : Instr} {rest : List Item} (h : s.agenda = ⟨0, .happen i⟩ :: rest) :
    step s = exec i { s with agenda := rest, cur := none } := by
  simp [step, h]

/-! ### One cycle passes (R262, R266, R329) -/

/-- The schedule, the clock and memory: what packets on their way leave alone. -/
def State.standing (s : State) : List Item × Nat × List Host.Cell := (s.agenda, s.now, s.mem)

theorem foldl_standing {α : Type} (f : State → α → State) (h : ∀ s a, (f s a).standing = s.standing) (l : List α) (s : State) :
    (l.foldl f s).standing = s.standing := by
  induction l generalizing s with
  | nil => rfl
  | cons a t ih => rw [List.foldl_cons, ih, h]

theorem grantCrossings_standing (l : List Crossing) (s : State) : (grantCrossings l s).standing = s.standing := by
  induction l generalizing s with
  | nil => rfl
  | cons x t ih =>
    simp only [grantCrossings]
    split <;> rw [ih] <;> rfl

theorem arrive_standing (s : State) (p : Packet) : (s.arrive p).standing = s.standing := by
  unfold State.arrive
  split
  · unfold State.sendOff
    split <;> rfl
  all_goals rfl

theorem launchPkt_standing (s : State) (p : Packet) : (s.launchPkt p).standing = s.standing := by
  unfold State.launchPkt
  split
  · exact arrive_standing ..
  · exact grantCrossings_standing ..

theorem drainInject_standing (n c : Nat) (s : State) : (s.drainInject c n).standing = s.standing := by
  induction n generalizing s with
  | zero => rfl
  | succ n ih =>
    unfold State.drainInject
    dsimp only
    split
    · rfl
    · split
      · rfl
      · rw [ih, launchPkt_standing]
        rfl

theorem countStalls_standing (s : State) (c n : Nat) : (s.countStalls c n).standing = s.standing := by
  unfold State.countStalls
  dsimp only
  split <;> rfl

/-- Cycles that pass move the clock, and leave the schedule and memory. -/
theorem tick_standing (s : State) (n : Nat) : (s.tick n).standing = (s.agenda, s.now + n, s.mem) := by
  unfold State.tick
  split
  · next h => rw [h]; rfl
  · have hdrain : ∀ a c, ((State.drainInject a c (min n (a.core c).inject.length)).drainOthers c n).standing = a.standing :=
      fun a c => drainInject_standing _ c a
    have h := (foldl_standing _ hdrain (s.cores.map (fun p => p.1)) _).trans
      (foldl_standing _ (fun a c => countStalls_standing a c n) (s.cores.map (fun p => p.1)) s)
    simp only [State.standing, Prod.mk.injEq] at h ⊢
    obtain ⟨hagenda, hnow, hmem⟩ := h
    exact ⟨hagenda, by rw [hnow], hmem⟩

theorem tickFull_standing (n : Nat) (s : State) :
    (s.tickFull n).1.standing = (s.agenda, s.now + (s.tickFull n).2, s.mem) ∧ (s.tickFull n).2 ≤ n := by
  induction n generalizing s with
  | zero => exact ⟨rfl, Nat.le_refl _⟩
  | succ n ih =>
    unfold State.tickFull
    split
    · obtain ⟨hstand, hle⟩ := ih (s.tick 1)
      have htick := tick_standing s 1
      simp only [State.standing, Prod.mk.injEq] at hstand htick ⊢
      obtain ⟨hagenda, hnow, hmem⟩ := htick
      refine ⟨⟨hstand.1.trans hagenda, ?_, hstand.2.2.trans hmem⟩, Nat.succ_le_succ hle⟩
      rw [hstand.2.1, hnow, Nat.add_assoc, Nat.add_comm 1]
    · exact ⟨rfl, Nat.zero_le _⟩

theorem advance_standing (s : State) (n : Nat) : (s.advance n).standing = (s.agenda, s.now + n, s.mem) := by
  unfold State.advance
  dsimp only
  obtain ⟨hfull, hle⟩ := tickFull_standing (min n (s.cores.foldl (fun a p => a + p.2.inject.length) 0)) s
  have hle' := Nat.le_trans hle (Nat.min_le_left ..)
  simp only [State.standing, Prod.mk.injEq] at hfull
  obtain ⟨hagenda, hnow, hmem⟩ := hfull
  rw [tick_standing, hagenda, hnow, hmem, Nat.add_assoc, Nat.add_sub_cancel' hle']

/-- With nothing scheduled one cycle passes. -/
theorem step_idle {s : State} (h : s.agenda = []) : ∃ t, step s = .next t ∧ t.now = s.now + 1 ∧ t.mem = s.mem ∧ t.agenda = [] := by
  have hadv := advance_standing { s with cur := none } 1
  simp only [State.standing, Prod.mk.injEq] at hadv
  obtain ⟨hagenda, hnow, hmem⟩ := hadv
  exact ⟨_, by rw [step, h], hnow, hmem, hagenda.trans h⟩

/-- Settles O5: the parts of a scheduled step, each by its lemma. -/
theorem stepRunsTheDecodedInstruction : Obligations.StepRunsTheDecodedInstruction := by
  refine ⟨?_, fun s i rest => step_happen, fun s => step_idle⟩
  intro s c k rest w b word i hitem hwarp hphase hended hhold hlanded hblock hword hdec s1 hwait
  have hissue := step_issue hitem hwarp hphase hended hhold hlanded hblock hword hdec hwait
  exact ⟨hissue, fun hcycle hslot hfirst => hissue (hasTurn_of_goBefore_nil hcycle hslot (goBefore_nil w hfirst)),
    fun t v => spendTurn_of_warp, fun t => spendTurn_of_no_warp⟩

end Sys2Proof.Machine
end

section
/-! PROOFS. What the operations on frames and tokens leave, and where a landing token goes (R15, R22). -/
namespace Sys2Proof.Machine

/-! ### Requests sent -/

/-- t is s after requests were sent: only their table, their numbers, and the memory injection queues that they pass differ. -/
def Sent (s t : State) : Prop :=
  (∃ reqs next cores, t = { s with reqs := reqs, next := next, cores := cores }) ∧ ∀ d, ∃ m, t.core d = { s.core d with memQueue := m }

theorem Sent.refl (s : State) : Sent s s := ⟨⟨_, _, _, rfl⟩, fun _ => ⟨_, rfl⟩⟩

theorem Sent.trans {s t u : State} (h : Sent s t) (h' : Sent t u) : Sent s u := by
  obtain ⟨⟨_, _, _, rfl⟩, hcore⟩ := h
  obtain ⟨⟨_, _, _, rfl⟩, hcore'⟩ := h'
  refine ⟨⟨_, _, _, rfl⟩, fun d => ?_⟩
  obtain ⟨m, hm⟩ := hcore d
  obtain ⟨m', hm'⟩ := hcore' d
  exact ⟨m', by rw [hm', hm]⟩

theorem Sent.foldl {α : Type} (f : State → α → State) (h : ∀ s a, Sent s (f s a)) (l : List α) (s : State) : Sent s (l.foldl f s) := by
  induction l generalizing s with
  | nil => exact .refl s
  | cons a t ih => exact (h s a).trans (ih _)

theorem Sent.frame? {s t : State} (h : Sent s t) (c i : Nat) : t.frame? c i = s.frame? c i := by
  obtain ⟨m, hm⟩ := h.2 c
  rw [State.frame?, hm]
  rfl

theorem Sent.warp? {s t : State} (h : Sent s t) (c k : Nat) : t.warp? c k = s.warp? c k := by
  obtain ⟨m, hm⟩ := h.2 c
  rw [State.warp?, hm]
  rfl

theorem sent_addReq (s : State) (r : Req) : Sent s (s.addReq r) := by
  refine ⟨⟨_, _, _, rfl⟩, fun d => ?_⟩
  by_cases h : d = r.core
  · exact ⟨_, by rw [h]; exact core_setCore_same ..⟩
  · exact ⟨_, core_setCore_ne _ _ h⟩

theorem sent_hwStore (s : State) (c g va : Nat) (data : List Byte) : Sent s (s.hwStore c g va data) := by
  unfold State.hwStore
  split
  · exact .refl s
  · exact sent_addReq ..

theorem sent_hwWrite (s : State) (c g va : Nat) (data : List Byte) : Sent s (s.hwWrite c g va data) :=
  Sent.foldl _ (fun a _ => sent_hwStore a _ _ _ _) _ s

theorem sent_writeImage (s : State) (c i : Nat) (old : List Byte) (f : Frame) : Sent s (s.writeImage c i old f) := by
  unfold State.writeImage
  split
  · exact .refl s
  · refine Sent.foldl _ (fun a p => ?_) _ s
    split
    · exact .refl a
    · exact sent_hwStore ..

/-- A frame that changes where it is changes its place in frame memory, and writes of its image may leave (R15, R36). -/
theorem sent_storeFrame (s : State) (c i : Nat) (f : Frame) : Sent (s.setFrame c i f) (s.storeFrame c i f) := by
  unfold State.storeFrame
  dsimp only
  split
  · exact .refl _
  · exact sent_writeImage ..

theorem sent_setChain {s : State} {c i : Nat} {f : Frame} (h : s.frame? c i = some f) (chain : List ChainRec) :
    Sent (s.setFrame c i { f with chain := chain }) (s.setChain c i chain) := by
  unfold State.setChain
  simp only [h]
  split
  · exact .refl _
  · refine Sent.foldl _ (fun a p => ?_) _ _
    split
    · exact .refl a
    · exact sent_hwWrite ..

@[simp] theorem frame?_storeFrame_same (s : State) (c i : Nat) (f : Frame) : (s.storeFrame c i f).frame? c i = some f := by
  rw [(sent_storeFrame s c i f).frame?, frame?_setFrame_same]

@[simp] theorem warp?_storeFrame (s : State) (c i : Nat) (f : Frame) (d k : Nat) : (s.storeFrame c i f).warp? d k = s.warp? d k := by
  rw [(sent_storeFrame s c i f).warp?, warp?_setFrame]

/-! ### Frames after updates of their core -/

theorem frame?_setCore_of_frames {s : State} {c : Nat} {q : Core} (h : q.frames = (s.core c).frames) (d i : Nat) :
    (s.setCore c q).frame? d i = s.frame? d i := by
  by_cases hd : d = c
  · subst hd
    simp [State.frame?, h]
  · simp [State.frame?, core_setCore_ne _ _ hd]

@[simp] theorem frame?_count (s : State) (c sysn x n d i : Nat) : (s.count c sysn x n).frame? d i = s.frame? d i :=
  frame?_setCore_of_frames (q := (s.core c).count sysn x n) rfl d i

@[simp] theorem frame?_report (s : State) (c : Nat) (r : FaultRec) (d i : Nat) : (s.report c r).frame? d i = s.frame? d i := by
  unfold State.report
  split
  · exact frame?_count ..
  · rfl

@[simp] theorem frame?_startAging (s : State) (c g d i : Nat) : (s.startAging c g).frame? d i = s.frame? d i := by
  unfold State.startAging
  split
  · rfl
  · next x _ => exact frame?_setCore_of_frames (q := (s.core c).startAging g x.level s.now) rfl d i

/-- A frame whose instance becomes ready changes in its readiness entries only (R22). -/
theorem becomeReady_frame {s : State} {c i : Nat} {f : Frame} (h : s.frame? c i = some f) (j : Nat) :
    ∃ es, (s.becomeReady c i j).frame? c i = some { f with entries := es } := by
  unfold State.becomeReady
  simp only [h]
  split
  · exact ⟨f.entries, h⟩
  · split
    · exact ⟨_, by rw [frame?_report, frame?_storeFrame_same]⟩
    · exact ⟨_, by rw [frame?_startAging, frame?_storeFrame_same]⟩

/-! ### Landing (R15) -/

theorem mem_insSet {l : List Nat} {a b : Nat} : b ∈ insSet l a ↔ b = a ∨ b ∈ l := by
  induction l with
  | nil => simp [insSet]
  | cons x t ih =>
    unfold insSet
    split
    · simp
    · split
      · next h => simp [h]
      · simp only [List.mem_cons, ih]
        exact or_left_comm

/-- The same where an instance may have become ready. -/
theorem frame?_becomeReady_if {s : State} {c i : Nat} {f : Frame} (h : s.frame? c i = some f) (p : Prop) [Decidable p] (j : Nat) :
    ∃ es, (if p then s.becomeReady c i j else s).frame? c i = some { f with entries := es } := by
  split
  · exact becomeReady_frame h j
  · exact ⟨f.entries, h⟩

/-- The frame after a landing that does not combine: its payload's low word in the effective slot, which is present. -/
theorem landAt_frame {s : State} {c : Nat} {t : Token} {h : Header} {f : Frame} (hf : s.frame? c (fpIndex t.fp) = some f)
    (hcomb : h.comb = false) (e : Option Nat) (fresh : Bool) :
    ∃ es, (s.landAt c t h e fresh).frame? c (fpIndex t.fp) = some { f with
      slots := Map.putD 0 f.slots (effSlot h t) (BitVec.ofNat 32 t.payload.toNat)
      presence := insSet f.presence (effSlot h t), entries := es } := by
  unfold State.landAt
  simp only [hf, hcomb, Bool.false_and, Bool.not_false, Bool.true_or, if_true, Bool.false_eq_true, if_false]
  cases e with
  | none => exact ⟨_, frame?_storeFrame_same ..⟩
  | some j =>
    exact frame?_becomeReady_if (frame?_storeFrame_same ..) _ j

/-- Settles O47: the landing writes one slot and marks it present. -/
theorem aLandingWritesItsSlot : Obligations.ALandingWritesItsSlot := by
  intro s c t h e fresh f hf hcomb
  obtain ⟨es, hframe⟩ := landAt_frame hf hcomb e fresh
  refine ⟨_, hframe, Map.getD_putD_same .., ?_, fun n hn => ⟨Map.getD_putD_ne _ _ _ hn, ?_⟩⟩
  · simp [mem_insSet]
  · simp [mem_insSet, hn]

end Sys2Proof.Machine
end

section
/-! PROOFS. Engine commands, row instructions and sparse-unit instructions at issue (R13, R233 to R257, R271, R293 to R303). -/
namespace Sys2Proof.Machine

/-! ### Charges and engine entries (R13, R271) -/

/-- A path is charged where its counter stands below its limit. -/
theorem charge_of_lt {s : State} {c i : Nat} {p : Path} (h : ∀ f, s.frame? c i = some f → f.infl.get p < 65535) :
    ∃ s1 y, s.charge c i p = some (s1, y) := by
  unfold State.charge
  split
  · exact ⟨_, _, rfl⟩
  · next f hf => exact ⟨_, _, if_neg (Nat.ne_of_lt (h f hf))⟩

/-- An engine command reserves its entry where one is free and its path can be charged. -/
theorem reserveEngine_of_free {s : State} {c : Nat} {w : Warp} {p : Path} (hfree : s.engineEntries c < 64)
    (hcharge : ∀ f, s.frame? c (w.frameOf 0) = some f → f.infl.get p < 65535) : ∃ s1 y, s.reserveEngine c w p = some (s1, y) := by
  obtain ⟨s1, y, h⟩ := charge_of_lt hcharge
  have hfull : s.engineFull c = false := by simpa [State.engineFull] using hfree
  exact ⟨_, y, by rw [State.reserveEngine, hfull, h]; rfl⟩

/-- A state after an engine command has left its act for commit, with its reserved entry. -/
theorem engineForm_enters {s s1 : State} {c k : Nat} {w : Warp} {y : Charge} {a : FmtG} (h : State.InTurn s c k w)
    (hres : s.reserveEngine c w a.path = some (s1, y)) (kind : EngKind) {check : Nat → Warp → List Word → Option Nat}
    (hcheck : check c w (w.descriptor a.desc) = none) (more : Warp → List Word → EngCmd → EngCmd) :
    engineForm s a kind check more = .next (s1.issued c k { w with
      taken := w.taken ++ [.engine y]
      acts := w.acts ++ [.engine (more w (w.descriptor a.desc) { s.blankCmd w kind y (w.descriptor a.desc) with
        flags := a.flags, subop := a.subop, rblock := a.rblock, rslot := a.rslot, rscope := a.rscope, rcomb := a.rcomb })] }) := by
  rw [engineForm_inTurn h, hres]
  dsimp only
  rw [hcheck]
  rfl

theorem failIf_false {b : Bool} (h : b = false) : failIf b = none := by simp [failIf, h]

theorem orElseCheck_none {x y : Option Nat} (hx : x = none) (hy : y = none) : orElseCheck x y = none := by rw [hx, hy]; rfl

/-- A descriptor whose words from the third on are 0 has nothing else there. -/
theorem descriptor_drop_two {w : Warp} {d : Nat} (h : ∀ i, 2 ≤ i → i < 8 → dword (w.descriptor d) i = 0) :
    ((w.descriptor d).drop 2).any (fun x => x != 0) = false := by
  simp only [List.any_eq_false, bne_iff_ne, not_not]
  intro x hx
  obtain ⟨i, hi, rfl⟩ := List.getElem_of_mem hx
  have hlen : i + 2 < (w.descriptor d).length := by simpa [Nat.lt_sub_iff_add_lt] using hi
  have hword := h (2 + i) (by omega) (by simpa [Warp.descriptor, Nat.add_comm] using hlen)
  rw [List.getElem_drop]
  apply BitVec.eq_of_toNat_eq
  simpa [dword, nthD, Nat.add_comm 2 i, hlen] using hword

/-- Settles O38: the entry is free, the check of each command passes by its premises, and the form leaves the command. -/
theorem engineCommandsIssue : Obligations.EngineCommandsIssue := by
  intro s c k w hturn a hfree hcharge
  obtain ⟨s1, y, hres⟩ := reserveEngine_of_free hfree hcharge
  refine ⟨s1, y, hres, ?_⟩
  intro q d cmd enters buffer
  have henters : ∀ {kind check more}, check c w d = none → engineForm s a kind check more = .next (s1.issued c k { w with
      taken := w.taken ++ [.engine y], acts := w.acts ++ [.engine (more w d (cmd kind))] }) :=
    fun hcheck => engineForm_enters hturn hres _ hcheck _
  refine ⟨?cpy, ?cpy2d, ?cpyb, ?gath, ?scat, ?strm, ?strmgo, ?strmx, ?dpost, ?dxch, ?dxq⟩
  case cpy =>
    rintro ⟨h5, h6, h7⟩ hbuf hdest
    change execCpy a s = _
    exact henters (orElseCheck_none (failIf_false (by simpa [h5, h6, h7] using hbuf)) hdest)
  case cpy2d =>
    intro bpr rows span h4 h5 hbuf hrows
    change execCpy2d a s = _
    refine henters (failIf_false ?_)
    simp only [Bool.or_eq_false_iff, bne_eq_false_iff_eq, Bool.and_eq_false_imp, beq_iff_eq, Bool.not_eq_false', List.all_eq_true,
      List.mem_range]
    exact ⟨⟨⟨h4, h5⟩, hbuf⟩, hrows⟩
  case cpyb =>
    intro hbad
    change execCpyb a s = _
    exact henters (failIf_false hbad)
  case gath =>
    intro hbad hsize hdest
    change execGath a s = _
    refine henters (orElseCheck_none (failIf_false ?_) hdest)
    simp only [Bool.or_eq_false_iff, Bool.and_eq_false_imp, beq_iff_eq, bne_eq_false_iff_eq]
    exact ⟨hbad, hsize⟩
  case scat =>
    intro hbad hbuf
    change execScat a s = _
    exact henters (failIf_false (Bool.or_eq_false_iff.mpr ⟨hbad, hbuf⟩))
  case strmx =>
    intro hsize
    change execStrmx a s = _
    simp only [execStrmx, Nat.mod_mod_of_dvd a.flags (show 2 ∣ 64 by decide)]
    refine henters (failIf_false ?_)
    simp only [Bool.and_eq_false_imp, beq_iff_eq]
    intro hodd
    split
    · next n t ht => simpa using hsize hodd n t ht
    · rfl
  case dpost =>
    intro g me hg hme hzero
    change execDpost a s = _
    refine henters (failIf_false ?_)
    have hrest : (d.drop 2).any (fun x => x != 0) = false := descriptor_drop_two hzero
    rw [hg, hrest]
    simp [hme]
  case strm =>
    change execStrm a s = _
    exact henters rfl
  case strmgo =>
    change execStrmgo a s = _
    exact henters rfl
  case dxch =>
    change execDxch a s = _
    exact henters rfl
  case dxq =>
    change execDxq a s = _
    exact henters rfl

/-! ### The sparse units (R252 to R257) -/

/-- A sparse engine command whose descriptor passes leaves its act for commit, with its reserved entry. -/
theorem sparseEngine_enters {s s1 : State} {c k : Nat} {w : Warp} {y : Charge} {bad : Bool} (hbad : bad = false)
    (hres : s.reserveEngine c w .e = some (s1, y)) (mk : Charge → EngCmd) :
    sparseEngine s c k w bad mk = .next (s1.issued c k { w with
      taken := w.taken ++ [.engine y], acts := w.acts ++ [.engine (mk y)] }) := by
  rw [sparseEngine_eq, hbad, hres]
  rfl

/-- Settles O37: while no other graph holds the row engine the sparse form runs, and each instruction's check passes. -/
theorem sparseInstructionsIssue : Obligations.SparseInstructionsIssue := by
  intro s c k w hturn hfree a x cfg reply d
  have hform : ∀ f, sparseForm s f = f c k w (s.view c w) := fun f => by rw [sparseForm_inTurn hturn, if_pos hfree]
  refine ⟨?iscfg, ?sacci, ?saccf, ?commands⟩
  case iscfg =>
    intro hmode hzero hreply
    change execIscfg a s = _
    rw [execIscfg, hform]
    simp [hmode, hzero, hreply, badReplyWord, x, cfg, reply]
    rfl
  case sacci =>
    change execSacci a s = _
    exact hform _
  case saccf =>
    change execSaccf a s = _
    exact hform _
  case commands =>
    intro hentries hcharge
    obtain ⟨s1, y, hres⟩ := reserveEngine_of_free (p := .e) hentries hcharge
    refine ⟨s1, y, hres, fun hbad => ?_, fun hbad => ?_⟩
    · change execIsx a s = _
      exact (hform _).trans (sparseEngine_enters hbad hres _)
    · change execNzscan a s = _
      exact (hform _).trans (sparseEngine_enters hbad hres _)

/-! ### Row instructions (R233, R242 to R250) -/

theorem uni_lt (w : Warp) (n : Nat) : w.uni n < 2 ^ 32 := (Map.getD w.k n 0).isLt

/-- Word i of a descriptor is the uniform register it was read from. -/
theorem descriptor_word (w : Warp) (d : Nat) {i : Nat} (h : i < 8) : (nthD 0 (w.descriptor d) i).toNat = w.uni (d + i) := by
  have hword : nthD 0 (w.descriptor d) i = BitVec.ofNat 32 (w.uni (d + i)) := by simp [nthD, Warp.descriptor, h]
  rw [hword, BitVec.toNat_ofNat, Nat.mod_eq_of_lt (uni_lt w _)]

/-- Taking a target's credits leaves them to it n fewer, and leaves every other grant. -/
theorem creditOf_taken (q : Core) (n : Nat) (t u : Nat × Nat) :
    Core.creditOf { q with credits := q.credits.map (fun z => if z.target == t.1 && z.rin == t.2 then { z with avail := z.avail - n } else z) } u
      = (q.creditOf u).map (fun z => if z.target == t.1 && z.rin == t.2 then { z with avail := z.avail - n } else z) := by
  unfold Core.creditOf
  rw [List.find?_map]
  congr 2
  funext z
  simp only [Function.comp_apply]
  split <;> rfl

theorem creditOf_key {q : Core} {t : Nat × Nat} {y : Credit} (h : q.creditOf t = some y) : y.target = t.1 ∧ y.rin = t.2 := by
  simpa using List.find?_some h

/-- Credits can be taken for every target whose grant has as many as its targets ask for (R233, R244). -/
theorem takeCredits_of_avail {n : Nat} (ts : List (Nat × Nat)) (q : Core)
    (h : ∀ t ∈ ts, ∃ y, q.creditOf t = some y ∧ n * ts.count t ≤ y.avail) : ∃ q1, takeCredits n ts q = some q1 := by
  induction ts generalizing q with
  | nil => exact ⟨q, rfl⟩
  | cons t rest ih =>
    obtain ⟨y, hy, havail⟩ := h t List.mem_cons_self
    rw [List.count_cons_self, Nat.mul_succ] at havail
    unfold takeCredits
    simp only [hy, Nat.not_lt.mpr (Nat.le_trans (Nat.le_add_left n _) havail), if_false]
    refine ih _ fun u hu => ?_
    rw [creditOf_taken]
    by_cases hut : u = t
    · subst hut
      refine ⟨_, by rw [hy]; rfl, ?_⟩
      obtain ⟨htarget, hrin⟩ := creditOf_key hy
      simp only [htarget, hrin, beq_self_eq_true, Bool.and_self, if_true]
      omega
    · obtain ⟨z, hz, hzavail⟩ := h u (List.mem_cons_of_mem _ hu)
      obtain ⟨htarget, hrin⟩ := creditOf_key hz
      rw [List.count_cons_of_ne (Ne.symm hut)] at hzavail
      have hne : (z.target == t.1 && z.rin == t.2) = false := by
        rw [htarget, hrin, Bool.and_eq_false_imp]
        intro h1
        rw [beq_eq_false_iff_ne]
        exact fun h2 => hut (Prod.ext (eq_of_beq h1) h2)
      exact ⟨z, by rw [hz, Option.map_some, hne]; rfl, hzavail⟩

/-- Settles O35: without the engine the row form waits; with it, each instruction's check passes and its act is left. -/
theorem rowInstructionsIssue : Obligations.RowInstructionsIssue := by
  intro s c k w hturn a x q ch quad targets
  refine ⟨fun hmay => ?waits, fun hmay => ?issues⟩
  case waits =>
    have hwait : ∀ {o f}, o = rowForm s f → o = .next (s.stalled c k w) := fun h => by
      rw [h, rowForm_inTurn hturn, hmay]
      rfl
    simp only [List.forall_mem_cons, List.not_mem_nil, false_imp_iff, implies_true, and_true]
    exact ⟨hwait (o := execBldq a s) rfl, hwait (o := execRowp a s) rfl, hwait (o := execRows a s) rfl, hwait (o := execAccz a s) rfl,
      hwait (o := execAccrd a s) rfl, hwait (o := execAccwb a s) rfl, hwait (o := execAccst a s) rfl, hwait (o := execFchbind a s) rfl,
      hwait (o := execMxseq a s) rfl⟩
  case issues =>
    have hform : ∀ f, rowForm s f = f c k w x := fun f => by rw [rowForm_inTurn hturn, if_pos hmay]
    refine ⟨?accz, ?accwb, ?accst, ?fchbind, ?mxseq, ?accrd, ?rowp, ?rows⟩
    case accz =>
      change execAccz a s = _
      exact hform _
    case accwb =>
      change execAccwb a s = _
      exact hform _
    case accst =>
      change execAccst a s = _
      exact hform _
    case fchbind =>
      intro hchan
      change execFchbind a s = _
      rw [execFchbind, hform]
      dsimp only
      rw [hchan]
      rfl
    case mxseq =>
      intro hreply hframe
      change execMxseq a s = _
      rw [execMxseq, hform]
      simp only [badReplyWord, badFp, hreply, hframe]
      rfl
    case accrd =>
      intro t e hgood
      change execAccrd a s = _
      rw [execAccrd, hform]
      have hbad : w.lanes.any (fun l => t.bad (x.rd 0 1 a.sb % 32) (2 * l) || t.bad (x.rd 0 1 a.sb % 32) (2 * l + 1)) = false := by
        rw [List.any_eq_false]
        intro l hl
        simp [hgood l hl]
      dsimp only
      rw [if_neg (by simpa using hbad)]
    case rowp =>
      intro hdeep n havail
      obtain ⟨q1, hq1⟩ := takeCredits_of_avail targets q havail
      have hts : validTargets quad = targets := rfl
      have hexec : exec (.rowp a) s = execRowp a s := rfl
      refine ⟨q1, ?_⟩
      rw [hexec, execRowp, hform]
      dsimp only
      rw [hts, if_neg (by simpa using hdeep), hq1]
      refine ⟨_, _, rfl, rfl, rfl, rfl, rfl, rfl, ?_, ?_⟩
      · rw [rowPackets, List.map_map]
        exact List.map_id _
      · intro p hp
        obtain ⟨t, _, rfl⟩ := List.mem_map.mp hp
        exact ⟨rfl, rfl, rfl, rfl, rfl, rfl, rfl, rfl⟩
    case rows =>
      intro hzero hdeep hentries hcharge
      obtain ⟨s1, y, hres⟩ := reserveEngine_of_free (p := .e) hentries hcharge
      refine ⟨s1, y, hres, ?_⟩
      have hbad : badRows (w.descriptor (Sel.kIndex a.sa)) = false := by
        rw [badRows, descriptor_word w _ (by decide), hzero]
        rfl
      change execRows a s = _
      rw [execRows, hform]
      dsimp only
      rw [hbad, descriptor_word w _ (by decide : 2 < 8), hres]
      exact if_neg (by rw [Bool.false_or, Bool.not_eq_true]; exact hdeep)

end Sys2Proof.Machine
end

section
/-! PROOFS. What is stored: memory, its poison and its lines' versions. Nothing that an instruction does at issue changes it (R31, R33,
R210). -/
namespace Sys2Proof.Machine

/-- What the package stores: the bytes of memory, which of them are poisoned, and the versions of its lines. -/
def State.stored (s : State) : List Host.Cell × List Nat × Map Nat := (s.mem, s.poison, s.versions)

theorem foldl_stored {α : Type} (f : State → α → State) (h : ∀ s a, (f s a).stored = s.stored) (l : List α) (s : State) :
    (l.foldl f s).stored = s.stored := by
  induction l generalizing s with
  | nil => rfl
  | cons a t ih => rw [List.foldl_cons, ih, h]

/-- What each of some steps that may fail leaves, the whole leaves, unless it has failed. -/
theorem foldl_bind_keeps {α β γ : Type} (g : β → γ) {f : β → α → Option β} (h : ∀ s a t, f s a = some t → g t = g s) {l : List α}
    {s t : β} (hfold : l.foldl (fun o a => o.bind (fun u => f u a)) (some s) = some t) : g t = g s := by
  induction l generalizing s with
  | nil => cases hfold; rfl
  | cons a rest ih =>
    rw [List.foldl_cons, Option.bind_some] at hfold
    cases hf : f s a with
    | some u => rw [hf] at hfold; rw [ih hfold, h s a u hf]
    | none =>
      have hnone : rest.foldl (fun o a => o.bind (fun u => f u a)) none = none :=
        List.foldl_fixed' (fun _ => rfl) rest
      rw [hf, hnone] at hfold
      cases hfold

theorem foldl_bind_stored {α : Type} {f : State → α → Option State} (h : ∀ s a t, f s a = some t → t.stored = s.stored) {l : List α}
    {s t : State} (hfold : l.foldl (fun o a => o.bind (fun u => f u a)) (some s) = some t) : t.stored = s.stored :=
  foldl_bind_keeps State.stored h hfold

/-! ### Updates of the state -/

@[simp] theorem setCore_stored (s : State) (c : Nat) (q : Core) : (s.setCore c q).stored = s.stored := rfl
@[simp] theorem setDie_stored (s : State) (d : Nat) (x : Die) : (s.setDie d x).stored = s.stored := rfl
@[simp] theorem setWarp_stored (s : State) (c k : Nat) (w : Warp) : (s.setWarp c k w).stored = s.stored := rfl
@[simp] theorem setFrame_stored (s : State) (c i : Nat) (f : Frame) : (s.setFrame c i f).stored = s.stored := rfl
@[simp] theorem count_stored (s : State) (c sysn i n : Nat) : (s.count c sysn i n).stored = s.stored := rfl
@[simp] theorem issued_stored (s : State) (c k : Nat) (w : Warp) : (s.issued c k w).stored = s.stored := rfl
@[simp] theorem stalledOn_stored (s : State) (c k : Nat) (w : Warp) (e : Bool) : (s.stalledOn c k w e).stored = s.stored := rfl
@[simp] theorem stalled_stored (s : State) (c k : Nat) (w : Warp) : (s.stalled c k w).stored = s.stored := rfl
@[simp] theorem countDie_stored (s : State) (d i n : Nat) : (s.countDie d i n).stored = s.stored := rfl
@[simp] theorem freeLog_stored (s : State) (c n : Nat) : (s.freeLog c n).stored = s.stored := rfl
@[simp] theorem useCopy_stored (s : State) (d : Nat) (l : Line) : (s.useCopy d l).stored = s.stored := rfl

theorem Sent.stored {s t : State} (h : Sent s t) : t.stored = s.stored := by
  obtain ⟨⟨_, _, _, rfl⟩, _⟩ := h
  rfl

@[simp] theorem putReq_stored (s : State) (r : Req) : (s.putReq r).stored = s.stored := rfl
@[simp] theorem addReq_stored (s : State) (r : Req) : (s.addReq r).stored = s.stored := (sent_addReq s r).stored
@[simp] theorem storeFrame_stored (s : State) (c i : Nat) (f : Frame) : (s.storeFrame c i f).stored = s.stored :=
  (sent_storeFrame s c i f).stored

@[simp] theorem setChain_stored (s : State) (c i : Nat) (l : List ChainRec) : (s.setChain c i l).stored = s.stored := by
  cases h : s.frame? c i with
  | none => simp [State.setChain, h]
  | some f => exact (sent_setChain h l).stored

@[simp] theorem later_stored (s : State) (x : Option Charge) : (s.later x).stored = s.stored := by
  cases x <;> rfl

@[simp] theorem report_stored (s : State) (c : Nat) (r : FaultRec) : (s.report c r).stored = s.stored := by
  unfold State.report
  split <;> rfl

@[simp] theorem startAging_stored (s : State) (c g : Nat) : (s.startAging c g).stored = s.stored := by
  unfold State.startAging
  split <;> rfl

@[simp] theorem setEntry_stored (s : State) (c i j : Nat) (f : Entry → Entry) : (s.setEntry c i j f).stored = s.stored := by
  unfold State.setEntry
  split
  · rfl
  · exact storeFrame_stored ..

/-! ### Aborts and instance faults (R34, R359) -/

@[simp] theorem enterCarafe_stored (s : State) (c i j : Nat) : (s.enterCarafe c i j).stored = s.stored := by
  unfold State.enterCarafe
  split
  · rfl
  · dsimp only
    (repeat' split) <;> simp

@[simp] theorem giveBack_stored (s : State) (c g : Nat) (t : Taken) : (s.giveBack c g t).stored = s.stored := by
  cases t with
  | rowEngine =>
    unfold State.giveBack
    dsimp only
    split <;> rfl
  | engine x => exact later_stored ..
  | infl x => exact later_stored ..
  | task | spill | credit => rfl

@[simp] theorem abort_stored (s : State) (c k : Nat) (w : Warp) (cause : Nat) (held : List Nat) :
    (s.abort c k w cause held).stored = s.stored := by
  unfold State.abort
  dsimp only
  rw [foldl_stored _ (fun a p => by split <;> simp [apply_ite State.stored]),
    foldl_stored _ (fun a l => foldl_stored _ (fun b x => later_stored b _) _ _)]
  have hgiven : ∀ a : State, (w.taken.foldl (fun a t => a.giveBack c w.graph t) a).stored = a.stored :=
    foldl_stored _ (fun a t => giveBack_stored a c w.graph t) _
  split <;> exact hgiven _

@[simp] theorem takeFault_stored (s : State) (c k : Nat) (w : Warp) (xs : List LaneFault) : (s.takeFault c k w xs).stored = s.stored := by
  unfold State.takeFault
  rw [foldl_stored _ (fun a x => report_stored a _ _), abort_stored]

@[simp] theorem takeWarpFault_stored (s : State) (c k : Nat) (w : Warp) (code addr : Nat) :
    (s.takeWarpFault c k w code addr).stored = s.stored := takeFault_stored _ _ _ _ _

/-! ### Charges and what their end sets off (R13, R21, R289) -/

theorem charge_stored {s t : State} {c i : Nat} {p : Path} {x : Charge} (h : s.charge c i p = some (t, x)) : t.stored = s.stored := by
  unfold State.charge at h
  split at h
  · cases h; rfl
  · split at h
    · cases h
    · cases h; exact storeFrame_stored ..

theorem reserveEngine_stored {s t : State} {c : Nat} {w : Warp} {p : Path} {x : Charge} (h : s.reserveEngine c w p = some (t, x)) :
    t.stored = s.stored := by
  unfold State.reserveEngine at h
  split at h
  · cases h
  · split at h
    · cases h
    · next hcharge =>
      have hstart := charge_stored hcharge
      cases h
      exact hstart

@[simp] theorem becomeReady_stored (s : State) (c i j : Nat) : (s.becomeReady c i j).stored = s.stored := by
  unfold State.becomeReady
  split
  · rfl
  · split
    · rfl
    · dsimp only
      split <;> simp

@[simp] theorem evalGates_stored (n : Nat) (s : State) (c i : Nat) (p : Path) (j : Nat) : (s.evalGates c i p n j).stored = s.stored := by
  induction n generalizing s j with
  | zero => rfl
  | succ n ih =>
    unfold State.evalGates
    dsimp only
    rw [ih]
    (repeat' split) <;> simp

@[simp] theorem sendToken_stored (s : State) (c : Nat) (t : Token) : (s.sendToken c t).stored = s.stored := rfl

@[simp] theorem runWatches_stored (l : List ChainRec) (s : State) (c i : Nat) (p : Option Path) : (s.runWatches c i p l).stored = s.stored := by
  induction l generalizing s with
  | nil => rfl
  | cons r t ih =>
    unfold State.runWatches
    dsimp only
    rw [ih]
    split
    · simp only [apply_ite State.stored, sendToken_stored, freeLog_stored, setChain_stored, ite_self]
    · rfl

@[simp] theorem discharge_stored (s : State) (x : Charge) : (s.discharge x).stored = s.stored := by
  unfold State.discharge
  dsimp only
  split
  · rfl
  · split <;> simp

@[simp] theorem dischargeAll_stored (s : State) (xs : List Charge) : (s.dischargeAll xs).stored = s.stored :=
  foldl_stored _ discharge_stored xs s

/-! ### Tokens on their way -/

theorem grantCrossings_stored (l : List Crossing) (s : State) : (grantCrossings l s).stored = s.stored := by
  induction l generalizing s with
  | nil => rfl
  | cons x t ih =>
    unfold grantCrossings
    dsimp only
    split <;> rw [ih] <;> rfl

@[simp] theorem launchPkt_stored (s : State) (p : Packet) : (s.launchPkt p).stored = s.stored := by
  unfold State.launchPkt
  split
  · unfold State.arrive
    split
    · unfold State.sendOff
      split <;> rfl
    · rfl
    · rfl
  · exact grantCrossings_stored ..

@[simp] theorem sendAll_stored (s : State) (d : Nat) (ts : List Token) : (s.sendAll d ts).stored = s.stored :=
  foldl_stored _ (fun a _ => launchPkt_stored a _) _ _

/-! ### Loads (R32, R216) -/

@[simp] theorem fillLoad_stored (s : State) (c k id ofs : Nat) (data : List Byte) (poison : List Nat) (ch : Option Charge) :
    (s.fillLoad c k id ofs data poison ch).stored = s.stored := by
  unfold State.fillLoad
  split
  · exact later_stored ..
  · split
    · exact later_stored ..
    · rfl

@[simp] theorem fillSplit_stored (s : State) (d id ofs : Nat) (data : List Byte) (poison : List Nat) (ch : Option Charge) :
    (s.fillSplit d id ofs data poison ch).stored = s.stored := by
  unfold State.fillSplit
  split
  · exact later_stored ..
  · dsimp only
    split
    · exact sendAll_stored ..
    · rfl

theorem loadPart_stored {s t : State} {c k lane : Nat} {w : Warp} {hint : Hint} {how : LoadHow} {dest : LoadTo} {p : Nat × Nat × Nat}
    (h : s.loadPart c k lane w hint how dest p = some t) : t.stored = s.stored := by
  unfold State.loadPart at h
  dsimp only at h
  split at h
  · cases h
  · next s1 ch hcharge =>
    have hstart := charge_stored hcharge
    split at h <;> cases h <;> simp [hstart]

theorem forwardPart_stored {s t : State} {c k lane : Nat} {w : Warp} {dest : LoadTo} {p : Nat × Nat × Nat}
    (h : s.forwardPart c k lane w dest p = some t) : t.stored = s.stored := by
  unfold State.forwardPart at h
  obtain ⟨x, hcharge, rfl⟩ := Option.map_eq_some_iff.mp h
  have hstart := charge_stored hcharge
  cases dest <;> simp [hstart]

theorem loadLane_stored {s t : State} {c k lane : Nat} {m : FmtM} {va : Nat} {how : LoadHow} {reply : Option Reply}
    (h : s.loadLane c k lane m va how reply = some t) : t.stored = s.stored := by
  unfold State.loadLane at h
  split at h
  · cases h; rfl
  · dsimp only at h
    refine (foldl_bind_stored (fun u p v hpart => ?_) h).trans ?_
    · split at hpart
      · exact forwardPart_stored hpart
      · exact loadPart_stored hpart
    · split <;> rfl

theorem overLanes_stored {f : State → Nat → Option State} (h : ∀ s a t, f s a = some t → t.stored = s.stored) {l : List Nat} {s t : State}
    (hlanes : overLanes f l s = some t) : t.stored = s.stored := by
  induction l generalizing s with
  | nil => cases hlanes; rfl
  | cons a rest ih =>
    unfold overLanes at hlanes
    split at hlanes
    · cases hlanes
    · next hf => rw [ih hlanes, h _ _ _ hf]

/-- The warp waits, or has issued what its lanes have done. -/
theorem afterLanes_stored {s t : State} {c k : Nat} {w : Warp} {r : Option State} (hr : ∀ u, r = some u → u.stored = s.stored)
    (h : afterLanes s c k w r = .next t) : t.stored = s.stored := by
  unfold afterLanes at h
  split at h
  · cases h; rfl
  · next u =>
    cases h
    split <;> exact hr u rfl

/-! ### Acquires (R124, R200) -/

@[simp] theorem writeBack_stored (s : State) (c g : Nat) (cid : Option Nat) (l : StashLine) : (s.writeBack c g cid l).stored = s.stored :=
  foldl_stored _ (fun a _ => addReq_stored a _) _ _

@[simp] theorem disown_stored (s : State) (d asid line : Nat) : (s.disown d asid line).stored = s.stored := by
  unfold State.disown
  dsimp only
  split <;> rfl

@[simp] theorem dropStash_stored (s : State) (c idx : Nat) (write : Bool) (cid : Option Nat) :
    (s.dropStash c idx write cid).stored = s.stored := by
  unfold State.dropStash
  dsimp only
  split
  · rfl
  · simp only [disown_stored, setCore_stored]
    split <;> simp

@[simp] theorem acquireOver_stored (s : State) (d asid : Nat) (all : Bool) (ids : List Nat) :
    (s.acquireOver d asid all ids).stored = s.stored := by
  have hstash : ∀ a : State, (a.acquireStash d asid all ids).stored = a.stored :=
    fun a => by
      unfold State.acquireStash
      exact foldl_stored _ (fun b _ => foldl_stored _ (fun b _ => dropStash_stored b _ _ _ _) _ b) _ a
  have hask : ∀ (a : State) qs, (a.askRounds d asid qs).stored = a.stored := fun a qs => by
    unfold State.askRounds
    exact foldl_stored _ (fun b _ => (putReq_stored b _ :)) qs a
  exact (hask _ _).trans (hstash _)

@[simp] theorem waitAcquire_stored (s : State) (c k : Nat) (ids : List Nat) : (s.waitAcquire c k ids).stored = s.stored := by
  unfold State.waitAcquire
  split <;> rfl

/-! ### Stash fills (R203) -/

theorem startFill_stored {s t : State} {c g asid idx va : Nat} {w : Warp} {lane : Nat} (h : s.startFill c g asid idx va w lane = some t) :
    t.stored = s.stored := by
  unfold State.startFill at h
  dsimp only at h
  split at h
  · cases h; rfl
  · split at h
    · cases h
    · next hcharge =>
      have hstart := charge_stored hcharge
      cases h
      exact hstart

@[simp] theorem dropFaulted_stored (s : State) (c g : Nat) : (s.dropFaulted c g).stored = s.stored := by
  unfold State.dropFaulted
  refine foldl_stored _ (fun a q => ?_) _ _
  unfold State.endFill
  exact foldl_stored _ (fun b x => later_stored b _) _ a

@[simp] theorem takeIn_stored (s : State) (d : Nat) (l : Line) (hint : Hint) : (s.takeIn d l hint).stored = s.stored := by
  unfold State.takeIn State.installLine
  dsimp only
  (repeat' split) <;> rfl

end Sys2Proof.Machine
end

section
/-! PROOFS. No instruction changes what is stored as it issues (R31, R33, R210, R336): O40. -/
namespace Sys2Proof.Machine

/-- What an instruction answers for a state leaves what is stored as it was. -/
structure KeepsStored (s : State) (o : Host.Outcome State Fault Refusal) : Prop where
  of_next : ∀ t, o = .next t → t.stored = s.stored

theorem keepsStored_next {s t : State} (h : t.stored = s.stored) : KeepsStored s (.next t) := by
  constructor
  rintro _ ⟨⟩
  exact h

theorem keepsStored_ite {s : State} {p : Prop} [Decidable p] {o q : Host.Outcome State Fault Refusal} (ho : KeepsStored s o)
    (hq : KeepsStored s q) : KeepsStored s (if p then o else q) := by
  split
  · exact ho
  · exact hq

/-- What begins from a state of the same stored bytes keeps these too. -/
theorem KeepsStored.of_eq {s u : State} {o : Host.Outcome State Fault Refusal} (h : KeepsStored u o) (he : u.stored = s.stored) :
    KeepsStored s o := ⟨fun t ht => (h.of_next t ht).trans he⟩

theorem keepsStored_withWarp {s : State} {f : Nat → Nat → Warp → Host.Outcome State Fault Refusal}
    (h : ∀ c k w, KeepsStored s (f c k w)) : KeepsStored s (withWarp s f) := by
  constructor
  intro t ht
  obtain ⟨c, k, w, -, hf⟩ := withWarp_next ht
  exact (h c k w).of_next t hf

theorem keepsStored_afterLanes {s : State} {c k : Nat} {w : Warp} {r : Option State} (h : ∀ u, r = some u → u.stored = s.stored) :
    KeepsStored s (afterLanes s c k w r) := ⟨fun _ => afterLanes_stored h⟩

/-! ### The shared forms -/

theorem actForm_keepsStored (s : State) (ok : Nat → Warp → View → Bool) (f : View → AtCommit) : KeepsStored s (actForm s ok f) :=
  keepsStored_withWarp fun _ _ _ => keepsStored_ite (keepsStored_next rfl) (keepsStored_next (takeWarpFault_stored ..))

theorem rowForm_keepsStored {s : State} {f : Nat → Nat → Warp → View → Host.Outcome State Fault Refusal}
    (h : ∀ c k w x, KeepsStored s (f c k w x)) : KeepsStored s (rowForm s f) :=
  keepsStored_withWarp fun c k w => keepsStored_ite (h c k w _) (keepsStored_next rfl)

theorem sparseForm_keepsStored {s : State} {f : Nat → Nat → Warp → View → Host.Outcome State Fault Refusal}
    (h : ∀ c k w x, KeepsStored s (f c k w x)) : KeepsStored s (sparseForm s f) :=
  keepsStored_withWarp fun c k w => keepsStored_ite (h c k w _) (keepsStored_next rfl)

theorem storeForm_keepsStored (s : State) (m : FmtM) (l' p : Bool) (ea : View → Nat → Nat) : KeepsStored s (storeForm s m l' p ea) :=
  keepsStored_withWarp fun _ _ _ => keepsStored_next rfl

theorem replyForm_keepsStored (s : State) (m : FmtM) (n : Nat) (kind : List Word → ReqKind) : KeepsStored s (replyForm s m n kind) :=
  keepsStored_withWarp fun _ _ _ => keepsStored_ite (keepsStored_next (takeFault_stored ..)) (keepsStored_next rfl)

theorem emitForm_keepsStored (s : State) (a : FmtE) (val : View → Nat → Nat) : KeepsStored s (emitForm s a val) :=
  keepsStored_withWarp fun _ _ _ => keepsStored_ite (keepsStored_next (takeFault_stored ..)) (keepsStored_next rfl)

/-- An engine command at issue: what it reserves and what its check says touch no byte. -/
theorem engineForm_keepsStored (s : State) (a : FmtG) (kind : EngKind) (check : Nat → Warp → List Word → Option Nat)
    (more : Warp → List Word → EngCmd → EngCmd) : KeepsStored s (engineForm s a kind check more) := by
  refine keepsStored_withWarp fun c k w => ?_
  dsimp only
  cases hres : s.reserveEngine c w a.path with
  | none => exact keepsStored_next rfl
  | some p =>
    have hstart := reserveEngine_stored hres
    cases check c w (w.descriptor a.desc) with
    | none => exact keepsStored_next hstart
    | some code => exact keepsStored_next ((takeWarpFault_stored ..).trans hstart)

theorem sparseEngine_keepsStored (s : State) (c k : Nat) (w : Warp) (bad : Bool) (mk : Charge → EngCmd) :
    KeepsStored s (sparseEngine s c k w bad mk) := by
  rw [sparseEngine_eq]
  refine keepsStored_next ?_
  split
  · exact takeWarpFault_stored ..
  · cases hres : s.reserveEngine c w .e with
    | none => rfl
    | some p => exact (reserveEngine_stored hres :)

/-! ### Spawns (R269, R287) -/

@[simp] theorem reserveLanes_stored (c g : Nat) (mk : Nat → Bool → AtCommit) (spill : Bool) (ls : List Nat) (s : State) :
    (reserveLanes s c g mk spill ls).1.stored = s.stored := by
  induction ls generalizing s with
  | nil => rfl
  | cons l t ih =>
    unfold reserveLanes
    split
    · exact ih s
    · next s1 sp hres =>
      have hstart : s1.stored = s.stored := by
        unfold State.reserveChild at hres
        dsimp only at hres
        split at hres
        · cases hres; rfl
        · split at hres <;> cases hres
          rfl
      exact (ih s1).trans hstart

/-- SPAWN and SPAWNQ: the reservations, then a fault or the issue. -/
theorem spawn_keepsStored (s : State) (a : FmtSpawn) : KeepsStored s (execSpawn a s) := by
  refine keepsStored_withWarp fun c k w => keepsStored_ite (keepsStored_next (takeFault_stored ..)) (keepsStored_ite ?_ ?_)
  · exact keepsStored_next (reserveLanes_stored ..)
  · exact keepsStored_next ((takeFault_stored ..).trans (reserveLanes_stored ..))

theorem spawnq_keepsStored (s : State) (a : FmtSpawn) : KeepsStored s (execSpawnq a s) :=
  keepsStored_withWarp fun _ _ _ => keepsStored_ite (keepsStored_next (takeFault_stored ..)) (keepsStored_next (reserveLanes_stored ..))

/-! ### Loads, acquires and rounds (R216 to R218, R228, R230) -/

theorem loadForm_keepsStored (s : State) (m : FmtM) (c k : Nat) (w : Warp) (ea : View → Nat → Nat) (how : Nat → LoadHow) :
    KeepsStored s (loadForm s m c k w ea how) :=
  keepsStored_ite (keepsStored_next (takeFault_stored ..))
    (keepsStored_afterLanes (fun _ => overLanes_stored (fun _ _ _ => loadLane_stored)))

@[simp] theorem acquire_stored (s : State) (d asid : Nat) (q : RelWord) : (s.acquire d asid q).stored = s.stored := acquireOver_stored ..

theorem lda_keepsStored (s : State) (m : FmtM) : KeepsStored s (execLda m s) := by
  refine keepsStored_withWarp fun c k w => ?_
  dsimp only
  generalize hacts : (decide (m.scope = .auto ∨ m.scope = .package) && !(w.active m.g).isEmpty
    && (if m.data.isSlot then s.badReplies (s.view c w) m true m.size.bytes (w.active m.g) else []).isEmpty) = acts
  generalize hs1 : (if acts then (s.acquire (dieOf c) (s.asidOf w) RelWord.every).waitAcquire c k [256] else s) = s1
  have hstart : s1.stored = s.stored := by
    subst hs1
    split <;> simp
  cases s1.warp? c k with
  | none => exact keepsStored_next hstart
  | some w1 =>
    dsimp only
    cases hload : loadForm s1 m c k w1 (fun x l => x.ea l m (FmtM.splits m)) (fun _ => { noCopy := acts, lda := true, acq := acts }) with
    | next s2 =>
      have hloaded : s2.stored = s.stored := ((loadForm_keepsStored s1 m c k w1 _ _).of_next s2 hload).trans hstart
      dsimp only
      split
      · exact keepsStored_ite (keepsStored_next rfl) (keepsStored_next hloaded)
      · exact keepsStored_next hloaded
    | fault r => exact ⟨fun t ht => by cases ht⟩
    | refused r => exact ⟨fun t ht => by cases ht⟩

theorem refreshLane_stored {s t : State} {c k lane : Nat} {m : FmtM} {va : Nat} {how : LoadHow}
    (h : s.refreshLane c k lane m va how = some t) : t.stored = s.stored := by
  unfold State.refreshLane at h
  split at h
  · cases h; rfl
  · exact foldl_bind_stored (fun _ _ _ => loadPart_stored) h

theorem ldb_keepsStored (s : State) (m : FmtM) : KeepsStored s (execLdb m s) := by
  refine keepsStored_withWarp fun c k w => keepsStored_ite ?_ (loadForm_keepsStored s m c k w _ _)
  split
  · exact keepsStored_next rfl
  · next s1 hlanes =>
    have hstart : s1.stored = s.stored := overLanes_stored (fun _ _ _ => refreshLane_stored) hlanes
    split
    · exact keepsStored_next hstart
    · exact keepsStored_next ((foldl_stored _ (fun a (i : Inst) => setEntry_stored a c i.frame i.entry _) _ _).trans
        ((abort_stored ..).trans hstart))

theorem roundv_keepsStored (s : State) (m : FmtM) : KeepsStored s (execRoundv m s) := by
  refine keepsStored_withWarp fun c k w => keepsStored_ite (keepsStored_next (takeFault_stored ..)) ?_
  refine keepsStored_afterLanes fun _ => overLanes_stored fun u l v hask => ?_
  obtain ⟨p, hcharge, rfl⟩ := Option.map_eq_some_iff.mp hask
  exact (addReq_stored ..).trans (charge_stored hcharge)

theorem acq_keepsStored (s : State) (m : FmtM) : KeepsStored s (execAcq m s) := by
  refine keepsStored_withWarp fun c k w => keepsStored_next ?_
  rw [issued_stored]
  split
  · exact acquireOver_stored ..
  · rfl

theorem pref_keepsStored (s : State) (m : FmtM) : KeepsStored s (execPref m s) := by
  refine keepsStored_withWarp fun c k w => keepsStored_next ?_
  rw [issued_stored]
  refine foldl_stored _ (fun a l => ?_) _ _
  dsimp only
  split
  · split <;> rfl
  · split
    · split
      · exact useCopy_stored ..
      · exact takeIn_stored ..
    · exact addReq_stored ..

/-! ### Stash accesses (R203, R216, R219) -/

theorem fillLane_stored {s : State} {c asid va n : Nat} {w : Warp} {lane : Nat} {r : State × List Nat}
    (h : s.fillLane c asid va n w lane = some r) : r.1.stored = s.stored :=
  foldl_bind_keeps (fun x : State × List Nat => x.1.stored) (fun t p u hfill => by
    obtain ⟨v, hstart, rfl⟩ := Option.map_eq_some_iff.mp hfill
    exact startFill_stored hstart) h

/-- The fills of some lanes. -/
theorem fillLanes_stored {s : State} {c asid n : Nat} {w : Warp} {ea : Nat → Nat} {ls : List Nat} {r : State × List Nat}
    (h : ls.foldl (fun (a : Option (State × List Nat)) l => a.bind (fun t =>
      (t.1.fillLane c asid (ea l) n w l).map (fun u => (u.1, t.2 ++ u.2)))) (some (s, [])) = some r) : r.1.stored = s.stored :=
  foldl_bind_keeps (fun x : State × List Nat => x.1.stored) (s := (s, [])) (fun t l u hfill => by
    obtain ⟨v, hlane, rfl⟩ := Option.map_eq_some_iff.mp hfill
    exact (fillLane_stored hlane :)) h

theorem ldsLane_stored {s t : State} {c k lane : Nat} {m : FmtM} {va : Nat} (h : s.ldsLane c k lane m va = some t) :
    t.stored = s.stored := by
  unfold State.ldsLane at h
  split at h
  · cases h; rfl
  · refine (foldl_bind_stored (fun u p v hpart => ?_) h).trans rfl
    split at hpart
    · exact forwardPart_stored hpart
    · split at hpart
      · exact loadPart_stored hpart
      · split at hpart
        · cases hpart; rfl
        · obtain ⟨x, hcharge, rfl⟩ := Option.map_eq_some_iff.mp hpart
          exact (fillLoad_stored ..).trans (charge_stored hcharge)

theorem lds_keepsStored (s : State) (m : FmtM) : KeepsStored s (execLds m s) := by
  refine keepsStored_withWarp fun c k w =>
    keepsStored_ite (keepsStored_next ((dropFaulted_stored ..).trans (takeFault_stored ..))) ?_
  dsimp only
  split
  · exact keepsStored_next rfl
  · next s1 hfills =>
    have hstart : s1.stored = s.stored := fillLanes_stored hfills
    exact keepsStored_afterLanes fun u hu => (overLanes_stored (fun _ _ _ => ldsLane_stored) hu).trans hstart
  · next s1 _ _ hfills => exact keepsStored_next (fillLanes_stored hfills :)

theorem sts_keepsStored (s : State) (m : FmtM) : KeepsStored s (execSts m s) := by
  refine keepsStored_withWarp fun c k w => keepsStored_ite (keepsStored_next (takeFault_stored ..)) ?_
  dsimp only
  split
  · exact keepsStored_next rfl
  · next s1 waits hfills => exact keepsStored_next (fillLanes_stored hfills :)

end Sys2Proof.Machine
end

section
/-! PROOFS. What reads at issue leave stored (R32, R137, R239, R243), and O40 assembled. -/
namespace Sys2Proof.Machine

/-- The state that a read of memory as it stands leaves. -/
def ReadNow.state : ReadNow → State
  | .busy s => s
  | .fault s _ _ => s
  | .data s _ _ => s

/-! ### Recalls, translations and lines asked for -/

theorem askRecall_stored {s t : State} {d asid line : Nat} (h : s.askRecall d asid line = some t) : t.stored = s.stored := by
  unfold State.askRecall at h
  dsimp only at h
  split at h
  · cases h
  · split at h <;> cases h <;> rfl

theorem askOwner_stored {s t : State} {st asid line keep : Nat} (h : s.askOwner st asid line keep = some t) : t.stored = s.stored := by
  unfold State.askOwner at h
  dsimp only at h
  split at h <;> cases h
  rfl

theorem recallFor_stored {s t : State} {d st asid line : Nat} (h : s.recallFor d st asid line = some t) : t.stored = s.stored := by
  unfold State.recallFor at h
  split at h
  · next hask => cases h; exact askRecall_stored hask
  · split at h
    · next hask =>
      cases h
      split at hask
      · cases hask
      · exact askRecall_stored hask
    · exact askOwner_stored h

theorem translate_stored {s : State} {st asid va : Nat} {r : State × Option Leaf} (h : s.translate st asid va = some r) :
    r.1.stored = s.stored := by
  unfold State.translate at h
  dsimp only at h
  split at h
  · cases h
  · split at h
    · cases h; rfl
    · split at h
      · cases h
      · split at h <;> cases h <;> rfl

@[simp] theorem askLine_stored (s : State) (c g asid ident va : Nat) (pref : Bool) : (s.askLine c g asid ident va pref).stored = s.stored := by
  unfold State.askLine
  dsimp only
  split
  · rfl
  · refine (addReq_stored _ _).trans ?_
    split <;> rfl

@[simp] theorem atSlice_stored (s : State) (st asid va : Nat) (write only : Bool) (hint : Hint) :
    (s.atSlice st asid va write only hint).stored = s.stored := by
  unfold State.atSlice
  dsimp only
  split
  · unfold State.touchHome State.installLine
    dsimp only
    (repeat' split) <;> rfl
  · rfl

@[simp] theorem countTogether_stored (s : State) (ds : List Nat) (n : Nat) : (s.countTogether ds n).stored = s.stored := rfl

/-! ### Reads of memory as it stands -/

theorem readStash_stored (s : State) (c asid va n : Nat) (w : Window) : (s.readStash c asid va n w).state.stored = s.stored := by
  unfold State.readStash
  split
  · split <;> rfl
  · rfl

theorem readHome_stored (s : State) (c g asid ident va n : Nat) (eng : Bool) :
    (s.readHome c g asid ident va n eng).state.stored = s.stored := by
  unfold State.readHome
  dsimp only
  split
  · rfl
  · split
    · exact useCopy_stored ..
    · split
      · rfl
      · split
        · split
          · rfl
          · split
            · rfl
            · split
              · exact askLine_stored ..
              · exact countDie_stored ..
        · split
          · rfl
          · split
            · next hrecall => exact recallFor_stored hrecall
            · split
              · rfl
              · next htrans =>
                have hstart := translate_stored htrans
                split
                · exact (atSlice_stored ..).trans hstart
                · exact hstart
                · exact hstart

theorem readPart_stored (s : State) (c g asid ident : Nat) (stash eng : Bool) (p : Nat × Nat × Nat) :
    (s.readPart c g asid ident stash eng p).state.stored = s.stored := by
  unfold State.readPart
  split
  · exact readStash_stored ..
  · exact readHome_stored ..

theorem waitParts_stored (s : State) (c g asid ident : Nat) (stash eng : Bool) (ps : List (Nat × Nat × Nat)) :
    (s.waitParts c g asid ident stash eng ps).1.stored = s.stored := by
  unfold State.waitParts
  generalize hb : (s, false) = b
  rw [show s = b.1 by rw [← hb]]
  clear hb
  induction ps generalizing b with
  | nil => rfl
  | cons p t ih =>
    rw [List.foldl_cons, ih]
    have hpart := readPart_stored b.1 c g asid ident stash eng p
    split
    · next hread => rw [hread] at hpart; exact hpart
    · rfl

theorem readParts_stored (c g asid ident : Nat) (stash eng : Bool) (ps : List (Nat × Nat × Nat)) (s : State) :
    (s.readParts c g asid ident stash eng ps).state.stored = s.stored := by
  induction ps generalizing s with
  | nil => rfl
  | cons p t ih =>
    unfold State.readParts
    have hpart := readPart_stored s c g asid ident stash eng p
    cases hread : s.readPart c g asid ident stash eng p with
    | busy s1 => rw [hread] at hpart; exact hpart
    | fault s1 => rw [hread] at hpart; exact hpart
    | data s1 bytes poison =>
      rw [hread] at hpart
      have hrest := (ih s1).trans hpart
      dsimp only
      cases hmore : s1.readParts c g asid ident stash eng t <;> rw [hmore] at hrest <;> exact hrest

theorem readNow_stored (s : State) (c g asid ident : Nat) (stash eng : Bool) (va n : Nat) :
    (s.readNow c g asid ident stash eng va n).state.stored = s.stored := by
  unfold State.readNow
  dsimp only
  split
  · exact waitParts_stored ..
  · exact readParts_stored ..

theorem readBlocks_stored {rd : State → Nat → Nat → ReadNow} (h : ∀ s va n, (rd s va n).state.stored = s.stored) (base : Nat)
    (l : List (Nat × Nat)) (s : State) : (readBlocks rd base l s).1.state.stored = s.stored := by
  induction l generalizing s with
  | nil => rfl
  | cons b t ih =>
    unfold readBlocks
    split
    · exact ih s
    · have hblock := h s ((base + b.1) % 2 ^ 56) b.2
      cases hread : rd s ((base + b.1) % 2 ^ 56) b.2 with
      | busy s1 => rw [hread] at hblock; exact hblock
      | fault s1 => rw [hread] at hblock; exact hblock
      | data s1 bytes poison =>
        rw [hread] at hblock
        have hrest := (ih s1).trans hblock
        dsimp only
        cases hmore : (readBlocks rd base t s1).1 <;> rw [hmore] at hrest <;> exact hrest

/-! ### Reads at issue, counted while they are under way -/

theorem chargeAll_stored {c i : Nat} {ps : List Path} {s : State} {r : State × List Charge} (h : s.chargeAll c i ps = some r) :
    r.1.stored = s.stored := by
  induction ps generalizing s r with
  | nil => cases h; rfl
  | cons p t ih =>
    unfold State.chargeAll at h
    split at h
    · cases h
    · next hcharge =>
      obtain ⟨q, hrest, rfl⟩ := Option.map_eq_some_iff.mp h
      exact (ih hrest).trans (charge_stored hcharge)

theorem keepReads_stored {s : State} {c k : Nat} {w : Warp} {ps : List Path} {r : State × Warp} (h : s.keepReads c k w ps = some r) :
    r.1.stored = s.stored := by
  unfold State.keepReads at h
  obtain ⟨q, hcharge, rfl⟩ := Option.map_eq_some_iff.mp h
  exact (chargeAll_stored hcharge :)

@[simp] theorem endReads_stored (s : State) (c : Nat) (w : Warp) : (s.endReads c w).stored = s.stored := by
  unfold State.endReads
  split
  · exact foldl_stored _ (fun a x => later_stored a _) _ _
  · exact dischargeAll_stored ..

theorem fillAtIssue_keepsStored (s : State) (c k : Nat) (w : Warp) (rs : List (Nat × Nat)) : KeepsStored s (fillAtIssue s c k w rs) := by
  unfold fillAtIssue
  dsimp only
  split
  · exact keepsStored_next ((dropFaulted_stored ..).trans (takeWarpFault_stored ..))
  · refine keepsStored_next ?_
    rw [stalled_stored]
    generalize hfills : rs.foldl (fun (a : Option State) r => a.bind (fun t => (t.fillLane c (s.asidOf w) r.1 r.2 w 0).map (fun u => u.1)))
      (some s) = o
    cases o with
    | none => rfl
    | some t =>
      exact foldl_bind_stored (fun u r v hlane => by
        obtain ⟨p, hfill, rfl⟩ := Option.map_eq_some_iff.mp hlane
        exact fillLane_stored hfill) hfills

/-- A read at issue keeps what is stored where the read and what follows it do. -/
theorem atIssue_keepsStored {s : State} {c k : Nat} {w : Warp} {before : List Path} {rs : List (Nat × Nat)} {rd : State → ReadNow}
    {f : State → Warp → List Byte → Host.Outcome State Fault Refusal} {va : Nat} (hrd : ∀ u, (rd u).state.stored = u.stored)
    (hf : ∀ u v b, KeepsStored u (f u v b)) : KeepsStored s (atIssue s c k w before rs rd f va) := by
  unfold atIssue
  split
  · exact keepsStored_next rfl
  · next s0 w1 hkeep =>
    have hstart : s0.stored = s.stored := keepReads_stored hkeep
    have hread := (hrd s0).trans hstart
    cases hdata : rd s0 with
    | busy s1 =>
      rw [hdata] at hread
      dsimp only
      split
      · exact keepsStored_next hread
      · exact (fillAtIssue_keepsStored ..).of_eq hstart
    | fault s1 code bad =>
      rw [hdata] at hread
      exact keepsStored_next ((takeWarpFault_stored ..).trans hread)
    | data s1 bytes poison =>
      rw [hdata] at hread
      cases poison with
      | nil => exact (hf s1 w1 bytes).of_eq hread
      | cons p t => exact keepsStored_next ((takeWarpFault_stored ..).trans hread)

/-- How BLDQ ends: its charges end and its act waits for commit. -/
theorem bldqEnd_keepsStored (u : State) (c k : Nat) (v : Warp) (act : AtCommit) :
    KeepsStored u (.next ((u.endReads c v).issued c k (v.dropKept.act act))) := keepsStored_next (endReads_stored ..)

theorem bldq_keepsStored (s : State) (a : FmtX) : KeepsStored s (execBldq a s) := by
  refine rowForm_keepsStored fun c k w x => keepsStored_ite ?_ ?_
  · exact atIssue_keepsStored (fun u => readNow_stored ..) fun u v tab =>
      atIssue_keepsStored (fun u' => readBlocks_stored (fun _ _ _ => readNow_stored ..) _ _ _) fun u' v' _ =>
        (bldqEnd_keepsStored ..).of_eq (count_stored ..)
  · exact atIssue_keepsStored (fun u => readNow_stored ..) fun u v data => keepsStored_ite
      (atIssue_keepsStored (fun u' => readNow_stored ..) fun u' v' _ => bldqEnd_keepsStored ..) (bldqEnd_keepsStored ..)

/-! ### The rest of the row instructions -/

theorem mxcfg_keepsStored (s : State) (a : FmtX) : KeepsStored s (execMxcfg a s) := by
  refine keepsStored_withWarp fun c k w => keepsStored_ite (keepsStored_next ?_)
    (keepsStored_ite (keepsStored_next (takeWarpFault_stored ..)) (keepsStored_next rfl))
  split <;> rfl

theorem rowp_keepsStored (s : State) (a : FmtX) : KeepsStored s (execRowp a s) := by
  refine rowForm_keepsStored fun c k w x => keepsStored_ite (keepsStored_next (takeWarpFault_stored ..)) ?_
  dsimp only
  split <;> exact keepsStored_next rfl

theorem rows_keepsStored (s : State) (a : FmtX) : KeepsStored s (execRows a s) := by
  refine rowForm_keepsStored fun c k w _ => keepsStored_ite (keepsStored_next (takeWarpFault_stored ..)) ?_
  dsimp only
  split
  · exact keepsStored_next rfl
  · next hres => exact keepsStored_next (reserveEngine_stored hres :)

theorem iscfg_keepsStored (s : State) (a : FmtX) : KeepsStored s (execIscfg a s) :=
  sparseForm_keepsStored fun _ _ _ _ => keepsStored_ite (keepsStored_next (takeWarpFault_stored ..))
    (keepsStored_ite (keepsStored_next (takeWarpFault_stored ..)) (keepsStored_next rfl))

/-- Every instruction of the opcode map keeps what is stored as it issues. -/
theorem exec_keepsStored {i : Instr} {word : Nat} (h : encode i = some word) (s : State) : KeepsStored s (exec i s) := by
  cases i with
  | emit a | emitc a | emite a => dsimp only [exec]; exact emitForm_keepsStored ..
  | emitx a | ffree a | falloc a =>
    exact keepsStored_withWarp fun _ _ _ => keepsStored_ite (keepsStored_next (takeFault_stored ..)) (keepsStored_next rfl)
  | emitb a =>
    exact keepsStored_withWarp fun _ _ _ => keepsStored_ite (keepsStored_next (takeWarpFault_stored ..)) (keepsStored_next rfl)
  | spawn a => exact spawn_keepsStored s a
  | spawnq a => exact spawnq_keepsStored s a
  | mxcfg a => exact mxcfg_keepsStored s a
  | bldq a => exact bldq_keepsStored s a
  | rowp a => exact rowp_keepsStored s a
  | rows a => exact rows_keepsStored s a
  | mxseq a | accrd a | fchbind a =>
    dsimp only [exec]
    exact rowForm_keepsStored fun _ _ _ _ => keepsStored_ite (keepsStored_next (takeWarpFault_stored ..)) (keepsStored_next rfl)
  | accz a | accwb a | accst a => dsimp only [exec]; exact rowForm_keepsStored fun _ _ _ _ => keepsStored_next rfl
  | iscfg a => exact iscfg_keepsStored s a
  | isx a | nzscan a => exact sparseForm_keepsStored fun _ _ _ _ => sparseEngine_keepsStored ..
  | sacci a | saccf a => dsimp only [exec]; exact sparseForm_keepsStored fun _ _ _ _ => keepsStored_next rfl
  | ldg a | ldc a | ldp a => exact keepsStored_withWarp fun c k w => loadForm_keepsStored s a c k w _ _
  | ldb a => exact ldb_keepsStored s a
  | lda a => exact lda_keepsStored s a
  | lds a => exact lds_keepsStored s a
  | sts a => exact sts_keepsStored s a
  | smap a => exact keepsStored_withWarp fun _ _ _ => keepsStored_ite (keepsStored_next (takeFault_stored ..)) (keepsStored_next rfl)
  | stp a => exact keepsStored_withWarp fun _ _ _ => storeForm_keepsStored ..
  | pref a => exact pref_keepsStored s a
  | atomr a | cas a | cas128 a | incw a | decw a | faddb a | take a | readf a =>
    dsimp only [exec]
    exact replyForm_keepsStored ..
  | roundv a => exact roundv_keepsStored s a
  | acq a => exact acq_keepsStored s a
  | cpy a | cpy2d a | gath a | scat a | strm a | strmgo a | dpost a | dxch a | dxq a | cpyb a =>
    dsimp only [exec]
    exact engineForm_keepsStored ..
  | strmx a => dsimp only [exec, execStrmx]; exact engineForm_keepsStored ..
  | hbind a | hbindRelease a | hclr a | tron a | troff a | trmark a | srseed a | syswr a | sramPartWrite a | gload a | gunld a
  | launch a | tgen a | dirfl a | preempt a | resume a | tretReplay a | tretPoison a | tretRaiseMark a | tretAnswer a | jrnl a =>
    dsimp only [exec]
    exact actForm_keepsStored ..
  | join a | gate a | trap a | brk a | nop a | done a | iadd a | isub a | imul a | imulh a | imad a | imadw a | iaddc a | isubb a
  | imin a | imax a | iabs a | ineg a | isad a | idot4 a | idot2 a | lea a | iaddi a | imuli a | andi a | ori a | xori a | shli a
  | shri a | shrai a | movi a | movki a | icmpi a | leai a | and a | or a | xor a | andn a | not a | shl a | shr a | shra a | rotl a
  | funnel a | popc a | clz a | ctz a | brev a | bfx a | bfi a | icmp a | plop a | sel a | mov a | movp a | lanex a | poll a | peers a
  | cnvi a | bytsel a | movk a | fptr a | fpsplit a | fadd a | fsub a | fmul a | ffma a | fmin a | fmax a | fcmp a | fclass a
  | fscale a | fredw a | fdot2 a | pkfma a | pkadd a | pkmul a | fcvt a | f2i a | i2f a | frcp a | frsq a | fsqrt a | fexp2 a
  | flog2 a | fsin a | fcos a | ftanh a | mxpack a | mxunpk a | stg a | stl a | swb a | sinv a | atom a | putf a | sete a | fence a
  | rounda a | hread a | srdraw a | ctrd a | sysrd a | syswrStatusRead a | dieq a =>
    exact keepsStored_withWarp fun _ _ _ => keepsStored_next rfl
  | _ => cases h

/-- Settles O40: each instruction form keeps what is stored, whatever its operands. -/
theorem issueLeavesMemory : Obligations.IssueLeavesMemory := by
  unfold Obligations.IssueLeavesMemory
  intro i s t c k w word hencode _ hnext
  have hkeep : t.stored = s.stored := (exec_keepsStored hencode s).of_next t hnext
  simp only [State.stored, Prod.mk.injEq] at hkeep
  obtain ⟨hmem, hpoison, hversions⟩ := hkeep
  exact ⟨hmem, hpoison, hversions, fun a => by rw [hmem]⟩

end Sys2Proof.Machine
end

section
/-! PROOFS. Aborts and instance faults, whatever the warp has buffered (R34, R359): O29. -/
namespace Sys2Proof.Machine

/-- What a quantity of each state a step leaves, the whole run of steps leaves. -/
theorem foldl_keeps {α β γ : Type} (g : β → γ) {f : β → α → β} (h : ∀ b a, g (f b a) = g b) (l : List α) (b : β) :
    g (l.foldl f b) = g b := by
  induction l generalizing b with
  | nil => rfl
  | cons a t ih => rw [List.foldl_cons, ih, h]

/-! ### Which warps a core holds, and the tokens in its injection queue -/

/-- The warps and the injection queue of a core. -/
def State.warpsAndTokens (s : State) (c : Nat) : Map Warp × List Packet := ((s.core c).warps, (s.core c).inject)

theorem warpsAndTokens_setCore {s : State} {c : Nat} {q : Core} (hw : q.warps = (s.core c).warps) (hi : q.inject = (s.core c).inject)
    (d : Nat) : (s.setCore c q).warpsAndTokens d = s.warpsAndTokens d := by
  by_cases hd : d = c
  · subst hd
    simp [State.warpsAndTokens, hw, hi]
  · simp [State.warpsAndTokens, core_setCore_ne _ _ hd]

theorem Sent.warpsAndTokens {s t : State} (h : Sent s t) (d : Nat) : t.warpsAndTokens d = s.warpsAndTokens d := by
  obtain ⟨m, hm⟩ := h.2 d
  simp [State.warpsAndTokens, hm]

theorem warp?_of_warpsAndTokens {s t : State} {c : Nat} (h : t.warpsAndTokens c = s.warpsAndTokens c) (k : Nat) :
    t.warp? c k = s.warp? c k := by
  exact congrArg (fun m : Map Warp × List Packet => m.1.find? k) h

@[simp] theorem warpsAndTokens_count (s : State) (c sysn i n d : Nat) : (s.count c sysn i n).warpsAndTokens d = s.warpsAndTokens d :=
  warpsAndTokens_setCore (q := (s.core c).count sysn i n) rfl rfl d

@[simp] theorem warpsAndTokens_trace (s : State) (c g ty b d : Nat) : (s.trace c g ty b).warpsAndTokens d = s.warpsAndTokens d :=
  warpsAndTokens_setCore (q := { s.core c with trace := (s.core c).trace.write g c s.now ty b }) rfl rfl d

@[simp] theorem warpsAndTokens_storeFrame (s : State) (c i : Nat) (f : Frame) (d : Nat) :
    (s.storeFrame c i f).warpsAndTokens d = s.warpsAndTokens d :=
  ((sent_storeFrame s c i f).warpsAndTokens d).trans (warpsAndTokens_setCore (by rfl) (by rfl) d)

@[simp] theorem warpsAndTokens_startAging (s : State) (c g d : Nat) : (s.startAging c g).warpsAndTokens d = s.warpsAndTokens d := by
  unfold State.startAging
  split
  · rfl
  · next x _ => exact warpsAndTokens_setCore (q := (s.core c).startAging g x.level s.now) rfl rfl d

@[simp] theorem warpsAndTokens_report (s : State) (c : Nat) (r : FaultRec) (d : Nat) : (s.report c r).warpsAndTokens d = s.warpsAndTokens d := by
  unfold State.report
  split
  · exact warpsAndTokens_count ..
  · rfl

@[simp] theorem warpsAndTokens_later (s : State) (x : Option Charge) (d : Nat) : (s.later x).warpsAndTokens d = s.warpsAndTokens d := by
  cases x <;> rfl

@[simp] theorem warpsAndTokens_setEntry (s : State) (c i j : Nat) (f : Entry → Entry) (d : Nat) :
    (s.setEntry c i j f).warpsAndTokens d = s.warpsAndTokens d := by
  unfold State.setEntry
  split
  · rfl
  · exact warpsAndTokens_storeFrame ..

@[simp] theorem warpsAndTokens_enterCarafe (s : State) (c i j d : Nat) : (s.enterCarafe c i j).warpsAndTokens d = s.warpsAndTokens d := by
  have haddRec : ∀ (a : State) n g b p t r e, ((a.setCore c ((a.core c).addRec n g b p t r)).startAging c e).warpsAndTokens d
      = a.warpsAndTokens d := fun a n g b p t r e => by
    rw [warpsAndTokens_startAging]
    exact warpsAndTokens_setCore (q := (a.core c).addRec n g b p t r) rfl rfl d
  unfold State.enterCarafe
  split
  · rfl
  · dsimp only
    (repeat' split) <;> simp [haddRec]

@[simp] theorem warpsAndTokens_giveBack (s : State) (c g : Nat) (t : Taken) (d : Nat) :
    (s.giveBack c g t).warpsAndTokens d = s.warpsAndTokens d := by
  cases t with
  | rowEngine =>
    unfold State.giveBack
    dsimp only
    split
    · exact warpsAndTokens_setCore (by rfl) (by rfl) d
    · rfl
  | engine x => exact (warpsAndTokens_later ..).trans (warpsAndTokens_setCore (by rfl) (by rfl) d)
  | infl x => exact warpsAndTokens_later ..
  | task | spill | credit => exact warpsAndTokens_setCore (by rfl) (by rfl) d

/-! ### The abort (R34) -/

/-- An aborted warp's slot is free; the other warps and the tokens of its core stay. -/
theorem warpsAndTokens_abort (s : State) (c k : Nat) (w : Warp) (cause : Nat) (held : List Nat) :
    (s.abort c k w cause held).warpsAndTokens c = (Map.del (s.core c).warps k, (s.core c).inject) := by
  have hfreed : (((s.setCore c { s.core c with warps := Map.del (s.core c).warps k }).forgetWarp c k).dropAsks c w.graph).warpsAndTokens c
      = (Map.del (s.core c).warps k, (s.core c).inject) := by
    simp only [State.warpsAndTokens]
    rw [show ∀ a : State, ((a.forgetWarp c k).dropAsks c w.graph).core c = a.core c from fun _ => rfl, core_setCore_same]
  unfold State.abort
  dsimp only
  rw [foldl_keeps (fun a : State => a.warpsAndTokens c) (fun a p => by
      split
      · exact warpsAndTokens_setEntry ..
      · rw [warpsAndTokens_enterCarafe]
        split
        · rfl
        · exact warpsAndTokens_setEntry ..),
    foldl_keeps (fun a : State => a.warpsAndTokens c) (fun a (l : PendLoad) =>
      foldl_keeps (fun a : State => a.warpsAndTokens c) (fun a _ => warpsAndTokens_later ..) l.charges a)]
  have hgiven := (foldl_keeps (fun a : State => a.warpsAndTokens c) (fun a t => warpsAndTokens_giveBack a c w.graph t c) w.taken
    (((s.setCore c { s.core c with warps := Map.del (s.core c).warps k }).forgetWarp c k).dropAsks c w.graph)).trans hfreed
  split
  · rw [warpsAndTokens_trace, warpsAndTokens_count]
    exact hgiven
  · rw [warpsAndTokens_count]
    exact hgiven

theorem warpsAndTokens_takeFault (s : State) (c k : Nat) (w : Warp) (xs : List LaneFault) :
    (s.takeFault c k w xs).warpsAndTokens c = (Map.del (s.core c).warps k, (s.core c).inject) :=
  (foldl_keeps (fun a : State => a.warpsAndTokens c) (fun a _ => warpsAndTokens_report a c _ c) _ _).trans (warpsAndTokens_abort ..)

@[simp] theorem warp?_abort (s : State) (c k : Nat) (w : Warp) (cause : Nat) (held : List Nat) :
    (s.abort c k w cause held).warp? c k = none := by
  exact (congrArg (fun m : Map Warp × List Packet => m.1.find? k) (warpsAndTokens_abort ..)).trans (Map.find?_del_same ..)

@[simp] theorem warp?_takeFault (s : State) (c k : Nat) (w : Warp) (xs : List LaneFault) : (s.takeFault c k w xs).warp? c k = none := by
  exact (congrArg (fun m : Map Warp × List Packet => m.1.find? k) (warpsAndTokens_takeFault ..)).trans (Map.find?_del_same ..)

theorem inject_takeFault (s : State) (c k : Nat) (w : Warp) (xs : List LaneFault) :
    ((s.takeFault c k w xs).core c).inject = (s.core c).inject := (Prod.ext_iff.mp (warpsAndTokens_takeFault s c k w xs)).2

/-! ### The fault of a lane whose warp has taken nothing and waits for no load (R34, R358, R359) -/

/-- A warp that took nothing and waits for no load is discarded, the abort counted, and traced where its block is. -/
def State.discarded (s : State) (c k : Nat) (w : Warp) : State :=
  let s1 := (((s.setCore c { s.core c with warps := Map.del (s.core c).warps k }).forgetWarp c k).dropAsks c w.graph).count c 0x027 0 1
  if s.traced w then s1.trace c w.graph 4 (warpBody k w + 0 * 2 ^ 16) else s1

theorem discarded_eq (s : State) (c k : Nat) (w : Warp) : ∃ reqs asks cores, s.discarded c k w =
    { s with reqs := reqs, asksFailed := asks, cores := cores } := by
  unfold State.discarded
  dsimp only
  split <;> exact ⟨_, _, _, rfl⟩

theorem discarded_core (s : State) (c k : Nat) (w : Warp) : ∃ tr, (s.discarded c k w).core c =
    { ({ s.core c with warps := Map.del (s.core c).warps k }).count 0x027 0 1 with trace := tr } := by
  have hfreed : (((s.setCore c { s.core c with warps := Map.del (s.core c).warps k }).forgetWarp c k).dropAsks c w.graph).core c
      = { s.core c with warps := Map.del (s.core c).warps k } := by
    rw [show ∀ a : State, ((a.forgetWarp c k).dropAsks c w.graph).core c = a.core c from fun _ => rfl, core_setCore_same]
  unfold State.discarded State.trace State.count
  dsimp only
  split
  · exact ⟨_, by rw [core_setCore_same, core_setCore_same, hfreed]⟩
  · exact ⟨_, by rw [core_setCore_same, hfreed]⟩

/-- A readiness entry whose instance is held (R34). -/
def heldEntry (e : Entry) : Entry := { e with state := .recorded, held := true, refetch := 0 }

/-- The abort of such a warp with one instance, which is held. -/
theorem abort_single {s : State} {c k : Nat} {w : Warp} {i : Inst} (hinsts : w.insts = [i]) (htaken : w.taken = []) (hloads : w.loads = []) :
    s.abort c k w 0 [0] = (s.discarded c k w).setEntry c i.frame i.entry heldEntry := by
  unfold State.abort
  rw [hinsts, htaken, hloads]
  rfl

theorem setEntry_of_frame {s : State} {c i j : Nat} {f : Frame} (h : s.frame? c i = some f) (g : Entry → Entry) :
    s.setEntry c i j g = s.storeFrame c i { f with entries := setNth f.entries j (g (nthD Entry.empty f.entries j)) } := by
  simp [State.setEntry, h]

theorem setNth_getElem? {α : Type} {l : List α} {n : Nat} (h : n < l.length) (a : α) : (setNth l n a)[n]? = some a :=
  List.getElem?_set_self h

/-- A frame stored leaves everything of its core but its frames and its memory injection queue. -/
theorem storeFrame_core (s : State) (c i : Nat) (f : Frame) : ∃ m fs, (s.storeFrame c i f).core c = { s.core c with frames := fs, memQueue := m } := by
  obtain ⟨m, hm⟩ := (sent_storeFrame s c i f).2 c
  exact ⟨m, _, by rw [hm, core_setFrame_same]⟩

theorem storeFrame_eq (s : State) (c i : Nat) (f : Frame) : ∃ reqs next cores, s.storeFrame c i f =
    { s with reqs := reqs, next := next, cores := cores } := by
  obtain ⟨reqs, next, cores, h⟩ := (sent_storeFrame s c i f).1
  exact ⟨reqs, next, cores, by rw [h]; rfl⟩

/-- A record sent, or dropped and counted (R290, R358). -/
theorem report_of_trap {s : State} {r : FaultRec} {b : Nat × Nat} (h : s.trapOf r.graph = some b) (c : Nat) :
    s.report c r = { s with control := { s.control with recQueue := s.control.recQueue ++ [{ r with src := c }] } } := by
  simp [State.report, h]

theorem report_of_no_trap {s : State} {r : FaultRec} (h : s.trapOf r.graph = none) (c : Nat) : s.report c r = s.count c 0x043 0 1 := by
  simp [State.report, h]

/-- The record of the fault of lane 0 (R358). -/
def State.laneRec (s : State) (c : Nat) (w : Warp) (i : Inst) (code addr : Nat) : FaultRec :=
  { s.mkRec w.graph 0 code with
    addr := addr, aux := 1, fp := fpOf c i.frame, iter := i.iter, block := w.block, die := dieOf c, core := c % 64, entry := i.entry }

section
variable {s : State} {c k : Nat} {w : Warp} {i : Inst} {f : Frame}

/-- The fault of lane 0 of a warp of one instance is that instance's record, after the abort. -/
theorem takeFault_single (hinsts : w.insts = [i]) (htaken : w.taken = []) (hloads : w.loads = [])
    (hframe : s.frame? c i.frame = some f) (code addr : Nat) :
    ∃ f' reqs asks next cores, f' = { f with entries := setNth f.entries i.entry (heldEntry (nthD Entry.empty f.entries i.entry)) } ∧ let u : State := { s with reqs := reqs, asksFailed := asks, next := next, cores := cores }
        u.frame? c i.frame = some f' ∧ (u.core c).counters = ((s.core c).count 0x027 0 1).counters
        ∧ s.takeFault c k w [⟨0, code, addr⟩] = u.report c (s.laneRec c w i code addr) := by
  obtain ⟨reqs, asks, cores, hdis⟩ := discarded_eq s c k w
  obtain ⟨tr, hcore⟩ := discarded_core s c k w
  have hfound : (s.discarded c k w).frame? c i.frame = some f := by
    rw [State.frame?, hcore]
    exact hframe
  obtain ⟨reqs', next, cores', hstore⟩ := storeFrame_eq (s.discarded c k w) c i.frame { f with entries := setNth f.entries i.entry (heldEntry (nthD Entry.empty f.entries i.entry)) }
  have habort : s.abort c k w 0 [0] = { s with reqs := reqs', asksFailed := asks, next := next, cores := cores' } := by
    rw [abort_single hinsts htaken hloads, setEntry_of_frame hfound, hstore, hdis]
  refine ⟨_, reqs', asks, next, cores', rfl, ?_, ?_, ?_⟩
  · rw [← habort, abort_single hinsts htaken hloads, setEntry_of_frame hfound, frame?_storeFrame_same]
  · obtain ⟨m, fs, hm⟩ := storeFrame_core (s.discarded c k w) c i.frame { f with entries := setNth f.entries i.entry (heldEntry (nthD Entry.empty f.entries i.entry)) }
    rw [← habort, abort_single hinsts htaken hloads, setEntry_of_frame hfound, hm, hcore]
    rfl
  · change (s.abort c k w 0 [0]).report c ((s.abort c k w 0 [0]).instRec c w ⟨0, code, addr⟩) = _
    rw [habort]
    simp only [State.instRec, hinsts]
    rfl

end

/-- The counter of dropped records of a core whose abort has been counted. -/
theorem count_dropped (q : Core) : Map.getD ((q.count 0x027 0 1).count 0x043 0 1).counters (0x043 * 4096) 0
    = min (2 ^ 32 - 1) (Map.getD q.counters (0x043 * 4096) 0 + 1) := by
  have hother : Map.getD (q.count 0x027 0 1).counters (0x043 * 4096 + 0) 0 = Map.getD q.counters (0x043 * 4096) 0 :=
    Map.getD_put_ne _ _ _ (by decide)
  have hwide : ctrWide 0x043 = false := by decide
  unfold Core.count at hother ⊢
  dsimp only at hother ⊢
  rw [Nat.add_zero, Map.getD_put_same, hwide, hother]
  simp only [satAdd, Bool.false_eq_true, if_false]
  split <;> omega

/-- Settles O29: an emit with a bad frame pointer takes the fault of its lanes, and a lane's fault discards the warp, holds
its instance in the frame's entry, and sends or drops one record. -/
theorem instanceFaultsAreTaken : Obligations.InstanceFaultsAreTaken := by
  refine ⟨?_, ?_⟩
  · intro s c k w hturn a x bad hbad _
    have hform : ∀ val, emitForm s a val = .next (s.takeFault c k w (bad.map (fun l => ⟨l, 0x05, 0⟩))) := fun val => by
      have hne : ¬ ((sendingLanes w a).filter (fun l => badFp ((s.view c w).rd l 1 a.frm))).isEmpty = true := by
        rw [List.isEmpty_iff]
        exact hbad
      rw [emitForm_inTurn hturn]
      exact congrArg Host.Outcome.next (if_neg hne)
    have hexec : ∀ i ∈ [Instr.emit a, .emitc a, .emite a], exec i s = .next (s.takeFault c k w (bad.map (fun l => ⟨l, 0x05, 0⟩))) := by
      simp only [List.forall_mem_cons, List.not_mem_nil, false_imp_iff, implies_true, and_true]
      dsimp only [exec]
      exact ⟨hform _, hform _, hform _⟩
    exact fun i hi => ⟨_, hexec i hi, rfl, warp?_takeFault .., takeFault_mem .., inject_takeFault ..⟩
  · intro s c k w i f code addr _ hinsts htaken hloads hframe hentry
    obtain ⟨f', reqs, asks, next, cores, rfl, hfound, hcounters, hfault⟩ :=
      takeFault_single (k := k) hinsts htaken hloads hframe code addr
    refine ⟨warp?_takeFault .., takeFault_mem .., ⟨_, (congrArg (fun t : State => t.frame? c i.frame) hfault).trans ((frame?_report ..).trans hfound), _,
      setNth_getElem? hentry _, rfl, rfl, rfl⟩, ?_, ?_⟩
    · intro b hb
      rw [hfault, report_of_trap (r := s.laneRec c w i code addr) (s := { s with reqs := reqs, asksFailed := asks, next := next, cores := cores }) hb]
      exact ⟨_, rfl, rfl, rfl, rfl, rfl, rfl, rfl, rfl, rfl, rfl⟩
    · intro hnone
      rw [hfault, report_of_no_trap (r := s.laneRec c w i code addr) (s := { s with reqs := reqs, asksFailed := asks, next := next, cores := cores }) hnone]
      refine ⟨rfl, ?_⟩
      rw [State.count, core_setCore_same, ← count_dropped]
      unfold Core.count at hcounters ⊢
      rw [hcounters]

end Sys2Proof.Machine
end

section
/-! PROOFS. MXCFG and BLDQ at issue (R13, R239, R241, R243): O36. -/
namespace Sys2Proof.Machine

/-! ### Charges kept while reads are under way (R13, R239) -/

@[simp] theorem keptAll_append (w : Warp) (xs : List Charge) :
    Warp.keptAll { w with taken := w.taken ++ xs.map Taken.infl } = w.keptAll ++ xs := by
  simp [Warp.keptAll, List.filterMap_append, List.filterMap_map]

theorem chargeAll_length {c i : Nat} {ps : List Path} {s : State} {r : State × List Charge} (h : s.chargeAll c i ps = some r) :
    r.2.length = ps.length := by
  induction ps generalizing s r with
  | nil => cases h; rfl
  | cons p t ih =>
    unfold State.chargeAll at h
    split at h
    · cases h
    · obtain ⟨q, hrest, rfl⟩ := Option.map_eq_some_iff.mp h
      simp [ih hrest]

/-- The first charge of a run is that of its first path. -/
theorem chargeAll_head {s s1 : State} {c i : Nat} {p : Path} {x : Charge} (hcharge : s.charge c i p = some (s1, x)) {ps : List Path}
    {r : State × List Charge} (h : s.chargeAll c i (p :: ps) = some r) : r.2.head? = some x := by
  unfold State.chargeAll at h
  rw [hcharge] at h
  obtain ⟨q, -, rfl⟩ := Option.map_eq_some_iff.mp h
  rfl

/-- Reads that are all counted already are counted no more. -/
theorem keepReads_of_counted {w : Warp} {ps : List Path} (h : w.keptAll.length = ps.length) (s : State) (c k : Nat) :
    s.keepReads c k w ps = some (s.setWarp c k w, w) := by
  simp [State.keepReads, h, State.chargeAll]

/-- Reads none of which is counted yet: their charges are kept, in their order. -/
theorem keepReads_of_none {s : State} {c k : Nat} {w : Warp} {ps : List Path} (hnone : w.keptAll = []) {r : State × Warp}
    (h : s.keepReads c k w ps = some r) : ∃ q, s.chargeAll c (w.frameOf 0) ps = some q ∧ r.2.keptAll = q.2 := by
  unfold State.keepReads at h
  obtain ⟨q, hcharge, rfl⟩ := Option.map_eq_some_iff.mp h
  rw [hnone] at hcharge
  exact ⟨q, hcharge, by simp [hnone]⟩

theorem endReads_of_early {s : State} {c : Nat} {w : Warp} (h : s.lateAt c (w.frameOf 0) = false) :
    s.endReads c w = s.dischargeAll w.keptAll := by
  simp [State.endReads, h]

/-- A read at issue whose data is there, unpoisoned, goes on with it (R239). -/
theorem atIssue_of_data {s s0 s1 : State} {c k : Nat} {w w1 : Warp} {before : List Path} {rs : List (Nat × Nat)} {rd : State → ReadNow}
    {f : State → Warp → List Byte → Host.Outcome State Fault Refusal} {va : Nat} {bytes : List Byte}
    (hkeep : s.keepReads c k w (before ++ s.rangePaths c (s.asidOf w) rs) = some (s0, w1)) (hread : rd s0 = .data s1 bytes []) :
    atIssue s c k w before rs rd f va = f s1 w1 bytes := by
  simp only [atIssue, hkeep, hread]

/-! ### MXCFG (R241) -/

theorem mxcfg_reserves {s : State} {c k : Nat} {w : Warp} (hturn : State.InTurn s c k w) (a : FmtX)
    (hfree : (s.core c).row.freeFor w.graph = true) (hfirst : (s.core c).row.owner = some w.graph ∨ (s.core c).row.resv = some w.graph
      ∨ (s.rowWaiters c).headD w.graph = w.graph)
    (hwords : ∀ v ∈ w.descriptor (Sel.kIndex a.sa), bits v.toNat 8 15 = 0)
    (hroom : ((w.descriptor (Sel.kIndex a.sa)).map (fun v => v.toNat % 256)).foldl (fun m n => m + n) 0
      ≤ bits (s.core c).sramPart.toNat 24 8 * 1024) :
    exec (.mxcfg a) s = .next ((s.setCore c { s.core c with row := { (s.core c).row with
      resv := some w.graph, waiters := delSet (s.core c).row.waiters w.graph } }).issued c k
        { w with taken := w.taken ++ [.rowEngine], acts := w.acts ++ [.mxcfg (w.descriptor (Sel.kIndex a.sa))] }) := by
  have hcheck : ((w.descriptor (Sel.kIndex a.sa)).any (fun x => bits x.toNat 8 15 != 0)
      || decide (bits (s.core c).sramPart.toNat 24 8 * 1024
        < ((w.descriptor (Sel.kIndex a.sa)).map (fun x => x.toNat % 256)).foldl (fun x y => x + y) 0)) = false := by
    rw [Bool.or_eq_false_iff, List.any_eq_false, decide_eq_false_iff_not]
    exact ⟨fun v hv => by simp [hwords v hv], Nat.not_lt.mpr hroom⟩
  dsimp only [exec]
  rw [execMxcfg, withWarp_inTurn hturn]
  dsimp only
  rw [if_neg, if_neg (by rw [hcheck]; decide)]
  · rfl
  · generalize s.rowWaiters c = ws at hfirst ⊢
    cases ws with
    | nil => simp [hfree]
    | cons g t =>
      suffices (s.core c).row.owner ≠ some w.graph → (s.core c).row.resv ≠ some w.graph → g = w.graph by simpa [hfree]
      intro howner hresv
      simpa [howner, hresv] using hfirst

/-- Settles O36: MXCFG reserves; BLDQ's reads are followed through `atIssue`, and its charges are those of `keepReads`. -/
theorem rowConfigurationAndQuarters : Obligations.RowConfigurationAndQuarters := by
  intro s c k w hturn a x q words
  refine ⟨fun ⟨hfree, hfirst⟩ hwords hroom => mxcfg_reserves hturn a hfree hfirst hwords hroom, ?_⟩
  intro ch qs addr aux rd qb sb paths main table load hmay
  have hform : exec (.bldq a) s = execBldq a s := by dsimp only [exec]
  refine ⟨?_, ?_, fun ps hps => keepReads_of_counted hps s c k, ?_, endReads_of_early⟩
  · intro s0 w0 s1 data hcoded hkeep hread
    refine ⟨fun hplain => ?_, fun s2 w2 s3 scales hscaled hkeep2 hread2 => ?_⟩
    · change exec (.bldq a) s = _
      rw [hform, execBldq, rowForm_inTurn hturn, if_pos hmay, if_neg (by rw [hcoded]; decide), atIssue_of_data hkeep hread]
      dsimp only
      rw [if_neg (by rw [hplain]; decide)]
      rfl
    · change exec (.bldq a) s = _
      rw [hform, execBldq, rowForm_inTurn hturn, if_pos hmay, if_neg (by rw [hcoded]; decide), atIssue_of_data hkeep hread]
      dsimp only
      rw [if_pos hscaled]
      exact atIssue_of_data hkeep2 hread2
  · intro s0 w0 s1 tab s2 w2 s3 hcoded hkeep hread blocks ranges hkeep2 hread2 r
    change exec (.bldq a) s = _
    rw [hform, execBldq, rowForm_inTurn hturn, if_pos hmay, if_pos hcoded, atIssue_of_data hkeep hread]
    exact atIssue_of_data hkeep2 hread2
  · intro p ps s1 y s2 w2 hnone hcharge hkeep
    obtain ⟨u, hall, hkept⟩ := keepReads_of_none hnone hkeep
    exact ⟨by rw [hkept, chargeAll_head hcharge hall], by rw [hkept, chargeAll_length hall]; rfl⟩

end Sys2Proof.Machine
end

section
/-! PROOFS. What comes back from memory (R13, R33, R198 to R202, R212, R229, R318, R319): O44. -/
namespace Sys2Proof.Machine

/-! ### Routes do not see what else a die holds (R47, R49, R365) -/

section
variable {s : State} {d : Nat} {x : Die}

theorem carriesData_setDie (h : x.state = (s.die d).state) (e : Nat) : ((s.setDie d x).die e).carriesData = (s.die e).carriesData := by
  by_cases he : e = d
  · rw [he, die_setDie_same, Die.carriesData, Die.carriesData, h]
  · rw [die_setDie_ne _ _ he]

theorem pathUp_setDie (h : x.state = (s.die d).state) (dirs : List Nat) : (s.setDie d x).pathUp dirs = s.pathUp dirs := by
  unfold State.pathUp
  congr 1
  funext n
  rw [State.dirUp, State.dirUp, carriesData_setDie h, carriesData_setDie h]
  rfl

theorem regTab_setDie (h : x.regTab = (s.die d).regTab) (e asid : Nat) : (s.setDie d x).regTab e asid = s.regTab e asid := by
  by_cases he : e = d
  · rw [he, State.regTab, die_setDie_same, h, State.regTab]
  · rw [State.regTab, die_setDie_ne _ _ he, State.regTab]

theorem homeWay_setDie (h : x.state = (s.die d).state) (m : Nat) (dirs : List Nat) : (s.setDie d x).homeWay m dirs = s.homeWay m dirs := by
  rw [State.homeWay, State.homeWay, carriesData_setDie h, carriesData_setDie h]

theorem reqDirs_setDie (h : x.state = (s.die d).state) (hreg : x.regTab = (s.die d).regTab) (r : Req) :
    (s.setDie d x).reqDirs r = s.reqDirs r := by
  have hregion : ∀ e asid va, (s.setDie d x).region e asid va = s.region e asid va := fun e asid va => by
    rw [State.region, State.region, regTab_setDie hreg]
  have hhome : (s.setDie d x).reqHome r = s.reqHome r := by
    rw [State.reqHome, State.reqHome, State.homeOf, State.homeOf, hregion]
  have htrip : ∀ a m, (s.setDie d x).trip a m = s.trip a m := fun a m => homeWay_setDie h m _
  rw [State.reqDirs, State.reqDirs, hhome]
  simp only [htrip]
  rfl

end

/-! ### Page walks (R318, R319) -/

/-- The walk of the current generation that is the only one of its die serves the requests that wait for it. -/
theorem served_of_current {s : State} {d : Nat} {w : Walk} (h : w.tgen = s.tgenOf d w.asid) (l : Option Leaf) :
    s.served d w l [] = w.reqs.filter (s.walker true) := by
  simp [State.served, h]

/-- A walk of an older generation serves the request that it was made for. -/
theorem served_of_old {s : State} {d n : Nat} {w : Walk} {r : Req} (h : w.tgen ≠ s.tgenOf d w.asid) (hreqs : w.reqs = [n])
    (hreq : Map.find? s.reqs n = some r) (hstate : r.state = .walking) (l : Option Leaf) (others : List Walk) :
    s.served d w l others = [n] := by
  simp [State.served, h, hreqs, State.walker, hreq, hstate]

theorem wake_of_find {s : State} {n : Nat} {r : Req} (h : Map.find? s.reqs n = some r) (f : State → Req → State) :
    s.wake n f = f s { r with state := .moving } := by
  simp [State.wake, h]

theorem pageWalkComplete_current {s : State} {d : Nat} {w : Walk} {l : Leaf} (hwalks : (s.die d).walks = [w])
    (hleaf : s.walk w.asid w.va = some l) (htgen : w.tgen = s.tgenOf d w.asid) :
    exec (.pageWalkComplete d 0) s =
      .next ((w.reqs.filter (s.walker true)).foldl (fun a n => a.wake n (fun b r =>
          if b.pathUp (b.reqDirs r) then b.finishReq n r (d - 8) (some l) else { b with reqs := Map.put b.reqs n r }))
        ((s.setDie d { s.die d with walks := [] }).tlbPut (d - 8) w.asid w.va l)) := by
  have hserved := served_of_current htgen (some l)
  have hagain : w.reqs.filter (fun q => s.walker true q && !(w.reqs.filter (s.walker true)).contains q) = [] := by
    rw [List.filter_eq_nil_iff]
    intro q hq
    by_cases hw : s.walker true q <;> simp [hw, hq]
  dsimp only [exec]
  simp only [execPageWalkComplete, hwalks, List.getElem?_cons_zero, hleaf, dropNth, List.eraseIdx_cons_zero, hserved, hagain, htgen,
    List.map_nil, List.filter_nil, List.foldl_nil, if_true]

theorem pageWalkComplete_old {s : State} {d n : Nat} {w : Walk} {r : Req} (hwalks : (s.die d).walks = [w])
    (htgen : w.tgen ≠ s.tgenOf d w.asid) (hreqs : w.reqs = [n]) (hreq : Map.find? s.reqs n = some r) (hstate : r.state = .walking)
    (hup : s.pathUp (s.reqDirs { r with state := .moving }) = true) :
    exec (.pageWalkComplete d 0) s = .next ((s.setDie d { s.die d with walks := [] }).finishReq n { r with state := .moving } (d - 8)
      (s.walk w.asid w.va)) := by
  have hserved := served_of_old htgen hreqs hreq hstate (s.walk w.asid w.va) []
  have hway : ∀ x : Die, x.state = (s.die d).state → x.regTab = (s.die d).regTab →
      (s.setDie d x).pathUp ((s.setDie d x).reqDirs { r with state := .moving }) = true := fun x hx hreg => by
    rw [pathUp_setDie hx, reqDirs_setDie hx hreg, hup]
  have hup' := hway { s.die d with walks := [] } rfl rfl
  have hreq' : Map.find? (s.setDie d { s.die d with walks := [] }).reqs n = some r := hreq
  have hagain : w.reqs.filter (fun q => s.walker true q && !([n] : List Nat).contains q) = [] := by
    rw [hreqs]
    simp
  dsimp only [exec]
  simp only [execPageWalkComplete, hwalks, List.getElem?_cons_zero, dropNth, List.eraseIdx_cons_zero, hserved, hagain, htgen,
    List.map_nil, List.filter_nil, List.foldl_nil, if_false]
  cases s.walk w.asid w.va <;> simp only [List.foldl_cons, List.foldl_nil, wake_of_find hreq', hup', if_true]

/-! ### Loads that return (R33, R212, R214) -/

section
variable {s : State} {c k n : Nat} {w : Warp} {l : PendLoad}

/-- A load with all its bytes, none of whose charges comes too late in this cycle. -/
theorem loadReturn_eq (hw : s.warp? c k = some w) (hl : w.loads[n]? = some l) (hbytes : l.bytes.all Option.isSome = true)
    (hearly : ∀ x ∈ l.charges, s.lateAt (fpCore x.fp) (fpIndex x.fp) = false) :
    exec (.loadReturn c k n) s = .next (if l.poison then (if s.halted (dieOf c) then s else s.takeFault c k w [⟨l.lane, 0x04, l.addr⟩])
      else (s.setWarp c k ({ w with loads := dropNth w.loads n }.setRegs l.lane l.reg l.words
        (ofBytes (l.bytes.map (fun b : Option Byte => b.getD 0))))).dischargeAll l.charges) := by
  have hnone : l.charges.any (fun x => s.lateAt (fpCore x.fp) (fpIndex x.fp)) = false := by
    rw [List.any_eq_false]
    exact fun x hx => by rw [hearly x hx]; decide
  dsimp only [exec]
  simp only [execLoadReturn, hw, hl, hbytes, hnone, Bool.not_true, Bool.false_or, Bool.and_eq_true]
  cases l.poison <;> cases s.halted (dieOf c) <;> rfl

end

/-! ### The end of a charge at a frame without watches and gated entries (R13) -/

theorem evalGates_of_no_matching {s : State} {c i : Nat} {p : Path} {f : Frame} (hframe : s.frame? c i = some f)
    (hentries : ∀ e ∈ f.entries, e.state ≠ .matching) (n j : Nat) : s.evalGates c i p n j = s := by
  induction n generalizing j with
  | zero => rfl
  | succ n ih =>
    unfold State.evalGates
    simp only [hframe]
    cases hentry : f.entries[j]? with
    | none => exact ih (j + 1)
    | some x =>
      have hstate : x.state ≠ .matching := hentries x (List.mem_of_getElem? hentry)
      cases hblock : s.block? f.graph x.block <;>
        simp only [hblock, hstate, decide_false, Bool.false_and, if_false, Bool.false_eq_true] <;> exact ih (j + 1)

theorem storeFrame_of_resident {f : Frame} (h : f.resident = true) (s : State) (c i : Nat) : s.storeFrame c i f = s.setFrame c i f := by
  simp [State.storeFrame, h]

/-- The charge of a resident frame that nothing at it waits for lowers its counter only. -/
theorem discharge_of_quiet {s : State} {x : Charge} {f : Frame} (hframe : s.frame? (fpCore x.fp) (fpIndex x.fp) = some f)
    (hserial : f.serial = x.serial) (hresident : f.resident = true) (hchain : f.chain = [])
    (hentries : ∀ e ∈ f.entries, e.state ≠ .matching) :
    s.discharge x = s.setFrame (fpCore x.fp) (fpIndex x.fp) { f with infl := f.infl.set x.path (f.infl.get x.path - 1) } := by
  have hstore : s.storeFrame (fpCore x.fp) (fpIndex x.fp) { f with infl := f.infl.set x.path (f.infl.get x.path - 1) }
      = s.setFrame (fpCore x.fp) (fpIndex x.fp) { f with infl := f.infl.set x.path (f.infl.get x.path - 1) } :=
    storeFrame_of_resident (f := { f with infl := f.infl.set x.path (f.infl.get x.path - 1) }) hresident ..
  unfold State.discharge
  simp only [hframe]
  rw [if_neg (not_not.mpr hserial), hstore, evalGates_of_no_matching (frame?_setFrame_same ..) (by exact hentries), hchain]
  rfl

theorem inFlightDecrement_early {s : State} {n : Nat} {x : Charge} (hx : s.decrs[n]? = some x)
    (hearly : s.lateAt (fpCore x.fp) (fpIndex x.fp) = false) :
    exec (.inFlightDecrement n) s = .next (State.discharge { s with decrs := dropNth s.decrs n } x) := by
  dsimp only [exec]
  simp [execInFlightDecrement, hx, hearly]

/-! ### Fills (R126, R198, R202) -/

/-- Copies that leave a die leave its generations and views as they are. -/
theorem dropCopies_gen (s : State) (d asid line a q : Nat) : ((s.dropCopies d asid line).die d).gen a q = (s.die d).gen a q := by
  rw [State.dropCopies, die_setDie_same]
  rfl

theorem dropCopies_view (s : State) (d asid line a q : Nat) : ((s.dropCopies d asid line).die d).view a q = (s.die d).view a q := by
  rw [State.dropCopies, die_setDie_same]
  rfl

theorem dropCopies_tgenOf (s : State) (d asid line a : Nat) : (s.dropCopies d asid line).tgenOf d a = s.tgenOf d a := by
  rw [State.tgenOf, State.dropCopies, die_setDie_same]
  rfl

section
variable {s : State} {n : Nat} {f : Fill}

/-- No fill before the k-th is on its way to the same die with the same line. -/
theorem no_fill_before (h : ∀ j g, j < n → s.fills[j]? = some g → g.die = f.die → g.line.asid = f.line.asid → g.line.line ≠ f.line.line) :
    (s.fills.take n).any (fun g => g.die == f.die && g.line.asid == f.line.asid && g.line.line == f.line.line) = false := by
  rw [List.any_eq_false]
  intro g hg
  obtain ⟨j, hj, rfl⟩ := List.getElem_of_mem hg
  rw [List.length_take] at hj
  simp only [Bool.and_eq_true, beq_iff_eq, not_and, and_imp, List.getElem_take]
  exact h j _ (by omega) (List.getElem?_eq_getElem _)

end

/-- Settles O44: each step's equation, its tests settled by the hypotheses. -/
theorem memoryRepliesReturn : Obligations.MemoryRepliesReturn := by
  intro s
  refine ⟨?_, ?_, ?_, ?_, ?_, ?_, ?_, ?_⟩
  · intro d w hwalks s1
    exact ⟨fun l hleaf htgen => pageWalkComplete_current hwalks hleaf htgen,
      fun n r htgen hreqs hreq hstate hup => pageWalkComplete_old hwalks htgen hreqs hreq hstate hup⟩
  · intro c k n w l hw hl hbytes hearly
    have heq := loadReturn_eq hw hl hbytes hearly
    exact ⟨fun hp => by rw [heq, hp]; rfl, fun hp hh => by rw [heq, hp, hh]; rfl, fun hp hh => by rw [heq, hp, hh]; rfl⟩
  · intro n x hx hearly
    refine ⟨inFlightDecrement_early hx hearly, fun f hframe hserial hresident hchain hentries => ?_⟩
    rw [inFlightDecrement_early hx hearly]
    exact congrArg Host.Outcome.next (discharge_of_quiet (s := { s with decrs := dropNth s.decrs n }) hframe hserial hresident hchain hentries)
  · intro n f hf hup hfirst current s1 s2
    have hgen : (s1.die f.die).gen f.line.asid f.line.region = (s.die f.die).gen f.line.asid f.line.region := dropCopies_gen ..
    have hview : (s1.die f.die).view f.line.asid f.line.region = (s.die f.die).view f.line.asid f.line.region := dropCopies_view ..
    have htgen : s1.tgenOf f.die f.line.asid = s.tgenOf f.die f.line.asid := dropCopies_tgenOf ..
    have hstale : (f.line.rgen ≠ (s1.die f.die).gen f.line.asid f.line.region || f.line.tgen ≠ s1.tgenOf f.die f.line.asid
        || f.line.stamp ≠ (s1.die f.die).view f.line.asid f.line.region % 256) = true ↔ ¬ current := by
      rw [hgen, hview, htgen]
      simp only [current, Bool.or_eq_true, decide_eq_true_eq, not_and_or, ne_eq, or_assoc]
    have heq : exec (.cacheFillArrival n) s = if f.line.rgen ≠ (s1.die f.die).gen f.line.asid f.line.region
        || f.line.tgen ≠ s1.tgenOf f.die f.line.asid || f.line.stamp ≠ (s1.die f.die).view f.line.asid f.line.region % 256 then .next s1
        else .next (if f.toRdc && !((s2.die f.die).rdcBusy.any (fun w => w.asid == f.line.asid && w.region == f.line.region))
          then s2.installRdc f.die f.line else s2) := by
      dsimp only [exec]
      simp only [execCacheFillArrival, hf]
      rw [if_neg (by rw [hup, no_fill_before hfirst]; decide)]
    exact ⟨fun hcur => by rw [heq, if_neg (fun h => hstale.mp h hcur)], fun hold => by rw [heq, if_pos (hstale.mpr hold)]⟩
  · intro n v hv hup
    dsimp only [exec]
    simp only [execRoundViewUpdate, hv, hup, Bool.not_true, Bool.false_eq_true, if_false]
    rfl
  · intro n w r hw hdies hreq hup
    have hviews : w.dies.any (fun d => ahead w.round ((s.die d).view w.asid w.region)) = false := by
      rw [List.any_eq_false]
      exact fun d hd => by rw [hdies d hd]; decide
    dsimp only [exec]
    simp only [execRoundaComplete, hw, hviews, Bool.false_eq_true, if_false, hreq, hup, if_true]
  · intro d n w hw
    dsimp only [exec]
    simp only [execGenWrapSweep, hw]
  · intro d n w hw
    dsimp only [exec]
    simp only [execRdcSweepWalker, hw]

end Sys2Proof.Machine
end

section
/-! PROOFS. The matching unit's turn (R14 to R19, R73, R192 to R194): O46. -/
namespace Sys2Proof.Machine

/-! ### When the unit may handle a token (R14, R18, R364) -/

theorem unitFree_of {s : State} {c : Nat} (hrun : s.halted (dieOf c) = false) (hnone : ∀ i, (s.core c).landed ≠ some (i, s.now)) :
    s.unitFree c = true := by
  unfold State.unitFree
  rw [hrun]
  cases hl : (s.core c).landed with
  | none => rfl
  | some p =>
    obtain ⟨i, n⟩ := p
    have hne : n ≠ s.now := fun h => hnone i (by rw [hl, h])
    simp [hne]

theorem mayLand_of {s : State} {c i : Nat} (hfree : s.unitFree c = true) (hown : (s.core c).represent.contains i = false)
    (hothers : ∀ j ∈ (s.core c).represent, s.presentable c j = false) : s.mayLand c i = true := by
  have hany : (s.core c).represent.any (s.presentable c) = false := by
    rw [List.any_eq_false]
    exact fun j hj => by rw [hothers j hj]; decide
  unfold State.mayLand
  rw [hfree, hown, hany]
  rfl

/-! ### What handling a token leaves (R15, R18, R130) -/

/-- A token that is not stray finds its frame. -/
theorem frame_of_landing {s : State} {c : Nat} {t : Token} (h : s.landing c t ≠ .stray) : ∃ f, s.frame? c (fpIndex t.fp) = some f := by
  cases hf : s.frame? c (fpIndex t.fp) with
  | some f => exact ⟨f, rfl⟩
  | none => exact absurd (by simp [State.landing, hf]) h

theorem handleToken_stray {s : State} {c : Nat} {t : Token} (h : s.landing c t = .stray) (log : Bool) :
    s.handleToken c t log = .done ((s.stray c t.fp t.block t.iter t.ident).endCharge t) := by
  simp [State.handleToken, h]

/-- What an address leaves of its core's log, and that it loses no frame. -/
theorem address_keeps (s : State) (c : Nat) (t : Token) : ((s.address c t).core c).logFree = (s.core c).logFree
    ∧ ((s.address c t).core c).logTop = (s.core c).logTop ∧ ((s.address c t).frame? c (fpIndex t.fp)).isSome = (s.frame? c (fpIndex t.fp)).isSome := by
  unfold State.address
  split
  · next f own hf _ =>
    split
    · exact ⟨rfl, rfl, rfl⟩
    · simp [hf]
  · exact ⟨rfl, rfl, rfl⟩

/-- The same of an entry opened by a token that is deferred. -/
theorem openEntry_keeps (s : State) (c i : Nat) (o : Option (Nat × Entry)) : ((s.openEntry c i o).core c).logFree = (s.core c).logFree
    ∧ ((s.openEntry c i o).core c).logTop = (s.core c).logTop ∧ ((s.openEntry c i o).frame? c i).isSome = (s.frame? c i).isSome := by
  unfold State.openEntry
  split
  · next j x f hf =>
    obtain ⟨m, fs, hcore⟩ := storeFrame_core s c i { f with entries := setNth f.entries j x }
    rw [hcore, frame?_storeFrame_same, hf]
    exact ⟨rfl, rfl, rfl⟩
  · exact ⟨rfl, rfl, rfl⟩

/-- A core gives a log record where one is free. -/
theorem takeLog_isSome {k : Core} : k.takeLog.isSome = true ↔ k.logFree ≠ [] ∨ k.logTop < Config.logRecords := by
  unfold Core.takeLog
  cases k.logFree with
  | nil => by_cases h : k.logTop < Config.logRecords <;> simp [h]
  | cons n t => simp

section
variable {s : State} {c : Nat} {t : Token} {o : Option (Nat × Entry)}

/-- The frame and the log of a deferral stand as before its entry was opened. -/
theorem deferral_keeps (h : s.landing c t = .defer o) :
    ((((s.address c t).openEntry c (fpIndex t.fp) o).core c).takeLog.isSome = (s.core c).takeLog.isSome)
    ∧ ∃ f, ((s.address c t).openEntry c (fpIndex t.fp) o).frame? c (fpIndex t.fp) = some f := by
  obtain ⟨f, hf⟩ := frame_of_landing (s := s) (c := c) (t := t) (by rw [h]; exact Landing.noConfusion)
  obtain ⟨hfree, htop, hsome⟩ := address_keeps s c t
  obtain ⟨hfree', htop', hsome'⟩ := openEntry_keeps (s.address c t) c (fpIndex t.fp) o
  refine ⟨?_, Option.isSome_iff_exists.mp (by rw [hsome', hsome, hf]; rfl)⟩
  rw [Bool.eq_iff_iff, takeLog_isSome, takeLog_isSome, hfree', hfree, htop', htop]

/-- A token that is deferred joins its frame's chain where a log record is free (R193). -/
theorem handleToken_defer (h : s.landing c t = .defer o) (hroom : (s.core c).logFree ≠ [] ∨ (s.core c).logTop < Config.logRecords) :
    ∃ u, ((s.address c t).openEntry c (fpIndex t.fp) o).appendChain c (fpIndex t.fp) (fun n => .deferred n t) = some u
      ∧ s.handleToken c t true = .done (u.count c 0x024 0 1) := by
  obtain ⟨hlog, f, hf⟩ := deferral_keeps h
  obtain ⟨p, hp⟩ := Option.isSome_iff_exists.mp (hlog.trans (takeLog_isSome.mpr hroom))
  have happend : ((s.address c t).openEntry c (fpIndex t.fp) o).appendChain c (fpIndex t.fp) (fun n => .deferred n t) = some
      ((((s.address c t).openEntry c (fpIndex t.fp) o).setCore c p.2).setChain c (fpIndex t.fp) (f.chain ++ [.deferred p.1 t])) := by
    simp only [State.appendChain, hp, hf]
  exact ⟨_, happend, by simp only [State.handleToken, h, happend, Bool.not_true, Bool.false_eq_true, if_false]⟩

/-- Without a free log record it waits. -/
theorem handleToken_full (h : s.landing c t = .defer o) (hfree : (s.core c).logFree = []) (htop : Config.logRecords ≤ (s.core c).logTop) :
    s.handleToken c t true = .wait := by
  obtain ⟨hlog, -⟩ := deferral_keeps h
  have hnone : (((s.address c t).openEntry c (fpIndex t.fp) o).core c).takeLog = none := by
    rw [← Option.not_isSome_iff_eq_none, hlog, takeLog_isSome, hfree]
    simpa using htop
  simp only [State.handleToken, h, State.appendChain, hnone, Bool.not_true, Bool.false_eq_true, if_false]

variable {h : Header} {e : Option Nat} {fresh : Bool} {f : Frame} {g : Graph}

/-- A token that lands without an acquire, over a die that sweeps nothing it needs. -/
theorem handleToken_land (hland : s.landing c t = .land h e fresh) (hrel : t.rel ≠ .package)
    (hauto : t.rel = .auto → (s.address c t).sweeping (dieOf c) g.asid t.relWord = false)
    (hf : (s.address c t).frame? c (fpIndex t.fp) = some f) (hg : (s.address c t).graph? f.graph = some g) (log : Bool) :
    s.handleToken c t log = .done (((s.address c t).landAt c t h e fresh).endCharge t) := by
  simp only [State.handleToken, hland, hf, hg, Token.acquires, hrel, decide_false, Bool.false_eq_true, if_false]
  refine if_neg fun hsweep => ?_
  rw [Bool.and_eq_true, decide_eq_true_eq] at hsweep
  rw [hauto hsweep.1] at hsweep
  cases hsweep.2

/-- One of package release lands after its acquire. -/
theorem handleToken_acquire (hland : s.landing c t = .land h e fresh) (hrel : t.rel = .package)
    (hf : (s.address c t).frame? c (fpIndex t.fp) = some f) (hg : (s.address c t).graph? f.graph = some g)
    (hsweep : ((s.address c t).acquire (dieOf c) g.asid t.relWord).sweeping (dieOf c) g.asid t.relWord = false) (log : Bool) :
    s.handleToken c t log = .done ((((s.address c t).acquire (dieOf c) g.asid t.relWord).landAt c t h e fresh).endCharge t) := by
  simp only [State.handleToken, hland, hf, hg, Token.acquires, hrel, decide_true, if_true, hsweep, Bool.false_eq_true, if_false]

end

/-! ### The steps -/

section
variable {s : State} {c k src dst : Nat} {t : Token}

/-- The unit's turn at an arrival: the token leaves its place, and is handled. -/
theorem tokenLand_eq (hmay : s.mayLand c (fpIndex t.fp) = true) (hheld : (s.core c).heldToken = none)
    (hfirst : (s.core c).firstOf k = some ⟨src, dst, .token t⟩) :
    exec (.tokenLand c k) s =
      let s1 := (s.setCore c { s.core c with matchIn := dropNth (s.core c).matchIn k }).markLanded c (fpIndex t.fp)
      if t.bad73 then .next (s1.count c 0x040 0 1)
      else match s1.handleToken c t true with
        | .done s2 => .next s2
        | .wait => .next (s1.setCore c { s1.core c with heldToken := some ⟨src, dst, .token t⟩ })
        | .again s2 t2 => .next (s2.setCore c { s2.core c with
            matchIn := (s2.core c).matchIn.take k ++ [Packet.mk src dst (.token t2)] ++ (s2.core c).matchIn.drop k }) := by
  dsimp only [exec]
  simp only [execTokenLand, hheld, Option.isSome_none, Bool.false_eq_true, if_false, hfirst, hmay, Bool.not_true] <;> rfl

theorem tokenLand_done (hmay : s.mayLand c (fpIndex t.fp) = true) (hheld : (s.core c).heldToken = none)
    (hfirst : (s.core c).firstOf k = some ⟨src, dst, .token t⟩) (hgood : t.bad73 = false) {u : State}
    (hdone : ((s.setCore c { s.core c with matchIn := dropNth (s.core c).matchIn k }).markLanded c (fpIndex t.fp)).handleToken c t true
      = .done u) : exec (.tokenLand c k) s = .next u := by
  rw [tokenLand_eq hmay hheld hfirst]
  dsimp only
  rw [if_neg (by rw [hgood]; decide), hdone]

/-- The turn of the token that waited for a log record. -/
theorem tokenLogWaitResume_done (hmay : s.mayLand c (fpIndex t.fp) = true) (hheld : (s.core c).heldToken = some ⟨src, dst, .token t⟩)
    {u : State} (hdone : ((s.setCore c { s.core c with heldToken := none }).markLanded c (fpIndex t.fp)).handleToken c t true = .done u) :
    exec (.tokenLogWaitResume c) s = .next u := by
  dsimp only [exec]
  simp only [execTokenLogWaitResume, hheld, hmay, Bool.not_true, Bool.false_eq_true, if_false, hdone]

/-- What the log of a core is when a token of it has been taken up. -/
theorem core_markLanded (a : State) (q : Core) (i : Nat) : ((a.setCore c q).markLanded c i).core c = { q with landed := some (i, a.now) } := by
  rw [State.markLanded, core_setCore_same, core_setCore_same]
  rfl

end

section
variable {s : State} {c i n : Nat} {u : Token}

theorem endPass_of_none (h : s.nextDeferred c i = none) :
    s.endPass c i = s.setCore c { s.core c with represent := delSet (s.core c).represent i } := by
  simp [State.endPass, h]

/-- A pass with no token left ends (R18). -/
theorem represent_end (hfree : s.unitFree c = true) (hpass : (s.core c).represent.contains i = true) (hnext : s.nextDeferred c i = none) :
    exec (.deferredTokenRepresent c i) s = .next (s.setCore c { s.core c with represent := delSet (s.core c).represent i }) := by
  dsimp only [exec]
  simp only [execDeferredTokenRepresent, hfree, hpass, hnext, endPass_of_none hnext, Bool.not_true, Bool.or_self, Bool.false_eq_true,
    if_false]

/-- The unit's turn at a deferred token of a frame's pass (R18). -/
theorem represent_eq (hfree : s.unitFree c = true) (hpass : (s.core c).represent.contains i = true)
    (hnext : s.nextDeferred c i = some (n, u)) (hrecord : s.heldRecord c i n = false) :
    exec (.deferredTokenRepresent c i) s = .next (((s.markLanded c i).presentOne c i n u).endPass c i) := by
  dsimp only [exec]
  simp only [execDeferredTokenRepresent, hfree, hpass, hnext, hrecord, Bool.not_true, Bool.or_self, Bool.false_eq_true, if_false]

theorem presentOne_defer {o : Option (Nat × Entry)} (h : s.landing c u = .defer o) :
    s.presentOne c i n u = (s.setCore c { s.core c with presented := insSet (s.core c).presented n }).openEntry c i o := by
  simp only [State.presentOne, h]

theorem presentOne_done (h : ∀ o, s.landing c u ≠ .defer o) {t : State} (hdone : s.handleToken c u false = .done t) {f : Frame}
    (hf : t.frame? c i = some f) : s.presentOne c i n u = (t.setChain c i (swapDeferred n none f.chain)).freeLog c n := by
  unfold State.presentOne
  cases hland : s.landing c u with
  | defer o => exact absurd hland (h o)
  | stray => simp only [hdone, hf]
  | land => simp only [hdone, hf]

end

/-- Settles O46: each turn handles its token, and what handling leaves follows where the token goes. -/
theorem tokensLand : Obligations.TokensLand := by
  intro s c k src dst t q free handled
  have hmay : free → s.mayLand c (fpIndex t.fp) = true := fun ⟨hrun, hnone, hown, hothers⟩ =>
    mayLand_of (unitFree_of hrun hnone) hown hothers
  have hhandled : ∀ (i : Instr) (s1 : State), (s1.core c).logFree = q.logFree → (s1.core c).logTop = q.logTop →
      (∀ u, s1.handleToken c t true = .done u → exec i s = .next u) → handled i s1 := by
    intro i s1 hlogFree hlogTop hdone
    refine ⟨fun hstray => hdone _ (handleToken_stray hstray true), fun o hdefer hroom => ?_, fun h e fresh f g hland hf hg => ⟨?_, ?_, ?_⟩⟩
    · obtain ⟨u, happend, hhandle⟩ := handleToken_defer hdefer (by rw [hlogFree, hlogTop]; exact hroom)
      exact ⟨u, happend, hdone _ hhandle⟩
    · rintro (hrel | hrel) <;>
        exact hdone _ (handleToken_land hland (by rw [hrel]; decide) (fun h => by rw [hrel] at h; cases h) hf hg true)
    · exact fun hrel hsweep => hdone _ (handleToken_land hland (by rw [hrel]; decide) (fun _ => hsweep) hf hg true)
    · exact fun hrel hsweep => hdone _ (handleToken_acquire hland hrel hf hg hsweep true)
  refine ⟨?_, ?_, ?_⟩
  · intro hfree hheld hfirst s1
    have hcore : s1.core c = { q with matchIn := dropNth q.matchIn k, landed := some (fpIndex t.fp, s.now) } := core_markLanded ..
    refine ⟨fun hbad => ?_, fun hgood => hhandled _ s1 (by rw [hcore]) (by rw [hcore]) fun u hdone =>
      tokenLand_done (hmay hfree) hheld hfirst hgood hdone, fun o hgood hdefer hlogFree hlogTop => ?_⟩
    · rw [tokenLand_eq (hmay hfree) hheld hfirst]
      exact if_pos hbad
    · rw [tokenLand_eq (hmay hfree) hheld hfirst]
      dsimp only
      rw [if_neg (by rw [hgood]; decide), handleToken_full hdefer (by rw [hcore]; exact hlogFree) (by rw [hcore]; exact hlogTop)]
  · intro hfree hheld
    have hcore := core_markLanded (c := c) s { q with heldToken := none } (fpIndex t.fp)
    exact hhandled _ _ (by rw [hcore]) (by rw [hcore]) fun u hdone => tokenLogWaitResume_done (hmay hfree) hheld hdone
  · intro i hrun hnone hpass
    have hunit := unitFree_of hrun hnone
    refine ⟨fun hend => represent_end hunit hpass hend, fun n u hnext hrecord => ?_, fun f n u rest hf hchain hpresented => ?_⟩
    · intro s1
      rw [represent_eq hunit hpass hnext hrecord]
      refine ⟨fun o hdefer => ?_, fun s2 f hland hdone hf => by rw [presentOne_done hland hdone hf]⟩
      rw [presentOne_defer hdefer, show ((s.markLanded c i).core c).presented = q.presented by rw [State.markLanded, core_setCore_same]]
    · simp [State.nextDeferred, hf, hchain, show (s.core c).presented = [] from hpresented]

end Sys2Proof.Machine
end

section
/-! PROOFS. Ready instances are recorded, brewed and poured (R22 to R29, R34): O48. -/
namespace Sys2Proof.Machine

/-! ### Recording (R22) -/

theorem length_insertRec (r : CarafeRec) (l : List CarafeRec) : (insertRec r l).length = l.length + 1 := by
  induction l with
  | nil => rfl
  | cons x t ih =>
    unfold insertRec
    split
    · rfl
    · simp [ih]

theorem mem_insertRec (r : CarafeRec) (l : List CarafeRec) : r ∈ insertRec r l := by
  induction l with
  | nil => simp [insertRec]
  | cons x t ih =>
    unfold insertRec
    split
    · simp
    · simp [ih]

/-- A record enters its carafe, which holds one more. -/
theorem addRec_carafe (k : Core) (n g b period now : Nat) (r : CarafeRec) :
    ∃ y, Map.find? (k.addRec n g b period now r).carafes n = some y ∧ r ∈ y.recs
      ∧ y.recs.length = (Map.getD k.carafes n Carafe.free).recs.length + 1 := by
  have hrecs : (Map.getD k.carafes n { Carafe.free with graph := g, block := b }).recs = (Map.getD k.carafes n Carafe.free).recs := by
    unfold Map.getD
    cases Map.find? k.carafes n <;> rfl
  refine ⟨_, Map.find?_put_same .., ?_, ?_⟩
  · exact mem_insertRec ..
  · exact (length_insertRec ..).trans (by rw [hrecs])

theorem startAging_core (s : State) (c g : Nat) : ∃ pr, (s.startAging c g).core c = { s.core c with prios := pr } := by
  unfold State.startAging
  split
  · exact ⟨_, rfl⟩
  · exact ⟨_, core_setCore_same ..⟩

section
variable {s : State} {c i j n : Nat} {f : Frame} {x : Entry} {g : Graph} {b : Block}

/-- The entry of a resident frame is recorded in its block's carafe, where it has room. -/
theorem enterCarafe_recorded (hf : s.frame? c i = some f) (hx : f.entries[j]? = some x) (hres : f.resident = true)
    (hdrain : f.draining = false) (hg : s.graph? f.graph = some g) (hload : g.state = .loaded) (hb : s.block? f.graph x.block = some b)
    (hcar : (s.core c).carafeFor f.graph x.block = some n) (hroom : (Map.getD (s.core c).carafes n Carafe.free).recs.length < 256) :
    s.enterCarafe c i j =
      let s1 := s.setFrame c i { f with entries := setNth f.entries j { x with state := .recorded, held := false } }
      (s1.setCore c ((s1.core c).addRec n f.graph x.block (brewPeriod b.hdr) s.now ⟨i, j, x.iter, x.readyAt, x.order⟩)).startAging c f.graph := by
  have hentry : nthD Entry.empty f.entries j = x := by simp [nthD, hx]
  have hset : s.setEntry c i j (fun e => { e with state := .recorded, held := false })
      = s.setFrame c i { f with entries := setNth f.entries j { x with state := .recorded, held := false } } := by
    rw [setEntry_of_frame hf, hentry]
    exact storeFrame_of_resident (f := { f with entries := setNth f.entries j { x with state := .recorded, held := false } }) hres ..
  have hstay : (!f.resident || f.drained.any (fun x => x % 2 == 1)) = false := by
    rw [hres, show f.drained.any (fun x => x % 2 == 1) = false from hdrain]
    rfl
  unfold State.enterCarafe
  simp only [hf, hentry, hstay, hg, hb, hload, hcar, decide_true, if_true, if_false, Bool.false_eq_true, if_neg (Nat.not_le.mpr hroom), hset]

theorem recordInstance_eq {w : Waiting} (hrun : s.halted (dieOf c) = false)
    (hfind : (s.recordable c).find? (fun w => w.frame == i && w.entry == j) = some w)
    (hfirst : ∀ y ∈ s.recordable c, recordBefore y w = false) (hlanded : (s.core c).landed ≠ some (i, s.now)) :
    exec (.recordInstance c i j) s = .next (s.enterCarafe c i j) := by
  have hany : (s.recordable c).any (fun y => recordBefore y w) = false := by
    rw [List.any_eq_false]
    exact fun y hy => by rw [hfirst y hy]; decide
  have hnow : s.landedNow c i = false := by
    simpa [State.landedNow] using hlanded
  dsimp only [exec]
  simp only [execRecordInstance, hfind, hany, hnow, hrun, Bool.or_self, Bool.false_eq_true, if_false]

/-- What the record of an instance leaves: its entry recorded, its carafe one record longer. -/
theorem enterCarafe_leaves (hf : s.frame? c i = some f) (hx : f.entries[j]? = some x) (hres : f.resident = true)
    (hdrain : f.draining = false) (hg : s.graph? f.graph = some g) (hload : g.state = .loaded) (hb : s.block? f.graph x.block = some b)
    (hcar : (s.core c).carafeFor f.graph x.block = some n) (hroom : (Map.getD (s.core c).carafes n Carafe.free).recs.length < 256) :
    (∃ f' x', (s.enterCarafe c i j).frame? c i = some f' ∧ f'.entries[j]? = some x' ∧ x'.state = .recorded ∧ x'.block = x.block
      ∧ x'.iter = x.iter)
    ∧ ∃ y r, Map.find? ((s.enterCarafe c i j).core c).carafes n = some y ∧ r ∈ y.recs ∧ r.frame = i ∧ r.entry = j ∧ r.age = x.readyAt
        ∧ y.recs.length = (Map.getD (s.core c).carafes n Carafe.free).recs.length + 1 := by
  have heq := enterCarafe_recorded hf hx hres hdrain hg hload hb hcar hroom
  have hlt : j < f.entries.length := (List.getElem?_eq_some_iff.mp hx).1
  dsimp only at heq
  generalize hs1 : s.setFrame c i { f with entries := setNth f.entries j { x with state := .recorded, held := false } } = s1 at heq
  have hframe : s1.frame? c i = some { f with entries := setNth f.entries j { x with state := .recorded, held := false } } := by
    rw [← hs1, frame?_setFrame_same]
  have hcarafes : (s1.core c).carafes = (s.core c).carafes := by
    rw [← hs1, core_setFrame_same]
  obtain ⟨pr, hcore⟩ := startAging_core (s1.setCore c ((s1.core c).addRec n f.graph x.block (brewPeriod b.hdr) s.now
    ⟨i, j, x.iter, x.readyAt, x.order⟩)) c f.graph
  obtain ⟨y, hfind, hmem, hlen⟩ := addRec_carafe (s1.core c) n f.graph x.block (brewPeriod b.hdr) s.now ⟨i, j, x.iter, x.readyAt, x.order⟩
  have hstays : (s.enterCarafe c i j).frame? c i = some { f with entries := setNth f.entries j { x with state := .recorded, held := false } } := by
    rw [heq, frame?_startAging, frame?_setCore_of_frames (by rfl), hframe]
  refine ⟨⟨_, _, hstays, setNth_getElem? hlt _, rfl, rfl, rfl⟩, ⟨y, _, ?_, hmem, rfl, rfl, rfl, by rw [hlen, hcarafes]⟩⟩
  · rw [heq, hcore, core_setCore_same]
    exact hfind

end

/-! ### The pour (R25 to R29) -/

section
variable {s : State} {c n p slot : Nat} {y : Carafe} {b : Block} {g : Graph}

/-- The one eligible carafe is first in order, whether or not it holds the oldest instance. -/
theorem pourOrder_single (old : Option Nat) : [(n, y)].filter (fun q => old == some q.1)
    ++ s.pourOrder c ([(n, y)].filter (fun q => old != some q.1)) = [(n, y)] := by
  by_cases h : old = some n
  · simp [h, State.pourOrder]
  · simp [h, State.pourOrder]

theorem pour_eq (hrun : s.halted (dieOf c) = false) (hpoured : (s.core c).poured ≠ some s.now) (hes : s.eligibles c = [(n, y)])
    (hb : s.block? y.graph y.block = some b)
    (hplace : (s.core c).place (b.hdr.gran + 1) (s.oldestCarafe c [(n, y)] == some n) = some p) :
    exec (.pour c) s = .next ((s.pourOn c n y b p).setCore c { (s.pourOn c n y b p).core c with passed := s.roomStalls c }) := by
  have hgo : (s.halted (dieOf c) || (s.core c).poured == some s.now) = false := by
    simpa [hrun] using hpoured
  have hchoose : s.choosePour c (s.oldestCarafe c [(n, y)]) [(n, y)] = some (n, y, b, p) := by
    simp only [State.choosePour, hb, hplace]
  dsimp only [exec]
  rw [execPour, hgo, if_neg Bool.false_ne_true, hes]
  dsimp only
  rw [pourOrder_single, hchoose]

/-- The core after a pour: the new warp, and the carafe without the records that it took. -/
theorem pourOn_core (hslot : (s.core c).freeSlotOf p = some slot) (hg : s.graph? y.graph = some g) :
    ∃ pr ct, (s.pourOn c n y b p).core c = { s.core c with
      warps := Map.put (s.core c).warps slot (newWarp s.next y b g.consts ((y.recs.take (b.hdr.fill + 1)).map (s.instOf c)) s.now)
      carafes := Map.put (s.core c).carafes n (pouredCarafe y (y.recs.drop (b.hdr.fill + 1)) (brewPeriod b.hdr) s.now)
      poured := some s.now, prios := pr, counters := ct } := by
  unfold State.pourOn
  simp only [hslot, hg]
  exact ⟨_, _, by rw [State.count, core_setCore_same, core_setCore_same]; rfl⟩

theorem pourOn_mem (hslot : (s.core c).freeSlotOf p = some slot) (hg : s.graph? y.graph = some g) : (s.pourOn c n y b p).mem = s.mem := by
  unfold State.pourOn
  simp only [hslot, hg]
  rfl

end

/-- Settles O48: each timer's and each carafe's step by its equation, the record and the pour by what they leave. -/
theorem instancesPour : Obligations.InstancesPour := by
  intro s c hrun k
  refine ⟨?_, ?_, ?_, ?_, ?_, ?_, ?_⟩
  · intro i j w f x g b n hfind hfirst hlanded hf hx hres hdrain hg hload hb hcar hroom
    obtain ⟨hentry, hcarafe⟩ := enterCarafe_leaves hf hx hres hdrain hg hload hb hcar hroom
    exact ⟨_, recordInstance_eq hrun hfind hfirst hlanded, enterCarafe_mem .., hentry, hcarafe⟩
  · intro n y t hy ht hle
    dsimp only [exec]
    simp only [execBrewTimerExpiry, show Map.find? (s.core c).carafes n = some y from hy, ht, hle, hrun, decide_true, Bool.not_false,
      Bool.and_self, if_true]
    rfl
  · intro n y t hy ht hle hempty
    dsimp only [exec]
    simp only [execCarafeLingerExpiry, show Map.find? (s.core c).carafes n = some y from hy, ht, hle, hrun, hempty, List.isEmpty_nil,
      decide_true, Bool.not_false, Bool.and_self, if_true]
    rfl
  · intro g p t hp ht hle hready
    dsimp only [exec]
    simp only [execPriorityAging, show Map.find? (s.core c).prios g = some p from hp, ht, hle, hrun,
      show (s.core c).holdsReady g = true from hready, decide_true, Bool.not_false, Bool.and_self, if_true]
    rfl
  · intro n y t b hy ht hb hlt hne
    have hrecs : y.recs.isEmpty = false := by simpa using hne
    dsimp only [exec]
    simp only [execAgePromotion, show Map.find? (s.core c).carafes n = some y from hy, ht, hb, hlt, hrun, hrecs,
      decide_true, Bool.not_false, Bool.and_self, if_true]
    rfl
  · intro n y b p slot g hpoured hes hb hplace hslot hg
    obtain ⟨pr, ct, hcore⟩ := pourOn_core (n := n) (b := b) hslot hg
    refine ⟨_, pour_eq hrun hpoured hes hb hplace, pourOn_mem hslot hg, ?_, ?_, ?_⟩
    · rw [core_setCore_same, hcore]
    · rw [State.warp?, core_setCore_same, hcore]
      exact Map.find?_put_same ..
    · rw [core_setCore_same, hcore]
      exact Map.find?_put_same ..
  · intro n w t hw hstall hphase hle
    refine ⟨?_, warp?_abort .., abort_mem ..⟩
    dsimp only [exec]
    simp only [execSyncStallTimeout, hw, hstall, hphase, hle, hrun, decide_true, Bool.not_false, Bool.and_self, if_true]

end Sys2Proof.Machine
end

section
/-! PROOFS. A commit that goes on serves first what its slot's earlier commits have asked for, and a service may write memory (R33,
R337, R342, R349): O49 fails. -/
namespace Sys2Proof.Machine

/-- The address of a trace ring's header, homed at stack 0. -/
def ringAt : Nat := 2 ^ 41 + 0x4000

/-- A graph whose trace ring stands there. -/
def ringGraph : Graph := { bareGraph 0 with traceRing := ringAt }

/-- A warp of another graph whose commit has nothing left to send. -/
def endingWarp : Warp := { bareWarp with graph := 7, insts := [], phase := .committing [] [] 5 }

/-- A core with that warp in its slot 0 and a trace word of the first graph in its buffer. -/
def tracingCore : Core := { State.reset.core 0 with warps := [(0, endingWarp)], trace := ⟨[⟨0, 5, true⟩], 0, 0, 0⟩ }

/-- The package where an earlier commit of slot 0 has asked for the unload of that graph, which is still to be served: the ring's
header has 65,536 bytes of length, and its page is in the TLB of its home. -/
def unloadingState : State :=
  { State.reset with
    graphs := [(0, ringGraph)]
    cores := [(0, tracingCore)]
    dies := [(0, { State.reset.die 0 with state := .active, regTab := [(0, [⟨0, 0, 0, 0, false, 0, true, 0⟩])] }),
             (8, { State.reset.die 8 with state := .active, tlb := [⟨0, 2048, 30, 0, 0, 0, true, true, 0⟩] })]
    links := (List.range 44).map (fun n => (n, { LinkDir.reset with up := true }))
    mem := [(0, 64), (8, 64), (18, 1)]
    services := [⟨.gunld, 0, 7, 0, 0, 5, ⟨0, 0, 0, 0, 0, .auto⟩, ⟨0, 0, .l⟩⟩] }

/-- The memory of a next state. -/
def memOf : Host.Outcome State Fault Refusal → Option (List Host.Cell)
  | .next t => some t.mem
  | .fault _ | .refused _ => none

/-- The service drains the trace word to its ring: byte 64 and the header's position are written. -/
theorem unloadingState_resumes :
    memOf (exec (.commitResume 0 0) unloadingState) = some [(0, 72), (8, 64), (18, 1), (64, 5)] := by decide +kernel

/-- Refutes O49: the commit of a warp with nothing left to send goes on behind a GUNLD that its slot's earlier commit has asked for,
and the unload writes a trace word to memory. -/
theorem not_commitsRun : ¬ Obligations.CommitsRun := by
  intro h
  obtain ⟨-, -, -, hends, -⟩ := h unloadingState 0 0 endingWarp rfl
  obtain ⟨t, hnext, -, hmem⟩ := hends 5 rfl rfl rfl (by simp [endingWarp])
  have hwritten := unloadingState_resumes
  rw [hnext] at hwritten
  have hsame : unloadingState.mem = [(0, 72), (8, 64), (18, 1), (64, 5)] := hmem.symm.trans (Option.some.inj hwritten)
  exact absurd hsame (by decide)

end Sys2Proof.Machine
end

section
/-! PROOFS. Launches, fault records, trace bursts and tag generations (R9, R139, R264, R278, R314, R342, R350, R358): O54. -/
namespace Sys2Proof.Machine

/-! ### Requests for frames -/

theorem askFrame_of_up {s : State} {c : Nat} {cr : Creation} (h : s.pathUp (cr.dirs c) = true) :
    s.askFrame c cr = some ((s.countFlits (cr.dirs c) 16).setCore c
      { s.core c with creations := (s.core c).creations ++ [cr] }) := by
  simp [State.askFrame, h, State.countFlits, State.core]

/-! ### Launches -/

@[simp] theorem refill_launches (q : Control) : q.refill.launches = q.launches := rfl

theorem graph?_setLevel_of {s : State} {g p : Nat} {x : Graph} (h : s.graph? g = some x) :
    (s.setLevel g p).graph? g = some { x with level := p } := by
  simp only [State.setLevel, h]
  exact Map.find?_put_same ..

@[simp] theorem setLevel_mem (s : State) (g p : Nat) : (s.setLevel g p).mem = s.mem := by
  simp only [State.setLevel]
  split <;> rfl

@[simp] theorem journalSet_graph? (s : State) (seq : Nat) (f : JRec → JRec) (g : Nat) : (s.journalSet seq f).graph? g = s.graph? g := by
  simp only [State.journalSet]
  split <;> rfl

@[simp] theorem acquire_mem (s : State) (d asid : Nat) (r : RelWord) : (s.acquire d asid r).mem = s.mem :=
  congrArg Prod.fst (acquire_stored s d asid r)

/-- A launch as it starts: its dies have acquired, its graph has one more launch, and its record is marked. -/
def State.launching (s : State) (l : Launch) (g : Graph) : State :=
  (((g.dies.foldl (fun a d => a.acquire d g.asid RelWord.every) s).setGraph l.graph { g with launches := g.launches + 1 }).setLevel
    l.graph (l.settled g).prio).journalSet l.seq (fun r => if l.host then r else { r with state := .started, tStart := s.now })

@[simp] theorem launching_mem (s : State) (l : Launch) (g : Graph) : (s.launching l g).mem = s.mem := by
  have hacq := foldl_keeps State.mem (fun a d => acquire_mem a d g.asid RelWord.every) g.dies s
  rw [State.launching, journalSet_mem, setLevel_mem, setGraph_mem, hacq]

theorem launching_graph? (s : State) (l : Launch) (g : Graph) :
    (s.launching l g).graph? l.graph = some { g with launches := g.launches + 1, level := (l.settled g).prio } :=
  (journalSet_graph? ..).trans (graph?_setLevel_of (graph?_setGraph_same ..))

/-- The entry of a launch is changed. -/
def State.putLaunch (s : State) (n : Nat) (l : Launch) : State :=
  { s with control := { s.control with launches := Map.put s.control.launches n l } }

theorem putLaunch_mem (s : State) (n : Nat) (l : Launch) : (s.putLaunch n l).mem = s.mem := rfl

theorem putLaunch_graph? (s : State) (n : Nat) (l : Launch) (g : Nat) : (s.putLaunch n l).graph? g = s.graph? g := rfl

theorem find?_putLaunch_same (s : State) (n : Nat) (l : Launch) : Map.find? (s.putLaunch n l).control.launches n = some l :=
  Map.find?_put_same ..

theorem launchStart_of_queued {s : State} {n : Nat} {l : Launch} {g : Graph} (hq : s.control.launchQ = [n])
    (hl : Map.find? s.control.launches n = some l) (hqueued : l.queued = true) (hrun : s.control.paused = false)
    (hroom : s.control.launches.length < 16) (hok : s.launchFails l = none) (hg : s.graph? l.graph = some g) :
    exec .launchStart s = .next ((s.launching l g).putLaunch n (l.settled g)) := by
  have hgoing : ¬ 16 ≤ (s.control.launches.filter (fun p => p.2.delivering)).length := by
    have := List.length_filter_le (fun p : Nat × Launch => p.2.delivering) s.control.launches
    omega
  have hexec : exec .launchStart s = execLaunchStart s := rfl
  rw [hexec]
  unfold execLaunchStart
  extract_lets c going
  simp -zeta only [show c.launchQ = [n] from hq, List.find?_cons, show Map.find? c.launches n = some l from hl, hqueued,
    show c.paused = false from hrun, show ¬ 16 ≤ going from hgoing, hok, hg, decide_false, Bool.or_self, Bool.false_eq_true, if_false]
  extract_lets s1 s2 s3
  have hs3 : s3 = s.launching l g := rfl
  clear_value s3
  rw [← hs3]
  rfl

/-- Only one launch is being delivered, so the turn is its. -/
theorem delivering_of_only {s : State} {n : Nat} {l : Launch} {g : Graph} (hl : s.control.launches = [(n, l)])
    (hd : l.delivering = true) (hg : s.graph? l.graph = some g) (hloaded : g.state = .loaded)
    (hquiet : ∀ d ∈ g.dies, s.sweeping d g.asid RelWord.every = false) : s.delivering = [(n, l)] := by
  simpa [State.delivering, hl, hd, hg, hloaded] using hquiet

theorem rootTokenSend_of_only {s : State} {n : Nat} {l : Launch} {g : Graph} {c : Nat} (hdel : s.delivering = [(n, l)])
    (hg : s.graph? l.graph = some g)
    (hc : (s.coresOf l.graph g.entry)[l.next % (s.coresOf l.graph g.entry).length]? = some c)
    (hup : s.pathUp (routeDirs 18 (dieOf c)) = true) :
    ∃ t, exec .rootTokenSend s = .next t ∧ (t.core c).creations = (s.core c).creations ++ [rootCreation g n l.next l]
      ∧ Map.find? t.control.launches n = some { l with next := l.next + 1, live := l.live + 1, delivering := decide (l.next + 1 < l.width) } := by
  have hask := askFrame_of_up (s := s) (c := c) (cr := rootCreation g n l.next l) hup
  have hlast : (!decide (l.width ≤ l.next + 1)) = decide (l.next + 1 < l.width) := by
    rw [← decide_not, decide_eq_decide]
    exact Nat.not_le
  have hexec : exec .rootTokenSend s = execRootTokenSend s := rfl
  rw [hexec]
  by_cases hturn : s.control.turn < n
  all_goals
    simp only [execRootTokenSend, hdel, List.find?_cons, List.find?_nil, List.head?_cons, hturn, decide_true, decide_false, hg, hc, hask, hlast]
    refine ⟨_, rfl, congrArg Core.creations (core_setCore_same ..), ?_⟩
    split <;> exact Map.find?_put_same ..

theorem launchComplete_of_done {s : State} {n : Nat} {l : Launch} {g : Graph} (hl : Map.find? s.control.launches n = some l)
    (hdone : s.launchDone n l = true) (hg : s.graph? l.graph = some g) (hclean : ∀ k ∈ s.cores, k.2.dirtyOf l.graph = []) :
    exec (.launchComplete n) s =
      .next ((State.endLaunch (s.setGraph l.graph { g with launches := g.launches - 1 }) n l 0).lastLaunch l.graph) := by
  have hno : s.cores.any (fun k => !(k.2.dirtyOf l.graph).isEmpty) = false := by
    simp only [List.any_eq_false]
    intro k hk
    simp [hclean k hk]
  have hexec : exec (.launchComplete n) s = execLaunchComplete n s := rfl
  simp [hexec, execLaunchComplete, hl, hdone, hno, hg]

/-! ### Fault records -/

theorem faultRecordDelivery_of_trap {s : State} {r : FaultRec} {rest : List FaultRec} {sg blk : Nat} {sup : Graph} {y : Block}
    {c : Nat} {cs : List Nat} (hq : s.control.recQueue = r :: rest) (hroom : s.control.openRecs.length < 65536)
    (htrap : s.trapOf r.graph = some (sg, blk)) (hsup : s.graph? sg = some sup) (hy : s.block? sg blk = some y)
    (hc : s.coresOf sg blk = c :: cs) (hup : s.pathUp (routeDirs 18 (dieOf c)) = true) :
    let r' : FaultRec := { r with serial := s.control.recSerial
                                  aux := if r.kind = 1 then min (2 ^ 32 - 1) (s.parkedOf r).length else r.aux }
    ∃ t, exec .faultRecordDelivery s = .next t ∧ t.control.recQueue = rest ∧ t.control.recSerial = (s.control.recSerial + 1) % 2 ^ 24
      ∧ t.control.openRecs = (if r.kind < 2 then s.control.openRecs ++ [r'] else s.control.openRecs)
      ∧ (t.core c).creations = (s.core c).creations ++ [trapCreation sup sg blk y.hdr.ibase r'] := by
  intro r'
  have hroom' : (decide (r.kind < 2) && decide (65536 ≤ s.control.openRecs.length)) = false := by
    simp [Nat.not_le.mpr hroom]
  have hask (q : Control) := askFrame_of_up (s := { s with control := q }) (c := c) (cr := trapCreation sup sg blk y.hdr.ibase r') hup
  have hexec : exec .faultRecordDelivery s = execFaultRecordDelivery s := rfl
  rw [hexec]
  simp only [execFaultRecordDelivery, hq, hroom', htrap, hsup, hy, hc]
  rw [hask]
  exact ⟨_, rfl, rfl, rfl, rfl, congrArg Core.creations (core_setCore_same ..)⟩

/-! ### Trace bursts -/

theorem traceDrain_of_room {s s1 s2 s3 : State} {c n lost : Nat} {v : TraceWord} {more : List TraceWord} {x : Graph} {b : List Byte}
    {bad : List Nat} (hbuf : (s.core c).trace.buf = v :: more) (hx : s.graph? v.graph = some x) (hring : x.traceRing ≠ 0)
    (hread : s.ctlRead v.graph x.asid x.identity x.traceRing 24 = .data s1 b bad)
    (hwords : (s.core c).trace.burst v.graph n ≠ [])
    (hroom : ((leAt b 0 8 - 64) / 8 + (leAt b 16 8 - 64) / 8 - (leAt b 8 8 - 64) / 8 % ((leAt b 16 8 - 64) / 8)) % ((leAt b 16 8 - 64) / 8)
      + ((s.core c).trace.burst v.graph n).length < (leAt b 16 8 - 64) / 8)
    (hsent : s1.traceWords v.graph x (leAt b 16 8) false ((leAt b 0 8 - 64) / 8) 0 ((s.core c).trace.burst v.graph n) = (s2, some lost))
    (hhead : s2.ctlWrite v.graph x.asid x.identity x.traceRing
      (toBytes 8 (64 + 8 * (((leAt b 0 8 - 64) / 8 + ((s.core c).trace.burst v.graph n).length) % ((leAt b 16 8 - 64) / 8)))) none = .done s3) :
    exec (.traceDrain c n) s = .next (s3.burstDone c v.graph ((s.core c).trace.burst v.graph n).length lost) := by
  have hlen : ((s.core c).trace.burst v.graph n).length ≠ 0 := by simpa using hwords
  have hexec : exec (.traceDrain c n) s = .next (s.drainNext c n) := rfl
  rw [hexec]
  simp only [State.drainNext, hbuf, State.drainTrace, hx, hlen, hring, hread, if_false, Nat.not_le.mpr hroom, hsent, hhead]

theorem resume_of_room {t : Trace} (g c now : Nat) (hlost : t.lost ≠ 0) (hroom : t.buf.length + 3 ≤ 1024) :
    (t.resume g c now).lost = 0 ∧ (t.resume g c now).buf.length = t.buf.length + 3 := by
  simp [Trace.resume, hlost, Nat.not_lt.mpr hroom, Trace.sync]

theorem traceLoss_of_traced {s : State} {c g : Nat} {x : Graph} (hg : s.graphs = [(g, x)]) (ht : x.tracing = true)
    (hx : x.cores.contains c = true) (hlost : (s.core c).trace.lost ≠ 0) (hroom : (s.core c).trace.buf.length + 3 ≤ 1024) :
    ∃ t, exec (.traceLoss c) s = .next t ∧ (t.core c).trace.lost = 0
      ∧ (t.core c).trace.buf.length = (s.core c).trace.buf.length + 3 := by
  have hexec : exec (.traceLoss c) s = .next (s.setCore c { s.core c with trace := (s.core c).trace.resume g c s.now }) := by
    have hx' : c ∈ x.cores := by simpa using hx
    show execTraceLoss c s = _
    simp [execTraceLoss, hg, Graph.traces, ht, hx']
  obtain ⟨hl, hb⟩ := resume_of_room g c s.now hlost hroom
  refine ⟨_, hexec, ?_, ?_⟩
  · simpa using hl
  · simpa using hb

/-! ### Tag generations -/

@[simp] theorem tgenOf_takeUp_same (s : State) (asid gen : Nat) (tab : List Region) (d : Nat) :
    (s.takeUp asid gen tab d).tgenOf d asid = gen := by
  simp [State.takeUp, State.tgenOf]

theorem tgenTakeUp_of_more {s : State} {k d : Nat} {y : SysReply} (hy : s.sysReplies[k]? = some y) (hd : y.dies.contains d = true)
    (hfirst : (s.sysReplies.take k).any (fun z => z.asid == y.asid && z.dies.contains d) = false) (hgen : y.gen ≠ 0)
    (hleft : delSet y.dies d ≠ []) :
    ∃ t, exec (.tgenTakeUp d k) s = .next t ∧ t.tgenOf d y.asid = y.gen
      ∧ t.sysReplies = setNth s.sysReplies k { y with dies := delSet y.dies d } := by
  have hexec : exec (.tgenTakeUp d k) s = execTgenTakeUp d k s := rfl
  rw [hexec]
  simp only [execTgenTakeUp, hy, hd, hfirst, hgen, List.isEmpty_eq_false_iff.mpr hleft, Bool.not_true, Bool.false_or, if_false]
  exact ⟨_, rfl, tgenOf_takeUp_same .., rfl⟩

/-- Settles O54: a lemma for each step, of what it does where nothing holds it back. -/
theorem launchesRun : Obligations.LaunchesRun := by
  intro s
  refine ⟨?_, ?_, ?_, ?_, ?_, ?_, ?_⟩
  · intro n l g hq hl hqueued hrun hroom hok hg
    exact ⟨_, launchStart_of_queued hq hl hqueued hrun hroom hok hg, find?_putLaunch_same ..,
      (putLaunch_mem ..).trans (launching_mem s l g), _, (putLaunch_graph? ..).trans (launching_graph? s l g), rfl⟩
  · intro n l g c hl hd hg hloaded hquiet hc hup
    exact rootTokenSend_of_only (delivering_of_only hl hd hg hloaded hquiet) hg hc hup
  · intro n l g hl hdone hg hclean
    exact launchComplete_of_done hl hdone hg hclean
  · intro r rest sg blk sup y c cs hq hroom htrap hsup hy hc hup
    exact faultRecordDelivery_of_trap hq hroom htrap hsup hy hc hup
  · intro c n v more x s1 b bad s2 lost s3 hbuf hx hring hread words len m pos hwords hroom hsent hhead
    exact traceDrain_of_room hbuf hx hring hread hwords hroom hsent hhead
  · intro c g x hg ht hx hlost hroom
    exact traceLoss_of_traced hg ht hx hlost hroom
  · intro k y d hy hd hfirst hgen hleft
    exact tgenTakeUp_of_more hy hd hfirst hgen hleft

end Sys2Proof.Machine
end

section
/-! PROOFS. The life of a frame and of a task entry (R11, R36, R37, R39, R191, R270, R288, R361): O51. -/
namespace Sys2Proof.Machine

/-! ### Memory, the frames of a core, and the frames asked of it -/

/-- Memory, the frames of a core, and the creations that it still has to make: what tokens on their way leave alone. -/
def State.lives (s : State) (c : Nat) : List Host.Cell × Map Frame × List Creation := (s.mem, (s.core c).frames, (s.core c).creations)

theorem lives_of_cores {s t : State} (hmem : t.mem = s.mem) (hcores : t.cores = s.cores) (d : Nat) : t.lives d = s.lives d := by
  simp only [State.lives, State.core, hmem, hcores]

theorem lives_setCore {s : State} {c : Nat} {q : Core} (hf : q.frames = (s.core c).frames) (ha : q.creations = (s.core c).creations)
    (d : Nat) : (s.setCore c q).lives d = s.lives d := by
  by_cases hd : d = c
  · subst hd
    simp [State.lives, hf, ha]
  · simp [State.lives, core_setCore_ne _ _ hd]

@[simp] theorem lives_inject (s : State) (c : Nat) (p : Packet) (d : Nat) : (s.inject c p).lives d = s.lives d :=
  lives_setCore (q := { s.core c with inject := (s.core c).inject ++ [p] }) rfl rfl d

@[simp] theorem lives_sendToken (s : State) (c : Nat) (t : Token) (d : Nat) : (s.sendToken c t).lives d = s.lives d :=
  lives_inject ..

@[simp] theorem lives_arrive (s : State) (p : Packet) (d : Nat) : (s.arrive p).lives d = s.lives d := by
  unfold State.arrive
  split
  · unfold State.sendOff
    split <;> rfl
  all_goals exact lives_setCore (q := { s.core p.dst with matchIn := (s.core p.dst).matchIn ++ [p] }) rfl rfl d

theorem grantCrossings_cores (l : List Crossing) (s : State) : (grantCrossings l s).cores = s.cores := by
  induction l generalizing s with
  | nil => rfl
  | cons x t ih =>
    simp only [grantCrossings]
    split <;> rw [ih] <;> rfl

theorem lives_grantCrossings (l : List Crossing) (s : State) (d : Nat) : (grantCrossings l s).lives d = s.lives d :=
  lives_of_cores (grantCrossings_mem l s) (grantCrossings_cores l s) d

@[simp] theorem lives_sendFrom (s : State) (e : Nat) (t : Token) (d : Nat) : (s.sendFrom e t).lives d = s.lives d := by
  unfold State.sendFrom State.launchPkt
  split
  · exact lives_arrive ..
  · exact lives_grantCrossings ..

@[simp] theorem lives_retireCommit (s : State) (cid d : Nat) : (s.retireCommit cid).lives d = s.lives d := by
  unfold State.retireCommit
  split
  · rfl
  · split <;> rfl

@[simp] theorem lives_sendEntry (s : State) (c n : Nat) (t : Token) (d : Nat) : (s.sendEntry c n t).lives d = s.lives d := by
  have hdrop := lives_setCore (s := s) (c := c)
    (q := { s.core c with tasks := (s.core c).tasks.filter (fun x => x.id != n) }) rfl rfl d
  simp only [State.sendEntry]
  split <;> simp only [lives_retireCommit, lives_sendToken, hdrop]

/-- What follows a creation sends tokens: it makes no frame and asks for none. -/
@[simp] theorem lives_created (s : State) (c : Nat) (cr : Creation) (fp ident d : Nat) :
    (s.created c cr fp ident).lives d = s.lives d := by
  have hfold (l : List Token) : (l.foldl (fun a t => a.sendFrom 18 { t with fp := fp }) s).lives d = s.lives d :=
    foldl_keeps (fun a => State.lives a d) (fun a t => lives_sendFrom a 18 _ d) l s
  unfold State.created
  split
  · exact hfold _
  · exact hfold _
  · simp
  · dsimp only
    split
    · rfl
    · split
      · simp
      · split
        · simp
        · split
          · simp
          · split
            · simp
            · rfl

@[simp] theorem created_mem (s : State) (c : Nat) (cr : Creation) (fp ident : Nat) : (s.created c cr fp ident).mem = s.mem :=
  congrArg Prod.fst (lives_created s c cr fp ident c)

@[simp] theorem clearImage_mem (s : State) (c i : Nat) (f : Frame) : (s.clearImage c i f).mem = s.mem := by
  have hwrite (b : Bool) : (if b then s.writeImage c i [] f else s).mem = s.mem := by
    cases b <;> simp
  exact hwrite _

/-! ### Creation -/

theorem frameCreate_of_run {s : State} {c : Nat} {cr : Creation} {rest : List Creation} {i : Nat}
    (hcr : (s.core c).creations = cr :: rest) (hi : (s.core c).freeRun (frameBlocks cr.slotblk) = some i)
    (hup : s.pathUp (cr.answerDirs c) = true) :
    ∃ t, exec (.frameCreate c) s = .next t ∧ (t.core c).creations = rest ∧ t.mem = s.mem
      ∧ t.frame? c i = some (newFrame cr s.now (match s.graph? cr.graph with | some g => g.identity | none => 0)
          (decide ((s.core c).residentBlocks + frameBlocks cr.slotblk ≤ (s.core c).frameRoom))) := by
  have hexec : exec (.frameCreate c) s = execFrameCreate c s := rfl
  rw [hexec]
  simp only [execFrameCreate, hcr, hi, hup, Bool.not_true, Bool.false_eq_true, if_false]
  have hmade (a : State) (q : Core) (fp ident : Nat) : ((a.setCore c q).created c cr fp ident).lives c = (a.mem, q.frames, q.creations) := by
    rw [lives_created, State.lives, core_setCore_same]
    rfl
  refine ⟨_, rfl, congrArg (fun x : List Host.Cell × Map Frame × List Creation => x.2.2) (hmade ..), ?_, ?_⟩
  · exact (created_mem ..).trans (clearImage_mem ..)
  · exact (congrArg (fun x : List Host.Cell × Map Frame × List Creation => x.2.1.find? i) (hmade ..)).trans (Map.find?_put_same ..)

/-! ### Residency -/

theorem nextIn_of_first {s : State} {c i : Nat} {f : Frame} {g : Graph} (hwants : f.wants = true) (hg : s.graph? f.graph = some g)
    (hloaded : g.state = .loaded) (hstill : f.moving = false) (hbusy : s.imageBusy c i f = false)
    (hfirst : ∀ p ∈ (s.core c).frames, p.2.wants = true → createdBefore p (i, f) = false) : s.nextIn c i f = true := by
  unfold State.nextIn
  simp only [hwants, hg, hloaded, hstill, hbusy, decide_true, Bool.not_false, Bool.and_self, Bool.true_and, Bool.not_eq_true',
    List.any_eq_false, Bool.and_eq_true, not_and, and_imp, Bool.not_eq_true]
  intro p hp hpw _
  exact hfirst p hp hpw

theorem frameBringIn_of_room {s s1 : State} {c i : Nat} {f : Frame} (hf : s.frame? c i = some f) (hnext : s.nextIn c i f = true)
    (hnow : s.landedNow c i = false) (hrun : s.halted (dieOf c) = false) (hroom : s.makeRoom c (frameBlocks f.slotblk) 16385 = some s1) :
    exec (.frameBringIn c i) s =
      .next ((s1.setFrame c i { f with resident := true, broughtAt := s.now, drained := [], addressed := false }).count c 0x026 0 1) := by
  dsimp only [exec]
  simp only [execFrameBringIn, hf, hnext, hnow, hrun, hroom, Bool.not_true, Bool.or_self, Bool.false_eq_true, if_false]

theorem makeRoom_of_room {s : State} {c n : Nat} (h : (s.core c).residentBlocks + n ≤ (s.core c).frameRoom) (fuel : Nat) :
    s.makeRoom c n (fuel + 1) = some s := by
  simp only [State.makeRoom, h, if_true]

/-! ### Closing, release and retirement -/

theorem closeFrame_of_frame {s : State} {c i : Nat} {f : Frame} (h : s.frame? c i = some f) :
    s.closeFrame c i = s.storeFrame c i { f with closing := true } := by
  rw [State.closeFrame, h]

theorem freeRequest_eq {s : State} {c k src dst fp ident : Nat} {f : Frame} {g : Graph}
    (hfirst : (s.core c).firstOf k = some ⟨src, dst, .free fp ident⟩) (hf : s.frame? c (fpIndex fp) = some f)
    (hg : s.graph? f.graph = some g) (hrun : s.halted (dieOf c) = false) (hnow : s.landedNow c (fpIndex fp) = false) :
    let s1 := s.setCore c { s.core c with matchIn := dropNth (s.core c).matchIn k }
    exec (.freeRequest c k) s = .next (if f.closing = false ∧ g.identity = ident then
      s1.storeFrame c (fpIndex fp) { f with closing := true } else s1.stray c fp 0 0 ident) := by
  intro s1
  have hf1 (q : Core) (hq : q.frames = (s.core c).frames) : (s.setCore c q).frame? c (fpIndex fp) = some f :=
    (frame?_setCore_of_frames hq c (fpIndex fp)).trans hf
  have hg1 (q : Core) : (s.setCore c q).graph? f.graph = some g := hg
  have hcond : (!f.closing && g.identity == ident) = true ↔ f.closing = false ∧ g.identity = ident := by
    simp
  have hclose : s1.closeFrame c (fpIndex fp) = s1.storeFrame c (fpIndex fp) { f with closing := true } :=
    closeFrame_of_frame (hf1 { s.core c with matchIn := dropNth (s.core c).matchIn k } rfl)
  dsimp only [exec]
  simp only [execFreeRequest, hfirst, hrun, hnow, Bool.or_self, Bool.false_eq_true, if_false, hf1, hg1, hcond]
  exact congrArg (fun x => Host.Outcome.next (if f.closing = false ∧ g.identity = ident then x else s1.stray c fp 0 0 ident)) hclose

theorem retire_core (s : State) (c : Nat) (f : Frame) (p : DWord) (d : Nat) : (s.retire c f p).core d = s.core d := by
  unfold State.retire State.rootRetired
  split
  · split
    · rfl
    · split <;> rfl
  · rfl

theorem frame?_releaseFrame_self (s : State) (c i : Nat) (f : Frame) : (s.releaseFrame c i f).frame? c i = none := by
  simp only [State.releaseFrame]
  split
  · rw [State.frame?, retire_core, core_setCore_same]
    exact Map.find?_del_same ..
  · rw [State.frame?, core_setCore_same]
    exact Map.find?_del_same ..

theorem frameRelease_of_closing {s : State} {c i : Nat} {f : Frame} (hf : s.frame? c i = some f) (hclosing : f.closing = true)
    (hidle : f.busy = false) (hstill : f.moving = false) (hnow : s.landedNow c i = false) :
    exec (.frameRelease c i) s = .next (s.releaseFrame c i f) := by
  dsimp only [exec]
  simp [execFrameRelease, hf, hclosing, hidle, hstill, hnow]

theorem childRetirement_of_parent {s : State} {c k fp src : Nat} {serial : DWord} {f : Frame}
    (hmsg : s.retires[k]? = some (fp, serial, src)) (hup : s.pathUp (routeDirs (dieOf src) (dieOf c)) = true) (hc : fpCore fp = c)
    (hf : s.frame? c (fpIndex fp) = some f) (hserial : f.serial = serial) (hearly : s.lateAt c (fpIndex fp) = false) :
    let s1 := State.storeFrame (State.countFlits { s with retires := dropNth s.retires k } (routeDirs (dieOf src) (dieOf c)) 16)
      c (fpIndex fp) { f with join := f.join - 1 }
    exec (.childRetirement k) s = .next (if f.join = 1 then s1.runWatches c (fpIndex fp) none f.chain else s1) := by
  intro s1
  subst hc hserial
  have hf1 : (State.countFlits { s with retires := dropNth s.retires k } (routeDirs (dieOf src) (dieOf (fpCore fp))) 16).frame?
      (fpCore fp) (fpIndex fp) = some f := hf
  dsimp only [exec]
  simp only [execChildRetirement, hmsg, hf1, hup, hearly, decide_true, Bool.not_true, Bool.false_eq_true, if_false]
  rfl

/-! ### Task entries -/

theorem taskDispatch_first {s : State} {c : Nat} {e : TaskEntry} {rest : List TaskEntry} (htasks : (s.core c).tasks = e :: rest)
    (hasked : e.asked = false) (hup : s.pathUp (routeDirs (dieOf (fpCore e.parent)) (dieOf e.target)) = true) :
    let s1 := (s.setCore c { s.core c with tasks := { e with asked := true } :: rest }).countFlits
      (routeDirs (dieOf (fpCore e.parent)) (dieOf e.target)) 16
    exec (.taskDispatch c) s = .next (s1.setCore e.target { s1.core e.target with creations := (s1.core e.target).creations ++
      [{ what := .spawn e.id, graph := e.graph, slotblk := e.slotblk, serial := serialMix e.parentSerial e.ordinal, parent := e.parent,
         depth := e.depth + 1, prio := e.prio, ordinal := e.ordinal, launch := e.launch, tokens := [] }] }) := by
  intro s1
  have hask := askFrame_of_up (s := s.setCore c { s.core c with tasks := { e with asked := true } :: rest }) (c := e.target)
    (cr := { what := .spawn e.id, graph := e.graph, slotblk := e.slotblk, serial := serialMix e.parentSerial e.ordinal, parent := e.parent,
             depth := e.depth + 1, prio := e.prio, ordinal := e.ordinal, launch := e.launch, tokens := [] }) hup
  dsimp only [exec]
  simp only [execTaskDispatch, htasks, findIdx, List.zipIdx_cons, List.find?_cons, hasked, hup, List.take_zero, List.any_nil,
    Bool.not_false, Bool.and_self, Option.map_some, setNth, List.set_cons_zero]
  rw [hask]
  rfl

theorem spillDrain_of_room {s : State} {c g h : Nat} {x : Graph} {e : TaskEntry} {b : Bool} {rest : List (TaskEntry × Bool)}
    (hspill : s.spill g c = ⟨h, (e, b) :: rest⟩) (hg : s.graph? g = some x) (hloaded : x.state = .loaded)
    (hroom : (s.core c).tasks.length + (s.core c).taskResv ≤ 256)
    (hdone : ∀ p ∈ s.reqs, p.2.hw = true → p.2.core = c → p.2.graph = g → p.2.va ≠ spillAddr x c h) :
    exec (.spillDrain c g) s = .next ((s.setSpill g c ⟨h + 1, rest⟩).setCore c { s.core c with tasks := (s.core c).tasks ++ [e] }) := by
  have hplaces : ¬ 512 - (s.core c).tasks.length - (s.core c).taskResv < 256 := by omega
  have hheld : s.reqs.any (fun p => p.2.hw && p.2.core == c && p.2.graph == g && p.2.va == spillAddr x c h) = false := by
    simp only [List.any_eq_false, Bool.and_eq_true, beq_iff_eq, not_and, and_imp]
    exact hdone
  dsimp only [exec]
  simp [execSpillDrain, hspill, hg, hloaded, hplaces, hheld]

/-! ### Drains -/

theorem drainLimitExpiry_of_due {s : State} {c i : Nat} {f g : Frame} {o : Outstanding} (hf : s.frame? c i = some f)
    (hnone : f.drained = []) (hout : s.outstanding c i f = [o])
    (hdue : max o.since f.broughtAt + s.drainLimit * Config.cyclesPerUs ≤ s.now) (hrun : s.halted (dieOf c) = false)
    (hnow : s.landedNow c i = false) (hidle : ∀ p ∈ (s.core c).warps, ∀ x ∈ p.2.insts, x.frame ≠ i)
    (hg : (s.withdraw c i o.mark f).frame? c i = some g) :
    exec (.drainLimitExpiry c i) s = .next ((s.withdraw c i o.mark f).drained c i g o.mark) := by
  have hwarps : (s.core c).warps.any (fun p => p.2.insts.any (fun x => x.frame == i)) = false := by
    simp only [List.any_eq_false, List.any_eq_true, beq_iff_eq, not_exists, not_and]
    exact hidle
  dsimp only [exec]
  simp only [execDrainLimitExpiry, hf, hnone, hout, hwarps, List.find?_nil, List.find?_cons, hdue, decide_true, List.any_nil, Bool.not_false,
    Bool.and_self, hrun, hnow, Bool.or_self, Bool.false_eq_true, if_false, hg]

theorem frame?_withdraw_self (s : State) (c i m : Nat) (f : Frame) :
    ∃ es, (s.withdraw c i m f).frame? c i = some { f with entries := es, drained := f.drained ++ [m] } :=
  ⟨_, frame?_storeFrame_same ..⟩

/-- No carafe of a core holds a record of a frame any more. -/
def State.unrecorded (s : State) (c i : Nat) : Prop := ∀ x ∈ (s.core c).carafes, ∀ r ∈ x.2.recs, r.frame ≠ i

theorem unrecorded_of_carafes {s t : State} {c : Nat} (h : (t.core c).carafes = (s.core c).carafes) {i : Nat} (hs : s.unrecorded c i) :
    t.unrecorded c i := by
  unfold State.unrecorded
  rw [h]
  exact hs

theorem unrecorded_keepRecs (s : State) (c i : Nat) : (s.keepRecs c (fun r => r.frame != i)).unrecorded c i := by
  intro x hx r hr
  simp only [State.keepRecs, core_setCore_same, List.mem_map] at hx
  obtain ⟨y, _, rfl⟩ := hx
  dsimp only at hr
  split at hr
  · exact absurd hr List.not_mem_nil
  · simpa using (List.mem_filter.mp hr).2

theorem carafes_storeFrame (s : State) (c i : Nat) (f : Frame) : ((s.storeFrame c i f).core c).carafes = (s.core c).carafes := by
  obtain ⟨m, fs, h⟩ := storeFrame_core s c i f
  rw [h]

theorem carafes_report (s : State) (c : Nat) (r : FaultRec) : ((s.report c r).core c).carafes = (s.core c).carafes := by
  unfold State.report
  split
  · rw [State.count, core_setCore_same]
    rfl
  · rfl

theorem evict_core (s : State) (c i : Nat) (f : Frame) : ∃ m, (s.evict c i f).core c = Core.count { s.core c with
      frames := Map.put (s.core c).frames i { f with resident := false, moving := (s.graph? f.graph).isSome }
      memQueue := m } 0x025 0 1 := by
  obtain ⟨m, hm⟩ := (sent_writeImage (s.setFrame c i { f with resident := false, moving := (s.graph? f.graph).isSome }) c i [] f).2 c
  refine ⟨m, ?_⟩
  rw [State.evict, State.count, core_setCore_same, hm, core_setFrame_same]

theorem unrecorded_drained {s : State} {c i : Nat} (h : s.unrecorded c i) (f : Frame) (m : Nat) : (s.drained c i f m).unrecorded c i := by
  refine unrecorded_of_carafes ?_ h
  simp only [State.drained]
  obtain ⟨q, hq⟩ := evict_core s c i { f with drained := (f.drained.filter (fun x => x != m)) ++ [m - 1] }
  rw [carafes_report, hq]
  rfl

theorem frame?_drained_self (s : State) (c i : Nat) (f : Frame) (m : Nat) :
    ∃ f', (s.drained c i f m).frame? c i = some f' ∧ f'.resident = false := by
  obtain ⟨q, hq⟩ := evict_core s c i { f with drained := (f.drained.filter (fun x => x != m)) ++ [m - 1] }
  have hout := (congrArg (fun k : Core => k.frames.find? i) hq).trans (Map.find?_put_same ..)
  exact ⟨_, (frame?_report ..).trans hout, rfl⟩

/-- Settles O51: a lemma for each step of a frame's life, and of a task entry's. -/
theorem framesLive : Obligations.FramesLive := by
  intro s c q
  refine ⟨?_, ?_, ?_, ?_, ?_, ?_, ?_, ?_⟩
  · intro cr rest i hcr hi hup
    exact frameCreate_of_run hcr hi hup
  · intro i f g hf hwants hg hloaded hstill hbusy hnow hrun hfirst here
    have hnext := nextIn_of_first hwants hg hloaded hstill hbusy hfirst
    refine ⟨fun hroom => ?_, fun s1 hroom => ?_⟩
    · exact frameBringIn_of_room hf hnext hnow hrun (makeRoom_of_room hroom 16384)
    · exact frameBringIn_of_room hf hnext hnow hrun hroom
  · intro k src dst fp ident f g hfirst hf hg hrun hnow
    exact freeRequest_eq hfirst hf hg hrun hnow
  · intro i f hf hclosing hidle hstill hnow
    exact ⟨_, frameRelease_of_closing hf hclosing hidle hstill hnow, rfl, frame?_releaseFrame_self s c i f⟩
  · intro k fp serial src f hmsg hup hc hf hserial hearly
    exact childRetirement_of_parent hmsg hup hc hf hserial hearly
  · intro e rest htasks hasked hup
    exact taskDispatch_first htasks hasked hup
  · intro g x h e b rest hspill hg hloaded hroom hdone
    exact spillDrain_of_room hspill hg hloaded hroom hdone
  · intro i f o hf hnone hout hdue hrun hnow hidle
    obtain ⟨es, hg⟩ := frame?_withdraw_self s c i o.mark f
    have hcarafes : (s.withdraw c i o.mark f).unrecorded c i :=
      unrecorded_of_carafes (carafes_storeFrame ..) (unrecorded_keepRecs s c i)
    obtain ⟨f', hf', hgone⟩ := frame?_drained_self (s.withdraw c i o.mark f) c i _ o.mark
    exact ⟨_, _, hg, drainLimitExpiry_of_due hf hnone hout hdue hrun hnow hidle hg, rfl, f', hf', hgone, unrecorded_drained hcarafes _ _⟩

end Sys2Proof.Machine
end

section
/-! PROOFS. Charges that find room, and what loads and fills that start leave (R13, R203, R216). -/
namespace Sys2Proof.Machine

/-! ### Room in the in-flight counters (R13) -/

/-- Every counter of a core's frames stands at least n below its limit. -/
def State.roomFor (s : State) (c n : Nat) : Prop := ∀ i f p, s.frame? c i = some f → f.infl.get p + n ≤ 65535

theorem State.roomFor.mono {s : State} {c m n : Nat} (h : s.roomFor c n) (hle : m ≤ n) : s.roomFor c m := by
  intro i f p hf
  have := h i f p hf
  omega

theorem roomFor_of_frames {s t : State} {c n : Nat} (h : s.roomFor c n) (hframes : (t.core c).frames = (s.core c).frames) :
    t.roomFor c n := by
  intro i f p hf
  refine h i f p ?_
  rwa [State.frame?, hframes] at hf

theorem roomFor_setWarp {s : State} {c n : Nat} (h : s.roomFor c n) (k : Nat) (w : Warp) : (s.setWarp c k w).roomFor c n :=
  roomFor_of_frames h (by rw [State.setWarp, core_setCore_same])

theorem get_set_le (f : InFlight) (p q : Path) : (f.set p (f.get p + 1)).get q ≤ f.get q + 1 := by
  cases p <;> cases q <;> simp [InFlight.set, InFlight.get]

/-- t is s after a charge: only frames of its core differ, and requests that write their images. -/
structure Charged (s t : State) (c : Nat) : Prop where
  state : ∃ reqs next cores, t = { s with reqs := reqs, next := next, cores := cores }
  core : ∃ fs m, t.core c = { s.core c with frames := fs, memQueue := m }

theorem charged_refl (s : State) (c : Nat) : Charged s s c := ⟨⟨_, _, _, rfl⟩, _, _, rfl⟩

theorem charged_storeFrame (s : State) (c i : Nat) (f : Frame) : Charged s (s.storeFrame c i f) c := by
  obtain ⟨m, fs, h⟩ := storeFrame_core s c i f
  exact ⟨storeFrame_eq s c i f, fs, m, h⟩

theorem Charged.warp? {s t : State} {c : Nat} (h : Charged s t c) (k : Nat) : t.warp? c k = s.warp? c k := by
  obtain ⟨_, _, hcore⟩ := h.core
  rw [State.warp?, hcore]
  rfl

theorem frame?_storeFrame_ne (s : State) {c i j : Nat} (f : Frame) (h : j ≠ i) : (s.storeFrame c i f).frame? c j = s.frame? c j :=
  ((sent_storeFrame s c i f).frame? c j).trans (frame?_setFrame_ne s f h)

/-- Where there is room for one more, a charge is made, and takes one place. -/
theorem charge_of_room {s : State} {c n : Nat} (h : s.roomFor c (n + 1)) (i : Nat) (p : Path) :
    ∃ t y, s.charge c i p = some (t, y) ∧ Charged s t c ∧ t.roomFor c n := by
  unfold State.charge
  split
  · exact ⟨_, _, rfl, charged_refl s c, h.mono (Nat.le_succ n)⟩
  · next f hf =>
    have hfree : f.infl.get p ≠ 65535 := by
      have := h i f p hf
      omega
    refine ⟨_, _, if_neg hfree, charged_storeFrame .., fun j g q hg => ?_⟩
    by_cases hj : j = i
    · subst hj
      rw [frame?_storeFrame_same] at hg
      cases hg
      have hroom := h j f q hf
      have hrise := get_set_le f.infl p q
      dsimp only
      omega
    · rw [frame?_storeFrame_ne s _ hj] at hg
      have := h j g q hg
      omega

/-! ### Loads that start -/

/-- A warp as it was but for its n loads, with room for r more charges. -/
structure Loading (s : State) (c k : Nat) (w : Warp) (n r : Nat) : Prop where
  warp : ∃ ls, s.warp? c k = some { w with loads := ls } ∧ ls.length = n
  room : s.roomFor c r

theorem Loading.of_core {s t : State} {c k : Nat} {w : Warp} {n r : Nat} (h : Loading s c k w n r) (hcore : t.core c = s.core c) :
    Loading t c k w n r := by
  obtain ⟨ls, hw, hls⟩ := h.warp
  exact ⟨⟨ls, by rwa [State.warp?, hcore], hls⟩, roomFor_of_frames h.room (congrArg Core.frames hcore)⟩

theorem Loading.charged {s t : State} {c k : Nat} {w : Warp} {n r r' : Nat} (h : Loading s c k w n r) (ht : Charged s t c)
    (hroom : t.roomFor c r') : Loading t c k w n r' := by
  obtain ⟨ls, hw, hls⟩ := h.warp
  exact ⟨⟨ls, (ht.warp? k).trans hw, hls⟩, hroom⟩

theorem later_core (s : State) (x : Option Charge) (c : Nat) : (s.later x).core c = s.core c := by
  unfold State.later
  split <;> rfl

theorem Loading.fillLoad {s : State} {c k : Nat} {w : Warp} {n r : Nat} (h : Loading s c k w n r) (id ofs : Nat) (data : List Byte)
    (poison : List Nat) (ch : Option Charge) : Loading (s.fillLoad c k id ofs data poison ch) c k w n r := by
  obtain ⟨ls, hw, hls⟩ := h.warp
  simp only [State.fillLoad, hw]
  split
  · exact h.of_core (later_core ..)
  · refine ⟨⟨_, warp?_setWarp_same .., ?_⟩, roomFor_setWarp h.room k _⟩
    rw [List.length_map, hls]

theorem Loading.addReq {s : State} {c k : Nat} {w : Warp} {n r : Nat} (h : Loading s c k w n r) (q : Req) : Loading (s.addReq q) c k w n r := by
  obtain ⟨ls, hw, hls⟩ := h.warp
  obtain ⟨m, hm⟩ := (sent_addReq s q).2 c
  exact ⟨⟨ls, ((sent_addReq s q).warp? c k).trans hw, hls⟩, roomFor_of_frames h.room (by rw [hm])⟩

theorem Loading.loadPart {s : State} {c k : Nat} {w : Warp} {n r : Nat} (h : Loading s c k w n (r + 1)) (lane : Nat) (x : Warp) (hint : Hint)
    (how : LoadHow) (id : Nat) (p : Nat × Nat × Nat) :
    ∃ t, s.loadPart c k lane x hint how (.warp id) p = some t ∧ Loading t c k w n r := by
  obtain ⟨t, y, hcharge, ht, hroom⟩ :=
    charge_of_room h.room (x.frameOf lane) (s.pathOf c (s.mkReq c x p.2.1 p.2.2 .load).asid p.2.1)
  have hload := h.charged ht hroom
  simp only [State.loadPart, hcharge]
  split
  · next l _ _ _ =>
    have hcopy : Loading (t.useCopy (dieOf c) l) c k w n r := hload.of_core rfl
    exact ⟨_, rfl, hcopy.fillLoad ..⟩
  · next heq => cases heq
  · next heq => cases heq
  · exact ⟨_, rfl, hload.addReq _⟩

theorem Loading.forwardPart {s : State} {c k : Nat} {w : Warp} {n r : Nat} (h : Loading s c k w n (r + 1)) (lane : Nat) (x : Warp) (id : Nat)
    (p : Nat × Nat × Nat) : ∃ t, s.forwardPart c k lane x (.warp id) p = some t ∧ Loading t c k w n r := by
  obtain ⟨t, y, hcharge, ht, hroom⟩ := charge_of_room h.room (x.frameOf lane) (s.pathOf c (s.asidOf x) p.2.1)
  refine ⟨t.fillLoad c k id p.1 [] [] (some y), ?_, (h.charged ht hroom).fillLoad ..⟩
  exact congrArg (Option.map _) hcharge

/-! ### Lanes of LDS -/

/-- One part of a lane of LDS: from the lane's own stores, from the stash, or as LDG's. -/
def State.ldsPart (s : State) (c k lane asid : Nat) (m : FmtM) (w : Warp) (fw : List (Option Byte)) (id : Nat) (p : Nat × Nat × Nat) : Option State :=
  if (missingParts fw [p]).isEmpty then s.forwardPart c k lane w (.warp id) p
  else match (s.core c).windowOf w.graph asid p.2.1 with
  | none => s.loadPart c k lane w m.hint {} (.warp id) p
  | some (_, win) =>
    match Map.find? (s.core c).stash (win.index p.2.1) with
    | none => some s
    | some l => (s.charge c (w.frameOf lane) (s.pathOf c asid p.2.1)).map (fun x =>
        x.1.fillLoad c k id p.1 ((l.data.drop (p.2.1 % 128)).take p.2.2) (partPoison l.poison p.2.1 p.2.2) (some x.2))

theorem Loading.ldsPart {s : State} {c k : Nat} {w : Warp} {n r : Nat} (h : Loading s c k w n (r + 1)) (lane asid : Nat) (m : FmtM) (x : Warp)
    (fw : List (Option Byte)) (id : Nat) (p : Nat × Nat × Nat) :
    ∃ t, s.ldsPart c k lane asid m x fw id p = some t ∧ Loading t c k w n r := by
  unfold State.ldsPart
  split
  · exact h.forwardPart lane x id p
  · split
    · exact h.loadPart lane x m.hint {} id p
    · split
      · exact ⟨s, rfl, h.warp, h.room.mono (Nat.le_succ r)⟩
      · obtain ⟨t, y, hcharge, ht, hroom⟩ := charge_of_room h.room (x.frameOf lane) (s.pathOf c asid p.2.1)
        exact ⟨_, congrArg (Option.map _) hcharge, (h.charged ht hroom).fillLoad ..⟩

/-- The bytes of a lane's load that its own stores give (R32). -/
def ownBytes (w : Warp) (lane : Nat) (m : FmtM) (va : Nat) : List (Option Byte) :=
  (List.range m.size.bytes).map (fun i => forwarded w.stores lane m.lsid ((va + i) % 2 ^ 56))

/-- A state with one more load of a lane, of which its own stores' bytes are there. -/
def State.withLoad (s : State) (c k lane : Nat) (m : FmtM) (w : Warp) (va reg : Nat) : State :=
  ({ s with next := s.next + 1 }).setWarp c k { w with
    loads := w.loads ++ [PendLoad.mk s.next [] lane va reg m.size.words (ownBytes w lane m va) false] }

/-- The parts of a lane's load, one after another. -/
def overParts (f : State → Nat × Nat × Nat → Option State) (ps : List (Nat × Nat × Nat)) (s : State) : Option State :=
  ps.foldl (fun a p => a.bind (fun t => f t p)) (some s)

theorem overParts_cons {f : State → Nat × Nat × Nat → Option State} {p : Nat × Nat × Nat} {s t : State} (h : f s p = some t)
    (ps : List (Nat × Nat × Nat)) : overParts f (p :: ps) s = overParts f ps t := by
  simp only [overParts, List.foldl_cons, Option.bind_some, h]

theorem ldsLane_eq {s : State} {c k : Nat} {w : Warp} {m : FmtM} {r : Nat} (hw : s.warp? c k = some w) (hr : m.data = .v r) (lane va : Nat) :
    s.ldsLane c k lane m va = overParts (fun t p => t.ldsPart c k lane (s.asidOf w) m w (ownBytes w lane m va) s.next p)
      (lineParts va m.size.bytes) (s.withLoad c k lane m w va r) := by
  simp only [State.ldsLane, hw, hr]
  rfl

theorem Loading.overParts {f : State → Nat × Nat × Nat → Option State} {c k : Nat} {w : Warp} {n : Nat}
    (hf : ∀ s p r, Loading s c k w n (r + 1) → ∃ t, f s p = some t ∧ Loading t c k w n r) (ps : List (Nat × Nat × Nat)) {s : State} {r : Nat}
    (h : Loading s c k w n (r + ps.length)) : ∃ t, overParts f ps s = some t ∧ Loading t c k w n r := by
  induction ps generalizing s with
  | nil => exact ⟨s, rfl, h⟩
  | cons p ps ih =>
    obtain ⟨t, ht, hload⟩ := hf s p (r + ps.length) h
    rw [overParts_cons ht]
    exact ih hload

theorem Loading.withLoad {s : State} {c k : Nat} {w x : Warp} {n r : Nat} (h : Loading s c k w n r) (hx : s.warp? c k = some x) (lane : Nat)
    (m : FmtM) (va reg : Nat) : Loading (s.withLoad c k lane m x va reg) c k w (n + 1) r := by
  obtain ⟨ls, hw, hls⟩ := h.warp
  obtain rfl : { w with loads := ls } = x := Option.some.inj (hw.symm.trans hx)
  refine ⟨⟨_, warp?_setWarp_same .., ?_⟩, roomFor_setWarp (s := { s with next := s.next + 1 }) h.room k _⟩
  simp [hls]

theorem length_lineParts_le (va n : Nat) : (lineParts va n).length ≤ 2 := by
  simp only [lineParts]
  split <;> simp

/-- A lane of LDS with room for its parts starts its load. -/
theorem Loading.ldsLane {s : State} {c k : Nat} {w : Warp} {n r : Nat} (h : Loading s c k w n (r + 2)) {m : FmtM} {reg : Nat}
    (hreg : m.data = .v reg) (lane va : Nat) : ∃ t, s.ldsLane c k lane m va = some t ∧ Loading t c k w (n + 1) r := by
  obtain ⟨ls, hw, _⟩ := h.warp
  have hlen := length_lineParts_le va m.size.bytes
  have hstart : Loading (s.withLoad c k lane m { w with loads := ls } va reg) c k w (n + 1) (r + (lineParts va m.size.bytes).length) :=
    ⟨(h.withLoad hw lane m va reg).warp, (h.withLoad hw lane m va reg).room.mono (by omega)⟩
  rw [ldsLane_eq hw hreg]
  exact hstart.overParts (fun t p r ht => ht.ldsPart lane _ m _ _ _ p)

theorem Loading.overLanes {f : State → Nat → Option State} {c k : Nat} {w : Warp}
    (hf : ∀ s l n r, Loading s c k w n (r + 2) → ∃ t, f s l = some t ∧ Loading t c k w (n + 1) r) (ls : List Nat) {s : State} {n r : Nat}
    (h : Loading s c k w n (r + 2 * ls.length)) : ∃ t, overLanes f ls s = some t ∧ Loading t c k w (n + ls.length) r := by
  induction ls generalizing s n with
  | nil => exact ⟨s, rfl, h⟩
  | cons l ls ih =>
    obtain ⟨t, ht, hload⟩ := hf s l n (r + 2 * ls.length) h
    obtain ⟨u, hu, hload'⟩ := ih hload
    refine ⟨u, by simp only [Machine.overLanes, ht, hu], ?_⟩
    rwa [Nat.add_right_comm, Nat.add_assoc] at hload'

end Sys2Proof.Machine
end

section
/-! PROOFS. LDS and STS through stash windows (R13, R203, R211, R216, R219): O33. -/
namespace Sys2Proof.Machine

/-! ### The parts of an access that windows map -/

/-- The parts of an access whose stash lines are not there. -/
def Core.absentParts (q : Core) (g asid va n : Nat) : List (Nat × Nat × Nat) :=
  (q.stashParts g asid va n).filter (fun p => !q.stashHas p.1 asid p.2.1 p.2.2)

theorem mem_absentParts {q : Core} {g asid va n : Nat} {p : Nat × Nat × Nat} :
    p ∈ q.absentParts g asid va n ↔ p ∈ q.stashParts g asid va n ∧ q.stashHas p.1 asid p.2.1 p.2.2 = false := by
  simp [Core.absentParts]

theorem absentParts_of_same {q q' : Core} (hwindows : q'.windows = q.windows) (hstash : q'.stash = q.stash) (g asid va n : Nat) :
    q'.absentParts g asid va n = q.absentParts g asid va n := by
  simp only [Core.absentParts, Core.stashParts, Core.windowOf, Core.stashHas, hwindows, hstash]

theorem length_lineRun_le (va n fuel ofs : Nat) : (lineRun va n fuel ofs).length ≤ fuel := by
  induction fuel generalizing ofs with
  | zero => exact Nat.le_refl 0
  | succ fuel ih =>
    simp only [lineRun]
    split
    · exact Nat.zero_le _
    · exact Nat.succ_le_succ (ih _)

theorem addr_of_lineRun {va n fuel ofs : Nat} {p : Nat × Nat × Nat} (h : p ∈ lineRun va n fuel ofs) : p.2.1 < 2 ^ 56 := by
  induction fuel generalizing ofs with
  | zero => exact absurd h List.not_mem_nil
  | succ fuel ih =>
    simp only [lineRun] at h
    split at h
    · exact absurd h List.not_mem_nil
    · obtain rfl | h := List.mem_cons.mp h
      · exact Nat.mod_lt _ (by decide)
      · exact ih h

theorem lineOf_stashPart {q : Core} {g asid va n : Nat} {p : Nat × Nat × Nat} (h : p ∈ q.stashParts g asid va n) :
    lineOf p.2.1 = p.2.1 / 128 := by
  obtain ⟨a, ha, hp⟩ := List.mem_filterMap.mp h
  obtain ⟨win, _, rfl⟩ := Option.map_eq_some_iff.mp hp
  rw [lineOf, Nat.mod_eq_of_lt (addr_of_lineRun ha)]

theorem Size.bytes_range (z : Size) : 0 < z.bytes ∧ z.bytes ≤ 16 := by
  cases z <;> decide

/-- An access of at most 16 bytes has at most two parts. -/
theorem length_absentParts_le (q : Core) (g asid va : Nat) (z : Size) : (q.absentParts g asid va z.bytes).length ≤ 2 := by
  obtain ⟨_, hle⟩ := Size.bytes_range z
  have hparts := List.length_filterMap_le (fun p : Nat × Nat × Nat => (q.windowOf g asid p.2.1).map (fun w => (w.2.index p.2.1, p.2.1, p.2.2)))
    (lineRun va z.bytes (z.bytes / 128 + 2) 0)
  have hrun := length_lineRun_le va z.bytes (z.bytes / 128 + 2) 0
  have habsent := List.length_filter_le (fun p : Nat × Nat × Nat => !q.stashHas p.1 asid p.2.1 p.2.2) (q.stashParts g asid va z.bytes)
  simp only [Core.absentParts, Core.stashParts] at habsent ⊢
  omega

/-! ### Fills that start -/

/-- A fill of a stash line is under way on a core. -/
def State.filling (s : State) (c idx asid line : Nat) : Prop :=
  ∃ y ∈ s.stashFills, y.1 = c ∧ y.2.index = idx ∧ y.2.asid = asid ∧ y.2.line = line

/-- t is s after fills were started on a core, with room for r more charges. -/
structure Filled (s t : State) (c r : Nat) : Prop where
  warps : (t.core c).warps = (s.core c).warps
  windows : (t.core c).windows = (s.core c).windows
  stash : (t.core c).stash = (s.core c).stash
  now : t.now = s.now
  mem : t.mem = s.mem
  fills : ∀ idx asid line, s.filling c idx asid line → t.filling c idx asid line
  room : t.roomFor c r

theorem Filled.refl {s : State} {c r : Nat} (h : s.roomFor c r) : Filled s s c r := ⟨rfl, rfl, rfl, rfl, rfl, fun _ _ _ h => h, h⟩

theorem Filled.trans {s t u : State} {c r r' : Nat} (h : Filled s t c r) (h' : Filled t u c r') : Filled s u c r' :=
  ⟨h'.warps.trans h.warps, h'.windows.trans h.windows, h'.stash.trans h.stash, h'.now.trans h.now, h'.mem.trans h.mem,
    fun idx asid line hf => h'.fills idx asid line (h.fills idx asid line hf), h'.room⟩

theorem Filled.absentParts {s t : State} {c r : Nat} (h : Filled s t c r) (g asid va n : Nat) :
    (t.core c).absentParts g asid va n = (s.core c).absentParts g asid va n := absentParts_of_same h.windows h.stash g asid va n

/-- The fills of stash lines with one more that waits for a line's, which begins where none is under way. -/
def withWaiter (fills : List (Nat × StashFillReq)) (c g idx asid line now : Nat) (x : Nat × Nat × Charge) : List (Nat × StashFillReq) :=
  if fills.any (isFillOf c idx asid line) then
    fills.map (fun p => if isFillOf c idx asid line p then (p.1, { p.2 with waiters := p.2.waiters ++ [x] }) else p)
  else fills ++ [(c, ⟨idx, asid, line, g, [x], none, none, now⟩)]

theorem filling_of_withWaiter {s t : State} {c g idx asid line now : Nat} {x : Nat × Nat × Charge}
    (ht : t.stashFills = withWaiter s.stashFills c g idx asid line now x) {i a l : Nat} (h : s.filling c i a l) : t.filling c i a l := by
  obtain ⟨y, hy, hc, hi, ha, hl⟩ := h
  rw [State.filling, ht]
  unfold withWaiter
  split
  · refine ⟨_, List.mem_map_of_mem hy, ?_⟩
    split <;> exact ⟨hc, hi, ha, hl⟩
  · exact ⟨y, List.mem_append_left _ hy, hc, hi, ha, hl⟩

theorem filling_withWaiter {s t : State} {c g idx asid line now : Nat} {x : Nat × Nat × Charge}
    (ht : t.stashFills = withWaiter s.stashFills c g idx asid line now x) : t.filling c idx asid line := by
  by_cases hany : s.stashFills.any (isFillOf c idx asid line) = true
  · obtain ⟨y, hy, hmine⟩ := List.any_eq_true.mp hany
    simp only [isFillOf, Bool.and_eq_true, beq_iff_eq] at hmine
    obtain ⟨⟨⟨hc, hi⟩, ha⟩, hl⟩ := hmine
    exact filling_of_withWaiter ht ⟨y, hy, hc, hi, ha, hl⟩
  · rw [State.filling, ht, withWaiter, if_neg hany]
    exact ⟨_, List.mem_append_right _ (List.mem_singleton_self _), rfl, rfl, rfl, rfl⟩

theorem Charged.filled {s t : State} {c r : Nat} (h : Charged s t c) (hroom : t.roomFor c r) : Filled s t c r := by
  obtain ⟨⟨_, _, _, rfl⟩, _, _, hcore⟩ := h
  exact ⟨by rw [hcore], by rw [hcore], by rw [hcore], rfl, rfl, fun _ _ _ hf => hf, hroom⟩

theorem startFill_of_room {s : State} {c r : Nat} (h : s.roomFor c (r + 1)) (g asid idx va : Nat) (w : Warp) (lane : Nat) :
    ∃ t, s.startFill c g asid idx va w lane = some t ∧ Filled s t c r ∧ t.filling c idx asid (lineOf va) := by
  simp only [State.startFill]
  split
  · next hwaits =>
    obtain ⟨y, hy, hmine⟩ := List.any_eq_true.mp hwaits
    simp only [isFillOf, Bool.and_eq_true, beq_iff_eq] at hmine
    obtain ⟨⟨⟨⟨hc, hi⟩, ha⟩, hl⟩, _⟩ := hmine
    exact ⟨s, rfl, Filled.refl (h.mono (Nat.le_succ r)), y, hy, hc, hi, ha, hl⟩
  · obtain ⟨u, y, hcharge, hu, hroom⟩ := charge_of_room h (w.frameOf lane) .s
    split
    · next hnone => exact nomatch hcharge.symm.trans hnone
    · next v z hsome =>
      obtain ⟨rfl, rfl⟩ : u = v ∧ y = z := by simpa using hcharge.symm.trans hsome
      let t : State := { u with stashFills := withWaiter u.stashFills c g idx asid (lineOf va) s.now (w.num, lane, y) }
      have hfills : t.stashFills = withWaiter u.stashFills c g idx asid (lineOf va) s.now (w.num, lane, y) := rfl
      exact ⟨t, rfl, (hu.filled hroom).trans ⟨rfl, rfl, rfl, rfl, rfl, fun _ _ _ => filling_of_withWaiter hfills, hroom⟩,
        filling_withWaiter hfills⟩

/-- The fills of some parts, begun one after another. -/
theorem startFills_of_room (c g asid : Nat) (w : Warp) (lane : Nat) (ps : List (Nat × Nat × Nat)) {s : State} {r : Nat} (acc : List Nat)
    (h : s.roomFor c (r + ps.length)) :
    ∃ t, ps.foldl (fun (a : Option (State × List Nat)) p =>
        a.bind (fun t => (t.1.startFill c g asid p.1 p.2.1 w lane).map (fun u => (u, t.2 ++ [p.1])))) (some (s, acc))
        = some (t, acc ++ ps.map (fun p => p.1))
      ∧ Filled s t c r ∧ ∀ p ∈ ps, t.filling c p.1 asid (lineOf p.2.1) := by
  induction ps generalizing s acc with
  | nil => exact ⟨s, by simp, Filled.refl h, by simp⟩
  | cons p ps ih =>
    obtain ⟨t, hstart, hfilled, hline⟩ := startFill_of_room (r := r + ps.length) h g asid p.1 p.2.1 w lane
    obtain ⟨u, hfold, hfilled', hlines⟩ := ih (acc ++ [p.1]) hfilled.room
    refine ⟨u, ?_, hfilled.trans hfilled', ?_⟩
    · simp only [List.foldl_cons, Option.bind_some, hstart, Option.map_some, hfold, List.map_cons, List.append_assoc, List.singleton_append]
    · rintro q hq
      obtain rfl | hq := List.mem_cons.mp hq
      · exact hfilled'.fills _ _ _ hline
      · exact hlines q hq

theorem fillLane_of_room {s : State} {c r : Nat} (h : s.roomFor c (r + 2)) (asid va : Nat) (z : Size) (w : Warp) (lane : Nat) :
    ∃ t, s.fillLane c asid va z.bytes w lane = some (t, ((s.core c).absentParts w.graph asid va z.bytes).map (fun p => p.1))
      ∧ Filled s t c r ∧ ∀ p ∈ (s.core c).absentParts w.graph asid va z.bytes, t.filling c p.1 asid (lineOf p.2.1) := by
  have hlen := length_absentParts_le (s.core c) w.graph asid va z
  obtain ⟨t, hfold, hfilled, hlines⟩ := startFills_of_room c w.graph asid w lane ((s.core c).absentParts w.graph asid va z.bytes) (r := r) []
    (h.mono (by omega))
  exact ⟨t, hfold, hfilled, hlines⟩

/-- The fills that some lanes' accesses need, begun lane by lane. -/
def State.fillLanes (s : State) (c asid : Nat) (ea : Nat → Nat) (n : Nat) (w : Warp) (ls : List Nat) : Option (State × List Nat) :=
  ls.foldl (fun (a : Option (State × List Nat)) l => a.bind (fun t =>
    (t.1.fillLane c asid (ea l) n w l).map (fun u => (u.1, t.2 ++ u.2)))) (some (s, []))

/-- The stash lines that some lanes' accesses wait for. -/
def Core.absentLines (q : Core) (g asid : Nat) (ea : Nat → Nat) (n : Nat) (ls : List Nat) : List Nat :=
  ls.flatMap (fun l => (q.absentParts g asid (ea l) n).map (fun p => p.1))

theorem foldl_fillLane_of_room (c asid : Nat) (ea : Nat → Nat) (z : Size) (w : Warp) (ls : List Nat) {s : State} {r : Nat} (acc : List Nat)
    (h : s.roomFor c (r + 2 * ls.length)) :
    ∃ t, ls.foldl (fun (a : Option (State × List Nat)) l => a.bind (fun t =>
        (t.1.fillLane c asid (ea l) z.bytes w l).map (fun u => (u.1, t.2 ++ u.2)))) (some (s, acc))
        = some (t, acc ++ (s.core c).absentLines w.graph asid ea z.bytes ls)
      ∧ Filled s t c r ∧ ∀ l ∈ ls, ∀ p ∈ (s.core c).absentParts w.graph asid (ea l) z.bytes, t.filling c p.1 asid (lineOf p.2.1) := by
  induction ls generalizing s acc with
  | nil => exact ⟨s, by simp [Core.absentLines], Filled.refl h, by simp⟩
  | cons l ls ih =>
    obtain ⟨t, hlane, hfilled, hlines⟩ := fillLane_of_room (r := r + 2 * ls.length) h asid (ea l) z w l
    obtain ⟨u, hfold, hfilled', hlines'⟩ :=
      ih (acc ++ ((s.core c).absentParts w.graph asid (ea l) z.bytes).map (fun p => p.1)) hfilled.room
    have hsame (l : Nat) := hfilled.absentParts w.graph asid (ea l) z.bytes
    refine ⟨u, ?_, hfilled.trans hfilled', ?_⟩
    · simp only [List.foldl_cons, Option.bind_some, hlane, Option.map_some, hfold, Core.absentLines, hsame, List.flatMap_cons, List.append_assoc]
    · rintro j hj p hp
      obtain rfl | hj := List.mem_cons.mp hj
      · exact hfilled'.fills _ _ _ (hlines p hp)
      · exact hlines' j hj p (by rwa [hsame])

theorem fillLanes_of_room {c : Nat} {s : State} {r : Nat} {ls : List Nat} (h : s.roomFor c (r + 2 * ls.length)) (asid : Nat) (ea : Nat → Nat)
    (z : Size) (w : Warp) :
    ∃ t, s.fillLanes c asid ea z.bytes w ls = some (t, (s.core c).absentLines w.graph asid ea z.bytes ls)
      ∧ Filled s t c r ∧ ∀ l ∈ ls, ∀ p ∈ (s.core c).absentParts w.graph asid (ea l) z.bytes, t.filling c p.1 asid (lineOf p.2.1) :=
  foldl_fillLane_of_room c asid ea z w ls [] h

/-- Where every line is there, no fill starts. -/
theorem fillLanes_of_present {s : State} {c : Nat} {w : Warp} {asid : Nat} {ea : Nat → Nat} {n : Nat} {ls : List Nat}
    (h : ∀ l ∈ ls, (s.core c).absentParts w.graph asid (ea l) n = []) : s.fillLanes c asid ea n w ls = some (s, []) := by
  unfold State.fillLanes
  induction ls with
  | nil => rfl
  | cons l ls ih =>
    have hlane : s.fillLane c asid (ea l) n w l = some (s, []) := by
      have hl := h l List.mem_cons_self
      unfold Core.absentParts at hl
      rw [State.fillLane, hl]
      rfl
    rw [List.foldl_cons, Option.bind_some, hlane]
    exact ih (fun j hj => h j (List.mem_cons_of_mem l hj))

/-- A core without a faulted fill. -/
theorem fillFaults_eq_nil {s : State} {c : Nat} (h : ∀ q ∈ s.stashFills, q.1 = c → q.2.fault = none) (g asid : Nat) (m : FmtM) (x : View)
    (ls : List Nat) : s.fillFaults c g asid m x ls = [] := by
  refine List.filterMap_eq_nil_iff.mpr (fun l _ => ?_)
  have hnone : s.fillFault c g asid (x.ea l m false) m.size.bytes = none := by
    refine List.findSome?_eq_none_iff.mpr (fun p _ => ?_)
    refine Option.bind_eq_none_iff.mpr (fun q hq => h q (List.mem_of_find?_eq_some hq) ?_)
    have hkeys := List.find?_some hq
    simp only [Bool.and_eq_true, beq_iff_eq] at hkeys
    exact hkeys.1.1.1
  rw [hnone]
  rfl

end Sys2Proof.Machine
end

section
/-! PROOFS. LDS and STS through stash windows (R13, R29, R203, R211, R216, R219): O33. -/
namespace Sys2Proof.Machine

/-! ### The load of a lane whose line is there -/

theorem charged_of_charge {s t : State} {c i : Nat} {p : Path} {y : Charge} (h : s.charge c i p = some (t, y)) : Charged s t c := by
  unfold State.charge at h
  split at h
  · obtain ⟨rfl, rfl⟩ : s = t ∧ _ = y := by simpa using h
    exact charged_refl s c
  · split at h
    · cases h
    · next f _ _ =>
      obtain ⟨rfl, rfl⟩ : s.storeFrame c i { f with infl := f.infl.set p (f.infl.get p + 1) } = t ∧ _ = y := by simpa using h
      exact charged_storeFrame ..

/-- A load that some bytes have reached. -/
def PendLoad.reached (l : PendLoad) (ofs : Nat) (data : List Byte) (poison : List Nat) (ch : Option Charge) : PendLoad :=
  { l with bytes := fillBytes l.bytes ofs data, poison := l.poison || poisonLands l.bytes ofs poison, charges := l.charges ++ ch.toList }

theorem fillLoad_of_load {s : State} {c k id : Nat} {w : Warp} (hw : s.warp? c k = some w) (hid : w.loads.any (fun l => l.id == id) = true)
    (ofs : Nat) (data : List Byte) (poison : List Nat) (ch : Option Charge) :
    (s.fillLoad c k id ofs data poison ch).warp? c k = some { w with loads := w.loads.map (fun l => if l.id == id then l.reached ofs data poison ch else l) } := by
  simp only [State.fillLoad, hw, hid, Bool.not_true, Bool.false_eq_true, if_false, warp?_setWarp_same, PendLoad.reached]

theorem ownBytes_of_no_stores {w : Warp} (h : w.stores = []) (lane : Nat) (m : FmtM) (va : Nat) :
    ownBytes w lane m va = (List.range m.size.bytes).map (fun _ => none) := by
  simp only [ownBytes, h]
  rfl

/-- Bytes that come into a load of which none was there. -/
theorem fillBytes_fresh (n o : Nat) (data : List Byte) :
    fillBytes ((List.range n).map (fun _ => none)) 0 ((data.drop o).take n)
      = (List.range n).map (fun i => if i < data.length - o then some (nthD 0 (data.drop o) i) else none) := by
  refine List.ext_getElem? (fun i => ?_)
  by_cases hi : i < n
  · simp [fillBytes, hi, nthD, List.getElem?_take]
  · simp [fillBytes, hi]

section
variable {s t : State} {c k lane va r : Nat} {w : Warp} {m : FmtM} {win : Nat × Window} {y : StashLine}

theorem ldsLane_of_line (hw : s.warp? c k = some w) (hr : m.data = .v r) (hstores : w.stores = [])
    (hwin : (s.core c).windowOf w.graph (s.asidOf w) va = some win) (hparts : lineParts va m.size.bytes = [(0, va, m.size.bytes)])
    (hline : Map.find? (s.core c).stash (win.2.index va) = some y) (h : s.ldsLane c k lane m va = some t) :
    ∃ ls z, t.warp? c k = some { w with loads := ls } ∧ ls.drop w.loads.length = [z] ∧ z.lane = lane ∧ z.reg = r ∧ z.words = m.size.words
      ∧ z.bytes = (List.range m.size.bytes).map (fun n =>
          if n < y.data.length - va % 128 then some (nthD 0 (y.data.drop (va % 128)) n) else none) := by
  obtain ⟨hpos, _⟩ := Size.bytes_range m.size
  have hmissing : (missingParts (ownBytes w lane m va) [(0, va, m.size.bytes)]).isEmpty = false := by
    obtain ⟨n, hn⟩ := Nat.exists_eq_add_of_lt hpos
    simp [missingParts, ownBytes_of_no_stores hstores, hn, List.range_succ_eq_map]
  have hcore : ((s.withLoad c k lane m w va r).core c).windows = (s.core c).windows
      ∧ ((s.withLoad c k lane m w va r).core c).stash = (s.core c).stash := by
    rw [State.withLoad, State.setWarp, core_setCore_same]
    exact ⟨rfl, rfl⟩
  have hwin' : ((s.withLoad c k lane m w va r).core c).windowOf w.graph (s.asidOf w) va = some win := by
    rwa [Core.windowOf, hcore.1]
  rw [ldsLane_eq hw hr, hparts, overParts, List.foldl_cons, List.foldl_nil, Option.bind_some, State.ldsPart, hmissing, if_neg Bool.false_ne_true] at h
  simp only [hwin', hcore.2, hline] at h
  obtain ⟨⟨u, ch⟩, hcharge, rfl⟩ := Option.map_eq_some_iff.mp h
  have hwarp := ((charged_of_charge hcharge).warp? k).trans (warp?_setWarp_same ..)
  refine ⟨_, (PendLoad.mk s.next [] lane va r m.size.words (ownBytes w lane m va) false).reached 0 ((y.data.drop (va % 128)).take m.size.bytes)
    (partPoison y.poison va m.size.bytes) (some ch), fillLoad_of_load hwarp (by simp) _ _ _ _, ?_, rfl, rfl, rfl, ?_⟩
  · simp
  · rw [PendLoad.reached, ownBytes_of_no_stores hstores]
    exact fillBytes_fresh ..

end

/-! ### The instructions -/

section
variable {s : State} {c k : Nat} {w : Warp}

theorem length_active_le (w : Warp) (g : Guard) : (w.active g).length ≤ w.insts.length := by
  have h := List.length_filter_le (w.guard g) w.lanes
  rwa [show w.lanes.length = w.insts.length from List.length_range] at h

theorem absentLines_eq_nil {q : Core} {g asid n : Nat} {ea : Nat → Nat} {ls : List Nat} :
    q.absentLines g asid ea n ls = [] ↔ ∀ l ∈ ls, ∀ p ∈ q.stashParts g asid (ea l) n, q.stashHas p.1 asid p.2.1 p.2.2 = true := by
  simp [Core.absentLines, Core.absentParts]

theorem mem_uniSet {l m : List Nat} {a : Nat} : a ∈ uniSet l m ↔ a ∈ l ∨ a ∈ m := by
  unfold uniSet
  induction m generalizing l with
  | nil => simp
  | cons b m ih => rw [List.foldl_cons, ih, mem_insSet, List.mem_cons, or_comm (a := a = b), or_assoc]

/-- The address of a lane's access through the stash (R211). -/
def View.stashEa (x : View) (m : FmtM) (l : Nat) : Nat := wrapTo 56 ((x.rd l 2 m.base : Int) + toSigned 16 (m.ofs % 65536))

theorem lds_of_present (h : State.InTurn s c k w) (hfault : ∀ q ∈ s.stashFills, q.1 = c → q.2.fault = none) {m : FmtM}
    (hfill : s.fillLanes c (s.asidOf w) ((s.view c w).stashEa m) m.size.bytes w (w.active m.g) = some (s, [])) :
    exec (.lds m) s = afterLanes s c k w (overLanes (fun a l => a.ldsLane c k l m ((s.view c w).stashEa m l)) (w.active m.g) s) := by
  dsimp only [exec]
  rw [execLds, withWarp_inTurn h]
  simp only [fillFaults_eq_nil hfault, List.isEmpty_nil, Bool.not_true, Bool.false_eq_true, if_false]
  split
  · next hnone => exact nomatch hfill.symm.trans hnone
  · next u hsome =>
    obtain rfl : s = u := by simpa using hfill.symm.trans hsome
    rfl
  · next u n ns hsome => exact absurd (hfill.symm.trans hsome) (by simp)

theorem lds_of_absent (h : State.InTurn s c k w) (hfault : ∀ q ∈ s.stashFills, q.1 = c → q.2.fault = none) {m : FmtM} {t : State} {n : Nat}
    {ns : List Nat} (hfill : s.fillLanes c (s.asidOf w) ((s.view c w).stashEa m) m.size.bytes w (w.active m.g) = some (t, n :: ns)) :
    exec (.lds m) s = .next (t.stalled c k w) := by
  dsimp only [exec]
  rw [execLds, withWarp_inTurn h]
  simp only [fillFaults_eq_nil hfault, List.isEmpty_nil, Bool.not_true, Bool.false_eq_true, if_false]
  split
  · next hnone => exact nomatch hfill.symm.trans hnone
  · next u hsome => exact absurd (hfill.symm.trans hsome) (by simp)
  · next u n ns hsome =>
    obtain ⟨rfl, -⟩ : t = u ∧ _ := by simpa using hfill.symm.trans hsome
    rfl

/-- What STS leaves in the commit buffer: one access for each part of a line, for the stash where a window maps it. -/
def State.stsSlots (s : State) (c : Nat) (w : Warp) (m : FmtM) : List StoreSlot :=
  (w.active m.g).flatMap (fun l => (lineParts ((s.view c w).stashEa m l) m.size.bytes).map (fun p =>
    StoreSlot.mk m.lsid l p.2.1 p.2.2 (if ((s.core c).windowOf w.graph (s.asidOf w) p.2.1).isSome then
        .stashStore (((toBytes m.size.bytes ((s.view c w).rd l m.size.words m.data)).drop p.1).take p.2.2)
      else .store (((toBytes m.size.bytes ((s.view c w).rd l m.size.words m.data)).drop p.1).take p.2.2) false) none false m.hint false))

theorem sts_eq (h : State.InTurn s c k w) {m : FmtM} {t : State} {ns : List Nat}
    (hwr : ∀ l ∈ w.active m.g, ∀ p ∈ lineParts ((s.view c w).stashEa m l) m.size.bytes, ∀ win,
      (s.core c).windowOf w.graph (s.asidOf w) p.2.1 = some win → win.2.wr = true)
    (hfill : s.fillLanes c (s.asidOf w) ((s.view c w).stashEa m) m.size.bytes w (w.active m.g) = some (t, ns)) :
    exec (.sts m) s = .next (t.buffered c k { w with stashWait := uniSet w.stashWait ns } (s.stsSlots c w m)) := by
  dsimp only [exec]
  rw [execSts, withWarp_inTurn h]
  dsimp only
  rw [if_neg ?writable]
  case writable =>
    simp only [Bool.not_eq_true', List.isEmpty_eq_false_iff, ne_eq, not_not, List.filter_eq_nil_iff, List.any_eq_true, not_exists, not_and]
    intro l hl p hp hbad
    split at hbad
    · next n win hwin =>
      have hwritable : win.wr = true := hwr l hl p hp _ hwin
      simp [hwritable] at hbad
    · cases hbad
  split
  · next hnone => exact nomatch hfill.symm.trans hnone
  · next u vs hsome =>
    obtain ⟨rfl, rfl⟩ : t = u ∧ ns = vs := by simpa using hfill.symm.trans hsome
    rfl

end

/-- Settles O33: every charge finds room, so that lines that are there give their bytes, and every other begins to fill. -/
theorem stashAccesses : Obligations.StashAccesses := by
  intro s c k w hturn hlanes hroom hfault m x q asid ea present slots
  obtain ⟨hcur, hwarp⟩ := hturn
  have hturn : State.InTurn s c k w := ⟨hcur, hwarp⟩
  have hcount : (w.active m.g).length ≤ 32 := (length_active_le w m.g).trans hlanes
  have hroom : s.roomFor c 128 := hroom
  obtain ⟨t, hfill, hfilled, hlines⟩ := fillLanes_of_room (c := c) (r := 0) (ls := w.active m.g) (hroom.mono (by omega)) asid ea m.size w
  have hpresent : present ↔ (s.core c).absentLines w.graph asid ea m.size.bytes (w.active m.g) = [] := absentLines_eq_nil.symm
  have hnofill (h : present) : s.fillLanes c asid ea m.size.bytes w (w.active m.g) = some (s, []) := by
    refine fillLanes_of_present (fun l hl => ?_)
    simpa [Core.absentParts] using h l hl
  refine ⟨?_, ?_, ?_⟩
  · intro r hr hthere
    have hstart : Loading s c k w w.loads.length (0 + 2 * (w.active m.g).length) := ⟨⟨w.loads, hwarp, rfl⟩, hroom.mono (by omega)⟩
    obtain ⟨u, hu, hload⟩ := hstart.overLanes (f := fun a l => a.ldsLane c k l m (ea l)) (fun a l n r ha => ha.ldsLane hr l (ea l)) _
    obtain ⟨ls, hw, hls⟩ := hload.warp
    have hexec : exec (.lds m) s = .next (u.issued c k { w with loads := ls }) := by
      rw [lds_of_present hturn hfault (hnofill hthere)]
      refine (congrArg (afterLanes s c k w) hu).trans ?_
      simp only [afterLanes, hw]
    have hmem : u.mem = s.mem := congrArg Prod.fst (overLanes_stored (fun a l b h => ldsLane_stored h) hu)
    refine ⟨_, _, hexec, warp?_issued_same .., rfl, rfl, rfl, hls, hmem, ?_⟩
    intro l hl hstores win y hwin hparts hline
    rw [hl] at hu
    have hlane : s.ldsLane c k l m (ea l) = some u := by
      simp only [overLanes] at hu
      split at hu
      · cases hu
      · next v hv => exact hv.trans hu
    obtain ⟨ls', z, hw', hdrop, hz⟩ := ldsLane_of_line hwarp hr hstores hwin hparts hline hlane
    obtain rfl : ls = ls' := congrArg Warp.loads (Option.some.inj (hw.symm.trans hw'))
    exact ⟨z, hdrop, hz⟩
  · intro hnot
    obtain ⟨n, ns, hns⟩ := List.exists_cons_of_ne_nil (fun h => hnot (hpresent.mpr h))
    refine ⟨_, _, lds_of_absent hturn hfault (hfill.trans (by rw [hns])), warp?_setWarp_same .., ?_, hfilled.mem, ?_⟩
    · rw [hfilled.now]
    · intro l hl p hp habsent
      rw [← lineOf_stashPart hp]
      exact hlines l hl p (mem_absentParts.mpr ⟨hp, habsent⟩)
  · intro hwr
    have hslots : s.stsSlots c w m = slots := rfl
    have hexec {u : State} {ns : List Nat} (h : s.fillLanes c asid ea m.size.bytes w (w.active m.g) = some (u, ns)) :
        exec (.sts m) s = .next (u.buffered c k { w with stashWait := uniSet w.stashWait ns } slots) :=
      hslots ▸ sts_eq hturn hwr h
    have hnone : { w with stashWait := uniSet w.stashWait [] } = w := rfl
    refine ⟨fun hthere => by rw [hexec (hnofill hthere), hnone], ?_⟩
    refine ⟨_, _, hexec hfill, warp?_issued_same .., rfl, rfl, rfl, hfilled.mem, ?_⟩
    intro l hl p hp habsent
    refine mem_uniSet.mpr (.inr (List.mem_flatMap.mpr ⟨l, hl, List.mem_map_of_mem ?_⟩))
    exact mem_absentParts.mpr ⟨hp, habsent⟩

end Sys2Proof.Machine
end

section
/-! PROOFS. Key rollovers and boundaries (R49, R266, R325, R392, R393), and packets and ports of the fabric (R381, R382, R384, R385): O58. -/
namespace Sys2Proof.Machine

/-! ### A key rollover (R325, R393) -/

section
variable {s : State} {d : Nat}

theorem mayRoll_iff : s.mayRoll d = true ↔ (s.link d).up = true ∧ 2 ^ 47 < (s.link d).txCount ∧ (s.link d).step = 0
    ∧ (s.link (mateOf d)).step = 0 ∧ (s.die (senderOf d)).sess = true ∧ (s.die (receiverOf d)).sess = true := by
  simp [State.mayRoll, and_assoc]

theorem keyRolloverStart_of_mayRoll (hd : d < 44) (hroll : s.mayRoll d = true) (hfirst : s.rollsBefore d = false)
    (hway : s.mgmtUp (roundTrip 18 (receiverOf d)) = true) :
    exec (.keyRolloverStart d) s = .next (State.setLink { s.countMgmt 9 (receiverOf d) with keySerial := s.keySerial + 1 } d
      { (s.countMgmt 9 (receiverOf d)).link d with
        step := 1, newKey := s.keySerial + 1
        rxKeys := Map.put ((s.countMgmt 9 (receiverOf d)).link d).rxKeys (1 - ((s.countMgmt 9 (receiverOf d)).link d).txIdx) (s.keySerial + 1)
        rxCounts := Map.put ((s.countMgmt 9 (receiverOf d)).link d).rxCounts (1 - ((s.countMgmt 9 (receiverOf d)).link d).txIdx) 0 }) := by
  have hexec : exec (.keyRolloverStart d) s = execKeyRolloverStart d s := rfl
  simp [hexec, execKeyRolloverStart, Nat.not_le.mpr hd, hroll, hfirst, hway]

theorem senderKeyDelivery_of_keyed (hstep : ((s.countMgmt 9 (senderOf d)).link d).step = 1)
    (hway : s.mgmtUp (routeDirs 18 (senderOf d)) = true) :
    exec (.senderKeyDelivery d) s = .next (((s.countMgmt 9 (senderOf d)).setLink d
      { (s.countMgmt 9 (senderOf d)).link d with
        step := 2, txIdx := 1 - ((s.countMgmt 9 (senderOf d)).link d).txIdx, txKey := ((s.countMgmt 9 (senderOf d)).link d).newKey
        txCount := 0, rolls := min 65535 (((s.countMgmt 9 (senderOf d)).link d).rolls + 1), stopped := false }).settle) := by
  have hexec : exec (.senderKeyDelivery d) s = execSenderKeyDelivery d s := rfl
  simp [hexec, execSenderKeyDelivery, hstep, hway]

theorem firstNewKeyFlit_of_delivered (hstep : (s.link d).step = 2) :
    exec (.firstNewKeyFlit d) s = .next (s.setLink d { s.link d with step := 3, rxIdx := (s.link d).txIdx, drainPend := true }) := by
  have hexec : exec (.firstNewKeyFlit d) s = execFirstNewKeyFlit d s := rfl
  simp [hexec, execFirstNewKeyFlit, hstep]

theorem drainMarkerSend_of_switched (hstep : (s.link d).step = 3) :
    exec (.drainMarkerSend d) s = .next (s.setLink d { (s.link d).pass 1 with step := 4 }) := by
  have hexec : exec (.drainMarkerSend d) s = execDrainMarkerSend d s := rfl
  simp [hexec, execDrainMarkerSend, hstep]

theorem drainMarkerArrival_of_sent (hstep : ((s.countMgmt 9 (receiverOf d)).link d).step = 4)
    (hway : s.mgmtUp (routeDirs (receiverOf d) 18) = true) :
    exec (.drainMarkerArrival d) s = .next ((s.countMgmt 9 (receiverOf d)).setLink d
      { (s.countMgmt 9 (receiverOf d)).link d with
        step := 0, drainPend := false, rxRolls := min 65535 (((s.countMgmt 9 (receiverOf d)).link d).rxRolls + 1)
        rxKeys := Map.del ((s.countMgmt 9 (receiverOf d)).link d).rxKeys (1 - ((s.countMgmt 9 (receiverOf d)).link d).rxIdx)
        rxCounts := Map.del ((s.countMgmt 9 (receiverOf d)).link d).rxCounts (1 - ((s.countMgmt 9 (receiverOf d)).link d).rxIdx) }) := by
  have hexec : exec (.drainMarkerArrival d) s = execDrainMarkerArrival d s := rfl
  simp [hexec, execDrainMarkerArrival, hstep, hway]

theorem flitCounterLimit_of_reached (hd : d < 44) (hup : (s.link d).up = true) (hcount : 2 ^ 48 ≤ (s.link d).txCount) :
    exec (.flitCounterLimit d) s = .next (s.setLink d { s.link d with stopped := true }) := by
  have hexec : exec (.flitCounterLimit d) s = execFlitCounterLimit d s := rfl
  simp only [hexec, execFlitCounterLimit, hd, hup, hcount, decide_true, Bool.and_self, if_true]

end

/-! ### A boundary that fails (R49, R392) -/

theorem mem_dirsOf {d n : Nat} : n ∈ dirsOf d ↔ n < 44 ∧ (senderOf n = d ∨ receiverOf n = d) := by
  simp [dirsOf]

theorem getD_foldl_put {α : Type} (a e : α) {i : Nat} (l : List Nat) (m : Map α) :
    Map.getD (l.foldl (fun m n => Map.put m n a) m) i e = if i ∈ l then a else Map.getD m i e := by
  induction l generalizing m with
  | nil => rfl
  | cons n t ih =>
    rw [List.foldl_cons, ih]
    by_cases hn : i = n
    · simp [hn]
    · simp [hn, Map.getD_put_ne _ _ _ hn]

@[simp] theorem state_requarantine_same (s : State) (d : Nat) : ((s.requarantine d).die d).state = .quarantined := by
  simp [State.requarantine]

theorem die_requarantine_ne (s : State) {c d : Nat} (h : c ≠ d) : (s.requarantine d).die c = s.die c :=
  die_setDie_ne _ _ h

theorem link_requarantine_of_mem (s : State) {d n : Nat} (h : n ∈ dirsOf d) : (s.requarantine d).link n = LinkDir.reset :=
  (getD_foldl_put ..).trans (if_pos h)

/-- Whatever the packet, the failure ends in the quarantine of the sender and then of the receiver. -/
theorem boundaryTagFailure_of_up {s : State} {d : Nat} (what : LostPacket) (hd : d < 44) (hup : (s.link d).up = true) :
    ∃ u : State, exec (.boundaryTagFailure ⟨d, what⟩) s = .next ((u.requarantine (senderOf d)).requarantine (receiverOf d)) := by
  have hexec : exec (.boundaryTagFailure ⟨d, what⟩) s = execBoundaryTagFailure ⟨d, what⟩ s := rfl
  have hup' : (Map.getD s.links d LinkDir.reset).up = true := hup
  simp only [hexec, execBoundaryTagFailure, hup', Nat.not_le.mpr hd, decide_false, Bool.not_true, Bool.or_self, Bool.false_eq_true, if_false]
  exact ⟨_, rfl⟩

theorem boundaryTagFailure_quarantines {s : State} {d : Nat} (what : LostPacket) (hd : d < 44) (hup : (s.link d).up = true)
    (hends : senderOf d ≠ receiverOf d) :
    ∃ t, exec (.boundaryTagFailure ⟨d, what⟩) s = .next t ∧ (t.die (senderOf d)).state = .quarantined
      ∧ (t.die (receiverOf d)).state = .quarantined ∧ (t.link d).up = false := by
  obtain ⟨u, hu⟩ := boundaryTagFailure_of_up what hd hup
  refine ⟨_, hu, ?_, state_requarantine_same .., ?_⟩
  · rw [die_requarantine_ne _ hends, state_requarantine_same]
  · rw [link_requarantine_of_mem _ (mem_dirsOf.mpr ⟨hd, .inr rfl⟩)]
    rfl

/-! ### A crossing that reaches its core (R48, R49, R266) -/

theorem boundaryTokenCreditReturn_of_first {s : State} {k : Nat} {y : Crossing} (hy : s.crossings[k]? = some y) (hdirs : y.dirs ≠ [])
    (hfirst : ∀ z ∈ s.crossings.take k, z.pkt.src ≠ y.pkt.src ∨ z.pkt.goal ≠ y.pkt.goal) (hup : s.pathUp y.dirs = true)
    (hroom : (s.core y.pkt.dst).matchIn.length < 32) :
    exec (.boundaryTokenCreditReturn k) s = .next (((State.moveCredits { s with crossings := dropNth s.crossings k } y.dirs
      (dieOf y.pkt.dst) false).arrive y.pkt).settle) := by
  have hnone : (s.crossings.take k).any (fun z => z.pkt.src == y.pkt.src && z.pkt.goal == y.pkt.goal) = false := by
    simpa only [List.any_eq_false, Bool.and_eq_true, beq_iff_eq, not_and_or] using hfirst
  have hexec : exec (.boundaryTokenCreditReturn k) s = execBoundaryTokenCreditReturn k s := rfl
  simp [hexec, execBoundaryTokenCreditReturn, hy, hdirs, hnone, hup, Nat.not_le.mpr hroom]

/-! ### Packets that leave (R381, R382, R384, R385) -/

theorem keySpent_of_full {s : State} {n : Nat} (hn : n < 64) (h : Map.find? s.portCount (portKey s.sendKey n) = some (2 ^ 48)) :
    s.keySpent = true := by
  have hkey : portKey s.sendKey n / 64 = s.sendKey := by
    unfold portKey
    omega
  exact List.any_eq_true.mpr ⟨_, Map.mem_of_find? h, by simp [hkey]⟩

section
variable {s : State} {k : Nat} {p : FabricPacket}

theorem any_take_eq_false_of_first (hfirst : ∀ q ∈ s.fabricOut.take k, q.dchip ≠ p.dchip ∨ q.cls ≠ p.cls) :
    (s.fabricOut.take k).any (fun q => q.dchip == p.dchip && q.cls == p.cls) = false := by
  simpa only [List.any_eq_false, Bool.and_eq_true, beq_iff_eq, not_and_or] using hfirst

theorem not_unreachable (h : (p.cls ≠ 0 ∧ p.dchip = s.chipId) ∨ s.reachable.contains p.dchip = true) :
    ((p.cls == 0 || p.dchip != s.chipId) && !s.reachable.contains p.dchip) = false := by
  rcases h with ⟨hcls, hchip⟩ | hreach
  · simp [hcls, hchip]
  · rw [hreach, Bool.not_true, Bool.and_false]

theorem fabricPacketSend_of_port {port : Nat} (hp : s.fabricOut[k]? = some p)
    (hfirst : ∀ q ∈ s.fabricOut.take k, q.dchip ≠ p.dchip ∨ q.cls ≠ p.cls)
    (hreach : (p.cls ≠ 0 ∧ p.dchip = s.chipId) ∨ s.reachable.contains p.dchip = true)
    (hport : s.livePorts[p.dchip % s.livePorts.length]? = some port) (hkey : (Map.find? s.domainKeys s.sendKey).isSome = true)
    (hspent : s.keySpent = false) :
    exec (.fabricPacketSend k) s = .next { s with
      fabricOut := dropNth s.fabricOut k
      fabricSent := s.fabricSent ++
        [FabricPacket.wire { p with keyIdx := s.sendKey, sport := port, counter := Map.getD s.portCount (portKey s.sendKey port) 0 }]
      portCount := Map.put s.portCount (portKey s.sendKey port) (Map.getD s.portCount (portKey s.sendKey port) 0 + 1) } := by
  have hkey' : (Map.find? s.domainKeys s.sendKey).isNone = false := by simpa using hkey
  have hexec : exec (.fabricPacketSend k) s = execFabricPacketSend k s := rfl
  simp only [hexec, execFabricPacketSend, hp, any_take_eq_false_of_first hfirst, not_unreachable hreach, hport, hkey', hspent,
    Bool.or_self, Bool.false_eq_true, if_false]

/-- A sending key that is spent holds the packet back, as an earlier packet of its class and chip does. -/
theorem fabricPacketSend_of_spent {port : Nat} (hp : s.fabricOut[k]? = some p) (hreach : s.reachable.contains p.dchip = true)
    (hport : s.livePorts[p.dchip % s.livePorts.length]? = some port) (hspent : s.keySpent = true) :
    exec (.fabricPacketSend k) s = .next s := by
  have hexec : exec (.fabricPacketSend k) s = execFabricPacketSend k s := rfl
  simp only [hexec, execFabricPacketSend, hp, not_unreachable (.inr hreach), hport, hspent, Bool.or_true, Bool.false_eq_true, if_true,
    if_false, ite_self]

theorem fabricPacketSend_of_unreachable_token (hp : s.fabricOut[k]? = some p)
    (hfirst : ∀ q ∈ s.fabricOut.take k, q.dchip ≠ p.dchip ∨ q.cls ≠ p.cls) (hcls : p.cls = 0)
    (hreach : s.reachable.contains p.dchip = false) :
    exec (.fabricPacketSend k) s =
      .next (State.countDie { s with fabricOut := dropNth s.fabricOut k } (s.fabricDieOf p.dchip) 0 1) := by
  have hgone : ((p.cls == 0 || p.dchip != s.chipId) && !s.reachable.contains p.dchip) = true := by
    rw [hcls, hreach]
    rfl
  have hdrop (t : State) : t.unreachable p = t.countDie (t.fabricDieOf p.dchip) 0 1 := by
    simp only [State.unreachable, hcls]
  have hexec : exec (.fabricPacketSend k) s = execFabricPacketSend k s := rfl
  simp only [hexec, execFabricPacketSend, hp, any_take_eq_false_of_first hfirst, hgone, Bool.false_eq_true, if_true, if_false, hdrop]
  rfl

end

/-! ### Packets that arrive (R333, R382) -/

/-- A packet is good in its header where its key is held, its class is one of the five, its reserved bits are 0 and it is for this chip. -/
def State.goodHeader (s : State) (p : FabricPacket) : Prop :=
  (Map.find? s.domainKeys p.keyIdx).isSome = true ∧ p.cls < 5 ∧ p.reserved = 0 ∧ p.dchip = s.chipId

theorem packetError_of_goodHeader {s : State} {p : FabricPacket} (h : s.goodHeader p) :
    s.packetError p = if p.tagGood = false then some 1 else none := by
  obtain ⟨hkey, hcls, hres, hchip⟩ := h
  have hkey' : (Map.find? s.domainKeys p.keyIdx).isNone = false := by simpa using hkey
  simp [State.packetError, hkey', Nat.not_le.mpr hcls, hres, hchip]

theorem not_goodHeader_iff {s : State} {p : FabricPacket} :
    ¬ s.goodHeader p ↔ Map.find? s.domainKeys p.keyIdx = none ∨ 5 ≤ p.cls ∨ p.reserved ≠ 0 ∨ p.dchip ≠ s.chipId := by
  simp only [State.goodHeader, not_and_or, not_lt, Option.not_isSome_iff_eq_none]

theorem packetError_of_not_goodHeader {s : State} {p : FabricPacket} (h : ¬ s.goodHeader p) : s.packetError p = some 2 := by
  rw [State.packetError, if_pos]
  simpa only [Bool.or_eq_true, decide_eq_true_eq, bne_iff_ne, Option.isNone_iff_eq_none, or_assoc] using not_goodHeader_iff.mp h

/-- A good packet handed on by its class (R382). -/
def State.handOn (s : State) (d : Nat) (p : FabricPacket) : Host.Outcome State Fault Refusal :=
  match p.cls with
  | 0 => .next (s.sendFrom d (Token.parse p.payload))
  | 1 => .next (s.remoteIn p.schip p.payload)
  | 2 => .next (s.remoteAnswer p.payload)
  | 3 => .next ((s.exchangeData d p.schip p.payload p.sentIn).getD s)
  | _ => s.exchangeControl p.schip p.payload

section
variable {s : State} {d : Nat} {w : WirePacket} (hd : d = 16 ∨ d = 17) (hlive : (s.die d).state = .active)
include hd hlive

/-- The guard of a received packet passes at a fabric die that carries data. -/
theorem fabricDie_listens : ((d != 16 && d != 17) || decide ((s.die d).state ≠ .active)) = false := by
  rcases hd with rfl | rfl <;> simp [hlive]

theorem fabricPacketReceive_of_error {n : Nat} (herr : s.packetError (FabricPacket.parse w) = some n) :
    exec (.fabricPacketReceive d w) s = .next (s.countDie d n 1) := by
  have hexec : exec (.fabricPacketReceive d w) s = execFabricPacketReceive d w s := rfl
  simp only [hexec, execFabricPacketReceive, fabricDie_listens hd hlive, herr, Bool.false_eq_true, if_false]

theorem fabricPacketReceive_of_good (herr : s.packetError (FabricPacket.parse w) = none) :
    exec (.fabricPacketReceive d w) s = s.handOn d (FabricPacket.parse w) := by
  have hexec : exec (.fabricPacketReceive d w) s = execFabricPacketReceive d w s := rfl
  simp only [hexec, execFabricPacketReceive, fabricDie_listens hd hlive, herr, Bool.false_eq_true, if_false]
  rfl

end

/-! ### Ports (R381, R394) -/

theorem fabricPortChange_down {s : State} {n : Nat} (hn : n < 36) :
    exec (.fabricPortChange n false) s = .next { s with ports := Map.put s.ports n false } := by
  have hexec : exec (.fabricPortChange n false) s = execFabricPortChange n false s := rfl
  simp [hexec, execFabricPortChange, Nat.not_le.mpr hn]

theorem fabricPortChange_up {s : State} {n : Nat} (hn : n < 36) (hlive : (s.die (if n < 18 then 16 else 17)).state = .active) :
    exec (.fabricPortChange n true) s = .next { s with
      ports := Map.put s.ports n true, control := { s.control with trained := true } } := by
  have hexec : exec (.fabricPortChange n true) s = execFabricPortChange n true s := rfl
  simp [hexec, execFabricPortChange, Nat.not_le.mpr hn, hlive]

/-- Settles O58: the steps of a boundary and of the fabric, each by its lemma. -/
theorem boundariesAndFabric : Obligations.BoundariesAndFabric := by
  refine ⟨fun s d => ⟨?_, ?_, ?_, ?_, ?_, ?_, ?_, ?_⟩, fun s => ⟨?_, ?_, ?_, ?_, ?_⟩⟩
  · intro hd hup hcount hstep hmate hsend hrecv hfirst hway
    exact keyRolloverStart_of_mayRoll hd (mayRoll_iff.mpr ⟨hup, hcount, hstep, hmate, hsend, hrecv⟩) hfirst hway
  · exact senderKeyDelivery_of_keyed
  · exact firstNewKeyFlit_of_delivered
  · exact drainMarkerSend_of_switched
  · exact drainMarkerArrival_of_sent
  · exact flitCounterLimit_of_reached
  · exact boundaryTagFailure_quarantines
  · intro k y hy hdirs hfirst hup hroom
    exact boundaryTokenCreditReturn_of_first hy hdirs hfirst hup hroom
  · intro k p port hp hfirst hreach hport hkey hspent
    exact fabricPacketSend_of_port hp hfirst hreach hport hkey hspent
  · intro k p port n hp hreach hport hfull hn
    exact fabricPacketSend_of_spent hp hreach hport (keySpent_of_full hn hfull)
  · intro k p hp hfirst hcls hreach
    exact fabricPacketSend_of_unreachable_token hp hfirst hcls hreach
  · intro d w hd hlive p
    refine ⟨?_, ?_, ?_⟩
    · intro hkey hcls hres hchip htag
      have herr : s.packetError p = none := by
        rw [packetError_of_goodHeader ⟨hkey, hcls, hres, hchip⟩, htag]
        rfl
      rw [fabricPacketReceive_of_good hd hlive herr]
      refine ⟨?_, ?_, ?_, ?_, ?_⟩ <;> intro hclass <;> simp only [State.handOn, p, show (FabricPacket.parse w).cls = _ from hclass]
    · intro hbad
      exact fabricPacketReceive_of_error hd hlive (packetError_of_not_goodHeader (not_goodHeader_iff.mpr hbad))
    · intro hkey hcls hres hchip htag
      refine fabricPacketReceive_of_error hd hlive ?_
      rw [packetError_of_goodHeader ⟨hkey, hcls, hres, hchip⟩, if_pos htag]
  · intro n hn
    exact ⟨fabricPortChange_down hn, fabricPortChange_up hn⟩

end Sys2Proof.Machine
end

section
/-! PROOFS. The codes of a word's fields, each read both ways (R52 to R59, R61 to R67). -/
namespace Sys2Proof

/-! ### Codes that may be reserved -/

theorem orElse_fst_eq_nil {α : Type} {x : Option α} {d : α} {r : Nat} : (orElse x d r).1 = [] ↔ ∃ a, x = some a := by
  cases x <;> simp [orElse]

@[simp] theorem orElse_some {α : Type} (a d : α) (r : Nat) : orElse (some a) d r = ([], a) := rfl

@[simp] theorem orReason_eq_nil {ok : Bool} {r : Nat} : orReason ok r = [] ↔ ok = true := by
  cases ok <;> simp [orReason]

/-- What a field with an accepted code decodes to has that code, for any table whose codes are those that it reads. -/
theorem enc_orElse {α : Type} {dec : Nat → Option α} {enc : α → Nat} (h : ∀ n a, dec n = some a → enc a = n)
    {n r : Nat} {d : α} (hok : (orElse (dec n) d r).1 = []) : enc (orElse (dec n) d r).2 = n := by
  obtain ⟨a, ha⟩ := orElse_fst_eq_nil.mp hok
  simp [ha, h n a ha]

/-! ### Selectors (R53) -/

theorem encSel_of_decSel (n : Nat) (s : Sel) (h : decSel n = some s) : encSel s = n := by
  unfold decSel at h
  split_ifs at h <;> cases h <;> simp only [encSel] <;> omega

theorem fits_of_decSel {n : Nat} {s : Sel} (h : decSel n = some s) : s.fits = true := by
  unfold decSel at h
  split_ifs at h <;> cases h <;> simp only [Sel.fits, decide_eq_true_eq] <;> omega

@[simp] theorem decSel_encSel {s : Sel} (h : s.fits = true) : decSel (encSel s) = some s := by
  cases s with
  | zero | lane | fp | iter | act | wpop => rfl
  | v n => exact if_pos (of_decide_eq_true h)
  | k n =>
    have hn : n < 32 := of_decide_eq_true h
    rw [encSel, decSel, if_neg (by omega), if_pos (by omega), Nat.add_sub_cancel_left]
  | p n =>
    have hn : n < 8 := of_decide_eq_true h
    rw [encSel, decSel]
    iterate 8 rw [if_neg (by omega)]
    rw [if_pos (by omega), Nat.add_sub_cancel_left]
  | f n =>
    have hn : n < 256 := of_decide_eq_true h
    rw [encSel, decSel]
    iterate 9 rw [if_neg (by omega)]
    rw [if_pos (by omega), Nat.add_sub_cancel_left]

theorem encSel_lt {s : Sel} (h : s.fits = true) : encSel s < 512 := by
  cases s <;> simp [Sel.fits] at h <;> simp [encSel] <;> omega

@[simp] theorem encSel_decSelAt {w lo : Nat} (h : (decSelAt w lo).1 = []) : encSel (decSelAt w lo).2 = bits w lo 9 :=
  enc_orElse encSel_of_decSel h

@[simp] theorem fits_decSelAt {w lo : Nat} (h : (decSelAt w lo).1 = []) : (decSelAt w lo).2.fits = true := by
  obtain ⟨s, hs⟩ := orElse_fst_eq_nil.mp h
  simp [decSelAt, hs, fits_of_decSel hs]

/-! ### Types, sizes, hints, operations and modes (R55, R62, R64, R166 to R168, R181) -/

theorem encTy_of_decTy (n : Nat) (t : Ty) (h : decTy n = some t) : encTy t = n := by
  unfold decTy at h
  split at h <;> cases h <;> rfl

@[simp] theorem decTy_encTy (t : Ty) : decTy (encTy t) = some t := by cases t <;> rfl

@[simp] theorem encTy_decTyAt {w lo : Nat} (h : (decTyAt w lo).1 = []) : encTy (decTyAt w lo).2 = bits w lo 5 :=
  enc_orElse encTy_of_decTy h

theorem encSize_of_decSize (n : Nat) (z : Size) (h : decSize n = some z) : encSize z = n := by
  unfold decSize at h
  split at h <;> cases h <;> rfl

theorem encHint_of_decHint (n : Nat) (z : Hint) (h : decHint n = some z) : encHint z = n := by
  unfold decHint at h
  split at h <;> cases h <;> rfl

theorem encAtomOp_of_decAtomOp (n : Nat) (o : AtomOp) (h : decAtomOp n = some o) : encAtomOp o = n := by
  unfold decAtomOp at h
  split at h <;> cases h <;> rfl

theorem encLaneMode_of_decLaneMode (n : Nat) (m : LaneMode) (h : decLaneMode n = some m) : encLaneMode m = n := by
  unfold decLaneMode at h
  split at h <;> cases h <;> rfl

theorem encPollMode_of_decPollMode (n : Nat) (m : PollMode) (h : decPollMode n = some m) : encPollMode m = n := by
  unfold decPollMode at h
  split at h <;> cases h <;> rfl

theorem encPeersMode_of_decPeersMode (n : Nat) (m : PeersMode) (h : decPeersMode n = some m) : encPeersMode m = n := by
  unfold decPeersMode at h
  split at h <;> cases h <;> rfl

theorem encRedOp_of_decRedOp (n : Nat) (o : RedOp) (h : decRedOp n = some o) : encRedOp o = n := by
  unfold decRedOp at h
  split at h <;> cases h <;> rfl

@[simp] theorem decSize_encSize (z : Size) : decSize (encSize z) = some z := by cases z <;> rfl
@[simp] theorem decHint_encHint (z : Hint) : decHint (encHint z) = some z := by cases z <;> rfl
@[simp] theorem decAtomOp_encAtomOp (o : AtomOp) : decAtomOp (encAtomOp o) = some o := by cases o <;> rfl
@[simp] theorem decLaneMode_encLaneMode (m : LaneMode) : decLaneMode (encLaneMode m) = some m := by cases m <;> rfl
@[simp] theorem decPollMode_encPollMode (m : PollMode) : decPollMode (encPollMode m) = some m := by cases m <;> rfl
@[simp] theorem decPeersMode_encPeersMode (m : PeersMode) : decPeersMode (encPeersMode m) = some m := by cases m <;> rfl
@[simp] theorem decRedOp_encRedOp (o : RedOp) : decRedOp (encRedOp o) = some o := by cases o <;> rfl

/-! ### Codes of which none is reserved (R56 to R59, R61, R62, R65, R67) -/

theorem bits_lt (w lo n : Nat) : bits w lo n < 2 ^ n := Nat.mod_lt _ (Nat.two_pow_pos n)

/-- A table of 2^k codes that reads each number's code back gives the code of every field of k bits. -/
theorem enc_dec_bits {α : Type} {dec : Nat → α} {enc : α → Nat} {k : Nat} (h : ∀ n < 2 ^ k, enc (dec n) = n) (w lo : Nat) :
    enc (dec (bits w lo k)) = bits w lo k := h _ (bits_lt w lo k)

theorem encRnd_decRnd_of_lt : ∀ n < 2 ^ 3, encRnd (decRnd n) = n := by decide

@[simp] theorem encRnd_decRnd (w lo : Nat) : encRnd (decRnd (bits w lo 3)) = bits w lo 3 := enc_dec_bits encRnd_decRnd_of_lt w lo
@[simp] theorem encSrcMod_decSrcMod (w lo : Nat) : encSrcMod (decSrcMod (bits w lo 2)) = bits w lo 2 := enc_dec_bits (by decide) w lo
@[simp] theorem encComb_decComb (w lo : Nat) : encComb (decComb (bits w lo 3)) = bits w lo 3 := enc_dec_bits (by decide) w lo
@[simp] theorem encCond_decCond (w lo : Nat) : encCond (decCond (bits w lo 3)) = bits w lo 3 := enc_dec_bits (by decide) w lo
@[simp] theorem encIType_decIType (w lo : Nat) : encIType (decIType (bits w lo 2)) = bits w lo 2 := enc_dec_bits (by decide) w lo
@[simp] theorem encScope_decScope (w lo : Nat) : encScope (decScope (bits w lo 2)) = bits w lo 2 := enc_dec_bits (by decide) w lo
@[simp] theorem encPath_decPath (w lo : Nat) : encPath (decPath (bits w lo 2)) = bits w lo 2 := enc_dec_bits (by decide) w lo
@[simp] theorem encItc_decItc (w lo : Nat) : encItc (decItc (bits w lo 2)) = bits w lo 2 := enc_dec_bits (by decide) w lo

@[simp] theorem decRnd_encRnd (r : Rnd) : decRnd (encRnd r) = r := by cases r <;> rfl
@[simp] theorem decSrcMod_encSrcMod (m : SrcMod) : decSrcMod (encSrcMod m) = m := by cases m <;> rfl
@[simp] theorem decComb_encComb (x : Comb) : decComb (encComb x) = x := by cases x <;> rfl
@[simp] theorem decCond_encCond (x : Cond) : decCond (encCond x) = x := by cases x <;> rfl
@[simp] theorem decIType_encIType (t : IType) : decIType (encIType t) = t := by cases t <;> rfl
@[simp] theorem decScope_encScope (x : Scope) : decScope (encScope x) = x := by cases x <;> rfl
@[simp] theorem decPath_encPath (p : Path) : decPath (encPath p) = p := by cases p <;> rfl
@[simp] theorem decItc_encItc (x : Itc) : decItc (encItc x) = x := by cases x <;> rfl

/-! ### The width of each code -/

theorem encTy_lt (t : Ty) : encTy t < 32 := by cases t <;> decide
theorem encSize_lt (z : Size) : encSize z < 8 := by cases z <;> decide
theorem encHint_lt (z : Hint) : encHint z < 8 := by cases z <;> decide
theorem encAtomOp_lt (o : AtomOp) : encAtomOp o < 16 := by cases o <;> decide
theorem encLaneMode_lt (m : LaneMode) : encLaneMode m < 8 := by cases m <;> decide
theorem encPollMode_lt (m : PollMode) : encPollMode m < 8 := by cases m <;> decide
theorem encPeersMode_lt (m : PeersMode) : encPeersMode m < 8 := by cases m <;> decide
theorem encRedOp_lt (o : RedOp) : encRedOp o < 4 := by cases o <;> decide
theorem encRnd_lt (r : Rnd) : encRnd r < 8 := by cases r <;> decide
theorem encSrcMod_lt (m : SrcMod) : encSrcMod m < 4 := by cases m <;> decide
theorem encComb_lt (x : Comb) : encComb x < 8 := by cases x <;> decide
theorem encCond_lt (x : Cond) : encCond x < 8 := by cases x <;> decide
theorem encIType_lt (t : IType) : encIType t < 4 := by cases t <;> decide
theorem encScope_lt (x : Scope) : encScope x < 4 := by cases x <;> decide
theorem encPath_lt (p : Path) : encPath p < 4 := by cases p <;> decide
theorem encItc_lt (x : Itc) : encItc x < 4 := by cases x <;> decide
theorem b2n_lt (b : Bool) : b2n b < 2 := by cases b <;> decide

end Sys2Proof
end

section
/-! PROOFS. A word as the packing of its fields, lowest first (R52, R60 to R68). -/
namespace Sys2Proof

theorem bits_add (w lo n m : Nat) : bits w lo (n + m) = bits w lo n + 2 ^ n * bits w (lo + n) m := by
  simp only [bits, Nat.pow_add, Nat.mod_mul, Nat.div_div_eq_div_mul]

/-- One bit is a field of width 1. -/
theorem bitOf_eq_bits (w i : Nat) : bitOf w i = (bits w i 1 == 1) := rfl

@[simp] theorem b2n_bits_one (w i : Nat) : b2n (bits w i 1 == 1) = bits w i 1 := by
  rcases Nat.mod_two_eq_zero_or_one (w / 2 ^ i) with h | h <;> simp [bits, b2n, h]

@[simp] theorem b2n_beq_one (b : Bool) : (b2n b == 1) = b := by cases b <;> rfl

/-- The number that fields make, lowest first, each a number and its width. -/
def pack : List (Nat × Nat) → Nat
  | [] => 0
  | (v, n) :: fs => v + 2 ^ n * pack fs

/-- The width of fields together. -/
def packWidth : List (Nat × Nat) → Nat
  | [] => 0
  | (_, n) :: fs => n + packWidth fs

/-- A word holds these fields from bit lo on. -/
def HoldsFields (w : Nat) : Nat → List (Nat × Nat) → Prop
  | _, [] => True
  | lo, (v, n) :: fs => bits w lo n = v ∧ HoldsFields w (lo + n) fs

/-- Every field's number is below 2 to its width. -/
def FieldsFit (fs : List (Nat × Nat)) : Prop := ∀ f ∈ fs, f.1 < 2 ^ f.2

theorem pack_lt {fs : List (Nat × Nat)} (h : FieldsFit fs) : pack fs < 2 ^ packWidth fs := by
  induction fs with
  | nil => decide
  | cons f fs ih =>
    obtain ⟨v, n⟩ := f
    obtain ⟨hv, ht⟩ := List.forall_mem_cons.mp h
    have hv : v < 2 ^ n := hv
    calc v + 2 ^ n * pack fs < 2 ^ n * (pack fs + 1) := by rw [Nat.mul_succ]; omega
      _ ≤ 2 ^ n * 2 ^ packWidth fs := Nat.mul_le_mul_left _ (ih ht)
      _ = 2 ^ (n + packWidth fs) := (Nat.pow_add ..).symm

/-- A word holds fields exactly where they pack to its bits there: a packing has one reading. -/
theorem holdsFields_iff {fs : List (Nat × Nat)} (h : FieldsFit fs) (w lo : Nat) :
    HoldsFields w lo fs ↔ pack fs = bits w lo (packWidth fs) := by
  induction fs generalizing lo with
  | nil => simp [HoldsFields, pack, packWidth, bits, Nat.mod_one]
  | cons f fs ih =>
    obtain ⟨v, n⟩ := f
    obtain ⟨hv, ht⟩ := List.forall_mem_cons.mp h
    simp only [HoldsFields, pack, packWidth, bits_add, ih ht]
    constructor
    · rintro ⟨rfl, htail⟩
      rw [htail]
    · intro heq
      have hb := bits_lt w lo n
      have hlow := congrArg (· % 2 ^ n) heq
      have htail := congrArg (· / 2 ^ n) heq
      simp only [Nat.add_mul_mod_self_left, Nat.mod_eq_of_lt hv, Nat.mod_eq_of_lt hb] at hlow
      simp only [Nat.add_mul_div_left _ _ (Nat.two_pow_pos n), Nat.div_eq_of_lt hv, Nat.div_eq_of_lt hb, Nat.zero_add] at htail
      exact ⟨hlow.symm, htail⟩

/-- A decoder and an encoder of the 56 bits below the opcode agree in both directions: fields that it accepts fit and
encode to the bits they came from, and fields that fit decode from their encoding, which 56 bits hold. -/
structure Codec {F : Type} (dec : Nat → List Nat × F) (enc : F → Nat) (fits : F → Bool) : Prop where
  sound : ∀ w, (dec w).1 = [] → fits (dec w).2 = true ∧ enc (dec w).2 = bits w 0 56
  complete : ∀ w a, fits a = true → enc a = bits w 0 56 → dec w = ([], a)
  bound : ∀ a, fits a = true → enc a < 2 ^ 56

/-- A format's codec, from the list of its fields. -/
theorem Codec.of_fields {F : Type} {dec : Nat → List Nat × F} {enc : F → Nat} {fits : F → Bool} (fields : F → List (Nat × Nat))
    (henc : ∀ a, enc a = pack (fields a)) (hwidth : ∀ a, packWidth (fields a) = 56) (hfit : ∀ a, fits a = true → FieldsFit (fields a))
    (hsound : ∀ w, (dec w).1 = [] → fits (dec w).2 = true ∧ HoldsFields w 0 (fields (dec w).2))
    (hcomplete : ∀ w a, fits a = true → HoldsFields w 0 (fields a) → dec w = ([], a)) : Codec dec enc fits where
  sound w hok := by
    obtain ⟨hf, hw⟩ := hsound w hok
    rw [henc, ← hwidth (dec w).2]
    exact ⟨hf, (holdsFields_iff (hfit _ hf) w 0).mp hw⟩
  complete w a hf h := by
    rw [henc, ← hwidth a] at h
    exact hcomplete w a hf ((holdsFields_iff (hfit a hf) w 0).mpr h)
  bound a hf := by
    rw [henc, ← hwidth a]
    exact pack_lt (hfit a hf)

@[simp] theorem fieldsFit_nil : FieldsFit [] := by simp [FieldsFit]

@[simp] theorem fieldsFit_cons {v n : Nat} {fs : List (Nat × Nat)} : FieldsFit ((v, n) :: fs) ↔ v < 2 ^ n ∧ FieldsFit fs := by
  simp [FieldsFit]

@[simp] theorem fieldsFit_append {fs gs : List (Nat × Nat)} : FieldsFit (fs ++ gs) ↔ FieldsFit fs ∧ FieldsFit gs := by
  simp only [FieldsFit, List.forall_mem_append]

@[simp] theorem holdsFields_append {w lo : Nat} {fs gs : List (Nat × Nat)} :
    HoldsFields w lo (fs ++ gs) ↔ HoldsFields w lo fs ∧ HoldsFields w (lo + packWidth fs) gs := by
  induction fs generalizing lo with
  | nil => simp [HoldsFields, packWidth]
  | cons f fs ih => simp [HoldsFields, packWidth, ih, Nat.add_assoc, and_assoc]

@[simp] theorem packWidth_append (fs gs : List (Nat × Nat)) : packWidth (fs ++ gs) = packWidth fs + packWidth gs := by
  induction fs with
  | nil => simp [packWidth]
  | cons f fs ih => simp [packWidth, ih, Nat.add_assoc]

/-! ### Guard and modifiers (R52, R57) -/

/-- A guard's fields (R52). -/
def Guard.fields (g : Guard) : List (Nat × Nat) := [(g.pred, 3), (b2n g.neg, 1)]

@[simp] theorem Guard.packWidth_fields (g : Guard) : packWidth g.fields = 4 := rfl

theorem Guard.fields_fit {g : Guard} (h : g.fits = true) : FieldsFit g.fields := by
  simp only [Guard.fields, fieldsFit_cons, fieldsFit_nil, and_true]
  exact ⟨of_decide_eq_true h, b2n_lt _⟩

@[simp] theorem fits_decGuard (w : Nat) : (decGuard w).fits = true := decide_eq_true (bits_lt w 52 3)

@[simp] theorem holds_decGuard (w : Nat) : HoldsFields w 52 (decGuard w).fields := by
  simp [Guard.fields, decGuard, HoldsFields, bitOf_eq_bits]

theorem decGuard_eq {w : Nat} {g : Guard} (h : HoldsFields w 52 g.fields) : decGuard w = g := by
  simp only [Guard.fields, HoldsFields, Nat.reduceAdd] at h
  simp [decGuard, bitOf_eq_bits, h]

/-- The modifier byte, its reserved bit 0. -/
def Mods.fields (m : Mods) : List (Nat × Nat) :=
  [(0, 1), (b2n m.sat, 1), (encSrcMod m.a, 2), (encSrcMod m.b, 2), (encSrcMod m.c, 2)]

@[simp] theorem Mods.packWidth_fields (m : Mods) : packWidth m.fields = 8 := rfl

@[simp] theorem Mods.fields_fit (m : Mods) : FieldsFit m.fields := by
  simp only [Mods.fields, fieldsFit_cons, fieldsFit_nil, and_true]
  exact ⟨by decide, b2n_lt _, encSrcMod_lt _, encSrcMod_lt _, encSrcMod_lt _⟩

@[simp] theorem holds_decMods {w : Nat} (h : bitOf w 0 = false) : HoldsFields w 0 (decMods w).fields := by
  have h0 : bits w 0 1 = 0 := by simpa [bitOf, bits] using h
  simp [Mods.fields, decMods, HoldsFields, bitOf_eq_bits, h0]

theorem decMods_eq {w : Nat} {m : Mods} (h : HoldsFields w 0 m.fields) : bitOf w 0 = false ∧ decMods w = m := by
  simp only [Mods.fields, HoldsFields, Nat.reduceAdd] at h
  simp [decMods, bitOf_eq_bits, h]

/-! ### Format A and its kin (R60, R69) -/

/-- Format A, lowest field first (R60). -/
def FmtA.fields (a : FmtA) : List (Nat × Nat) :=
  a.mods.fields ++ [(encSel a.sc, 9), (encSel a.sb, 9), (encSel a.sa, 9), (encSel a.dst, 9), (encTy a.ty, 5), (encRnd a.rnd, 3)]
    ++ a.g.fields

theorem codecA : Codec decA encA FmtA.fits := by
  refine .of_fields FmtA.fields (fun a => ?_) (fun a => by simp [FmtA.fields, packWidth]) (fun a hf => ?_) (fun w hok => ?_)
    (fun w a hf h => ?_)
  · simp only [encA, encGuard, encMods, FmtA.fields, Mods.fields, Guard.fields, List.cons_append, List.nil_append, pack]
    ring
  · simp only [FmtA.fits, Bool.and_eq_true] at hf
    simp only [FmtA.fields, fieldsFit_append, fieldsFit_cons, fieldsFit_nil, Mods.fields_fit, Guard.fields_fit, hf, encSel_lt,
      encTy_lt, encRnd_lt, Nat.reducePow, and_true]
  · simp only [decA, List.append_eq_nil_iff, orReason_eq_nil, Bool.not_eq_true'] at hok
    simp [decA, FmtA.fits, HoldsFields, FmtA.fields, hok]
  · simp only [FmtA.fits, Bool.and_eq_true] at hf
    simp only [FmtA.fields, holdsFields_append, HoldsFields, packWidth, packWidth_append, Mods.packWidth_fields, Nat.reduceAdd] at h
    obtain ⟨⟨hmods, h⟩, hg⟩ := h
    simp [decA, decSelAt, decTyAt, h, hf, decMods_eq hmods, decGuard_eq hg]

/-- A format that another's fields make up: its codec from the other's. -/
theorem Codec.derive {F G : Type} {dec : Nat → List Nat × F} {enc : F → Nat} {fits : F → Bool} (base : Codec dec enc fits)
    {dec' : Nat → List Nat × G} {enc' : G → Nat} {fits' : G → Bool} (toBase : G → F)
    (hfits : ∀ a, fits' a = fits (toBase a)) (henc : ∀ a, enc' a = enc (toBase a))
    (hsound : ∀ w, (dec' w).1 = [] → (dec w).1 = [] ∧ toBase (dec' w).2 = (dec w).2)
    (hcomplete : ∀ w a, dec w = ([], toBase a) → dec' w = ([], a)) : Codec dec' enc' fits' where
  sound w hok := by
    obtain ⟨hbase, heq⟩ := hsound w hok
    rw [hfits, henc, heq]
    exact base.sound w hbase
  complete w a hf h := hcomplete w a (base.complete w _ (hfits a ▸ hf) (henc a ▸ h))
  bound a hf := henc a ▸ base.bound _ (hfits a ▸ hf)

/-- The three bits that format A's kin read in place of the rounding. -/
theorem rndBits_of_decA {w : Nat} {a : FmtA} (h : decA w = ([], a)) : bits w 49 3 = encRnd a.rnd := by
  rw [← congrArg (fun x => x.2.rnd) h]
  exact (encRnd_decRnd w 49).symm

/-- ICMP and FCMP as format A, with the rounding whose code their condition has (R69). -/
def FmtCmp.toA (a : FmtCmp) : FmtA := ⟨a.g, decRnd (encCond a.cond), a.ty, a.dst, a.sa, a.sb, a.sc, a.mods⟩

theorem codecCmp : Codec decCmp encCmp FmtCmp.fits := by
  refine codecA.derive FmtCmp.toA (fun a => rfl) (fun a => ?_) (fun w hok => ⟨hok, ?_⟩) (fun w a h => ?_)
  · simp only [encCmp, FmtCmp.toA, encA, encRnd_decRnd_of_lt _ (encCond_lt a.cond)]
  · simp only [FmtCmp.toA, decCmp, encCond_decCond]
    rfl
  · have hcond := rndBits_of_decA h
    simp only [FmtCmp.toA, encRnd_decRnd_of_lt _ (encCond_lt a.cond)] at hcond
    simp [decCmp, h, hcond, FmtCmp.toA]

/-- LANEX as format A, with the rounding whose code its mode has (R69). -/
def FmtLanex.toA (a : FmtLanex) : FmtA := ⟨a.g, decRnd (encLaneMode a.mode), a.ty, a.dst, a.sa, a.sb, a.sc, a.mods⟩

theorem codecLanex : Codec decLanex encLanex FmtLanex.fits := by
  refine codecA.derive FmtLanex.toA (fun a => rfl) (fun a => ?_) (fun w hok => ?_) (fun w a h => ?_)
  · simp only [encLanex, FmtLanex.toA, encA, encRnd_decRnd_of_lt _ (encLaneMode_lt a.mode)]
  · obtain ⟨hbase, hmode⟩ := List.append_eq_nil_iff.mp hok
    simp only [FmtLanex.toA, decLanex, enc_orElse encLaneMode_of_decLaneMode hmode]
    exact ⟨hbase, rfl⟩
  · have hmode := rndBits_of_decA h
    simp only [FmtLanex.toA, encRnd_decRnd_of_lt _ (encLaneMode_lt a.mode)] at hmode
    simp [decLanex, h, hmode, FmtLanex.toA]

/-- POLL as format A, with the rounding whose code its mode has (R69). -/
def FmtPoll.toA (a : FmtPoll) : FmtA := ⟨a.g, decRnd (encPollMode a.mode), a.ty, a.dst, a.sa, a.sb, a.sc, a.mods⟩

theorem codecPoll : Codec decPoll encPoll FmtPoll.fits := by
  refine codecA.derive FmtPoll.toA (fun a => rfl) (fun a => ?_) (fun w hok => ?_) (fun w a h => ?_)
  · simp only [encPoll, FmtPoll.toA, encA, encRnd_decRnd_of_lt _ (encPollMode_lt a.mode)]
  · obtain ⟨hbase, hmode⟩ := List.append_eq_nil_iff.mp hok
    simp only [FmtPoll.toA, decPoll, enc_orElse encPollMode_of_decPollMode hmode, hmode, List.isEmpty_nil, if_true]
    exact ⟨hbase, rfl⟩
  · have hmode := rndBits_of_decA h
    simp only [FmtPoll.toA, encRnd_decRnd_of_lt _ (encPollMode_lt a.mode)] at hmode
    simp [decPoll, h, hmode, FmtPoll.toA]

/-- PEERS as format A, with the rounding whose code its mode has (R69). -/
def FmtPeers.toA (a : FmtPeers) : FmtA := ⟨a.g, decRnd (encPeersMode a.mode), a.ty, a.dst, a.sa, a.sb, a.sc, a.mods⟩

theorem codecPeers : Codec decPeers encPeers FmtPeers.fits := by
  refine codecA.derive FmtPeers.toA (fun a => rfl) (fun a => ?_) (fun w hok => ?_) (fun w a h => ?_)
  · simp only [encPeers, FmtPeers.toA, encA, encRnd_decRnd_of_lt _ (encPeersMode_lt a.mode)]
  · obtain ⟨hbase, hmode⟩ := List.append_eq_nil_iff.mp hok
    simp only [FmtPeers.toA, decPeers, enc_orElse encPeersMode_of_decPeersMode hmode]
    exact ⟨hbase, rfl⟩
  · have hmode := rndBits_of_decA h
    simp only [FmtPeers.toA, encRnd_decRnd_of_lt _ (encPeersMode_lt a.mode)] at hmode
    simp [decPeers, h, hmode, FmtPeers.toA]

/-- PLOP: a truth table stands for the modifiers (R69). -/
def FmtPlop.fields (a : FmtPlop) : List (Nat × Nat) :=
  [(a.table, 8), (encSel a.sc, 9), (encSel a.sb, 9), (encSel a.sa, 9), (encSel a.dst, 9), (encTy a.ty, 5), (encRnd a.rnd, 3)]
    ++ a.g.fields

theorem codecPlop : Codec decPlop encPlop FmtPlop.fits := by
  refine .of_fields FmtPlop.fields (fun a => ?_) (fun a => rfl) (fun a hf => ?_) (fun w hok => ?_) (fun w a hf h => ?_)
  · simp only [encPlop, encGuard, FmtPlop.fields, Guard.fields, List.cons_append, List.nil_append, pack]
    ring
  · simp only [FmtPlop.fits, Bool.and_eq_true, decide_eq_true_eq] at hf
    simp only [FmtPlop.fields, fieldsFit_append, fieldsFit_cons, fieldsFit_nil, Guard.fields_fit, hf, encSel_lt, encTy_lt, encRnd_lt,
      Nat.reducePow, and_true]
  · simp only [decPlop, List.append_eq_nil_iff] at hok
    simpa [decPlop, FmtPlop.fits, HoldsFields, FmtPlop.fields, packWidth, hok] using bits_lt w 0 8
  · simp only [FmtPlop.fits, Bool.and_eq_true] at hf
    simp only [FmtPlop.fields, holdsFields_append, HoldsFields, packWidth, Nat.reduceAdd] at h
    obtain ⟨h, hg⟩ := h
    simp [decPlop, decSelAt, decTyAt, h, hf, decGuard_eq hg]

/-- The conversions: SC holds a type code and four bits that are 0. -/
def FmtCvt.fields (a : FmtCvt) : List (Nat × Nat) :=
  a.mods.fields ++ [(encTy a.sty, 5), (0, 4), (encSel a.sb, 9), (encSel a.sa, 9), (encSel a.dst, 9), (encTy a.dty, 5),
    (encRnd a.rnd, 3)] ++ a.g.fields

theorem codecCvt : Codec decCvt encCvt FmtCvt.fits := by
  refine .of_fields FmtCvt.fields (fun a => ?_) (fun a => rfl) (fun a hf => ?_) (fun w hok => ?_) (fun w a hf h => ?_)
  · simp only [encCvt, encGuard, encMods, FmtCvt.fields, Mods.fields, Guard.fields, List.cons_append, List.nil_append, pack]
    ring
  · simp only [FmtCvt.fits, Bool.and_eq_true] at hf
    simp only [FmtCvt.fields, fieldsFit_append, fieldsFit_cons, fieldsFit_nil, Mods.fields_fit, Guard.fields_fit, hf, encSel_lt,
      encTy_lt, encRnd_lt, Nat.reducePow, Nat.ofNat_pos, and_true]
  · simp only [decCvt, List.append_eq_nil_iff, orReason_eq_nil, Bool.not_eq_true', beq_iff_eq] at hok
    simp [decCvt, FmtCvt.fits, HoldsFields, FmtCvt.fields, hok]
  · simp only [FmtCvt.fits, Bool.and_eq_true] at hf
    simp only [FmtCvt.fields, holdsFields_append, HoldsFields, packWidth, packWidth_append, Mods.packWidth_fields, Nat.reduceAdd] at h
    obtain ⟨⟨hmods, h⟩, hg⟩ := h
    simp [decCvt, decSelAt, decTyAt, h, hf, decMods_eq hmods, decGuard_eq hg]

/-- FREDW: SC holds an op and seven bits that are 0. -/
def FmtFredw.fields (a : FmtFredw) : List (Nat × Nat) :=
  a.mods.fields ++ [(encRedOp a.op, 2), (0, 7), (encSel a.sb, 9), (encSel a.sa, 9), (encSel a.dst, 9), (encTy a.ty, 5),
    (encRnd a.rnd, 3)] ++ a.g.fields

theorem codecFredw : Codec decFredw encFredw FmtFredw.fits := by
  refine .of_fields FmtFredw.fields (fun a => ?_) (fun a => rfl) (fun a hf => ?_) (fun w hok => ?_) (fun w a hf h => ?_)
  · simp only [encFredw, encGuard, encMods, FmtFredw.fields, Mods.fields, Guard.fields, List.cons_append, List.nil_append, pack]
    ring
  · simp only [FmtFredw.fits, Bool.and_eq_true] at hf
    simp only [FmtFredw.fields, fieldsFit_append, fieldsFit_cons, fieldsFit_nil, Mods.fields_fit, Guard.fields_fit, hf, encSel_lt,
      encTy_lt, encRnd_lt, encRedOp_lt, Nat.reducePow, Nat.ofNat_pos, and_true]
  · simp only [decFredw, List.append_eq_nil_iff, orReason_eq_nil, Bool.not_eq_true', beq_iff_eq] at hok
    simp [decFredw, FmtFredw.fits, HoldsFields, FmtFredw.fields, hok, enc_orElse encRedOp_of_decRedOp]
  · simp only [FmtFredw.fits, Bool.and_eq_true] at hf
    simp only [FmtFredw.fields, holdsFields_append, HoldsFields, packWidth, packWidth_append, Mods.packWidth_fields, Nat.reduceAdd] at h
    obtain ⟨⟨hmods, h⟩, hg⟩ := h
    simp [decFredw, decSelAt, decTyAt, h, hf, decMods_eq hmods, decGuard_eq hg]

/-! ### Format I and its kin (R61, R158, R289) -/

/-- Format I (R61). -/
def FmtI.fields (a : FmtI) : List (Nat × Nat) :=
  [(a.imm.toNat, 32), (encSel a.sa, 9), (encSel a.dst, 9), (encIType a.ity, 2)] ++ a.g.fields

theorem codecI : Codec decI encI FmtI.fits := by
  refine .of_fields FmtI.fields (fun a => ?_) (fun a => rfl) (fun a hf => ?_) (fun w hok => ?_) (fun w a hf h => ?_)
  · simp only [encI, encGuard, FmtI.fields, Guard.fields, List.cons_append, List.nil_append, pack]
    ring
  · simp only [FmtI.fits, Bool.and_eq_true] at hf
    simp only [FmtI.fields, fieldsFit_append, fieldsFit_cons, fieldsFit_nil, Guard.fields_fit, hf, encSel_lt, encIType_lt, a.imm.isLt,
      Nat.reducePow, and_true]
  · simp only [decI, List.append_eq_nil_iff] at hok
    simpa [decI, FmtI.fits, HoldsFields, FmtI.fields, packWidth, hok] using (Nat.mod_eq_of_lt (bits_lt w 0 32)).symm
  · simp only [FmtI.fits, Bool.and_eq_true] at hf
    simp only [FmtI.fields, holdsFields_append, HoldsFields, packWidth, Nat.reduceAdd] at h
    obtain ⟨h, hg⟩ := h
    simp [decI, decSelAt, h, hf, decGuard_eq hg]

/-- ICMPI: a condition above 29 immediate bits (R158). -/
def FmtIcmpi.fields (a : FmtIcmpi) : List (Nat × Nat) :=
  [(a.imm, 29), (encCond a.cond, 3), (encSel a.sa, 9), (encSel a.dst, 9), (encIType a.ity, 2)] ++ a.g.fields

theorem codecIcmpi : Codec decIcmpi encIcmpi FmtIcmpi.fits := by
  refine .of_fields FmtIcmpi.fields (fun a => ?_) (fun a => rfl) (fun a hf => ?_) (fun w hok => ?_) (fun w a hf h => ?_)
  · simp only [encIcmpi, encGuard, FmtIcmpi.fields, Guard.fields, List.cons_append, List.nil_append, pack]
    ring
  · simp only [FmtIcmpi.fits, Bool.and_eq_true, decide_eq_true_eq, Nat.reducePow] at hf
    simp only [FmtIcmpi.fields, fieldsFit_append, fieldsFit_cons, fieldsFit_nil, Guard.fields_fit, hf, encSel_lt, encIType_lt,
      encCond_lt, Nat.reducePow, and_true]
  · simp only [decIcmpi, decI, List.append_eq_nil_iff] at hok
    simpa [decIcmpi, decI, FmtIcmpi.fits, HoldsFields, FmtIcmpi.fields, packWidth, hok] using bits_lt w 0 29
  · simp only [FmtIcmpi.fits, Bool.and_eq_true] at hf
    simp only [FmtIcmpi.fields, holdsFields_append, HoldsFields, packWidth, Nat.reduceAdd] at h
    obtain ⟨h, hg⟩ := h
    simp [decIcmpi, decI, decSelAt, h, hf, decGuard_eq hg]

/-- JOIN and GATE: slot, block and path, then ten bits that are 0. -/
def FmtWatch.fields (a : FmtWatch) : List (Nat × Nat) :=
  [(a.slot, 8), (a.block, 12), (encPath a.path, 2), (0, 10), (encSel a.sa, 9), (encSel a.dst, 9), (encIType a.ity, 2)] ++ a.g.fields

theorem codecWatch : Codec decWatch encWatch FmtWatch.fits := by
  refine .of_fields FmtWatch.fields (fun a => ?_) (fun a => rfl) (fun a hf => ?_) (fun w hok => ?_) (fun w a hf h => ?_)
  · simp only [encWatch, encGuard, FmtWatch.fields, Guard.fields, List.cons_append, List.nil_append, pack]
    ring
  · simp only [FmtWatch.fits, Bool.and_eq_true, decide_eq_true_eq] at hf
    simp only [FmtWatch.fields, fieldsFit_append, fieldsFit_cons, fieldsFit_nil, Guard.fields_fit, hf, encSel_lt, encIType_lt,
      encPath_lt, Nat.reducePow, Nat.ofNat_pos, and_true]
  · simp only [decWatch, decI, List.append_eq_nil_iff, orReason_eq_nil, beq_iff_eq] at hok
    simpa [decWatch, decI, FmtWatch.fits, HoldsFields, FmtWatch.fields, packWidth, hok] using ⟨bits_lt w 8 12, bits_lt w 0 8⟩
  · simp only [FmtWatch.fits, Bool.and_eq_true] at hf
    simp only [FmtWatch.fields, holdsFields_append, HoldsFields, packWidth, Nat.reduceAdd] at h
    obtain ⟨h, hg⟩ := h
    simp [decWatch, decI, decSelAt, h, hf, decGuard_eq hg]

/-! ### Formats M, E, X, G and S (R62 to R68) -/

/-- Format M (R62). -/
def FmtM.fields (m : FmtM) : List (Nat × Nat) :=
  [(m.ofs, 16), (encHint m.hint, 3), (encSel m.base, 9), (encSel m.data, 9), (encSize m.size, 3), (b2n m.bmode, 1), (m.bound, 4),
    (encScope m.scope, 2), (m.lsid, 5)] ++ m.g.fields

theorem codecM : Codec decM encM FmtM.fits := by
  refine .of_fields FmtM.fields (fun a => ?_) (fun a => rfl) (fun a hf => ?_) (fun w hok => ?_) (fun w a hf h => ?_)
  · simp only [encM, encGuard, FmtM.fields, Guard.fields, List.cons_append, List.nil_append, pack]
    ring
  · simp only [FmtM.fits, Bool.and_eq_true, decide_eq_true_eq] at hf
    simp only [FmtM.fields, fieldsFit_append, fieldsFit_cons, fieldsFit_nil, Guard.fields_fit, hf, encSel_lt, encHint_lt, encSize_lt,
      encScope_lt, b2n_lt, Nat.reducePow, and_true]
  · simp only [decM, List.append_eq_nil_iff] at hok
    simpa [decM, FmtM.fits, HoldsFields, FmtM.fields, packWidth, hok, enc_orElse encSize_of_decSize, enc_orElse encHint_of_decHint,
      bitOf_eq_bits] using ⟨⟨bits_lt w 47 5, bits_lt w 41 4⟩, bits_lt w 0 16⟩
  · simp only [FmtM.fits, Bool.and_eq_true] at hf
    simp only [FmtM.fields, holdsFields_append, HoldsFields, packWidth, Nat.reduceAdd] at h
    obtain ⟨h, hg⟩ := h
    simp [decM, decSelAt, bitOf_eq_bits, h, hf, decGuard_eq hg]

/-- ATOM and ATOMR: an op in place of the bound (R64). -/
def FmtAtom.fields (m : FmtAtom) : List (Nat × Nat) :=
  [(m.ofs, 16), (encHint m.hint, 3), (encSel m.base, 9), (encSel m.data, 9), (encSize m.size, 3), (b2n m.bmode, 1),
    (encAtomOp m.op, 4), (encScope m.scope, 2), (m.lsid, 5)] ++ m.g.fields

theorem codecAtom : Codec decAtom encAtom FmtAtom.fits := by
  refine .of_fields FmtAtom.fields (fun a => ?_) (fun a => rfl) (fun a hf => ?_) (fun w hok => ?_) (fun w a hf h => ?_)
  · simp only [encAtom, encGuard, FmtAtom.fields, Guard.fields, List.cons_append, List.nil_append, pack]
    ring
  · simp only [FmtAtom.fits, Bool.and_eq_true, decide_eq_true_eq] at hf
    simp only [FmtAtom.fields, fieldsFit_append, fieldsFit_cons, fieldsFit_nil, Guard.fields_fit, hf, encSel_lt, encHint_lt,
      encSize_lt, encScope_lt, encAtomOp_lt, b2n_lt, Nat.reducePow, and_true]
  · simp only [decAtom, decM, List.append_eq_nil_iff] at hok
    simpa [decAtom, decM, FmtAtom.fits, HoldsFields, FmtAtom.fields, packWidth, hok, enc_orElse encSize_of_decSize,
      enc_orElse encHint_of_decHint, enc_orElse encAtomOp_of_decAtomOp, bitOf_eq_bits] using ⟨bits_lt w 47 5, bits_lt w 0 16⟩
  · simp only [FmtAtom.fits, Bool.and_eq_true] at hf
    simp only [FmtAtom.fields, holdsFields_append, HoldsFields, packWidth, Nat.reduceAdd] at h
    obtain ⟨h, hg⟩ := h
    simp [decAtom, decM, decSelAt, bitOf_eq_bits, h, hf, decGuard_eq hg]

/-- Format E (R65). -/
def FmtE.fields (e : FmtE) : List (Nat × Nat) :=
  [(e.edge, 3), (e.stop, 3), (encItc e.itc, 2), (b2n e.nullf, 1), (encComb e.comb, 3), (encScope e.scope, 2), (encSel e.frm, 9),
    (encSel e.val, 9), (e.slot, 8), (e.block, 12)] ++ e.g.fields

theorem codecE : Codec decE encE FmtE.fits := by
  refine .of_fields FmtE.fields (fun a => ?_) (fun a => rfl) (fun a hf => ?_) (fun w hok => ?_) (fun w a hf h => ?_)
  · simp only [encE, encGuard, FmtE.fields, Guard.fields, List.cons_append, List.nil_append, pack]
    ring
  · simp only [FmtE.fits, Bool.and_eq_true, decide_eq_true_eq] at hf
    simp only [FmtE.fields, fieldsFit_append, fieldsFit_cons, fieldsFit_nil, Guard.fields_fit, hf, encSel_lt, encItc_lt, encComb_lt,
      encScope_lt, b2n_lt, Nat.reducePow, and_true]
  · simp only [decE, List.append_eq_nil_iff] at hok
    simpa [decE, FmtE.fits, HoldsFields, FmtE.fields, packWidth, hok, bitOf_eq_bits] using
      ⟨⟨⟨bits_lt w 40 12, bits_lt w 32 8⟩, bits_lt w 3 3⟩, bits_lt w 0 3⟩
  · simp only [FmtE.fits, Bool.and_eq_true] at hf
    simp only [FmtE.fields, holdsFields_append, HoldsFields, packWidth, Nat.reduceAdd] at h
    obtain ⟨h, hg⟩ := h
    simp [decE, decSelAt, bitOf_eq_bits, h, hf, decGuard_eq hg]

/-- FALLOC, SPAWN and SPAWNQ: slot blocks in place of the combine op and NULLF (R65). -/
def FmtSpawn.fields (e : FmtSpawn) : List (Nat × Nat) :=
  [(e.edge, 3), (e.stop, 3), (encItc e.itc, 2), (e.nb, 4), (encScope e.scope, 2), (encSel e.frm, 9), (encSel e.val, 9), (e.slot, 8),
    (e.block, 12)] ++ e.g.fields

theorem codecSpawn : Codec decSpawn encSpawn FmtSpawn.fits := by
  refine .of_fields FmtSpawn.fields (fun a => ?_) (fun a => rfl) (fun a hf => ?_) (fun w hok => ?_) (fun w a hf h => ?_)
  · simp only [encSpawn, encGuard, FmtSpawn.fields, Guard.fields, List.cons_append, List.nil_append, pack]
    ring
  · simp only [FmtSpawn.fits, Bool.and_eq_true, decide_eq_true_eq] at hf
    simp only [FmtSpawn.fields, fieldsFit_append, fieldsFit_cons, fieldsFit_nil, Guard.fields_fit, hf, encSel_lt, encItc_lt,
      encScope_lt, Nat.reducePow, and_true]
  · simp only [decSpawn, decE, List.append_eq_nil_iff] at hok
    simpa [decSpawn, decE, FmtSpawn.fits, HoldsFields, FmtSpawn.fields, packWidth, hok] using
      ⟨⟨⟨⟨bits_lt w 40 12, bits_lt w 32 8⟩, bits_lt w 8 4⟩, bits_lt w 3 3⟩, bits_lt w 0 3⟩
  · simp only [FmtSpawn.fits, Bool.and_eq_true] at hf
    simp only [FmtSpawn.fields, holdsFields_append, HoldsFields, packWidth, Nat.reduceAdd] at h
    obtain ⟨h, hg⟩ := h
    simp [decSpawn, decE, decSelAt, h, hf, decGuard_eq hg]

/-- Format X (R66). -/
def FmtX.fields (x : FmtX) : List (Nat × Nat) :=
  [(x.flags, 8), (x.unit, 8), (encSel x.sc, 9), (encSel x.sb, 9), (encSel x.sa, 9), (x.fch, 5), (x.subop, 4)] ++ x.g.fields

theorem codecX : Codec decX encX FmtX.fits := by
  refine .of_fields FmtX.fields (fun a => ?_) (fun a => rfl) (fun a hf => ?_) (fun w hok => ?_) (fun w a hf h => ?_)
  · simp only [encX, encGuard, FmtX.fields, Guard.fields, List.cons_append, List.nil_append, pack]
    ring
  · simp only [FmtX.fits, Bool.and_eq_true, decide_eq_true_eq] at hf
    simp only [FmtX.fields, fieldsFit_append, fieldsFit_cons, fieldsFit_nil, Guard.fields_fit, hf, encSel_lt, Nat.reducePow, and_true]
  · simp only [decX, List.append_eq_nil_iff] at hok
    simpa [decX, FmtX.fits, HoldsFields, FmtX.fields, packWidth, hok] using
      ⟨⟨⟨bits_lt w 48 4, bits_lt w 43 5⟩, bits_lt w 8 8⟩, bits_lt w 0 8⟩
  · simp only [FmtX.fits, Bool.and_eq_true] at hf
    simp only [FmtX.fields, holdsFields_append, HoldsFields, packWidth, Nat.reduceAdd] at h
    obtain ⟨h, hg⟩ := h
    simp [decX, decSelAt, h, hf, decGuard_eq hg]

/-- Format G (R67). -/
def FmtG.fields (x : FmtG) : List (Nat × Nat) :=
  [(x.flags, 16), (encComb x.rcomb, 3), (encScope x.rscope, 2), (x.subop, 4), (encPath x.path, 2), (x.rslot, 8), (x.rblock, 12),
    (x.desc, 5)] ++ x.g.fields

theorem codecG : Codec decG encG FmtG.fits := by
  refine .of_fields FmtG.fields (fun a => ?_) (fun a => rfl) (fun a hf => ?_) (fun w _ => ?_) (fun w a _ h => ?_)
  · simp only [encG, encGuard, FmtG.fields, Guard.fields, List.cons_append, List.nil_append, pack]
    ring
  · simp only [FmtG.fits, Bool.and_eq_true, decide_eq_true_eq] at hf
    simp only [FmtG.fields, fieldsFit_append, fieldsFit_cons, fieldsFit_nil, Guard.fields_fit, hf, encComb_lt, encScope_lt, encPath_lt,
      Nat.reducePow, and_true]
  · have hfit : FmtG.fits (decG w).2 = true := by
      simp only [FmtG.fits, Bool.and_eq_true, decide_eq_true_eq]
      exact ⟨⟨⟨⟨⟨fits_decGuard w, bits_lt w 47 5⟩, bits_lt w 35 12⟩, bits_lt w 27 8⟩, bits_lt w 21 4⟩, bits_lt w 0 16⟩
    exact ⟨hfit, by simp [decG, HoldsFields, FmtG.fields]⟩
  · simp only [FmtG.fields, holdsFields_append, HoldsFields, packWidth, Nat.reduceAdd] at h
    obtain ⟨h, hg⟩ := h
    simp [decG, h, decGuard_eq hg]

/-- Format S (R68). -/
def FmtS.fields (x : FmtS) : List (Nat × Nat) := [(x.imm, 31), (encSel x.opnd, 9), (x.sysn, 12)] ++ x.g.fields

theorem codecS : Codec decS encS FmtS.fits := by
  refine .of_fields FmtS.fields (fun a => ?_) (fun a => rfl) (fun a hf => ?_) (fun w hok => ?_) (fun w a hf h => ?_)
  · simp only [encS, encGuard, FmtS.fields, Guard.fields, List.cons_append, List.nil_append, pack]
    ring
  · simp only [FmtS.fits, Bool.and_eq_true, decide_eq_true_eq, Nat.reducePow] at hf
    simp only [FmtS.fields, fieldsFit_append, fieldsFit_cons, fieldsFit_nil, Guard.fields_fit, hf, encSel_lt, Nat.reducePow, and_true]
  · simp only [decS] at hok
    simpa [decS, FmtS.fits, HoldsFields, FmtS.fields, packWidth, hok] using ⟨bits_lt w 40 12, bits_lt w 0 31⟩
  · simp only [FmtS.fits, Bool.and_eq_true] at hf
    simp only [FmtS.fields, holdsFields_append, HoldsFields, packWidth, Nat.reduceAdd] at h
    obtain ⟨h, hg⟩ := h
    simp [decS, decSelAt, h, hf, decGuard_eq hg]

/-- SYSWR's own reading refuses more words, and no other (R357). -/
theorem codecSyswr : Codec decSyswr encS FmtS.fits := by
  refine codecS.derive id (fun a => rfl) (fun a => rfl) (fun w hok => ⟨?_, rfl⟩) (fun w a h => ?_)
  · simp only [decSyswr] at hok
    split at hok
    · cases hok
    · exact hok
  · simp only [id] at h
    simp [decSyswr, h]
end Sys2Proof
end

section
/-! PROOFS. The opcode map (R74): encoding and decoding agree in both directions (O2, O3), and free codes are refused (O4). -/
namespace Sys2Proof

/-! ### Words and reasons -/

theorem leastReason_eq_none {e : List Nat} : leastReason e = none ↔ e = [] := by
  cases e with
  | nil => simp [leastReason]
  | cons r rs =>
    simp only [leastReason]
    split <;> simp

/-- A word is an instruction where its row reads it without a reason against it. -/
theorem decode_eq_ok {w : Nat} {i : Instr} : decode w = .ok i ↔ decodeRaw w = some ([], i) := by
  unfold decode
  split
  · next h => simp [h]
  · next e j h =>
    rw [h]
    split
    · next hr =>
      have hne : e ≠ [] := fun hnil => by simp [leastReason_eq_none.mpr hnil] at hr
      simp [hne]
    · next hr => simp [leastReason_eq_none.mp hr]

theorem bits_of_word {op f w : Nat} (hf : f < 2 ^ 56) (hop : op < 2 ^ 8) (h : word op f = some w) :
    bits w 56 8 = op ∧ f = bits w 0 56 := by
  cases h
  simp only [bits]
  omega

theorem word_bits {w : Nat} (hw : w < 2 ^ 64) : word (bits w 56 8) (bits w 0 56) = some w := by
  simp only [word, bits, Option.some.injEq]
  omega

/-- A row of the map holds what it should: what it reads from a word w of its opcode fits, and encodes to w. -/
def RowSound (w : Nat) (row : Option (List Nat × Instr)) : Prop :=
  ∀ i, row = some ([], i) → i.fits = true ∧ encode i = some w

theorem rowSound_none (w : Nat) : RowSound w none := fun _ h => by cases h

/-- The row of a format, for an instruction that fits where its fields do, and whose opcode is the row's. -/
theorem Codec.rowSound {F : Type} {dec : Nat → List Nat × F} {enc : F → Nat} {fits : F → Bool} (hc : Codec dec enc fits)
    {k : F → Instr} {w op : Nat} (hw : w < 2 ^ 64) (hop : bits w 56 8 = op)
    (hfits : fits (dec w).2 = true → (k (dec w).2).fits = true) (henc : ∀ a, encode (k a) = word op (enc a)) :
    RowSound w (some (decodeAs k (dec w))) := by
  intro i hrow
  obtain ⟨hok, rfl⟩ := Prod.ext_iff.mp (Option.some.inj hrow)
  obtain ⟨hf, hbits⟩ := hc.sound w hok
  refine ⟨hfits hf, (henc _).trans ?_⟩
  rw [hbits, ← hop]
  exact word_bits hw

/-- An instruction has a word of 64 bits, which the map reads as that instruction. -/
def HasWord (i : Instr) : Prop := ∃ w, encode i = some w ∧ w < 2 ^ 64 ∧ decodeRaw w = some ([], i)

/-- An instruction of a format whose fields fit has a word, where its row reads the words of its opcode so. -/
theorem Codec.hasWord {F : Type} {dec : Nat → List Nat × F} {enc : F → Nat} {fits : F → Bool} (hc : Codec dec enc fits)
    {i : Instr} {a : F} {op : Nat} (hf : fits a = true) (henc : encode i = word op (enc a)) (hop : op < 2 ^ 8)
    (hrow : ∀ w, bits w 56 8 = op → dec w = ([], a) → decodeRaw w = some ([], i)) : HasWord i := by
  have hlt := hc.bound a hf
  obtain ⟨hcode, hbits⟩ := bits_of_word hlt hop (rfl : word op (enc a) = some (op * 2 ^ 56 + enc a))
  exact ⟨op * 2 ^ 56 + enc a, henc, by omega, hrow _ hcode (hc.complete _ a hf hbits)⟩

/-! ### The opcodes -/

/-- The free codes and unassigned rows of R74. -/
def freeCodes : List Nat :=
  [0x0F, 0x2C, 0x2D, 0x2E, 0x2F, 0x4D, 0x4E, 0x4F, 0x5E, 0x5F, 0x6D, 0x6E, 0x6F, 0x7F, 0x8E, 0x8F, 0x9F,
    0xAB, 0xAC, 0xAD, 0xAE, 0xAF, 0xB9, 0xBA, 0xBB, 0xBC, 0xBD, 0xBE, 0xBF, 0xFC, 0xFD, 0xFE, 0xFF] ++ List.range' 0xC0 48

/-- The opcodes of each format (R74). -/
def codesA : List Nat := List.range' 0x10 16 ++ List.range' 0x30 16
  ++ [0x42, 0x43, 0x44, 0x49, 0x4A, 0x4B, 0x4C, 0x50, 0x51, 0x52, 0x53, 0x54, 0x55, 0x57, 0x58, 0x5A, 0x5B, 0x5C, 0x5D]
  ++ List.range' 0x63 8
def codesCmp : List Nat := [0x40, 0x56]
def codesPlop : List Nat := [0x41]
def codesLanex : List Nat := [0x45]
def codesPoll : List Nat := [0x46]
def codesPeers : List Nat := [0x47]
def codesCvt : List Nat := [0x48, 0x60, 0x61, 0x62, 0x6B, 0x6C]
def codesFredw : List Nat := [0x59]
def codesI : List Nat := [0x06] ++ List.range' 0x20 10 ++ [0x2B]
def codesIcmpi : List Nat := [0x2A]
def codesWatch : List Nat := [0x09, 0x0A]
def codesM : List Nat := List.range' 0x80 14 ++ List.range' 0x92 13
def codesAtom : List Nat := [0x90, 0x91]
def codesE : List Nat := [0x00, 0x01, 0x02, 0x03, 0x04]
def codesSpawn : List Nat := [0x05, 0x07, 0x08]
def codesX : List Nat := List.range' 0x70 15
def codesG : List Nat := List.range' 0xA0 11
def codesS : List Nat := [0x0B, 0x0C, 0x0D, 0x0E] ++ List.range' 0xB1 8 ++ [0xF2, 0xF3, 0xF4, 0xF5, 0xF6, 0xF7, 0xF8, 0xFA, 0xFB]

/-- The opcodes that several instructions share: HBIND and its release, SYSRD, SYSWR and TRET (R338, R340, R354, R357). -/
def sharedCodes : List Nat := [0xB0, 0xF0, 0xF1, 0xF9]

/-- Every opcode is free, shared, or one of a format. -/
theorem opcode_listed : ∀ op < 256, op ∈ freeCodes ++ (sharedCodes ++ (codesA ++ (codesCmp ++ (codesPlop ++ (codesLanex ++ (codesPoll
    ++ (codesPeers ++ (codesCvt ++ (codesFredw ++ (codesI ++ (codesIcmpi ++ (codesWatch ++ (codesM ++ (codesAtom ++ (codesE
    ++ (codesSpawn ++ (codesX ++ (codesG ++ codesS)))))))))))))))))) := by
  decide +kernel

theorem decodeRaw_of_free {w : Nat} (h : bits w 56 8 ∈ freeCodes) : decodeRaw w = none := by
  unfold decodeRaw
  generalize bits w 56 8 = op at h
  fin_cases h <;> rfl

/-! ### Opcodes that several instructions share -/

theorem decodeRaw_hbind {w : Nat} (hop : bits w 56 8 = 0xB0) : decodeRaw w =
    some (if bitOf w 2 then decodeAs .hbindRelease (decS w) else decodeAs .hbind (decS w)) := by
  unfold decodeRaw
  generalize bits w 56 8 = op at hop
  subst hop
  rfl

theorem decodeRaw_sysrd {w : Nat} (hop : bits w 56 8 = 0xF0) : decodeRaw w =
    some (if bits w 40 12 == 2 then decodeAs .syswrStatusRead (decS w) else decodeAs .sysrd (decS w)) := by
  unfold decodeRaw
  generalize bits w 56 8 = op at hop
  subst hop
  rfl

theorem decodeRaw_syswr {w : Nat} (hop : bits w 56 8 = 0xF1) : decodeRaw w =
    some (if bits w 40 12 == 1 then decodeAs .sramPartWrite (decSyswr w) else decodeAs .syswr (decSyswr w)) := by
  unfold decodeRaw
  generalize bits w 56 8 = op at hop
  subst hop
  rfl

theorem decodeRaw_tret {w : Nat} (hop : bits w 56 8 = 0xF9) : decodeRaw w = some (decTret w) := by
  unfold decodeRaw
  generalize bits w 56 8 = op at hop
  subst hop
  rfl

theorem imm_of_decS {w : Nat} {a : FmtS} (h : decS w = ([], a)) : a.imm = bits w 0 31 := by
  rw [← congrArg (fun x => x.2.imm) h]
  rfl

theorem sysn_of_decS {w : Nat} {a : FmtS} (h : decS w = ([], a)) : a.sysn = bits w 40 12 := by
  rw [← congrArg (fun x => x.2.sysn) h]
  rfl

/-- Bit 2 of the immediate is bit 2 of the word. -/
theorem bitOf_imm (w : Nat) : bitOf (bits w 0 31) 2 = bitOf w 2 := by
  simp only [bitOf, bits]
  congr 1
  omega

/-- TRET's number is its action exactly where its low four bits are and the others are 0. -/
theorem sysn_eq_action {w n : Nat} (hn : n < 16) : bits w 40 12 = n ↔ bits w 40 4 = n ∧ bits w 44 8 = 0 := by
  simp only [bits]
  omega

theorem rowSound_hbind {w : Nat} (hw : w < 2 ^ 64) (hop : bits w 56 8 = 0xB0) :
    RowSound w (some (if bitOf w 2 then decodeAs .hbindRelease (decS w) else decodeAs .hbind (decS w))) := by
  split
  · next hrel =>
    refine codecS.rowSound hw hop (fun hf => ?_) fun _ => rfl
    simp only [Instr.fits, hf, Bool.true_and]
    exact (bitOf_imm w).trans hrel
  · next hrel =>
    refine codecS.rowSound hw hop (fun hf => ?_) fun _ => rfl
    simp only [Instr.fits, hf, Bool.true_and, Bool.not_eq_true']
    exact (bitOf_imm w).trans (Bool.not_eq_true _ ▸ hrel)

theorem rowSound_sysrd {w : Nat} (hw : w < 2 ^ 64) (hop : bits w 56 8 = 0xF0) :
    RowSound w (some (if bits w 40 12 == 2 then decodeAs .syswrStatusRead (decS w) else decodeAs .sysrd (decS w))) := by
  split
  · next hn =>
    refine codecS.rowSound hw hop (fun hf => ?_) fun _ => rfl
    simp only [Instr.fits, hf, Bool.true_and]
    exact hn
  · next hn =>
    refine codecS.rowSound hw hop (fun hf => ?_) fun _ => rfl
    simp only [Instr.fits, hf, Bool.true_and]
    exact (Bool.not_eq_true' _).mpr (Bool.not_eq_true _ ▸ hn)

theorem rowSound_syswr {w : Nat} (hw : w < 2 ^ 64) (hop : bits w 56 8 = 0xF1) :
    RowSound w (some (if bits w 40 12 == 1 then decodeAs .sramPartWrite (decSyswr w) else decodeAs .syswr (decSyswr w))) := by
  split
  · next hn =>
    refine codecSyswr.rowSound hw hop (fun hf => ?_) fun _ => rfl
    simp only [Instr.fits, hf, Bool.true_and]
    exact hn
  · next hn =>
    refine codecSyswr.rowSound hw hop (fun hf => ?_) fun _ => rfl
    simp only [Instr.fits, hf, Bool.true_and]
    exact (Bool.not_eq_true' _).mpr (Bool.not_eq_true _ ▸ hn)

/-- One action of TRET. -/
theorem rowSound_tretAction {w n : Nat} (hw : w < 2 ^ 64) (hop : bits w 56 8 = 0xF9) (hn : n < 16) (hact : bits w 40 4 = n)
    {k : FmtS → Instr} (hfits : ∀ a, (k a).fits = (a.fits && a.sysn == n)) (henc : ∀ a, encode (k a) = word 0xF9 (encS a)) :
    RowSound w (some ((decS w).1 ++ orReason (bits w 44 8 == 0) 2, k (decS w).2)) := by
  intro i hrow
  obtain ⟨hok, rfl⟩ := Prod.ext_iff.mp (Option.some.inj hrow)
  obtain ⟨hfields, hzero⟩ := List.append_eq_nil_iff.mp hok
  have hsysn : (decS w).2.sysn = n := (sysn_eq_action hn).mpr ⟨hact, by simpa using hzero⟩
  refine codecS.rowSound (k := k) hw hop (fun hf => ?_) henc _ (by simp [decodeAs, hfields])
  simp [hfits, hf, hsysn]

theorem rowSound_tret {w : Nat} (hw : w < 2 ^ 64) (hop : bits w 56 8 = 0xF9) : RowSound w (some (decTret w)) := by
  unfold decTret
  split
  · next h => exact rowSound_tretAction hw hop (by decide) h (fun _ => rfl) fun _ => rfl
  · next h => exact rowSound_tretAction hw hop (by decide) h (fun _ => rfl) fun _ => rfl
  · next h => exact rowSound_tretAction hw hop (by decide) h (fun _ => rfl) fun _ => rfl
  · next h => exact rowSound_tretAction hw hop (by decide) h (fun _ => rfl) fun _ => rfl
  · intro i hrow
    simp at hrow

theorem rowSound_of_shared {w : Nat} (hw : w < 2 ^ 64) (h : bits w 56 8 ∈ sharedCodes) : RowSound w (decodeRaw w) := by
  simp only [sharedCodes, List.mem_cons, List.not_mem_nil, or_false] at h
  rcases h with h | h | h | h
  · exact decodeRaw_hbind h ▸ rowSound_hbind hw h
  · exact decodeRaw_sysrd h ▸ rowSound_sysrd hw h
  · exact decodeRaw_syswr h ▸ rowSound_syswr hw h
  · exact decodeRaw_tret h ▸ rowSound_tret hw h

/-- Every row of the map is sound. -/
theorem decodeRaw_sound {w : Nat} (hw : w < 2 ^ 64) : RowSound w (decodeRaw w) := by
  have hlisted := opcode_listed (bits w 56 8) (bits_lt w 56 8)
  simp only [List.mem_append] at hlisted
  rcases hlisted with hfree | hshared | hop
  · rw [decodeRaw_of_free hfree]
    exact rowSound_none w
  · exact rowSound_of_shared hw hshared
  unfold decodeRaw
  generalize hcode : bits w 56 8 = op at hop
  rcases hop with hA | hCmp | hPlop | hLanex | hPoll | hPeers | hCvt | hFredw | hI | hIcmpi | hWatch | hM | hAtom | hE | hSpawn | hX | hG | hS
  · fin_cases hA <;> exact codecA.rowSound hw hcode id fun _ => rfl
  · fin_cases hCmp <;> exact codecCmp.rowSound hw hcode id fun _ => rfl
  · obtain rfl := List.mem_singleton.mp hPlop
    exact codecPlop.rowSound hw hcode id fun _ => rfl
  · obtain rfl := List.mem_singleton.mp hLanex
    exact codecLanex.rowSound hw hcode id fun _ => rfl
  · obtain rfl := List.mem_singleton.mp hPoll
    exact codecPoll.rowSound hw hcode id fun _ => rfl
  · obtain rfl := List.mem_singleton.mp hPeers
    exact codecPeers.rowSound hw hcode id fun _ => rfl
  · fin_cases hCvt <;> exact codecCvt.rowSound hw hcode id fun _ => rfl
  · obtain rfl := List.mem_singleton.mp hFredw
    exact codecFredw.rowSound hw hcode id fun _ => rfl
  · fin_cases hI <;> exact codecI.rowSound hw hcode id fun _ => rfl
  · obtain rfl := List.mem_singleton.mp hIcmpi
    exact codecIcmpi.rowSound hw hcode id fun _ => rfl
  · fin_cases hWatch <;> exact codecWatch.rowSound hw hcode id fun _ => rfl
  · fin_cases hM <;> exact codecM.rowSound hw hcode id fun _ => rfl
  · fin_cases hAtom <;> exact codecAtom.rowSound hw hcode id fun _ => rfl
  · fin_cases hE <;> exact codecE.rowSound hw hcode id fun _ => rfl
  · fin_cases hSpawn <;> exact codecSpawn.rowSound hw hcode id fun _ => rfl
  · fin_cases hX <;> exact codecX.rowSound hw hcode id fun _ => rfl
  · fin_cases hG <;> exact codecG.rowSound hw hcode id fun _ => rfl
  · fin_cases hS <;> exact codecS.rowSound hw hcode id fun _ => rfl

/-! ### Words of the shared opcodes -/

theorem hasWord_hbind {a : FmtS} (h : (Instr.hbind a).fits = true) : HasWord (.hbind a) := by
  simp only [Instr.fits, Bool.and_eq_true, Bool.not_eq_true'] at h
  obtain ⟨hf, himm⟩ := h
  refine codecS.hasWord hf rfl (by decide) fun w hop hdec => ?_
  rw [imm_of_decS hdec, bitOf_imm] at himm
  simp [decodeRaw_hbind hop, himm, hdec, decodeAs]

theorem hasWord_hbindRelease {a : FmtS} (h : (Instr.hbindRelease a).fits = true) : HasWord (.hbindRelease a) := by
  simp only [Instr.fits, Bool.and_eq_true] at h
  obtain ⟨hf, himm⟩ := h
  refine codecS.hasWord hf rfl (by decide) fun w hop hdec => ?_
  rw [imm_of_decS hdec, bitOf_imm] at himm
  simp [decodeRaw_hbind hop, himm, hdec, decodeAs]

theorem hasWord_sysrd {a : FmtS} (h : (Instr.sysrd a).fits = true) : HasWord (.sysrd a) := by
  simp only [Instr.fits, Bool.and_eq_true, bne_iff_ne, ne_eq] at h
  obtain ⟨hf, hn⟩ := h
  refine codecS.hasWord hf rfl (by decide) fun w hop hdec => ?_
  rw [sysn_of_decS hdec] at hn
  simp [decodeRaw_sysrd hop, hn, hdec, decodeAs]

theorem hasWord_syswrStatusRead {a : FmtS} (h : (Instr.syswrStatusRead a).fits = true) : HasWord (.syswrStatusRead a) := by
  simp only [Instr.fits, Bool.and_eq_true, beq_iff_eq] at h
  obtain ⟨hf, hn⟩ := h
  refine codecS.hasWord hf rfl (by decide) fun w hop hdec => ?_
  rw [sysn_of_decS hdec] at hn
  simp [decodeRaw_sysrd hop, hn, hdec, decodeAs]

theorem decS_of_decSyswr {w : Nat} {a : FmtS} (h : decSyswr w = ([], a)) : decS w = ([], a) := by
  obtain ⟨hf, henc⟩ := codecSyswr.sound w (by rw [h])
  rw [h] at hf henc
  exact codecS.complete w a hf henc

theorem hasWord_syswr {a : FmtS} (h : (Instr.syswr a).fits = true) : HasWord (.syswr a) := by
  simp only [Instr.fits, Bool.and_eq_true, bne_iff_ne, ne_eq] at h
  obtain ⟨hf, hn⟩ := h
  refine codecSyswr.hasWord hf rfl (by decide) fun w hop hdec => ?_
  rw [sysn_of_decS (decS_of_decSyswr hdec)] at hn
  simp [decodeRaw_syswr hop, hn, hdec, decodeAs]

theorem hasWord_sramPartWrite {a : FmtS} (h : (Instr.sramPartWrite a).fits = true) : HasWord (.sramPartWrite a) := by
  simp only [Instr.fits, Bool.and_eq_true, beq_iff_eq] at h
  obtain ⟨hf, hn⟩ := h
  refine codecSyswr.hasWord hf rfl (by decide) fun w hop hdec => ?_
  rw [sysn_of_decS (decS_of_decSyswr hdec)] at hn
  simp [decodeRaw_syswr hop, hn, hdec, decodeAs]

/-- One action of TRET, read as the constructor k where its number is n. -/
theorem hasWord_tretAction {a : FmtS} {k : FmtS → Instr} {n : Nat} (hn : n < 16) (h : (a.fits && a.sysn == n) = true)
    (henc : encode (k a) = word 0xF9 (encS a))
    (hrow : ∀ w, bits w 40 4 = n → decTret w = ((decS w).1 ++ orReason (bits w 44 8 == 0) 2, k (decS w).2)) : HasWord (k a) := by
  simp only [Bool.and_eq_true, beq_iff_eq] at h
  obtain ⟨hf, hsysn⟩ := h
  refine codecS.hasWord hf henc (by decide) fun w hop hdec => ?_
  obtain ⟨hact, hzero⟩ := (sysn_eq_action hn).mp ((sysn_of_decS hdec).symm.trans hsysn)
  simp [decodeRaw_tret hop, hrow w hact, hdec, hzero]

theorem hasWord_of_fits {i : Instr} (hf : i.fits = true) : HasWord i := by
  cases i with
  | iadd a | isub a | imul a | imulh a | imad a | imadw a | iaddc a | isubb a | imin a | imax a | iabs a | ineg a | isad a
    | idot4 a | idot2 a | lea a | and a | or a | xor a | andn a | not a | shl a | shr a | shra a | rotl a | funnel a | popc a
    | clz a | ctz a | brev a | bfx a | bfi a | sel a | mov a | movp a | bytsel a | movk a | fptr a | fpsplit a | fadd a | fsub a
    | fmul a | ffma a | fmin a | fmax a | fclass a | fscale a | fdot2 a | pkfma a | pkadd a | pkmul a | frcp a | frsq a | fsqrt a
    | fexp2 a | flog2 a | fsin a | fcos a | ftanh a =>
    refine codecA.hasWord hf rfl (by decide) fun w hop hdec => ?_
    unfold decodeRaw
    generalize bits w 56 8 = op at hop
    subst hop
    exact congrArg some (congrArg (decodeAs _) hdec)
  | icmp a | fcmp a =>
    refine codecCmp.hasWord hf rfl (by decide) fun w hop hdec => ?_
    unfold decodeRaw
    generalize bits w 56 8 = op at hop
    subst hop
    exact congrArg some (congrArg (decodeAs _) hdec)
  | plop a =>
    refine codecPlop.hasWord hf rfl (by decide) fun w hop hdec => ?_
    unfold decodeRaw
    generalize bits w 56 8 = op at hop
    subst hop
    exact congrArg some (congrArg (decodeAs _) hdec)
  | lanex a =>
    refine codecLanex.hasWord hf rfl (by decide) fun w hop hdec => ?_
    unfold decodeRaw
    generalize bits w 56 8 = op at hop
    subst hop
    exact congrArg some (congrArg (decodeAs _) hdec)
  | poll a =>
    refine codecPoll.hasWord hf rfl (by decide) fun w hop hdec => ?_
    unfold decodeRaw
    generalize bits w 56 8 = op at hop
    subst hop
    exact congrArg some (congrArg (decodeAs _) hdec)
  | peers a =>
    refine codecPeers.hasWord hf rfl (by decide) fun w hop hdec => ?_
    unfold decodeRaw
    generalize bits w 56 8 = op at hop
    subst hop
    exact congrArg some (congrArg (decodeAs _) hdec)
  | cnvi a | fcvt a | f2i a | i2f a | mxpack a | mxunpk a =>
    refine codecCvt.hasWord hf rfl (by decide) fun w hop hdec => ?_
    unfold decodeRaw
    generalize bits w 56 8 = op at hop
    subst hop
    exact congrArg some (congrArg (decodeAs _) hdec)
  | fredw a =>
    refine codecFredw.hasWord hf rfl (by decide) fun w hop hdec => ?_
    unfold decodeRaw
    generalize bits w 56 8 = op at hop
    subst hop
    exact congrArg some (congrArg (decodeAs _) hdec)
  | ffree a | iaddi a | imuli a | andi a | ori a | xori a | shli a | shri a | shrai a | movi a | movki a | leai a =>
    refine codecI.hasWord hf rfl (by decide) fun w hop hdec => ?_
    unfold decodeRaw
    generalize bits w 56 8 = op at hop
    subst hop
    exact congrArg some (congrArg (decodeAs _) hdec)
  | icmpi a =>
    refine codecIcmpi.hasWord hf rfl (by decide) fun w hop hdec => ?_
    unfold decodeRaw
    generalize bits w 56 8 = op at hop
    subst hop
    exact congrArg some (congrArg (decodeAs _) hdec)
  | join a | gate a =>
    refine codecWatch.hasWord hf rfl (by decide) fun w hop hdec => ?_
    unfold decodeRaw
    generalize bits w 56 8 = op at hop
    subst hop
    exact congrArg some (congrArg (decodeAs _) hdec)
  | ldg a | ldb a | lda a | lds a | ldc a | stg a | stl a | sts a | smap a | swb a | sinv a | pref a | ldp a | stp a | cas a
    | cas128 a | incw a | decw a | faddb a | putf a | take a | readf a | sete a | fence a | rounda a | roundv a | acq a =>
    refine codecM.hasWord hf rfl (by decide) fun w hop hdec => ?_
    unfold decodeRaw
    generalize bits w 56 8 = op at hop
    subst hop
    exact congrArg some (congrArg (decodeAs _) hdec)
  | atom a | atomr a =>
    refine codecAtom.hasWord hf rfl (by decide) fun w hop hdec => ?_
    unfold decodeRaw
    generalize bits w 56 8 = op at hop
    subst hop
    exact congrArg some (congrArg (decodeAs _) hdec)
  | emit a | emitx a | emitc a | emite a | emitb a =>
    refine codecE.hasWord hf rfl (by decide) fun w hop hdec => ?_
    unfold decodeRaw
    generalize bits w 56 8 = op at hop
    subst hop
    exact congrArg some (congrArg (decodeAs _) hdec)
  | falloc a | spawn a | spawnq a =>
    refine codecSpawn.hasWord hf rfl (by decide) fun w hop hdec => ?_
    unfold decodeRaw
    generalize bits w 56 8 = op at hop
    subst hop
    exact congrArg some (congrArg (decodeAs _) hdec)
  | mxcfg a | bldq a | rowp a | rows a | accz a | accrd a | accwb a | accst a | iscfg a | isx a | sacci a | saccf a | nzscan a
    | fchbind a | mxseq a =>
    refine codecX.hasWord hf rfl (by decide) fun w hop hdec => ?_
    unfold decodeRaw
    generalize bits w 56 8 = op at hop
    subst hop
    exact congrArg some (congrArg (decodeAs _) hdec)
  | cpy a | cpy2d a | gath a | scat a | strm a | strmgo a | strmx a | dpost a | dxch a | dxq a | cpyb a =>
    refine codecG.hasWord hf rfl (by decide) fun w hop hdec => ?_
    unfold decodeRaw
    generalize bits w 56 8 = op at hop
    subst hop
    exact congrArg some (congrArg (decodeAs _) hdec)
  | trap a | brk a | nop a | done a | hread a | hclr a | tron a | troff a | trmark a | srseed a | srdraw a | ctrd a | gload a
    | gunld a | launch a | tgen a | dirfl a | preempt a | resume a | dieq a | jrnl a =>
    refine codecS.hasWord hf rfl (by decide) fun w hop hdec => ?_
    unfold decodeRaw
    generalize bits w 56 8 = op at hop
    subst hop
    exact congrArg some (congrArg (decodeAs _) hdec)
  | hbind a => exact hasWord_hbind hf
  | hbindRelease a => exact hasWord_hbindRelease hf
  | sysrd a => exact hasWord_sysrd hf
  | syswrStatusRead a => exact hasWord_syswrStatusRead hf
  | syswr a => exact hasWord_syswr hf
  | sramPartWrite a => exact hasWord_sramPartWrite hf
  | tretReplay a => exact hasWord_tretAction (by decide) hf rfl fun w h => by simp only [decTret, h]
  | tretPoison a => exact hasWord_tretAction (by decide) hf rfl fun w h => by simp only [decTret, h]
  | tretRaiseMark a => exact hasWord_tretAction (by decide) hf rfl fun w h => by simp only [decTret, h]
  | tretAnswer a => exact hasWord_tretAction (by decide) hf rfl fun w h => by simp only [decTret, h]
  | _ => cases hf

/-- Settles O2: every instruction that fits has a word, and it is the word that reads as that instruction. -/
theorem decodeOfEncode : Obligations.DecodeOfEncode := by
  refine ⟨fun i w hf henc => ?_, fun i hf => ?_⟩
  · obtain ⟨v, hv, _, hrow⟩ := hasWord_of_fits hf
    obtain rfl : v = w := Option.some.inj (hv.symm.trans henc)
    exact decode_eq_ok.mpr hrow
  · obtain ⟨w, henc, hlt, _⟩ := hasWord_of_fits hf
    exact ⟨w, henc, hlt⟩

/-- Settles O3: every row of the opcode map is sound. -/
theorem encodeOfDecode : Obligations.EncodeOfDecode := fun _ i hw h => decodeRaw_sound hw i (decode_eq_ok.mp h)

theorem decode_of_free {w : Nat} (h : bits w 56 8 ∈ freeCodes) : decode w = .refused 1 := by
  simp [decode, decodeRaw_of_free h]

/-- The opcodes of the unassigned rows, by their upper four bits. -/
theorem opcode_of_row {w n : Nat} (h : bits w 60 4 = n) : 16 * n ≤ bits w 56 8 ∧ bits w 56 8 < 16 * n + 16 := by
  simp only [bits] at *
  omega

/-- Settles O4: the free codes, and the rows 0xC_ to 0xE_, of which every code is free. -/
theorem freeCodesRefused : Obligations.FreeCodesRefused := by
  rintro w (hcode | hrow)
  · exact decode_of_free (List.mem_append_left _ hcode)
  · refine decode_of_free (List.mem_append_right _ (List.mem_range'_1.mpr ?_))
    simp only [List.mem_cons, List.not_mem_nil, or_false] at hrow
    rcases hrow with h | h | h <;> have := opcode_of_row h <;> omega

/-- Settles O1: each word as the decoder evaluates it. -/
theorem specWordsDecode : Obligations.SpecWordsDecode := by
  unfold Obligations.SpecWordsDecode
  decide

end Sys2Proof
end

section
/-! PROOFS. Results written to registers, and what reads them back (R53, R54, R142, R143): O10. -/
namespace Sys2Proof.Machine

/-! ### Words at consecutive places of a table -/

/-- n words of a number at consecutive places, the first lowest. -/
def putWords : Map Word → Nat → Nat → Nat → Map Word
  | m, _, 0, _ => m
  | m, i, n + 1, x => putWords (Map.putD 0 m i (BitVec.ofNat 32 x)) (i + 1) n (x / 2 ^ 32)

theorem getD_putWords_ne (m : Map Word) {i j n : Nat} (x : Nat) (h : j < i ∨ i + n ≤ j) :
    Map.getD (putWords m i n x) j 0 = Map.getD m j 0 := by
  induction n generalizing m i x with
  | zero => rfl
  | succ n ih => rw [putWords, ih _ _ (by omega), Map.getD_putD_ne _ _ _ (by omega)]

theorem readWords_congr {f g : Nat → Nat} {n i : Nat} (h : ∀ j, i ≤ j → j < i + n → f j = g j) : readWords f n i = readWords g n i := by
  induction n generalizing i with
  | zero => rfl
  | succ n ih => rw [readWords, readWords, h i (by omega) (by omega), ih fun j hj hlt => h j (by omega) (by omega)]

theorem readWords_putWords (m : Map Word) (b i n x : Nat) :
    readWords (fun j => (Map.getD (putWords m (b + i) n x) (b + j) 0).toNat) n i = x % 2 ^ (32 * n) := by
  induction n generalizing m i x with
  | zero => simp [readWords, Nat.mod_one]
  | succ n ih =>
    have htail := ih (Map.putD 0 m (b + i) (BitVec.ofNat 32 x)) (i + 1) (x / 2 ^ 32)
    simp only [readWords, putWords, Nat.add_assoc] at htail ⊢
    rw [htail, getD_putWords_ne _ _ (by omega), Map.getD_putD_same, BitVec.toNat_ofNat, Nat.mod_mod, Nat.mul_succ, Nat.add_comm (32 * n),
      Nat.pow_add, Nat.mod_mul]

/-! ### Registers -/

theorem setRegs_eq (w : Warp) (l r n x : Nat) : w.setRegs l r n x = { w with v := putWords w.v (l * 64 + r) n x } := by
  induction n generalizing w r x with
  | zero => rfl
  | succ n ih => rw [Warp.setRegs, ih, putWords, Nat.add_assoc]

theorem setUni_eq (w : Warp) (r n x : Nat) : w.setUni r n x = { w with k := putWords w.k r n x } := by
  induction n generalizing w r x with
  | zero => rfl
  | succ n ih => rw [Warp.setUni, ih, putWords]

/-- What lanes that write n words each to registers from r on leave of the table of lane registers. -/
def putLanes (m : Map Word) (ls : List Nat) (r n : Nat) (f : Nat → Nat) : Map Word :=
  ls.foldl (fun a l => putWords a (l * 64 + r) n (f l)) m

theorem write_v_eq (w : Warp) (ls : List Nat) (r n : Nat) (f : Nat → Nat) :
    w.write ls (.v r) n f = { w with v := putLanes w.v ls r n f } := by
  induction ls generalizing w with
  | nil => rfl
  | cons l t ih =>
    have hcons : w.write (l :: t) (.v r) n f = (w.setRegs l r n (f l)).write t (.v r) n f := rfl
    rw [hcons, ih, setRegs_eq]
    rfl

/-- Registers that no writing lane covers stay: a lane's 64 registers are its own. -/
theorem getD_putLanes_ne (m : Map Word) {ls : List Nat} {l j r n : Nat} (f : Nat → Nat) (hr : r + n ≤ 64) (hj : j < 64)
    (h : l ∉ ls ∨ j < r ∨ r + n ≤ j) : Map.getD (putLanes m ls r n f) (l * 64 + j) 0 = Map.getD m (l * 64 + j) 0 := by
  induction ls generalizing m with
  | nil => rfl
  | cons a t ih =>
    have hcons : putLanes m (a :: t) r n f = putLanes (putWords m (a * 64 + r) n (f a)) t r n f := rfl
    simp only [List.mem_cons, not_or] at h
    rw [hcons, ih _ (by tauto), getD_putWords_ne _ _ (by omega)]

theorem readWords_putLanes (m : Map Word) {ls : List Nat} {l r n : Nat} (f : Nat → Nat) (hr : r + n ≤ 64) (hnodup : ls.Nodup)
    (hl : l ∈ ls) : readWords (fun j => (Map.getD (putLanes m ls r n f) (l * 64 + j) 0).toNat) n r = f l % 2 ^ (32 * n) := by
  induction ls generalizing m with
  | nil => cases hl
  | cons a t ih =>
    have hcons : putLanes m (a :: t) r n f = putLanes (putWords m (a * 64 + r) n (f a)) t r n f := rfl
    obtain ⟨hnot, hnodup⟩ := List.nodup_cons.mp hnodup
    rw [hcons]
    rcases List.mem_cons.mp hl with rfl | hmem
    · rw [← readWords_putWords m (l * 64) r n (f l)]
      refine readWords_congr fun j _ hj => ?_
      rw [getD_putLanes_ne _ f hr (by omega) (.inl hnot)]
    · exact ih _ hnodup hmem

theorem write_k_of_ge (w : Warp) {ls : List Nat} {l r : Nat} (t : List Nat) (n : Nat) (f : Nat → Nat) (hls : ls = l :: t) (hr : 16 ≤ r) :
    w.write ls (.k r) n f = { w with k := putWords w.k r n (f l) } := by
  rw [hls, ← setUni_eq]
  exact if_pos hr

/-- A write to a uniform register keeps the warp, or gives the lowest lane's words to registers from k16 up (R143). -/
theorem write_k_cases (w : Warp) (ls : List Nat) (r n : Nat) (f : Nat → Nat) :
    w.write ls (.k r) n f = w ∨ 16 ≤ r ∧ ∃ x, w.write ls (.k r) n f = { w with k := putWords w.k r n x } := by
  cases ls with
  | nil => exact .inl rfl
  | cons l t =>
    by_cases hr : 16 ≤ r
    · exact .inr ⟨hr, f l, write_k_of_ge w t n f rfl hr⟩
    · exact .inl (if_neg hr)

/-- No lane's write to p7 does anything (R53). -/
theorem write_p7 (w : Warp) (ls : List Nat) (n : Nat) (f : Nat → Nat) : w.write ls (.p 7) n f = w := List.foldl_fixed ..

/-- Settles O10: lane registers, uniform registers, and the selectors that nothing writes. -/
theorem registerWritesReadBack : Obligations.RegisterWritesReadBack := by
  refine ⟨fun w ls r n f hnodup _ hr => ?_, fun w ls r n f _ => ?_, fun c fr w ls l n f => ?_⟩
  · rw [write_v_eq]
    refine ⟨fun l hl => readWords_putLanes w.v f hr hnodup hl, fun l m _ hm h => ?_, rfl, rfl⟩
    exact congrArg BitVec.toNat (getD_putLanes_ne w.v f hr hm h)
  · refine ⟨?_, ?_, rfl, fun l t hls h16 => ?_, fun m hm => ?_⟩
    · rcases write_k_cases w ls r n f with h | ⟨_, x, h⟩ <;> rw [h]
    · rcases write_k_cases w ls r n f with h | ⟨_, x, h⟩ <;> rw [h]
    · rw [write_k_of_ge w t n f hls h16]
      have hread := readWords_putWords w.k 0 r n (f l)
      simp only [Nat.zero_add] at hread
      exact hread
    · rcases write_k_cases w ls r n f with h | ⟨h16, x, h⟩ <;> rw [h]
      exact congrArg BitVec.toNat (getD_putWords_ne w.k x (by omega))
  · exact ⟨rfl, write_p7 w ls n f, rfl, rfl, rfl, rfl, rfl, rfl, rfl, rfl, rfl⟩

end Sys2Proof.Machine
end

section
/-! PROOFS. Accesses that reply by token, and the emits (R63, R65, R215, R222 to R226, R281 to R284): O31, O25. -/
namespace Sys2Proof.Machine

/-! ### Poured lanes -/

/-- A lane below wpop has been poured (R25, R29). -/
theorem inst_of_mem_lanes {w : Warp} {l : Nat} (h : l ∈ w.lanes) : ∃ i, w.insts[l]? = some i :=
  ⟨_, List.getElem?_eq_getElem (List.mem_range.mp h)⟩

theorem mem_lanes_of_active {w : Warp} {g : Guard} {l : Nat} (h : l ∈ w.active g) : l ∈ w.lanes := List.mem_of_mem_filter h

/-! ### Replies (R63, R215) -/

/-- A reply word whose bits [31:20] are 0, and from whose slot on every token of a reply of n bytes has a slot. -/
def goodReply (w : Warp) (m : FmtM) (n : Nat) : Prop :=
  bits (w.uni (bits m.ofs 11 5)) 20 12 = 0 ∧ bits (w.uni (bits m.ofs 11 5)) 0 8 + replyTokens n ≤ 256

/-- Where the reply of a lane goes that its reply word names. -/
def replyPlace (s : State) (c : Nat) (w : Warp) (m : FmtM) (rel : Scope) (l : Nat) : Reply :=
  let word := w.uni (bits m.ofs 11 5)
  { fp := c * 2 ^ 23 + w.frameOf l * 2 ^ 9, block := bits word 8 12, slot := bits word 0 8, iter := w.iterAt l
    ident := s.identOf w, rel := rel }

theorem replyOf_of_good (s : State) (c : Nat) {w : Warp} {m : FmtM} {n l : Nat} (rel : Scope) (hl : l ∈ w.lanes)
    (hgood : goodReply w m n) : s.replyOf (s.view c w) l m false n rel = some (replyPlace s c w m rel l) := by
  obtain ⟨i, hi⟩ := inst_of_mem_lanes hl
  obtain ⟨hzero, hroom⟩ := hgood
  have hfits : ¬ 255 < bits (w.uni (bits m.ofs 11 5)) 0 8 + replyTokens n - 1 := by omega
  unfold State.replyOf
  cases m.data <;> simp [State.view, hi, hzero, hfits, replyPlace, Warp.frameOf, Warp.iterAt, fpOf, State.identOf]

theorem badReplies_of_good (s : State) (c : Nat) {w : Warp} {m : FmtM} {n : Nat} (hgood : goodReply w m n) :
    s.badReplies (s.view c w) m false n (w.active m.g) = [] := by
  refine List.map_eq_nil_iff.mpr (List.filter_eq_nil_iff.mpr fun l hl => ?_)
  simp [replyOf_of_good s c .auto (mem_lanes_of_active hl) hgood]

/-- An access with a good reply word enters the commit buffer with its operand and the place of its reply. -/
theorem replyForm_of_good {s : State} {c k : Nat} {w : Warp} (h : State.InTurn s c k w) {m : FmtM} (n : Nat)
    (kind : List Word → ReqKind) (hgood : goodReply w m m.size.bytes) :
    replyForm s m n kind = .next (s.buffered c k w ((w.active m.g).map (fun l =>
      ⟨m.lsid, l, wrapTo 56 (((s.view c w).rd l 2 m.base : Int) + toSigned 11 (m.ofs % 2048)) / m.size.bytes * m.size.bytes,
        m.size.bytes, kind ((List.range n).map (fun j => BitVec.ofNat 32 ((s.view c w).rd l n m.data / 2 ^ (32 * j)))),
        some (replyPlace s c w m m.scope l), false, .normal, false⟩))) := by
  rw [replyForm_inTurn h]
  simp only [badReplies_of_good s c hgood, List.isEmpty_nil, if_true]
  congr 2
  refine List.map_congr_left fun l hl => ?_
  have haddr : alignTo m.size.bytes ((s.view c w).ea l m true)
    = wrapTo 56 (((s.view c w).rd l 2 m.base : Int) + toSigned 11 (m.ofs % 2048)) / m.size.bytes * m.size.bytes := rfl
  rw [haddr, replyOf_of_good s c m.scope (mem_lanes_of_active hl) hgood]

/-- Settles O31: each access is the reply form with its own operand. -/
theorem accessesWithReply : Obligations.AccessesWithReply := by
  intro s c k w h x ok put
  have hput : ∀ (i : Instr) (m : FmtM) (n : Nat) (kind : List Word → ReqKind), exec i s = replyForm s m n kind → ok m →
      put i m n kind := by
    intro i m n kind hexec hok
    simp only [put, hexec, replyForm_of_good h n kind hok]
    rfl
  refine ⟨fun m hok => ⟨?_, ?_, ?_, ?_, ?_, ?_, ?_⟩, fun a hok => ?_⟩
  · exact hput (.cas m) m (2 * m.size.words) (fun ws => .atomic .cas ws) rfl hok
  · exact hput (.cas128 m) m 8 (fun ws => .atomic .cas ws) rfl hok
  · exact hput (.incw m) m m.size.words (fun ws => .atomic .incw ws) rfl hok
  · exact hput (.decw m) m m.size.words (fun ws => .atomic .decw ws) rfl hok
  · exact hput (.faddb m) m (2 * m.size.words) (fun ws => .atomic .faddb ws) rfl hok
  · exact hput (.take m) m 0 (fun _ => .full .take 0) rfl hok
  · exact hput (.readf m) m 0 (fun _ => .full .readf 0) rfl hok
  · exact hput (.atomr a) (FmtAtom.toM a) a.size.words (fun ws => .atomic (.rmw a.op) ws) rfl hok

/-! ### Emits (R281 to R284) -/

theorem relWordOf_eq (rel : Scope) (e : Edge) : relWordOf rel e = if rel = .auto then RelWord.none else e.list := by
  cases rel <;> rfl

theorem emitForm_of_goodFp {s : State} {c k : Nat} {w : Warp} (h : State.InTurn s c k w) {a : FmtE} (val : View → Nat → Nat)
    (hfp : ∀ l ∈ sendingLanes w a, bits ((s.view c w).rd l 1 a.frm) 0 9 = 0) :
    emitForm s a val = .next (s.issued c k { w with emits := w.emits ++ (sendingLanes w a).map (fun l =>
      Emitted.token a.edge l none (relOf a.scope (s.edge w a.edge) c (fpCore ((s.view c w).rd l 1 a.frm)))
        (s.tokenE (s.view c w) l a (s.edge w a.edge) (relOf a.scope (s.edge w a.edge) c (fpCore ((s.view c w).rd l 1 a.frm)))
          ((s.view c w).rd l 1 a.frm) (val (s.view c w) l) (!w.guard a.g l))) }) := by
  have hbad : (sendingLanes w a).filter (fun l => badFp ((s.view c w).rd l 1 a.frm)) = [] :=
    List.filter_eq_nil_iff.mpr fun l hl => by simp [badFp, hfp l hl]
  rw [emitForm_inTurn h]
  simp only [hbad, List.isEmpty_nil, if_true]

/-- The token that EMITX sends in a lane: to a frame on another chip, released at domain scope (R283). -/
def State.chipToken (s : State) (c : Nat) (w : Warp) (a : FmtE) (l : Nat) : Token :=
  s.tokenE (s.view c w) l a (s.edge w a.edge) (if (s.edge w a.edge).scope = 0 then .auto else .package)
    ((s.view c w).rd l 2 a.frm % 2 ^ 32) ((s.view c w).val64 l a.val) (!w.guard a.g l)

theorem execEmitx_of_goodFp {s : State} {c k : Nat} {w : Warp} (h : State.InTurn s c k w) {a : FmtE}
    (hfp : ∀ l ∈ sendingLanes w a, bits ((s.view c w).rd l 2 a.frm) 0 9 = 0 ∧ bits ((s.view c w).rd l 2 a.frm) 32 12 < 3072
      ∧ bits ((s.view c w).rd l 2 a.frm) 44 20 = 0) :
    exec (.emitx a) s = .next (s.issued c k { w with emits := w.emits ++ (sendingLanes w a).map (fun l =>
      Emitted.token a.edge l (some (bits ((s.view c w).rd l 2 a.frm) 32 12)) (s.chipToken c w a l).rel (s.chipToken c w a l)) }) := by
  have hexec : exec (.emitx a) s = execEmitx a s := rfl
  have hbad : (sendingLanes w a).filter (fun l => badFp ((s.view c w).rd l 2 a.frm) || bits ((s.view c w).rd l 2 a.frm) 44 20 != 0
      || 3072 ≤ bits ((s.view c w).rd l 2 a.frm) 32 12) = [] := by
    refine List.filter_eq_nil_iff.mpr fun l hl => ?_
    obtain ⟨hlow, hchip, hhigh⟩ := hfp l hl
    simp [badFp, hlow, hchip, hhigh]
  rw [hexec, execEmitx, withWarp_inTurn h]
  simp only [hbad, List.isEmpty_nil, Bool.not_true, Bool.false_eq_true, if_false]
  rfl

/-- The token that EMITB sends to the frame of a pointer: lane 0's value (R284). -/
def State.frameToken (s : State) (c : Nat) (w : Warp) (a : FmtE) (fp : Nat) : Token :=
  s.tokenE (s.view c w) 0 a (s.edge w 0) (relOf a.scope (s.edge w 0) c (fpCore fp)) fp ((s.view c w).val64 0 a.val) false

theorem execEmitb_of_goodFp {s : State} {c k : Nat} {w : Warp} (h : State.InTurn s c k w) {a : FmtE} {b : Nat} (hfrm : a.frm = .k b)
    (hfp : ∀ i, i ≤ a.edge → bits (w.uni (b + i)) 0 9 = 0) :
    exec (.emitb a) s = .next (s.issued c k { w with emits := w.emits ++ (List.range (a.edge + 1)).map (fun i =>
      Emitted.token 0 0 none (s.frameToken c w a (w.uni (b + i))).rel (s.frameToken c w a (w.uni (b + i)))) }) := by
  have hexec : exec (.emitb a) s = execEmitb a s := rfl
  have hbad : ((List.range (a.edge + 1)).map (fun i => w.uni (b + i))).any badFp = false := by
    simp only [List.any_map, List.any_eq_false, List.mem_range, Function.comp_apply]
    intro i hi
    simp [badFp, hfp i (by omega)]
  rw [hexec, execEmitb, withWarp_inTurn h]
  simp only [hfrm, hbad, Bool.false_eq_true, if_false, List.map_map, Function.comp_def]
  rfl

/-- The payload of a token is VAL, or 0 where it is null (R65, R281). -/
theorem tokenE_payload (s : State) (x : View) (l : Nat) (a : FmtE) (e : Edge) (rel : Scope) (fp v : Nat) (g : Bool) :
    (s.tokenE x l a e rel fp v (!g)).payload = BitVec.ofNat 64 (if g then v else 0) := by
  cases g <;> rfl

/-- Settles O25: the tokens of each form, one by one. -/
theorem emitsAppendTokens : Obligations.EmitsAppendTokens := by
  refine ⟨fun s c k w h a => ?_, fun s c k w h a => ⟨fun hfp => ?_, fun b hfrm hfp => ?_⟩⟩
  · intro x ls e token sends hfp
    have htoken : ∀ (v l : Nat), token v l = Emitted.token a.edge l none (relOf a.scope e c (fpCore (x.rd l 1 a.frm)))
        (s.tokenE x l a e (relOf a.scope e c (fpCore (x.rd l 1 a.frm))) (x.rd l 1 a.frm) v (!w.guard a.g l)) := by
      intro v l
      simp only [token, State.tokenE, relWordOf_eq, plainToken]
      congr 2
      cases w.guard a.g l <;> rfl
    have hsends : ∀ (i : Instr) (val : View → Nat → Nat), exec i s = emitForm s a val → sends i (val x) := by
      intro i val hexec
      simp only [sends, htoken]
      exact hexec.trans (emitForm_of_goodFp h val hfp)
    exact ⟨hsends (.emit a) (fun x l => x.val64 l a.val) rfl, hsends (.emitc a) (fun x l => x.val64 l a.val) rfl,
      hsends (.emite a) (fun _ _ => a.stop) rfl⟩
  · refine ⟨_, execEmitx_of_goodFp h hfp, List.length_map .., fun n l hl => ⟨s.chipToken c w a l, ?_, rfl, rfl, rfl, rfl, rfl, ?_⟩⟩
    · exact List.getElem?_map.trans (congrArg _ hl)
    · exact tokenE_payload ..
  · refine ⟨_, execEmitb_of_goodFp h hfrm hfp, by simp, fun n hn => ⟨s.frameToken c w a (w.uni (b + n)), ?_, rfl, rfl, rfl, rfl, rfl⟩⟩
    rw [List.getElem?_map, List.getElem?_range (Nat.lt_succ_of_le hn)]
    rfl

end Sys2Proof.Machine
end

section
/-! PROOFS. Packed forms, FDOT2 and the FREDW tree (R120, R181 to R183): O21. A lane's stochastic draw (R108, R109): O24. -/
namespace Sys2Proof.Machine

/-! ### The draw of a lane (R108, R109) -/

/-- A lane that holds an instance draws from its key and the instance's serial and iteration. -/
theorem draw_of_inst {x : View} {l : Nat} {i : Inst} (h : x.w.insts[l]? = some i) (n : Nat) :
    x.draw l n = grind (x.key l) i.serial x.w.block x.w.pc i.iter n := by
  rw [View.draw, h]

/-- The low bits of a number are its remainder. -/
theorem bits_from_zero (x n : Nat) : bits x 0 n = x % 2 ^ n := by
  rw [bits, Nat.pow_zero, Nat.div_one]

/-- The mix of R108, with the fields of its second input cut out of their words by `bits`. -/
theorem grind_eq_bits (key serial : DWord) (block pc iter n : Nat) :
    grind key serial block pc iter n = (mix64 (mix64 (serial ^^^ key) + BitVec.ofNat 64
      (bits block 0 12 * 2 ^ 24 + bits pc 0 6 * 2 ^ 18 + bits iter 0 10 * 2 ^ 8 + bits n 0 8) * 0x9E3779B97F4A7C15)).toNat / 2 ^ 32 := by
  simp only [bits_from_zero]
  rfl

/-- Settles O24: the lane's instance gives the serial and the iteration, its view the key. -/
theorem stochasticDraw : Obligations.StochasticDraw := by
  intro s c w l n i hi
  exact (draw_of_inst (x := s.view c w) hi n).trans (grind_eq_bits ..)

/-! ### Packed forms (R182, R183) -/

/-- A packed form of the warp in turn writes two elements to each active lane, each rounded with its own draw number. -/
theorem packStep_inTurn {s : State} {c k : Nat} {w : Warp} (h : State.InTurn s c k w) (a : FmtA) (f : Bool → Val → Val → Val → Val) :
    packStep s a f =
      let x := s.view c w
      .next (s.wroteFloat c k w a.g a.dst a.ty (fun l => [0, 1].map (fun e =>
        roundF a.ty (x.mode l a.rnd) a.mods.sat (x.draw l e) false (f (x.mode l a.rnd).isRdn (halfVal a.ty (x.rd l 1 a.sa) e a.mods.a)
          (halfVal a.ty (x.rd l 1 a.sb) e a.mods.b) (halfVal a.ty (x.rd l 1 a.sc) e a.mods.c))))) :=
  floatStep_inTurn h ..

/-! ### The reduction tree (R120, R181) -/

/-- One element in a lane fills the lane's result word by itself. -/
theorem wroteFloat_singleton (s : State) (c k : Nat) (w : Warp) (g : Guard) (d : Sel) (t : Ty) (f : Nat → Nat) :
    s.wroteFloat c k w g d t (fun l => [f l]) =
      s.issued c k ((w.write (w.active g) d 1 f).offer d ((w.active g).map (fun l => decodeF t (f l)))) := by
  simp [State.wroteFloat, List.map_eq_flatMap]

/-- What a node of the tree gives for two present operands: an add draws with the node's position, in the lowest active
lane; min and max choose (R120, R181). -/
def View.redNode (x : View) (a : FmtFredw) (pos u v : Nat) : Nat :=
  let low := (x.w.active a.g).headD 0
  match a.op with
  | .add => roundF .f32 (x.mode low a.rnd) a.mods.sat (x.draw low pos) false
      (Val.sum (x.mode low a.rnd).isRdn [decodeF .f32 u, decodeF .f32 v])
  | .min => roundF .f32 .rne false 0 false (minMax true (decodeF .f32 u) (decodeF .f32 v))
  | .max => roundF .f32 .rne false 0 false (minMax false (decodeF .f32 u) (decodeF .f32 v))

/-- What a lane brings to the tree: its modified source, or nothing where it is not active (R120, R181). -/
def View.redLeaf (x : View) (a : FmtFredw) (l : Nat) : Option Nat :=
  if (x.w.active a.g).contains l then some (roundF .f32 .rne false 0 false ((decodeF .f32 (x.rd l 1 a.sa)).modify a.mods.a)) else none

/-- The value of the tree over a warp's lanes (R120). -/
def View.redValue (x : View) (a : FmtFredw) : Nat := (redTree (x.redNode a) ((List.range 32).map (x.redLeaf a))).getD 0

/-- FREDW of the warp in turn with an active lane gives every active lane the value of the tree. -/
theorem execFredw_of_active {s : State} {c k : Nat} {w : Warp} (h : State.InTurn s c k w) (a : FmtFredw) (hact : w.active a.g ≠ []) :
    execFredw a s = .next (s.wroteFloat c k w a.g a.dst .f32 (fun _ => [(s.view c w).redValue a])) := by
  obtain ⟨low, t, hcons⟩ := List.exists_cons_of_ne_nil hact
  have hview : (s.view c w).w.active a.g = low :: t := hcons
  rw [execFredw, warpStep_inTurn h, wroteFloat_singleton]
  unfold View.redValue View.redNode View.redLeaf
  simp only [hview, hcons, List.headD_cons]
  rfl

/-- Settles O21: the packed forms and FDOT2 lane by lane, FREDW through its tree. -/
theorem packedDotAndReduction : Obligations.PackedDotAndReduction := by
  intro s c k w h x
  refine ⟨fun a => ?_, fun a => ?_⟩
  · intro A B C rdn gives
    have hgives : ∀ (i : Instr) (f : Bool → Val → Val → Val → Val), exec i s = packStep s a f →
        gives i (fun l e => f (rdn l) (A l e) (B l e) (C l e)) := fun i f hexec => hexec.trans (packStep_inTurn h a f)
    have hfdot2 : exec (.fdot2 a) s = execFdot2 a s := rfl
    exact ⟨hgives (.pkfma a) (fun r p q z => Val.sum r [p.mul q, z]) rfl, hgives (.pkadd a) (fun r p q _ => Val.sum r [p, q]) rfl,
      hgives (.pkmul a) (fun _ p q _ => p.mul q) rfl, hfdot2.trans (floatStep_inTurn h ..)⟩
  · intro act low m node leaves hact
    have hfredw : exec (.fredw a) s = execFredw a s := rfl
    exact hfredw.trans (execFredw_of_active h a hact)

end Sys2Proof.Machine
end

section
/-! PROOFS. Rounds at their home (R134, R207, R213, R229, R230, R315): O43. -/
namespace Sys2Proof.Machine

/-! ### The way to the home -/

/-- A round request that nothing stands before performs or faults at its home without a leaf: its address is not translated. -/
theorem homeAccess_of_round {s : State} {n : Nat} {r : Req} (hreq : Map.find? s.reqs n = some r)
    (hstate : r.state = .moving ∨ r.state = .port) (hbehind : s.behind n r = false) (hqueue : s.inQueue n r = false)
    (hpath : s.pathUp (s.reqDirs r) = true) (hhome : (s.reqHome r).1 = s.chipId ∨ r.back.isSome = true)
    (hreplay : s.replayHolds (s.reqHome r).2 n r = false) (hround : ReqKind.isRound r.kind = true) :
    exec (.homeAccess n) s = .next (s.finishReq n r (s.reqHome r).2 none) := by
  have hhere : ¬((s.reqHome r).1 ≠ s.chipId ∧ r.back = none) := by
    rintro ⟨hne, hback⟩
    rcases hhome with h | h
    · exact hne h
    · simp [hback] at h
  have hexec : exec (.homeAccess n) s = execHomeAccess n s := rfl
  rw [hexec, execHomeAccess]
  rcases hstate with h | h <;> simp [hreq, h, hbehind, hqueue, hpath, hround, hreplay, hhere]

/-! ### What a round does at its home -/

/-- ROUNDA of a kind 1 region performs: no page stands for its counter (R229). -/
theorem finishReq_rounda {s : State} {r : Req} {sc : Scope} {st : Nat} (hk : r.kind = .rounda sc)
    (hkind : (s.region (8 + st) r.asid r.va).2.kind = 1) (n : Nat) : s.finishReq n r st none = s.performReq n r st 0 := by
  simp [State.finishReq, hk, ReqKind.isRound, hkind]

/-- ROUNDA in a region that is not of kind 1 faults with code 0x02 (R213, R229). -/
theorem finishReq_rounda_of_kind_ne {s : State} {r : Req} {sc : Scope} {st : Nat} (hk : r.kind = .rounda sc)
    (hkind : (s.region (8 + st) r.asid r.va).2.kind ≠ 1) (n : Nat) : s.finishReq n r st none = s.faultReq n r st 0x02 none := by
  simp [State.finishReq, hk, ReqKind.isRound, hkind]

/-- ROUNDV performs in a region of any kind (R230). -/
theorem finishReq_roundv {s : State} {r : Req} (hk : r.kind = .roundv) (n st : Nat) :
    s.finishReq n r st none = s.performReq n r st 0 := by
  simp [State.finishReq, hk, ReqKind.isRound]

/-- A round that its die's own chip has asked for rises, leaves the fault queue it may have stood in, and is spread (R229). -/
theorem performReq_rounda_here {s : State} {r : Req} {sc : Scope} (hk : r.kind = .rounda sc) (hback : r.back = none) (n st pa : Nat) :
    let q := (s.region (8 + st) r.asid r.va).1
    let x := s.die (8 + st)
    let v := (Map.getD x.rounds (regionKey r.asid q) 0 + 1) % 2 ^ 32
    s.performReq n r st pa = ((s.setDie (8 + st) { x with rounds := Map.put x.rounds (regionKey r.asid q) v }).setDie (8 + st)
      (Die.unpark { x with rounds := Map.put x.rounds (regionKey r.asid q) v } n)).spreadRound n r sc q v := by
  simp [State.performReq, hk, hback]

/-- A fault of a request that no warp waits for and whose graph is loaded parks it (R207, R213). -/
theorem faultReq_eq_park {s : State} {r : Req} (hfill : r.isFillOnly = false) (hwarp : r.warp = none) (hsync : r.sync = false)
    (hloaded : s.unloaded r = false) (n st code : Nat) (l : Option Leaf) : s.faultReq n r st code l = s.park n r st code l := by
  cases hback : r.back <;> simp [State.faultReq, hfill, hwarp, hsync, hloaded, hback]

/-! ### Parking moves no round -/

@[simp] theorem die_report (s : State) (c : Nat) (r : FaultRec) (d : Nat) : (s.report c r).die d = s.die d := by
  unfold State.report
  split <;> rfl

@[simp] theorem die_markParked (s : State) (r : Req) (d : Nat) : (s.markParked r).die d = s.die d := by
  unfold State.markParked
  split
  · rfl
  · split <;> rfl

/-- Parking leaves the dies as they are, or puts the request into an entry of its home's fault queue. -/
theorem die_park_cases (s : State) (n : Nat) (r : Req) (st code : Nat) (l : Option Leaf) :
    (s.park n r st code l).die (8 + st) = s.die (8 + st) ∨
      ∃ q, (s.park n r st code l).die (8 + st) = { s.die (8 + st) with faultq := q } := by
  have hmarked : ∀ (q : List (Nat × FaultEntry)) (reqs : List (Nat × Req)),
      ({ (s.setDie (8 + st) { s.die (8 + st) with faultq := q }).markParked r with reqs := reqs } : State).die (8 + st)
        = { s.die (8 + st) with faultq := q } := fun q reqs =>
    (die_markParked ..).trans (die_setDie_same ..)
  unfold State.park
  dsimp only
  split
  · exact .inl rfl
  · split
    · split
      · exact .inr ⟨_, hmarked ..⟩
      · exact .inr ⟨_, (die_report ..).trans (hmarked ..)⟩
    · split
      · exact .inl rfl
      · exact .inr ⟨_, (die_report ..).trans (hmarked ..)⟩

theorem rounds_park (s : State) (n : Nat) (r : Req) (st code : Nat) (l : Option Leaf) :
    ((s.park n r st code l).die (8 + st)).rounds = (s.die (8 + st)).rounds := by
  rcases die_park_cases s n r st code l with h | ⟨q, h⟩ <;> rw [h]

/-- Settles O43: the request comes to its home untranslated, and performs or parks there. -/
theorem roundRequestsPerform : Obligations.RoundRequestsPerform := by
  intro s n r hreq hstate hbehind hqueue hpath hhome hreplay st q old
  have hcomes := homeAccess_of_round hreq hstate hbehind hqueue hpath hhome hreplay
  have hround : ∀ {sc}, r.kind = .rounda sc → ReqKind.isRound r.kind = true := fun hk => by rw [hk]; rfl
  refine ⟨fun sc hk hkind hback => ?_, fun sc hk hkind hback => ?_, fun sc hk hkind hwarp hsync hloaded => ?_, fun hk => ?_⟩
  · refine ⟨_, hcomes (hround hk), ?_⟩
    rw [finishReq_rounda hk hkind, performReq_rounda_here hk hback]
    refine ⟨?_, rfl, rfl, rfl⟩
    exact (congrArg (fun x : Die => Map.find? x.rounds (regionKey r.asid q.1)) (die_setDie_same ..)).trans (Map.find?_put_same ..)
  · rw [hcomes (hround hk), finishReq_rounda hk hkind]
    simp only [State.performReq, hk, hback, if_true]
    rfl
  · have hfill : r.isFillOnly = false := by simp [Req.isFillOnly, hk]
    rw [hcomes (hround hk), finishReq_rounda_of_kind_ne hk hkind, faultReq_eq_park hfill hwarp hsync hloaded]
    exact ⟨rfl, rounds_park ..⟩
  · rw [hcomes (by rw [hk]; rfl), finishReq_roundv hk]
    simp only [State.performReq, hk]
    rfl

end Sys2Proof.Machine
end

section
/-! PROOFS. What engine commands leave of their state: their entries, their reads, their buffers and their writes (R137, R271, R293). -/
namespace Sys2Proof.Machine

/-! ### Engine entries (R271) -/

@[simp] theorem engines_setEngine_same (s : State) (c eid : Nat) (e : EngCmd) :
    ((s.setEngine c eid e).core c).engines = Map.put (s.core c).engines eid e := by
  simp [State.setEngine]

@[simp] theorem find?_setEngine_same (s : State) (c eid : Nat) (e : EngCmd) :
    Map.find? ((s.setEngine c eid e).core c).engines eid = some e := by
  rw [engines_setEngine_same, Map.find?_put_same]

@[simp] theorem opbufs_setEngine (s : State) (c eid : Nat) (e : EngCmd) : ((s.setEngine c eid e).core c).opbufs = (s.core c).opbufs := by
  simp [State.setEngine]

@[simp] theorem row_setEngine (s : State) (c eid : Nat) (e : EngCmd) : ((s.setEngine c eid e).core c).row = (s.core c).row := by
  simp [State.setEngine]

@[simp] theorem opbufs_dropEngine (s : State) (c eid : Nat) : ((s.dropEngine c eid).core c).opbufs = (s.core c).opbufs := by
  simp [State.dropEngine]

@[simp] theorem opbufs_sendToken (s : State) (c : Nat) (t : Token) : ((s.sendToken c t).core c).opbufs = (s.core c).opbufs := by
  simp [State.sendToken, State.inject]

/-- A command that has just been stored stands without the reads that are done (R137). -/
@[simp] theorem readsDone_setEngine (s : State) (c eid : Nat) (f e : EngCmd) (is : List Nat) :
    (s.setEngine c eid f).readsDone c eid is e = { f with parts := Map.keep (fun i _ => !is.contains i) f.parts } := by
  simp [State.readsDone]

/-- An element that is done is listed in its command. -/
theorem find?_elemDone (s : State) (c eid i : Nat) (e : EngCmd) :
    let x := s.readsDone c eid ((List.range 8).map (fun j => 8 * i + j)) e
    Map.find? ((s.elemDone c eid i e).core c).engines eid = some { x with doneE := insSet x.doneE i } := by
  intro x
  exact find?_setEngine_same ..

@[simp] theorem opbufs_elemDone (s : State) (c eid i : Nat) (e : EngCmd) : ((s.elemDone c eid i e).core c).opbufs = (s.core c).opbufs :=
  opbufs_setEngine ..

/-! ### Writes of elements (R137, R293) -/

theorem Sent.find?_engine {s t : State} (h : Sent s t) (c eid : Nat) :
    Map.find? (t.core c).engines eid = Map.find? (s.core c).engines eid := by
  obtain ⟨m, hm⟩ := h.2 c
  rw [hm]

theorem sent_elemStore (s : State) (c eid i : Nat) (e : EngCmd) (va : Nat) (data : List Byte) (bad : Bool) (cid : Option Nat) :
    Sent s (s.elemStore c eid i e va data bad cid) :=
  Sent.foldl _ (fun a _ => sent_addReq a _) _ s

/-- A request that has its number stays in the table while others are sent. -/
theorem find?_reqs_sendAll {α : Type} (g : State → α → Req) (l : List α) {s : State} {n : Nat} {r : Req}
    (hreq : Map.find? s.reqs n = some r) (hnext : n < s.next) :
    Map.find? (l.foldl (fun a x => a.addReq (g a x)) s).reqs n = some r := by
  induction l generalizing s with
  | nil => exact hreq
  | cons x l ih =>
    refine ih ?_ (Nat.lt_succ_of_lt hnext)
    exact (Map.find?_put_ne _ _ (Nat.ne_of_lt hnext)).trans hreq

/-- Of several requests sent one after another each is in the table. -/
theorem exists_req_of_sendAll {α : Type} (g : State → α → Req) {P : α → Req → Prop} (hP : ∀ a x, P x (g a x)) (l : List α) (s : State) :
    ∀ x ∈ l, ∃ r ∈ (l.foldl (fun a x => a.addReq (g a x)) s).reqs, P x r.2 := by
  induction l generalizing s with
  | nil => simp
  | cons y l ih =>
    intro x hx
    rcases List.mem_cons.mp hx with rfl | hx
    · exact ⟨_, Map.mem_of_find? (find?_reqs_sendAll g l (Map.find?_put_same ..) (Nat.lt_succ_self s.next)), hP s x⟩
    · exact ih _ x hx

/-- A write of an element is a store of each of its parts (R137). -/
theorem exists_store_of_elemStore (s : State) (c eid i : Nat) (e : EngCmd) (va : Nat) (data : List Byte) (bad : Bool) (cid : Option Nat) :
    ∀ p ∈ lineRun va data.length (data.length / 128 + 2) 0, ∃ r ∈ (s.elemStore c eid i e va data bad cid).reqs,
      r.2.va = p.2.1 ∧ r.2.kind = .store ((data.drop p.1).take p.2.2) bad :=
  exists_req_of_sendAll _ (P := fun (p : Nat × Nat × Nat) r => r.va = p.2.1 ∧ r.kind = .store ((data.drop p.1).take p.2.2) bad)
    (fun _ _ => ⟨rfl, rfl⟩) _ s

/-! ### Operand buffers (R294, R297) -/

/-- Beyond the end of a list stand the entries that fill it up. -/
theorem nthD_append_replicate {α : Type} (d : α) (l : List α) (n j : Nat) : nthD d (l ++ List.replicate n d) j = nthD d l j := by
  unfold nthD
  rw [List.getElem?_append]
  split
  · rfl
  · next h =>
    rw [List.getElem?_eq_none (Nat.le_of_not_lt h), List.getElem?_replicate]
    split <;> rfl

/-- Bytes put into a line read back in their range, and the line's own beside it. -/
theorem nthD_patch (d : Byte) {l : List Byte} {ofs : Nat} {new : List Byte} (hroom : ofs + new.length ≤ l.length) (j : Nat) :
    nthD d (patch l ofs new) j = if ofs ≤ j ∧ j < ofs + new.length then nthD d new (j - ofs) else nthD d l j := by
  have hfront : (l.take ofs).length = ofs := by simp; omega
  unfold nthD patch
  rcases Nat.lt_or_ge j ofs with hlow | hge
  · rw [if_neg (by omega), List.append_assoc, List.getElem?_append_left (by omega), List.getElem?_take_of_lt hlow]
  · rcases Nat.lt_or_ge j (ofs + new.length) with hin | hout
    · rw [if_pos ⟨hge, hin⟩, List.append_assoc, List.getElem?_append_right (by omega), hfront, List.getElem?_append_left (by omega)]
    · rw [if_neg (by omega), List.getElem?_append_right (by simp; omega), List.getElem?_drop]
      congr 2
      simp
      omega

/-- A buffer with a chunk of a refill at an offset (R297). -/
def OpBuf.refilled (b : OpBuf) (ofs n : Nat) (data : List Byte) (bad : List Nat) : OpBuf :=
  { b with
    data := patch (b.data ++ List.replicate (ofs + n - b.data.length) 0) ofs data
    poison := uniSet (b.poison.filter (fun q => !(ofs ≤ q && q < ofs + n))) (bad.map (fun q => ofs + q)) }

/-- A chunk reads back from its buffer, and every other byte is as before. -/
theorem OpBuf.nthD_refilled (b : OpBuf) (ofs : Nat) {n : Nat} {data : List Byte} (hlen : data.length = n) (bad : List Nat) (j : Nat) :
    nthD 0 (b.refilled ofs n data bad).data j = if ofs ≤ j ∧ j < ofs + n then nthD 0 data (j - ofs) else nthD 0 b.data j := by
  subst hlen
  rw [← nthD_append_replicate 0 b.data (ofs + data.length - b.data.length) j]
  exact nthD_patch 0 (by simp; omega) j

/-- In a chunk's range the poison is the chunk's. -/
theorem OpBuf.mem_poison_refilled (b : OpBuf) (ofs : Nat) {n : Nat} (data : List Byte) (bad : List Nat) {j : Nat} (hj : j < n) :
    ofs + j ∈ (b.refilled ofs n data bad).poison ↔ j ∈ bad := by
  simp [OpBuf.refilled, mem_uniSet, hj]

/-- An operand buffer of a core as it is set. -/
def State.setBuffer (s : State) (c n : Nat) (b : OpBuf) : State := s.setCore c { s.core c with opbufs := Map.put (s.core c).opbufs n b }

@[simp] theorem opbufs_setBuffer (s : State) (c n : Nat) (b : OpBuf) :
    ((s.setBuffer c n b).core c).opbufs = Map.put (s.core c).opbufs n b := by
  simp [State.setBuffer]

/-- A chunk whose bytes have come enters its buffer, where the rest is as it was, and is done (R297). -/
theorem fillElem_of_read {s s1 : State} {c eid i : Nat} {e : EngCmd} {data : List Byte} {bad : List Nat}
    (hread : s.engRead c eid (8 * i + 1) e ((e.chunk i).src % 2 ^ 56) (e.chunk i).n = .data s1 data bad) :
    let old := Map.getD (s1.core c).opbufs (e.word 2) ⟨0, 0, 0, [], [], false, none, []⟩
    s.fillElem c eid i e = (s1.setBuffer c (e.word 2) (old.refilled (e.chunk i).dst (e.chunk i).n data bad)).elemDone c eid i e := by
  simp only [State.fillElem, hread]
  rfl

/-- A chunk of a refill is a part of its source, as far into its buffer. -/
theorem chunk_of_fill {e : EngCmd} (hk : e.kind = .cpyb) (i : Nat) :
    e.chunk i = ⟨min 128 (e.word 5 - 128 * i), (e.pair 0 + 128 * i) % 2 ^ 64, 128 * i⟩ := by
  simp only [EngCmd.chunk, hk]

end Sys2Proof.Machine
end

section
/-! PROOFS. Engine commands start, and their elements move bytes (R253, R257, R271 to R273, R294 to R298). -/
namespace Sys2Proof.Machine

/-! ### Start (R271 to R273) -/

/-- A command as it starts: a stream runs by its own flag (R299). -/
def EngCmd.started (e : EngCmd) : EngCmd := { e with state := .running, run := if e.kind = .strm then e.run else true }

/-- What the start of a command sets off, by its kind (R273, R297). -/
def State.startEngine (s : State) (c eid : Nat) (e : EngCmd) : State :=
  let s1 := s.setEngine c eid e.started
  match e.kind with
  | .gath | .scat => s1.setDie (s.streamDie c e) { s.die (s.streamDie c e) with streams := (s.die (s.streamDie c e)).streams ++ [(c, eid)] }
  | .cpyb =>
    let old := Map.getD (s1.core c).opbufs (e.word 2) ⟨0, 0, 0, [], [], false, none, []⟩
    s1.setBuffer c (e.word 2) { old with first := e.word 3, lines := e.word 4, refill := some eid }
  | .rows => s1.rowsAdvance c eid { e with state := .running }
  | .isx => if e.total = 0 then (s1.dropEngine c eid).later (some e.charge) else s1
  | .cpy | .cpy2d | .strm | .strmgo | .strmx | .dpost | .dxch | .dxq | .nzscan => s1

/-- The first queued command starts where it may (R271). -/
theorem engineCommandStart_of_first {s : State} {c eid : Nat} {e : EngCmd} (hfind : Map.find? (s.core c).engines eid = some e)
    (hqueued : e.state = .queued) (hstart : (s.core c).startable e = true)
    (hfirst : ∀ p ∈ (s.core c).engines, p.1 < eid → p.2.state ≠ .queued) :
    exec (.engineCommandStart c eid) s = .next (s.startEngine c eid e) := by
  have hbefore : (s.core c).engines.any (fun p => decide (p.1 < eid) && decide (p.2.state = .queued) && (s.core c).startable p.2) = false := by
    simp only [List.any_eq_false, Bool.and_eq_true, decide_eq_true_eq]
    exact fun p hp ⟨⟨hlt, hq⟩, _⟩ => hfirst p hp hlt hq
  have hexec : exec (.engineCommandStart c eid) s = execEngineCommandStart c eid s := rfl
  rw [hexec, execEngineCommandStart, hfind]
  simp only [hqueued, hstart, hbefore, ne_eq, not_true_eq_false, decide_false, Bool.not_true, Bool.or_self, Bool.false_eq_true, if_false]
  rcases e with ⟨kind⟩
  cases kind <;> rfl

/-- A refill that starts names its buffer's lines, and is the buffer's refill (R297). -/
theorem opbufs_startEngine_fill (s : State) {c eid : Nat} {e : EngCmd} (hk : e.kind = .cpyb) :
    ∃ b, Map.find? ((s.startEngine c eid e).core c).opbufs (e.word 2) = some b ∧ b.first = e.word 3 ∧ b.lines = e.word 4
      ∧ b.refill = some eid := by
  simp [State.startEngine, hk]

/-- The oldest parameter block of a base die starts while fewer than sixteen streams stand there (R273). -/
theorem indirectStreamStart_of_room {s : State} {d : Nat} {p : Nat × Nat} {rest : List (Nat × Nat)} (hqueue : (s.die d).streams = p :: rest)
    (hroom : (s.die d).streamsOn.length < 16) :
    ∃ t, exec (.indirectStreamStart d) s = .next t ∧ (t.die d).streams = rest ∧ p ∈ (t.die d).streamsOn ∧ t.mem = s.mem := by
  have hexec : exec (.indirectStreamStart d) s = execIndirectStreamStart d s := rfl
  rw [hexec, execIndirectStreamStart, hqueue]
  refine ⟨_, congrArg _ (if_pos ?_), by simp, by simp, rfl⟩
  exact Nat.lt_of_le_of_lt ((List.length_filter_le ..).trans (List.length_filter_le ..)) hroom

/-- A refill whose buffer is consumed may write (R272). -/
theorem operandsConsumed_of_waitsOver {s : State} {c buf eid : Nat} {e : EngCmd}
    (hfind : List.find? (fun p => EngCmd.fills p.2 buf && decide (p.2.state = .queued) && !p.2.run) (s.core c).engines = some (eid, e))
    (hover : (s.core c).waitsOver e = true) : exec (.operandsConsumed c buf) s = .next (s.setEngine c eid { e with run := true }) := by
  have hexec : exec (.operandsConsumed c buf) s = execOperandsConsumed c buf s := rfl
  rw [hexec, execOperandsConsumed, hfind]
  exact congrArg _ (if_pos hover)

/-! ### The element of each kind -/

section
variable {s : State} {c eid : Nat} {e : EngCmd}

/-- Element i of a command is still to be moved. -/
def EngCmd.Pending (e : EngCmd) (i : Nat) : Prop := i < e.total ∧ i ∉ e.doneE ∧ Map.find? e.parts (8 * i + 7) = none

/-- A chunk of CPY or CPY2D is copied. -/
theorem engineElement_copy (hfind : Map.find? (s.core c).engines eid = some e) (hrun : e.state = .running) {i : Nat} (hpending : e.Pending i)
    (hk : e.kind = .cpy ∨ e.kind = .cpy2d) : exec (.engineElement c eid i) s = .next (s.copyElem c eid i e) := by
  obtain ⟨hlt, hdone, hpart⟩ := hpending
  have hexec : exec (.engineElement c eid i) s = execEngineElement c eid i s := rfl
  rw [hexec, execEngineElement, hfind]
  rcases hk with hk | hk <;> simp [hrun, hk, hlt, hdone, hpart]

/-- A chunk of CPYB enters its buffer. -/
theorem engineElement_fill (hfind : Map.find? (s.core c).engines eid = some e) (hrun : e.state = .running) {i : Nat} (hpending : e.Pending i)
    (hk : e.kind = .cpyb) : exec (.engineElement c eid i) s = .next (s.fillElem c eid i e) := by
  obtain ⟨hlt, hdone, hpart⟩ := hpending
  have hexec : exec (.engineElement c eid i) s = execEngineElement c eid i s := rfl
  rw [hexec, execEngineElement, hfind]
  simp [hrun, hk, hlt, hdone, hpart]

/-- An element of a gather or scatter acts once its stream runs. -/
theorem engineElement_indexed (hfind : Map.find? (s.core c).engines eid = some e) (hrun : e.state = .running) {i : Nat} (hpending : e.Pending i)
    (hstream : s.streaming c eid e = true) (hk : e.kind = .gath ∨ e.kind = .scat) :
    exec (.engineElement c eid i) s = .next (s.indexedElem c eid i e) := by
  obtain ⟨hlt, hdone, hpart⟩ := hpending
  have hexec : exec (.engineElement c eid i) s = execEngineElement c eid i s := rfl
  rw [hexec, execEngineElement, hfind]
  rcases hk with hk | hk <;> simp [hrun, hk, hlt, hdone, hpart, hstream]

/-- What a running command that acts in order does next. -/
theorem engineElement_ordered (hfind : Map.find? (s.core c).engines eid = some e) (hrun : e.state = .running) (i : Nat) :
    (e.kind = .isx → exec (.engineElement c eid i) s = .next (s.isxFeed c eid e))
    ∧ (e.kind = .nzscan → exec (.engineElement c eid i) s = .next (s.nzStep c eid e))
    ∧ (e.kind = .dpost → exec (.engineElement c eid i) s = .next (s.dpostStep c eid e))
    ∧ (e.kind = .dxch → exec (.engineElement c eid i) s = .next (s.dxchStep c eid e)) := by
  have hexec : exec (.engineElement c eid i) s = execEngineElement c eid i s := rfl
  rw [hexec, execEngineElement, hfind]
  refine ⟨?_, ?_, ?_, ?_⟩ <;> intro hk <;> simp [hrun, hk]

end

/-! ### Chunks and indexed elements (R294 to R298) -/

section
variable {s s1 : State} {c eid i : Nat} {e : EngCmd}

/-- An operand buffer is a source as it stands (R294). -/
theorem elemSource_of_buffer (hk : e.kind ≠ .gath) (hbit : bitOf e.flags 11 = true) {b : OpBuf}
    (hbuf : Map.find? (s.core c).opbufs (bits e.flags 12 4) = some b) (src n : Nat) :
    s.elemSource c eid i e src n = .data s (b.read src n).1 (b.read src n).2 := by
  simp [State.elemSource, hk, hbit, hbuf]

/-- A chunk whose bytes have come moves. -/
theorem copyElem_of_source {data : List Byte} {bad : List Nat}
    (hsource : s.elemSource c eid i e (e.chunk i).src (e.chunk i).n = .data s1 data bad) :
    s.copyElem c eid i e = s1.elemWrite c eid i e (e.flags % 4) (e.pair 2) (e.chunk i).dst data bad := by
  simp only [State.copyElem, hsource]

/-- The width of a command's indices (R298). -/
def EngCmd.indexBytes (e : EngCmd) : Nat := if bitOf (e.word 7) 3 then 8 else 4

/-- The size of a command's elements (R298). -/
def EngCmd.elemBytes (e : EngCmd) : Nat := 2 ^ bits (e.word 7) 0 3

/-- Element i of a gather reaches its slot, or its place in memory (R295, R298). -/
def State.gathPut (t : State) (c eid i : Nat) (e : EngCmd) (data : List Byte) (bad : List Nat) : State :=
  t.elemWrite c eid i e (e.flags % 4) (e.pair 4) (if e.flags % 4 = 2 then i else (e.pair 4 + e.elemBytes * i) % 2 ^ 64) data bad

/-- Element i of a gather once its index x has come: under a poisoned index it is poison (R298). -/
def State.gathAt (t : State) (c eid i : Nat) (e : EngCmd) (x : Nat) (ibad : List Nat) : State :=
  if !ibad.isEmpty then
    (t.setEngine c eid { e with poison := true }).gathPut c eid i { e with poison := true } (List.replicate e.elemBytes 0) (List.range e.elemBytes)
  else match t.engRead c eid (8 * i + 1) e ((e.pair 2 + x * e.elemBytes) % 2 ^ 56) e.elemBytes with
    | .busy u => u
    | .fault _ _ _ => t
    | .data u data bad => u.gathPut c eid i e data bad

/-- Element i of a scatter once its index x has come: under a poisoned index nothing is written (R298). -/
def State.scatAt (t : State) (c eid i : Nat) (e : EngCmd) (x : Nat) (ibad : List Nat) : State :=
  if !ibad.isEmpty then (t.setEngine c eid { e with poison := true }).elemDone c eid i { e with poison := true }
  else match t.elemSource c eid i e ((e.pair 2 + e.elemBytes * i) % 2 ^ 64) e.elemBytes with
    | .busy u => u
    | .fault _ _ _ => t
    | .data u data bad => u.elemWrite c eid i e 0 0 ((e.pair 4 + x * e.elemBytes) % 2 ^ 64) data bad

theorem gathAt_of_read {t u : State} {x : Nat} {ibad : List Nat} (hgood : ibad = []) {data : List Byte} {bad : List Nat}
    (hread : t.engRead c eid (8 * i + 1) e ((e.pair 2 + x * e.elemBytes) % 2 ^ 56) e.elemBytes = .data u data bad) :
    t.gathAt c eid i e x ibad = u.gathPut c eid i e data bad := by
  subst hgood
  simp only [State.gathAt, hread]
  rfl

theorem gathAt_of_poison {ibad : List Nat} (hbad : ibad ≠ []) (t : State) (x : Nat) :
    t.gathAt c eid i e x ibad = (t.setEngine c eid { e with poison := true }).gathPut c eid i { e with poison := true }
      (List.replicate e.elemBytes 0) (List.range e.elemBytes) := by
  simp [State.gathAt, hbad]

theorem scatAt_of_source {t u : State} {x : Nat} {ibad : List Nat} (hgood : ibad = []) {data : List Byte} {bad : List Nat}
    (hsource : t.elemSource c eid i e ((e.pair 2 + e.elemBytes * i) % 2 ^ 64) e.elemBytes = .data u data bad) :
    t.scatAt c eid i e x ibad = u.elemWrite c eid i e 0 0 ((e.pair 4 + x * e.elemBytes) % 2 ^ 64) data bad := by
  subst hgood
  simp only [State.scatAt, hsource]
  rfl

/-- A scatter under a poisoned index writes nothing: its element is done, and the command is poisoned (R298). -/
theorem scatAt_of_poison {ibad : List Nat} (hbad : ibad ≠ []) (t : State) (x : Nat) :
    (t.scatAt c eid i e x ibad).mem = t.mem ∧ (t.scatAt c eid i e x ibad).reqs = t.reqs
      ∧ ∃ f, Map.find? ((t.scatAt c eid i e x ibad).core c).engines eid = some f ∧ f.poison = true ∧ f.doneE.contains i = true := by
  have hdone : t.scatAt c eid i e x ibad = (t.setEngine c eid { e with poison := true }).elemDone c eid i { e with poison := true } := by
    simp [State.scatAt, hbad]
  rw [hdone]
  exact ⟨rfl, rfl, _, find?_elemDone .., by simp, by simp [mem_insSet]⟩

/-- An element whose index has come acts by it, the command keeping the index meanwhile. -/
theorem indexedElem_of_index {ib : List Byte} {ibad : List Nat}
    (hindex : s.engRead c eid (8 * i) e ((e.pair 0 + e.indexBytes * i) % 2 ^ 56) e.indexBytes = .data s1 ib ibad) :
    let k := s1.keepPart c eid (8 * i) e ib ibad
    s.indexedElem c eid i e = if e.kind = .gath then k.1.gathAt c eid i k.2 (ofBytes ib % 2 ^ 56) ibad
      else k.1.scatAt c eid i k.2 (ofBytes ib % 2 ^ 56) ibad := by
  unfold EngCmd.indexBytes at hindex
  simp only [State.indexedElem, hindex]
  rfl

end

/-! ### Entries of ISX (R253) -/

@[simp] theorem row_setRow (s : State) (c : Nat) (r : RowEngine) : ((s.setRow c r).core c).row = r := by
  simp [State.setRow]

@[simp] theorem unit_setUnit_same (s : State) (c n : Nat) (u : IsUnit) : ((s.setUnit c n u).core c).row.unit n = u := by
  simp [State.setUnit, RowEngine.unit]

@[simp] theorem side_setSide_same (u : IsUnit) (b : Bool) (x : FibSide) : (u.setSide b x).side b = x := by
  cases b <;> rfl

/-- The queue that an ISX fills. -/
def State.isxQueue (s : State) (c : Nat) (e : EngCmd) : List FibEntry := (((s.core c).row.unit e.unit).side (EngCmd.isxSide e)).queue

/-- An entry of an ISX in its side's queue, and the command at its next. -/
def State.isxPut (t : State) (c eid : Nat) (e : EngCmd) (f : FibEntry) : State :=
  let u := (t.core c).row.unit e.unit
  (t.setUnit c e.unit (u.setSide (EngCmd.isxSide e) { u.side (EngCmd.isxSide e) with queue := t.isxQueue c e ++ [f] })).setEngine c eid
    { (t.readsDone c eid [8 * e.next, 8 * e.next + 1] e) with next := e.next + 1 }

@[simp] theorem isxQueue_isxPut (t : State) (c eid : Nat) (e : EngCmd) (f : FibEntry) :
    (t.isxPut c eid e f).isxQueue c e = t.isxQueue c e ++ [f] := by
  simp [State.isxPut, State.isxQueue]

theorem find?_isxPut (t : State) (c eid : Nat) (e : EngCmd) (f : FibEntry) :
    ∃ x, Map.find? ((t.isxPut c eid e f).core c).engines eid = some x ∧ x.next = e.next + 1 := by
  simp [State.isxPut]

section
variable {s s1 : State} {c eid : Nat} {e : EngCmd} {cb : List Byte} {cbad : List Nat}

/-- An ISX whose turn it is, with entries left, room in its queue and its next coordinate word read. -/
structure State.IsxReads (s : State) (c eid : Nat) (e : EngCmd) (s1 : State) (cb : List Byte) (cbad : List Nat) : Prop where
  left : e.next < e.total
  room : (s.isxQueue c e).length < 64
  turn : (s.core c).isxBefore eid e = false
  read : s.engRead c eid (8 * e.next) e ((e.pair 0 + 4 * e.next) % 2 ^ 56) 4 = .data s1 cb cbad

/-- A stop word enters its queue without a value. -/
theorem isxFeed_stop (h : s.IsxReads c eid e s1 cb []) (hstop : bitOf (ofBytes cb) 31 = true) :
    s.isxFeed c eid e = s1.isxPut c eid e
      ⟨some (bits (ofBytes cb) 0 3), bits (ofBytes cb) 0 31, decodeF (EngCmd.isxType e) 0, false, false, eid, e.next + 1 == e.total⟩ := by
  obtain ⟨hleft, hroom, hturn, hread⟩ := h
  simp only [State.isxQueue] at hroom
  simp only [State.isxFeed, hread, hturn, hstop, Nat.not_le_of_lt hleft, Nat.not_le_of_lt hroom, decide_false, Bool.or_self,
    Bool.false_eq_true, if_false]
  rfl

/-- Any other entry brings its value with it, each part with its poison. -/
theorem isxFeed_value (h : s.IsxReads c eid e s1 cb cbad) (hvalue : cbad ≠ [] ∨ bitOf (ofBytes cb) 31 = false) {s2 : State} {v : List Byte}
    {bad : List Nat} (hread2 : (s1.keepPart c eid (8 * e.next) e cb cbad).1.engRead c eid (8 * e.next + 1)
      (s1.keepPart c eid (8 * e.next) e cb cbad).2 ((e.pair 2 + (EngCmd.isxType e).width / 8 * e.next) % 2 ^ 56)
        ((EngCmd.isxType e).width / 8) = .data s2 v bad) :
    s.isxFeed c eid e = s2.isxPut c eid e
      ⟨none, bits (ofBytes cb) 0 31, decodeF (EngCmd.isxType e) (ofBytes v), !cbad.isEmpty, !bad.isEmpty, eid, e.next + 1 == e.total⟩ := by
  obtain ⟨hleft, hroom, hturn, hread⟩ := h
  simp only [State.isxQueue] at hroom
  have hplain : (bitOf (ofBytes cb) 31 && cbad.isEmpty) = false := by
    rcases hvalue with h | h <;> simp [h]
  simp only [State.isxFeed, hread, hturn, hplain, hread2, Nat.not_le_of_lt hleft, Nat.not_le_of_lt hroom, decide_false, Bool.or_self,
    Bool.false_eq_true, if_false]
  rfl

end

end Sys2Proof.Machine
end

section
/-! PROOFS. Scans, exchanges and completions of engine commands (R137, R257, R293, R301, R302). -/
namespace Sys2Proof.Machine

/-! ### Elements of NZSCAN (R257) -/

section
variable {s s1 : State} {c eid : Nat} {e : EngCmd} {b : List Byte} {bad : List Nat}

/-- A scan that is over closes, with its poison, and counts what it has written. -/
theorem find?_nzEnd (s : State) (c eid : Nat) (e : EngCmd) (poison : Bool) :
    ∃ g, Map.find? ((s.nzEnd c eid e poison).core c).engines eid = some g ∧ g.state = .closing ∧ g.poison = poison ∧ g.lo = e.lo := by
  unfold State.nzEnd
  dsimp only
  split
  · exact ⟨_, find?_setEngine_same .., rfl, rfl, rfl⟩
  · exact ⟨_, ((sent_elemStore ..).find?_engine ..).trans (find?_setEngine_same ..), rfl, rfl, rfl⟩

/-- A scan with no element left ends. -/
theorem nzStep_of_over (hover : e.total ≤ e.next) : s.nzStep c eid e = s.nzEnd c eid e false := by
  simp only [State.nzStep, if_pos hover]

/-- A poisoned element ends its scan. -/
theorem nzStep_of_poison (hleft : e.next < e.total)
    (hread : s.engRead c eid (8 * e.next) e ((e.pair 0 + (EngCmd.nzType e).width / 8 * e.next) % 2 ^ 56) ((EngCmd.nzType e).width / 8)
      = .data s1 b bad) (hbad : bad ≠ []) : s.nzStep c eid e = s1.nzEnd c eid (s1.readsDone c eid [8 * e.next] e) true := by
  simp only [State.nzStep, if_neg (Nat.not_le_of_lt hleft), hread]
  exact if_pos (by simpa using hbad)

/-- An element that is not live is passed over. -/
theorem nzStep_of_zero (hleft : e.next < e.total)
    (hread : s.engRead c eid (8 * e.next) e ((e.pair 0 + (EngCmd.nzType e).width / 8 * e.next) % 2 ^ 56) ((EngCmd.nzType e).width / 8)
      = .data s1 b []) (hzero : isLive (EngCmd.nzType e) (ofBytes b) = false) :
    s.nzStep c eid e = s1.setEngine c eid { s1.readsDone c eid [8 * e.next] e with next := e.next + 1 } := by
  simp only [State.nzStep, if_neg (Nat.not_le_of_lt hleft), hread, hzero]
  rfl

/-- A live element is stored, after its coordinate word. -/
theorem nzStep_of_live (hleft : e.next < e.total)
    (hread : s.engRead c eid (8 * e.next) e ((e.pair 0 + (EngCmd.nzType e).width / 8 * e.next) % 2 ^ 56) ((EngCmd.nzType e).width / 8)
      = .data s1 b []) (hlive : isLive (EngCmd.nzType e) (ofBytes b) = true) :
    let vb := (EngCmd.nzType e).width / 8
    let ca := (e.pair 4 + 4 * e.lo) % 2 ^ 56
    let va := (e.pair 6 + vb * e.lo) % 2 ^ 56
    let f := s1.readsDone c eid [8 * e.next] e
    let left := partsOf ca 4 + (if e.pair 6 ≠ 0 then partsOf va vb else 0)
    let g := { f with next := e.next + 1, lo := e.lo + 1, parts := Map.put f.parts (8 * e.next + 7) ⟨[], [], true, left⟩ }
    let s2 := (s1.setEngine c eid g).elemStore c eid (8 * e.next + 7) f ca (toBytes 4 e.next) false e.cid
    s.nzStep c eid e = if e.pair 6 ≠ 0 then s2.elemStore c eid (8 * e.next + 7) f va b false e.cid else s2 := by
  simp only [State.nzStep, if_neg (Nat.not_le_of_lt hleft), hread, hlive]
  rfl

end

/-! ### DPOST and DXCH (R301, R302) -/

section
variable {s s1 : State} {c eid : Nat} {e : EngCmd} {g : Group}

/-- A post whose row has come goes to the baristas. -/
theorem dpostStep_of_read (hgroup : Map.find? s.exchange e.exchGroup = some g) {me : Nat} (hme : g.indexOf s.chipId = some me)
    (hpath : s.pathUp (s.baristaDirs c g) = true) (hfirst : e.targets = []) {b : List Byte} {bad : List Nat}
    (hread : s.engRead c eid 1 e (e.pair 0 % 2 ^ 56) (4 * g.members.length) = .data s1 b bad) :
    s.dpostStep c eid e = (s1.setEngine c eid { s1.readsDone c eid [1] e with targets := wordsAt b }).toBaristas c g
      (exchMessage 0 e.exchGroup me b) := by
  simp only [State.dpostStep, hgroup, hme, hpath, hfirst, hread]
  rfl

/-- A DXCH without a calendar takes the one that is its turn's, which is used from then on. -/
theorem dxchStep_takes (hgroup : Map.find? s.exchange e.exchGroup = some g) (hcal : e.cal = none) {x : Calendar}
    (hx : (g.cals.filter (fun y => y.used.isEmpty))[s.earlierDxch e.exchGroup c eid e]? = some x) :
    s.dxchStep c eid e = (s.setEngine c eid { e with
      cal := some x.id, sent := List.replicate g.members.length 0, recv := List.replicate g.members.length 0
      startAt := s.now, next := x.ended }).setGroup e.exchGroup (g.setCal { x with used := [1] }) := by
  simp only [State.dxchStep, hgroup, hcal, hx]

/-- A calendar that is set stands for every calendar of its number. -/
theorem eq_of_mem_setCal {x y : Calendar} (hy : y ∈ (g.setCal x).cals) (hid : y.id = x.id) : y = x := by
  obtain ⟨z, _, rfl⟩ := List.mem_map.mp hy
  split at hid
  · next h => exact if_pos h
  · next h => exact absurd hid h

variable {n : Nat} {x : Calendar}

/-- A DXCH with its calendar whose array has come keeps it. -/
theorem dxchStep_reads (hgroup : Map.find? s.exchange e.exchGroup = some g) (hcal : e.cal = some n) (hx : g.cal? n = some x)
    (hfirst : e.targets = []) {b : List Byte} {bad : List Nat}
    (hread : s.engRead c eid 1 e (e.pair 4 % 2 ^ 56) (4 * g.members.length) = .data s1 b bad) :
    s.dxchStep c eid e = s1.setEngine c eid { s1.readsDone c eid [1] e with targets := wordsAt b } := by
  simp only [State.dxchStep, hgroup, hcal, hx, hfirst, hread]
  rfl

/-- A DXCH that has its array waits while its calendar has phases, and then ends. -/
theorem dxchStep_after (hgroup : Map.find? s.exchange e.exchGroup = some g) (hcal : e.cal = some n) (hx : g.cal? n = some x)
    (hlater : e.targets ≠ []) : s.dxchStep c eid e = if x.phases = [] then s.dxchEnd c eid e else s := by
  by_cases hphases : x.phases = [] <;> simp [State.dxchStep, hgroup, hcal, hx, hlater, Calendar.running, hphases]

/-- A DXCH that ends closes with its residual, and stores each part of its status array (R302). -/
theorem dxchEnd_closes (s : State) (c eid : Nat) (e : EngCmd) :
    ∃ f, Map.find? ((s.dxchEnd c eid e).core c).engines eid = some f ∧ f.state = .closing ∧ f.next = e.residual
      ∧ ∀ p ∈ lineRun (e.pair 6 % 2 ^ 56) e.status.length (e.status.length / 128 + 2) 0, ∃ r ∈ (s.dxchEnd c eid e).reqs,
          r.2.va = p.2.1 ∧ r.2.kind = .store ((e.status.drop p.1).take p.2.2) false :=
  ⟨_, ((sent_elemStore ..).find?_engine ..).trans (find?_setEngine_same ..), rfl, rfl, exists_store_of_elemStore _ _ _ _ _ _ _ _ _⟩

end

/-! ### Completions (R137, R293) -/

section
variable {s : State} {c eid : Nat} {e : EngCmd}

/-- Nothing of a core's stash stands before a release: it stays within the core, or no line is there or on its way home. -/
def State.releases (s : State) (c : Nat) (rel : Scope) : Prop :=
  Scope.beyondCore rel = false ∨ ((s.core c).stash = [] ∧ ∀ p ∈ s.reqs, p.2.wb = false)

/-- A core without stash lines has none to clean. -/
theorem cleanCore_of_no_stash (h : (s.core c).stash = []) (cid : Option Nat) : s.cleanCore c cid = s := by
  simp [State.cleanCore, State.cleanLines, h]

/-- A completion token that no stash line holds back leaves at once. -/
theorem complete_of_releases {t : Token} (h : s.releases c t.rel) (fin : State → State) :
    s.complete c eid t fin = ((fin s).dropEngine c eid).sendToken c t := by
  unfold State.complete
  rcases h with hcore | ⟨hstash, hwb⟩
  · exact if_pos (by simp [hcore])
  · have hhome : s.writesBack c = false := by
      simp only [State.writesBack, List.any_eq_false, Bool.and_eq_true]
      exact fun p hp h => by simp [hwb p hp] at h
    simp only [cleanCore_of_no_stash hstash, hhome, Bool.false_eq_true, if_false, ite_self]

theorem engineCompletion_copy (hfind : Map.find? (s.core c).engines eid = some e) (hrun : e.state = .running)
    (hk : e.kind = .cpy ∨ e.kind = .cpy2d) (hdone : e.total ≤ e.doneE.length) (hrel : s.releases c e.rscope) :
    exec (.engineCompletion c eid) s = .next ((s.dropEngine c eid).sendToken c (e.completion e.payload)) := by
  have hcomplete := complete_of_releases (eid := eid) (t := e.completion e.payload) hrel id
  have hexec : exec (.engineCompletion c eid) s = execEngineCompletion c eid s := rfl
  rw [hexec, execEngineCompletion, hfind]
  rcases hk with hk | hk <;> simp only [hk, hrun, if_pos hdone, hcomplete, id]

theorem engineCompletion_indexed (hfind : Map.find? (s.core c).engines eid = some e) (hrun : e.state = .running)
    (hk : e.kind = .gath ∨ e.kind = .scat) (hdone : e.total ≤ e.doneE.length) (hrel : s.releases c e.rscope) :
    exec (.engineCompletion c eid) s = .next (((s.endStream c eid e).dropEngine c eid).sendToken c (e.completion e.payload)) := by
  have hcomplete := complete_of_releases (eid := eid) (t := e.completion e.payload) hrel (fun a => a.endStream c eid e)
  have hexec : exec (.engineCompletion c eid) s = execEngineCompletion c eid s := rfl
  rw [hexec, execEngineCompletion, hfind]
  rcases hk with hk | hk <;> simp only [hk, hrun, if_pos hdone, hcomplete]

theorem engineCompletion_fill (hfind : Map.find? (s.core c).engines eid = some e) (hrun : e.state = .running) (hk : e.kind = .cpyb)
    (hdone : e.total ≤ e.doneE.length) (hrel : s.releases c e.rscope) :
    exec (.engineCompletion c eid) s = .next (((s.bufferFilled c eid e).dropEngine c eid).sendToken c (e.completion e.payload)) := by
  have hcomplete := complete_of_releases (eid := eid) (t := e.completion e.payload) hrel (fun a => a.bufferFilled c eid e)
  have hexec : exec (.engineCompletion c eid) s = execEngineCompletion c eid s := rfl
  rw [hexec, execEngineCompletion, hfind]
  simp only [hk, hrun, if_pos hdone, hcomplete]

/-- A filled buffer has its length, and its bytes as they came. -/
theorem opbufs_bufferFilled {b : OpBuf} (hbuf : Map.find? (s.core c).opbufs (e.word 2) = some b) :
    ∃ b', Map.find? ((s.bufferFilled c eid e).core c).opbufs (e.word 2) = some b' ∧ b'.filled = true ∧ b'.len = e.word 5
      ∧ b'.data = b.data := by
  simp [State.bufferFilled, hbuf]

end

end Sys2Proof.Machine
end

section
/-! PROOFS. Streams (R275, R299, R300), and O52 assembled. -/
namespace Sys2Proof.Machine

/-! ### Elements of streams (R299) -/

section
variable {s : State} {c n eid : Nat} {e : EngCmd}

/-- The oldest pushed value of a store stream goes to its element's address. -/
theorem streamElement_store (hstream : (s.core c).runningStream n = some (eid, e)) (hstate : e.state = .running) (hrun : e.run = true)
    (hleft : e.next < e.total) (hstore : EngCmd.isStoreStream e = true) {v : DWord} {rest : List DWord} (hpush : e.pushes = v :: rest) :
    let va := EngCmd.strmAddr e e.next
    let z := EngCmd.strmSize e
    let e1 := { e with pushes := rest, next := e.next + 1, wrote := true, lo := (if e.wrote then min e.lo va else va)
                       hi := (if e.wrote then max e.hi (va + z - 1) else va + z - 1)
                       parts := Map.put e.parts (8 * e.next + 7) ⟨[], [], true, partsOf va z⟩ }
    exec (.streamElement c n) s =
      .next ((s.setEngine c eid e1).elemStore c eid (8 * e.next + 7) e va (toBytes z v.toNat) false none) := by
  have hexec : exec (.streamElement c n) s = execStreamElement c n s := rfl
  rw [hexec, execStreamElement, hstream]
  simp [hstate, hrun, Nat.not_le_of_lt hleft, hstore, hpush]

/-- The bytes of a load stream's element leave as one token, or as two where there are eight of them. -/
def State.strmSend (s : State) (c : Nat) (e : EngCmd) (data : List Byte) (bad : Bool) : State :=
  if EngCmd.strmSize e = 8 then
    (s.sendToken c (e.strmToken e.rslot (ofBytes data % 2 ^ 32) bad)).sendToken c (e.strmToken (e.rslot + 1) (ofBytes data / 2 ^ 32) bad)
  else s.sendToken c (e.strmToken e.rslot (ofBytes data) bad)

/-- A load stream sends its element, also one that is read as its close comes (R293, R300). -/
theorem streamElement_load (hstream : (s.core c).runningStream n = some (eid, e)) (hstate : e.state = .running) (hrun : e.run = true)
    (hleft : e.next < e.total) (hload : EngCmd.isStoreStream e = false)
    (hopen : e.close = false ∨ (Map.find? e.parts (8 * e.next + 1)).isSome = true) {s1 : State} {data : List Byte} {bad : List Nat}
    (hread : s.engRead c eid (8 * e.next + 1) e (EngCmd.strmAddr e e.next) (EngCmd.strmSize e) = .data s1 data bad) :
    exec (.streamElement c n) s = .next ((s1.setEngine c eid { s1.readsDone c eid [8 * e.next + 1] e with next := e.next + 1 }).strmSend
      c e data (!bad.isEmpty)) := by
  have hclosing : (e.close && !(Map.find? e.parts (8 * e.next + 1)).isSome) = false := by
    rcases hopen with h | h <;> simp [h]
  have hexec : exec (.streamElement c n) s = execStreamElement c n s := rfl
  rw [hexec, execStreamElement, hstream, State.strmSend]
  simp only [hstate, hrun, Nat.not_le_of_lt hleft, hload, hread, hclosing, ne_eq, not_true_eq_false, decide_false, Bool.not_false,
    Bool.true_and, Bool.true_or, Bool.not_true, Bool.or_self, Bool.false_eq_true, if_false]
  by_cases hsize : EngCmd.strmSize e = 8
  · simp only [if_pos hsize]
  · simp only [if_neg hsize]

/-! ### Closing streams (R275, R299) -/

/-- A load stream that is over sends its null token with stop 7. -/
theorem streamClose_load (hstream : (s.core c).runningStream n = some (eid, e)) (hover : e.total ≤ e.next) (hparts : e.parts = [])
    (hload : EngCmd.isStoreStream e = false) : exec (.streamClose c n) s = .next ((s.dropEngine c eid).sendToken c
      { plainToken e.fp e.rblock e.rslot (e.total % 1024) e.ident e.next with null := true, stop := 7, charges := [e.charge] }) := by
  have hexec : exec (.streamClose c n) s = execStreamClose c n s := rfl
  rw [hexec, execStreamClose, hstream]
  simp [hover, hparts, hload]

/-- A store stream that wrote nothing, or whose entry of the dirty-range ring is complete, completes. -/
theorem streamClose_store (hstream : (s.core c).runningStream n = some (eid, e)) (hover : e.total ≤ e.next) (hparts : e.parts = [])
    (hstore : EngCmd.isStoreStream e = true) (hentry : (e.startAt = 0 ∧ e.wrote = false) ∨ e.startAt = 2) :
    exec (.streamClose c n) s = .next (s.endStore c eid e) := by
  have hexec : exec (.streamClose c n) s = execStreamClose c n s := rfl
  rw [hexec, execStreamClose, hstream]
  cases hgraph : s.graph? e.graph with
  | none => simp [hover, hparts, hstore, hgraph]
  | some g =>
    rcases hentry with ⟨hstart, hwrote⟩ | hstart
    · simp [hover, hparts, hstore, hgraph, hstart, hwrote]
    · simp [hover, hparts, hstore, hgraph, hstart]

/-! ### Stream controls (R300) -/

/-- A control of a stream that no other stands before. -/
structure Core.ControlNext (k : Core) (eid : Nat) (e : EngCmd) : Prop where
  find : Map.find? k.engines eid = some e
  first : ∀ p ∈ k.engines, p.1 < eid → p.2.kind ≠ .strmgo ∧ p.2.kind ≠ .strmx

/-- No control stands before it. -/
theorem Core.ControlNext.none_before {k : Core} (h : k.ControlNext eid e) : k.engines.any (fun p => decide (p.1 < eid)
    && (decide (p.2.kind = .strmgo) || decide (p.2.kind = .strmx)) && p.2.graph == e.graph
    && EngCmd.streamEngine p.2 == EngCmd.streamEngine e) = false := by
  simp only [List.any_eq_false, Bool.and_eq_true, Bool.or_eq_true, decide_eq_true_eq]
  rintro p hp ⟨⟨⟨hlt, hk⟩, _⟩, _⟩
  rcases hk with hk | hk
  · exact (h.first p hp hlt).1 hk
  · exact (h.first p hp hlt).2 hk

/-- A control without a target is counted. -/
theorem streamControl_none (h : (s.core c).ControlNext eid e) (hk : e.kind = .strmgo ∨ e.kind = .strmx)
    (htarget : (s.core c).targetStream e.graph (EngCmd.streamEngine e) eid = none) :
    exec (.streamControlDelivery c eid) s = .next (((s.count c 0x042 0 1).dropEngine c eid).later (some e.charge)) := by
  have hbefore := h.none_before
  have hexec : exec (.streamControlDelivery c eid) s = execStreamControlDelivery c eid s := rfl
  rw [hexec, execStreamControlDelivery, h.find]
  rcases hk with hk | hk <;> simp only [hk, hbefore, htarget] <;> rfl

variable {tid : Nat} {t : EngCmd}

/-- STRMGO sets its target's run flag, and closes it where it says so. -/
theorem streamControl_go (h : (s.core c).ControlNext eid e) (hk : e.kind = .strmgo)
    (htarget : (s.core c).targetStream e.graph (EngCmd.streamEngine e) eid = some (tid, t)) (hstarted : t.state ≠ .queued) :
    exec (.streamControlDelivery c eid) s = .next (((s.setEngine c tid { t with
      run := bitOf e.flags 0, close := t.close || bitOf e.flags 1 }).dropEngine c eid).later (some e.charge)) := by
  have hbefore := h.none_before
  have hexec : exec (.streamControlDelivery c eid) s = execStreamControlDelivery c eid s := rfl
  rw [hexec, execStreamControlDelivery, h.find]
  simp only [hk, hbefore, htarget, if_neg hstarted]
  rfl

/-- STRMX pushes what its open target has room for, and the rest is counted. -/
theorem streamControl_push (h : (s.core c).ControlNext eid e) (hk : e.kind = .strmx)
    (htarget : (s.core c).targetStream e.graph (EngCmd.streamEngine e) eid = some (tid, t)) (hstarted : t.state ≠ .queued)
    (hstore : EngCmd.isStoreStream t = true) (hpair : EngCmd.strmSize t = 8 → e.flags % 2 = 0) (hopen : t.close = false) :
    let room := t.total - t.next - t.pushes.length
    exec (.streamControlDelivery c eid) s = .next ((((s.setEngine c tid { t with pushes := t.pushes ++ e.values.take room }).count c 0x042 0
      (e.values.length - room)).dropEngine c eid).later (some e.charge)) := by
  have hbefore := h.none_before
  have hfits : (EngCmd.strmSize t == 8 && e.flags % 2 == 1) = false := by
    simp only [Bool.and_eq_false_imp, beq_iff_eq, beq_eq_false_iff_ne]
    intro hsize
    rw [hpair hsize]
    decide
  have hexec : exec (.streamControlDelivery c eid) s = execStreamControlDelivery c eid s := rfl
  rw [hexec, execStreamControlDelivery, h.find]
  simp only [hk, hbefore, htarget, if_neg hstarted, hstore, hfits, hopen]
  rfl

/-- STRMX at a load stream is counted with each of its elements. -/
theorem streamControl_load (h : (s.core c).ControlNext eid e) (hk : e.kind = .strmx)
    (htarget : (s.core c).targetStream e.graph (EngCmd.streamEngine e) eid = some (tid, t)) (hstarted : t.state ≠ .queued)
    (hload : EngCmd.isStoreStream t = false) :
    exec (.streamControlDelivery c eid) s = .next (((s.count c 0x042 0 e.values.length).dropEngine c eid).later (some e.charge)) := by
  have hbefore := h.none_before
  have hexec : exec (.streamControlDelivery c eid) s = execStreamControlDelivery c eid s := rfl
  rw [hexec, execStreamControlDelivery, h.find]
  simp only [hk, hbefore, htarget, if_neg hstarted, hload]
  rfl

end

/-! ### The obligation -/

/-- Settles O52: each step comes to its operation, whose lemma says what it leaves. -/
theorem enginesAndStreamsRun : Obligations.EnginesAndStreamsRun := by
  refine ⟨fun s c eid e => ?_, fun s c n eid e => ?_⟩
  · intro q atCore
    have hrelease : atCore → s.releases c e.rscope := id
    refine ⟨?start, ?indirect, ?element, ?isx, ?nzscan, ?exchange, ?copied, ?indexed, ?filled, ?consumed⟩
    case start =>
      intro hfind hqueued hstart hfirst s1
      have hexec := engineCommandStart_of_first hfind hqueued hstart hfirst
      rw [hexec]
      refine ⟨fun hk => ?_, fun hk => ?_, fun hk htotal => ?_, fun hk htotal => ?_, fun hk => ?_⟩
      · simp only [List.mem_cons, List.not_mem_nil, or_false] at hk
        rcases hk with hk | hk | hk | hk | hk | hk | hk <;> simp only [State.startEngine, hk] <;> rfl
      · rcases hk with hk | hk <;> simp only [State.startEngine, hk] <;> rfl
      · simp only [State.startEngine, hk, if_neg htotal]
        rfl
      · simp only [State.startEngine, hk, if_pos htotal]
        rfl
      · obtain ⟨b, hb⟩ := opbufs_startEngine_fill s hk
        exact ⟨_, b, rfl, hb⟩
    case indirect => exact fun d p rest => indirectStreamStart_of_room
    case element =>
      intro i hfind hrun hlt hdone hpart
      have hpending : e.Pending i := ⟨hlt, by simpa using hdone, hpart⟩
      refine ⟨fun b hk hbit hbuf => ?_, fun s1 data bad hk hsource => ?_, ?_, ?_⟩
      · have hgath : e.kind ≠ .gath := by rcases hk with h | h <;> simp [h]
        rw [engineElement_copy hfind hrun hpending hk, copyElem_of_source (elemSource_of_buffer hgath hbit hbuf ..)]
      · rw [engineElement_copy hfind hrun hpending hk, copyElem_of_source hsource]
      · intro s1 data bad n hk hread hlen old
        have hchunk := chunk_of_fill hk i
        have hsrc : s.engRead c eid (8 * i + 1) e ((e.chunk i).src % 2 ^ 56) (e.chunk i).n = .data s1 data bad := by
          rw [hchunk, Nat.mod_mod_of_dvd _ (by decide)]
          exact hread
        have hexec := engineElement_fill hfind hrun hpending hk
        rw [fillElem_of_read hsrc, hchunk] at hexec
        refine ⟨_, old.refilled (128 * i) n data bad, _, hexec, ?_, old.nthD_refilled _ hlen bad,
          fun j hj => old.mem_poison_refilled _ data bad hj, find?_elemDone .., by simp [mem_insSet]⟩
        rw [opbufs_elemDone, opbufs_setBuffer, Map.find?_put_same]
      · intro s1 ib ibad iw n x hstream hread k
        have hindex := indexedElem_of_index hread
        refine ⟨fun hk => ?_, fun hk => ?_⟩
        · rw [engineElement_indexed hfind hrun hpending hstream (.inl hk), hindex, if_pos hk]
          exact ⟨fun hgood s2 data bad hread2 => congrArg _ (gathAt_of_read hgood hread2), fun hbad => congrArg _ (gathAt_of_poison hbad ..)⟩
        · have hgath : e.kind ≠ .gath := by simp [hk]
          rw [engineElement_indexed hfind hrun hpending hstream (.inr hk), hindex, if_neg hgath]
          refine ⟨fun hgood s2 data bad hsource => congrArg _ (scatAt_of_source hgood hsource), fun hbad => ?_⟩
          obtain ⟨hmem, hreqs, f, hf⟩ := scatAt_of_poison (c := c) (eid := eid) (i := i) (e := k.2) hbad k.1 x
          exact ⟨_, f, rfl, hmem, hreqs, hf⟩
    case isx =>
      intro i s1 cb cbad hfind hrun hk hleft hroom hturn hread x queue
      have hreads : s.IsxReads c eid e s1 cb cbad := ⟨hleft, hroom, hturn, hread⟩
      rw [(engineElement_ordered hfind hrun i).1 hk]
      refine ⟨fun hgood hstop => ?_, fun hvalue => ?_⟩
      · subst hgood
        exact ⟨_, congrArg _ (isxFeed_stop hreads hstop), isxQueue_isxPut ..⟩
      · intro s2 v bad vb k hread2
        obtain ⟨f, hf⟩ := find?_isxPut s2 c eid e _
        exact ⟨_, f, congrArg _ (isxFeed_value hreads hvalue hread2), isxQueue_isxPut .., hf⟩
    case nzscan =>
      intro i hfind hrun hk vb ca
      rw [(engineElement_ordered hfind hrun i).2.1 hk]
      refine ⟨?_, fun hover hlevel => ?_, fun hover hlevel => ?_⟩
      · intro s1 b bad hleft hread f
        refine ⟨fun hbad => ?_, fun hgood hzero => ?_, fun hgood hlive => ?_⟩
        · obtain ⟨g, hg⟩ := find?_nzEnd s1 c eid f true
          exact ⟨_, g, congrArg _ (nzStep_of_poison hleft hread hbad), hg⟩
        · subst hgood
          exact congrArg _ (nzStep_of_zero hleft hread hzero)
        · subst hgood
          exact congrArg _ (nzStep_of_live hleft hread hlive)
      · rw [nzStep_of_over hover]
        exact congrArg _ (if_pos hlevel)
      · rw [nzStep_of_over hover]
        exact congrArg _ (if_neg hlevel)
    case exchange =>
      intro i g hfind hrun hgroup
      obtain ⟨-, -, hdpost, hdxch⟩ := engineElement_ordered hfind hrun i
      refine ⟨fun me s1 b bad hk hfirst hme hpath hread => ?_, fun hk hcal x hx => ?_, fun n x hk hcal hx => ?_⟩
      · rw [hdpost hk, dpostStep_of_read hgroup hme hpath hfirst hread]
      · rw [hdxch hk, dxchStep_takes hgroup hcal hx]
        refine ⟨_, _, _, rfl, find?_setEngine_same .., rfl, rfl, rfl, Map.find?_put_same .., fun y hy hid => ?_⟩
        rw [eq_of_mem_setCal hy hid]
        simp
      · rw [hdxch hk]
        refine ⟨fun s1 b bad hfirst hread => ?_, fun hlater hphases => ?_, fun hlater hphases => ?_⟩
        · rw [dxchStep_reads hgroup hcal hx hfirst hread]
        · rw [dxchStep_after hgroup hcal hx hlater, if_neg hphases]
        · rw [dxchStep_after hgroup hcal hx hlater, if_pos hphases]
          obtain ⟨f, hf⟩ := dxchEnd_closes s c eid e
          exact ⟨_, f, rfl, hf⟩
    case copied => exact fun hfind hrun hk hdone hat => engineCompletion_copy hfind hrun hk hdone (hrelease hat)
    case indexed => exact fun hfind hrun hk hdone hat => engineCompletion_indexed hfind hrun hk hdone (hrelease hat)
    case filled =>
      intro b hfind hrun hk hdone hat hbuf
      obtain ⟨b', hbuf', hfilled, hlen, hdata⟩ := opbufs_bufferFilled (eid := eid) hbuf
      refine ⟨_, b', engineCompletion_fill hfind hrun hk hdone (hrelease hat), ?_, hfilled, hlen, hdata⟩
      rw [opbufs_sendToken, opbufs_dropEngine, hbuf']
    case consumed => exact fun buf => operandsConsumed_of_waitsOver
  · intro q va z
    refine ⟨fun hstream hstate hrun hleft => ⟨fun v rest hstore hpush => ?_, ?_⟩,
      fun hstream hover hparts => ⟨fun hload => ?_, fun hstore hstart hwrote => ?_, fun hstore hstart => ?_⟩, fun hfind hfirst => ?_⟩
    · exact streamElement_store hstream hstate hrun hleft hstore hpush
    · intro s1 data bad hload hopen hread s2
      rw [streamElement_load hstream hstate hrun hleft hload hopen hread]
      exact ⟨fun hsize => congrArg _ (if_neg hsize), fun hsize => congrArg _ (if_pos hsize)⟩
    · exact streamClose_load hstream hover hparts hload
    · exact streamClose_store hstream hover hparts hstore (.inl ⟨hstart, hwrote⟩)
    · exact streamClose_store hstream hover hparts hstore (.inr hstart)
    · have hnext : q.ControlNext eid e := ⟨hfind, hfirst⟩
      exact ⟨fun _ _ => streamControl_go hnext, fun _ _ => streamControl_push hnext, fun _ _ => streamControl_load hnext,
        streamControl_none hnext⟩

end Sys2Proof.Machine
end

section
/-! PROOFS. Rows 0xB_ and 0xF_ at issue: what they read, and the act or the fault that they leave (R143 to R149, R336 to R356): O39. -/
namespace Sys2Proof.Machine

/-! ### The two outcomes of an instruction that acts at commit (R336) -/

/-- An instruction whose check at issue is a condition leaves its act where that holds, and else is a fault with code 0x02. -/
theorem actForm_when {s : State} {c k : Nat} {w : Warp} (h : State.InTurn s c k w) {check : Nat → Warp → View → Bool} {f : View → AtCommit}
    {ok : Prop} (hcheck : check c w (s.view c w) = true ↔ ok) :
    (ok → actForm s check f = .next (s.acted c k w (f (s.view c w))))
      ∧ (¬ ok → actForm s check f = .next (s.takeFault c k w [⟨0, 0x02, 0⟩])) := by
  rw [actForm_inTurn h]
  exact ⟨fun hok => by rw [if_pos (hcheck.mpr hok)], fun hbad => by rw [if_neg (mt hcheck.mp hbad)]; rfl⟩

/-! ### The checks at issue -/

/-- HBIND: filter 11 is reserved, and the channel is not VALID or the graph's own (R339). -/
theorem hbindCheck_iff (s : State) (c g n ch : Nat) : (n != 3 && s.channelFree c g ch) = true ↔
    n ≠ 3 ∧ ((Map.getD (s.core c).hists ch Hist.reset).valid = false ∨ (Map.getD (s.core c).hists ch Hist.reset).graph = g) := by
  simp [State.channelFree]

/-- TRON: the ring is 64 KiB aligned and lies in the address space (R342). -/
theorem tronCheck_iff (n : Nat) : (n % 65536 == 0 && decide (n < 2 ^ 56)) = true ↔ n % 65536 = 0 ∧ n < 2 ^ 56 := by
  rw [Bool.and_eq_true, beq_iff_eq, decide_eq_true_iff]

/-- DIRFL: the owner filter names a die, or all (R352). -/
theorem ownerFilterOk_iff (n : Nat) : ownerFilterOk n = true ↔ n < 8 ∨ n = 0xFF := by
  rw [ownerFilterOk, Bool.or_eq_true, decide_eq_true_iff, beq_iff_eq]

/-- A histogram bin as the warp's graph reads it: its own channel's, and 0 of another's (R330, R340). -/
theorem histRead_eq (s : State) (c g ch b : Nat) :
    s.histRead c g ch b = if (Map.getD (s.core c).hists ch Hist.reset).valid = true ∧ (Map.getD (s.core c).hists ch Hist.reset).graph = g
      then Map.getD (Map.getD (s.core c).hists ch Hist.reset).bins b 0 else 0 := by
  simp [State.histRead]

/-- Settles O39: each reading instruction is its read form; each of the others its act form, with its check at issue. -/
theorem systemInstructionsIssue : Obligations.SystemInstructionsIssue := by
  refine ⟨fun s c k w hturn a => ?reads, fun s c k w hturn a => ?acts⟩
  case reads =>
    intro gives h
    have read : ∀ n (f : Nat → Warp → View → Nat), readForm s a n f =
        .next (s.issued c k (w.write w.lanes a.opnd n (fun _ => f c w (s.view c w)))) := readForm_inTurn hturn a
    refine ⟨?hread, ?srdraw, ?ctrd, ?sysrd, ?dieq, ?syswrStatus⟩
    case hread =>
      change execHread a s = _
      rw [execHread, read, histRead_eq]
    case srdraw =>
      change execSrdraw a s = _
      exact read _ _
    case ctrd =>
      change execCtrd a s = _
      exact read _ _
    case sysrd =>
      change execSysrd a s = _
      exact read _ _
    case dieq =>
      change execDieq a s = _
      exact read _ _
    case syswrStatus =>
      change execSyswrStatusRead a s = _
      exact withWarp_inTurn hturn _
  case acts =>
    intro x d h v leaves when
    have leave : ∀ f : View → AtCommit, actForm s (fun _ _ _ => true) f = .next (s.acted c k w (f x)) := fun _ => actForm_inTurn hturn ..
    refine ⟨?hbind, ?tron, ?launch, ?dirfl, ?hbindRelease, ?hclr, ?troff, ?trmark, ?srseed, ?syswr, ?sramPartWrite, ?gload,
      ?gunld, ?tgen, ?preempt, ?resume, ?tretReplay, ?tretPoison, ?tretRaiseMark, ?tretAnswer, ?jrnl⟩
    case hbind =>
      change (_ → execHbind a s = _) ∧ (_ → execHbind a s = _)
      refine actForm_when hturn ?_
      exact hbindCheck_iff ..
    case tron =>
      change (_ → execTron a s = _) ∧ (_ → execTron a s = _)
      refine actForm_when hturn ?_
      exact tronCheck_iff _
    case launch =>
      change (_ → execLaunch a s = _) ∧ (_ → execLaunch a s = _)
      refine actForm_when hturn ?_
      exact Iff.rfl
    case dirfl =>
      change (_ → execDirfl a s = _) ∧ (_ → execDirfl a s = _)
      refine actForm_when hturn ?_
      exact ownerFilterOk_iff _
    case hbindRelease => change execHbindRelease a s = _; exact leave _
    case hclr => change execHclr a s = _; exact leave _
    case troff => change execTroff a s = _; exact leave _
    case trmark => change execTrmark a s = _; exact leave _
    case srseed => change execSrseed a s = _; exact leave _
    case syswr => change execSyswr a s = _; exact leave _
    case sramPartWrite => change execSramPartWrite a s = _; exact leave _
    case gload => change execGload a s = _; exact leave _
    case gunld => change execGunld a s = _; exact leave _
    case tgen => change execTgen a s = _; exact leave _
    case preempt => change execPreempt a s = _; exact leave _
    case resume => change execResume a s = _; exact leave _
    case tretReplay => change execTretReplay a s = _; exact leave _
    case tretPoison => change execTretPoison a s = _; exact leave _
    case tretRaiseMark => change execTretRaiseMark a s = _; exact leave _
    case tretAnswer => change execTretAnswer a s = _; exact leave _
    case jrnl => change execJrnl a s = _; exact leave _

end Sys2Proof.Machine
end

section
/-! PROOFS. What the operations around the row engine leave of it: counters, messages, engine entries and freed rows (R144, R233). -/
namespace Sys2Proof.Machine

/-! ### A list's places -/

/-- The first entry that a test keeps, behind some that it does not. -/
theorem findIdx_append_cons {α : Type} {f : α → Bool} {pre : List α} {y : α} (hpre : ∀ z ∈ pre, f z = false)
    (hy : f y = true) (rest : List α) :
    findIdx f (pre ++ y :: rest) = some (pre.length, y) := by
  have hskip : ∀ (n : Nat), (pre.zipIdx n).find? (fun p => f p.1) = none := by
    intro n
    simp only [List.find?_eq_none, Bool.not_eq_true]
    exact fun p hp => hpre p.1 (List.fst_mem_of_mem_zipIdx hp)
  simp [findIdx, List.zipIdx_append, List.zipIdx_cons, List.find?_append, hskip, hy]

theorem dropNth_append_cons {α : Type} (pre : List α) (y : α) (rest : List α) : dropNth (pre ++ y :: rest) pre.length = pre ++ rest := by
  simp [dropNth, List.eraseIdx_append_of_length_le]

theorem nthD_setNth_ne {α : Type} (d a : α) (l : List α) {i j : Nat} (h : j ≠ i) : nthD d (setNth l i a) j = nthD d l j := by
  simp [nthD, setNth, List.getElem?_set_ne h.symm]

/-! ### The row engine after an update of its core or of another -/

/-- A core set with its row engine as it was leaves every row engine. -/
theorem row_setCore_of_row {s : State} {c : Nat} {q : Core} (h : q.row = (s.core c).row) (d : Nat) :
    ((s.setCore c q).core d).row = (s.core d).row := by
  by_cases hd : d = c
  · rw [hd, core_setCore_same, h]
  · rw [core_setCore_ne _ _ hd]

@[simp] theorem row_count (s : State) (c sysn i n d : Nat) : ((s.count c sysn i n).core d).row = (s.core d).row :=
  row_setCore_of_row (q := (s.core c).count sysn i n) rfl d

@[simp] theorem row_dropEngine (s : State) (c eid d : Nat) : ((s.dropEngine c eid).core d).row = (s.core d).row :=
  row_setCore_of_row (by rfl) d

@[simp] theorem row_later (s : State) (x : Option Charge) (d : Nat) : ((s.later x).core d).row = (s.core d).row :=
  congrArg Core.row (later_core s x d)

@[simp] theorem row_sendToken (s : State) (c : Nat) (t : Token) (d : Nat) : ((s.sendToken c t).core d).row = (s.core d).row :=
  row_setCore_of_row (by rfl) d

/-- Grants that wait for their sources change no row engine (R241 step 7). -/
theorem row_grantInputs (c : Nat) (l : List (RowInput × Nat)) (s : State) (d : Nat) :
    ((grantInputs c l s).core d).row = (s.core d).row := by
  induction l generalizing s with
  | nil => rfl
  | cons p t ih =>
    obtain ⟨x, i⟩ := p
    unfold grantInputs
    split
    · exact ih s
    · exact (ih _).trans (row_setCore_of_row (by rfl) d)

theorem core_countFlits (s : State) (dirs : List Nat) (n c : Nat) : (s.countFlits dirs n).core c = s.core c := rfl

theorem core_withRowPkts (s : State) (ps : List RowPacket) (c : Nat) : ({ s with rowPkts := ps } : State).core c = s.core c := rfl

/-! ### A row's entry is freed (R233) -/

/-- The first entry of an input is freed: it leaves, and its credit goes back to its source. -/
theorem freeRow_core (s : State) (c input num : Nat) :
    ∃ xs, (s.freeRow c input num).core c = { s.core c with row := { (s.core c).row with inputs := xs } } := by
  unfold State.freeRow
  extract_lets r x
  split
  · exact ⟨_, rfl⟩
  · exact ⟨_, core_setCore_same ..⟩

@[simp] theorem freeRow_mem (s : State) (c input num : Nat) : (s.freeRow c input num).mem = s.mem := by
  unfold State.freeRow
  extract_lets r x
  split <;> rfl

/-- A row engine but for its inputs. -/
def RowEngine.withoutInputs (r : RowEngine) : RowEngine := { r with inputs := [] }

@[simp] theorem withoutInputs_freeRow (s : State) (c input num : Nat) :
    ((s.freeRow c input num).core c).row.withoutInputs = (s.core c).row.withoutInputs := by
  obtain ⟨xs, h⟩ := freeRow_core s c input num
  rw [h]
  rfl

theorem withoutInputs_tile (r : RowEngine) (n : Nat) : r.withoutInputs.tile n = r.tile n := rfl

/-- Partials dropped from the pool leave all but the inputs and the pool, which holds no more of them (R235). -/
theorem withoutInputs_dropPartials (s : State) (c kind : Nat) (f : Partial → Bool) :
    ((s.dropPartials c kind f).core c).row.withoutInputs
      = { (s.core c).row.withoutInputs with pool := (s.core c).row.pool.filter (fun p => !f p) } := by
  unfold State.dropPartials
  refine (foldl_keeps (fun a : State => (a.core c).row.withoutInputs) (fun a p => by simp) _ _).trans ?_
  rw [row_setRow]
  rfl

@[simp] theorem dropPartials_mem (s : State) (c kind : Nat) (f : Partial → Bool) : (s.dropPartials c kind f).mem = s.mem :=
  foldl_mem _ (fun a p => by rw [freeRow_mem, count_mem]) _ _

theorem tile_dropPartials (s : State) (c kind : Nat) (f : Partial → Bool) (n : Nat) :
    ((s.dropPartials c kind f).core c).row.tile n = (s.core c).row.tile n := by
  rw [← withoutInputs_tile, withoutInputs_dropPartials]
  rfl

theorem pool_dropPartials (s : State) (c kind : Nat) (f : Partial → Bool) :
    ((s.dropPartials c kind f).core c).row.pool = (s.core c).row.pool.filter (fun p => !f p) :=
  congrArg RowEngine.pool (withoutInputs_dropPartials s c kind f)

@[simp] theorem tile_setTile_same (r : RowEngine) (n : Nat) (t : Tile) : (r.setTile n t).tile n = t := by
  simp [RowEngine.setTile, RowEngine.tile]

end Sys2Proof.Machine
end

section
/-! PROOFS. The row engine by itself: packets, firing, sums, end packets, credits, ROWS and a resumed graph (R144, R233 to R249, R260). -/
namespace Sys2Proof.Machine

/-! ### Packets arrive (R234) -/

section
variable {s : State} {c : Nat} {p : RowPacket} {rest : List RowPacket} (hpkts : s.rowPkts = p :: rest) (hdst : p.dst = c)
  (hup : s.pathUp (routeDirs (dieOf p.src) (dieOf c)) = true) (hout : s.rowWaits 0 p = false)
include hpkts hdst hup hout

/-- The first packet, whose way is up, enters its input where the engine's owner has one from its source. -/
theorem rowPacketArrival_enters (howner : (s.core c).row.owner = some p.graph)
    (hdepth : (nthD RowInput.reset (s.core c).row.inputs p.rin).depth ≠ 0)
    (hsrc : (nthD RowInput.reset (s.core c).row.inputs p.rin).src = p.src) :
    let r := (s.core c).row
    let x := nthD RowInput.reset r.inputs p.rin
    exec (.rowPacketArrival 0) s = .next ((State.countFlits { s with rowPkts := rest } (routeDirs (dieOf p.src) (dieOf c))
      (p.payload.length + p.scales.length)).setRow c { r with
        inputs := setNth r.inputs p.rin { x with entries := x.entries ++ [⟨p, false, r.nextNum, []⟩] }, nextNum := r.nextNum + 1 }) := by
  subst hdst
  change execRowPacketArrival 0 s = _
  simp only [execRowPacketArrival, hpkts, List.getElem?_cons_zero, List.take_zero, List.any_nil, hout, hup, core_countFlits,
    core_withRowPkts, howner, hdepth, hsrc, bne_self_eq_false, Bool.not_true, Bool.or_self, Bool.false_eq_true, decide_false, if_false]
  rfl

/-- Else it is dropped, and its credit returns to its source. -/
theorem rowPacketArrival_drops (hbad : (s.core c).row.owner ≠ some p.graph ∨ (nthD RowInput.reset (s.core c).row.inputs p.rin).depth = 0
      ∨ (nthD RowInput.reset (s.core c).row.inputs p.rin).src ≠ p.src) :
    ∃ t, exec (.rowPacketArrival 0) s = .next t ∧ t.rowPkts = rest ∧ t.rowReturns = s.rowReturns ++ [(p.src, c, p.rin, p.credits)]
      ∧ (t.core c).row = (s.core c).row := by
  subst hdst
  change ∃ t, execRowPacketArrival 0 s = .next t ∧ _
  simp only [execRowPacketArrival, hpkts, List.getElem?_cons_zero, List.take_zero, List.any_nil, hout, hup, core_countFlits,
    core_withRowPkts, Bool.not_true, Bool.or_self, Bool.false_eq_true, if_false]
  have hdrop (kind : Nat) := row_count (State.countFlits { s with rowPkts := rest } (routeDirs (dieOf p.src) (dieOf p.dst))
    (p.payload.length + p.scales.length)) p.dst 0x041 kind 1 p.dst
  by_cases howner : (s.core p.dst).row.owner = some p.graph
  · have hinput := hbad.resolve_left (not_not.mpr howner)
    refine ⟨_, (if_neg (by simp [howner])).trans (if_pos (by simpa using hinput)), rfl, rfl, hdrop 6⟩
  · exact ⟨_, if_pos (by simpa using howner), rfl, rfl, hdrop 0⟩

end

/-! ### Rows fire (R235) -/

theorem tryFire_idle {s : State} {c i : Nat} (h : (nthD RowInput.reset (s.core c).row.inputs i).entries = []) :
    s.tryFire c i = (s, false) := by
  simp [State.tryFire, RowInput.head, h]

/-- Inputs without a row that fires leave the state. -/
theorem fireInputs_idle {s : State} {c : Nat} {l : List Nat} (h : ∀ i ∈ l, s.tryFire c i = (s, false)) (room : Nat) (first : Option Nat) :
    fireInputs c l room first s = (s, first) := by
  induction l with
  | nil => rfl
  | cons i l ih =>
    rw [List.forall_mem_cons] at h
    simp only [fireInputs, h.1, ih h.2, Bool.false_eq_true, if_false, ite_self]

/-- The one input whose row fires is the first. -/
theorem fireInputs_only {s t : State} {c i : Nat} {l : List Nat} {room : Nat} (hmem : i ∈ l) (hnodup : l.Nodup) (hfire : s.tryFire c i = (t, true))
    (hidle : ∀ j, j ≠ i → s.tryFire c j = (s, false) ∧ t.tryFire c j = (t, false)) (hroom : room ≠ 0) :
    fireInputs c l room none s = (t, some i) := by
  induction l with
  | nil => cases hmem
  | cons j l ih =>
    obtain ⟨hj, hl⟩ := List.nodup_cons.mp hnodup
    by_cases hji : j = i
    · subst hji
      have hrest : ∀ m ∈ l, t.tryFire c m = (t, false) := fun m hm => (hidle m (ne_of_mem_of_not_mem hm hj)).2
      simp only [fireInputs, hroom, hfire, if_true, if_false, Option.getD_none]
      exact fireInputs_idle hrest ..
    · have hskip := (hidle j hji).1
      simp only [fireInputs, hroom, hskip, Bool.false_eq_true, if_false]
      exact ih ((List.mem_cons.mp hmem).resolve_left (Ne.symm hji)) hl

/-- The inputs in rotating order, each once. -/
theorem nodup_rotation (start : Nat) : ((List.range 8).map (fun i => (start + i) % 8)).Nodup := by
  refine List.Nodup.map_on (fun a ha b hb hab => ?_) List.nodup_range
  rw [List.mem_range] at ha hb
  omega

theorem mem_rotation {i : Nat} (h : i < 8) (start : Nat) : i ∈ (List.range 8).map (fun j => (start + j) % 8) :=
  List.mem_map.mpr ⟨(i + 8 - start % 8) % 8, List.mem_range.mpr (Nat.mod_lt _ (by omega)), by omega⟩

/-- A row whose turn it is enters the reorder pool. -/
theorem tryFire_fires {s : State} {c i : Nat} {e : RowEntry} {reserved : Bool}
    (hhead : (nthD RowInput.reset (s.core c).row.inputs i).head = some e) (hstop : e.pkt.stop ≠ 7)
    (hahead : aheadOf ((s.core c).row.tile e.pkt.tile) e.pkt.arow e.pkt.seq < 8)
    (hreading : ((s.core c).row.tile e.pkt.tile).reading = false) (hbars : (s.core c).row.bars e = false)
    (hslot : slotFor (s.core c) (aheadOf ((s.core c).row.tile e.pkt.tile) e.pkt.arow e.pkt.seq) = some reserved) :
    let r := (s.core c).row
    ∃ t x, s.tryFire c i = (t, true) ∧ (t.core c).row = { r with
      inputs := setNth r.inputs i x
      pool := r.pool ++ [⟨e.pkt.tile, e.pkt.arow, e.pkt.seq, r.partials e.pkt, Ty.isRowInt (r.chan e.pkt.ch).ty, e.pkt.poison, i, e.num,
        reserved⟩] } := by
  have hfar : ¬ 32768 ≤ aheadOf ((s.core c).row.tile e.pkt.tile) e.pkt.arow e.pkt.seq := by omega
  have hnear : ¬ 8 ≤ aheadOf ((s.core c).row.tile e.pkt.tile) e.pkt.arow e.pkt.seq := by omega
  simp only [State.tryFire, hhead, hstop, hfar, hnear, hreading, hbars, hslot, decide_false, Bool.or_self, Bool.false_eq_true, if_false]
  exact ⟨_, _, rfl, by rw [row_count, row_count, row_setRow]⟩

theorem rowFire_of_only {s : State} {c i : Nat} {e : RowEntry} {reserved : Bool} (hi : i < 8) (hpower : s.slotWithheld c 8 = false)
    (hhead : (nthD RowInput.reset (s.core c).row.inputs i).head = some e) (hstop : e.pkt.stop ≠ 7)
    (hahead : aheadOf ((s.core c).row.tile e.pkt.tile) e.pkt.arow e.pkt.seq < 8)
    (hreading : ((s.core c).row.tile e.pkt.tile).reading = false) (hbars : (s.core c).row.bars e = false)
    (hslot : slotFor (s.core c) (aheadOf ((s.core c).row.tile e.pkt.tile) e.pkt.arow e.pkt.seq) = some reserved)
    (hothers : ∀ j, j ≠ i → (nthD RowInput.reset (s.core c).row.inputs j).entries = []) :
    let r := (s.core c).row
    ∃ t, exec (.rowFire c) s = .next t ∧ (t.core c).row.pool = r.pool ++ [⟨e.pkt.tile, e.pkt.arow, e.pkt.seq, r.partials e.pkt,
        Ty.isRowInt (r.chan e.pkt.ch).ty, e.pkt.poison, i, e.num, reserved⟩]
      ∧ (t.core c).row.rotate = (i + 1) % 8 ∧ (t.core c).row.tiles = r.tiles := by
  obtain ⟨t, x, hfire, hrow⟩ := tryFire_fires hhead hstop hahead hreading hbars hslot
  have hidle : ∀ j, j ≠ i → s.tryFire c j = (s, false) ∧ t.tryFire c j = (t, false) := fun j hj =>
    ⟨tryFire_idle (hothers j hj), tryFire_idle (by rw [hrow]; exact (congrArg RowInput.entries (nthD_setNth_ne _ _ _ hj)).trans (hothers j hj))⟩
  have honly := fireInputs_only (mem_rotation hi (s.core c).row.rotate) (nodup_rotation _) hfire hidle (show 4 ≠ 0 by decide)
  have hexec : exec (.rowFire c) s = .next (t.setRow c { (t.core c).row with rotate := (i + 1) % 8 }) := by
    change execRowFire c s = _
    simp only [execRowFire, hpower, honly, Bool.false_eq_true, if_false]
  refine ⟨_, hexec, ?_⟩
  rw [row_setRow, hrow]
  exact ⟨rfl, rfl, rfl⟩

/-! ### Sums and end packets (R235, R237, R246) -/

/-- A partial whose sequence is the expected one is added to its accumulator row. -/
theorem partialAdd_of_expected {s : State} {c k : Nat} {p : Partial} (hp : (s.core c).row.pool[k]? = some p)
    (hturn : aheadOf ((s.core c).row.tile p.tile) p.arow p.seq = 0) :
    ∃ t, exec (.partialAdd c k) s = .next t ∧ (t.core c).row.tile p.tile = ((s.core c).row.tile p.tile).add p ∧ t.mem = s.mem := by
  change ∃ t, execPartialAdd c k s = .next t ∧ _
  simp only [execPartialAdd, hp, hturn, ne_eq, not_true_eq_false, if_false]
  refine ⟨_, rfl, ?_, by rw [dropPartials_mem, freeRow_mem]; rfl⟩
  rw [tile_dropPartials, ← withoutInputs_tile, withoutInputs_freeRow, row_setRow]
  exact tile_setTile_same ..

/-- An end packet at an input's front counts for its tile; the last one ends the drain and sends its token. -/
theorem endPacket_of_front {s : State} {c i : Nat} {e : RowEntry} {rest : List RowEntry} {d : Drain}
    (hfront : (nthD RowInput.reset (s.core c).row.inputs i).entries = e :: rest) (hstop : e.pkt.stop = 7)
    (hdrain : ((s.core c).row.tile e.pkt.tile).drain = some d) :
    (d.count ≠ 0 → d.ends + 1 = d.count → ∃ t, exec (.endPacket c i) s = .next t ∧ ((t.core c).row.tile e.pkt.tile).drain = none
        ∧ (t.core c).inject = (s.core c).inject ++ [⟨c, fpCore d.reply.fp, .token (d.reply.token d.rows)⟩])
      ∧ ((d.count = 0 ∨ d.ends + 1 ≠ d.count) → ∃ t, exec (.endPacket c i) s = .next t
        ∧ ((t.core c).row.tile e.pkt.tile).drain = some { d with ends := d.ends + 1 } ∧ (t.core c).inject = (s.core c).inject) := by
  obtain ⟨xs, hcore⟩ := freeRow_core s c i e.num
  have htile : ((s.freeRow c i e.num).core c).row.tile e.pkt.tile = (s.core c).row.tile e.pkt.tile := by rw [hcore]; rfl
  have hinject : ((s.freeRow c i e.num).core c).inject = (s.core c).inject := by rw [hcore]
  rw [show exec (.endPacket c i) s = execEndPacket c i s from rfl]
  simp only [execEndPacket, hfront, hstop, htile, hdrain, ne_eq, not_true_eq_false, if_false]
  refine ⟨fun hcount hlast => ?_, fun hmore => ?_⟩
  · refine ⟨_, if_pos (by simp [hcount, hlast]), ?_, ?_⟩
    · rw [row_sendToken, row_setRow, tile_setTile_same]
    · rw [← hinject]
      simp only [State.sendToken, State.inject, core_setCore_same, State.setRow]
      rfl
  · refine ⟨_, if_neg ?_, ?_, ?_⟩
    · rcases hmore with h | h <;> simp [h]
    · rw [row_setRow, tile_setTile_same]
    · rw [← hinject]
      simp only [State.setRow, core_setCore_same]

/-! ### Credits (R233) -/

theorem rowCreditReturn_of_up {s : State} {k src target rin n : Nat} (hk : s.rowReturns[k]? = some (src, target, rin, n))
    (hup : s.pathUp (routeDirs (dieOf target) (dieOf src)) = true) :
    ∃ t, exec (.rowCreditReturn k) s = .next t ∧ t.rowReturns = dropNth s.rowReturns k
      ∧ (t.core src).credits = (s.core src).credits.map (fun y =>
          if y.target == target && y.rin == rin then { y with avail := min y.depth (y.avail + n) } else y) := by
  change ∃ t, execRowCreditReturn k s = .next t ∧ _
  simp only [execRowCreditReturn, hk, hup, Bool.not_true, Bool.false_eq_true, if_false]
  exact ⟨_, rfl, rfl, congrArg Core.credits (core_setCore_same ..)⟩

/-- The first grant whose way is up takes an entry of the credit table where one is free. -/
theorem rowCreditGrant_of_first {s : State} {c : Nat} {pre rest : List Credit} {y : Credit} (hwait : (s.core c).grantWait = pre ++ y :: rest)
    (hroom : (s.core c).credits.length < 32) (hdown : ∀ z ∈ pre, s.pathUp (routeDirs (dieOf z.target) (dieOf c)) = false)
    (hup : s.pathUp (routeDirs (dieOf y.target) (dieOf c)) = true) :
    exec (.rowCreditGrant c) s = .next ((s.setCore c { s.core c with
      credits := (s.core c).credits ++ [y], grantWait := pre ++ rest }).countFlits (routeDirs (dieOf y.target) (dieOf c)) 16) := by
  have hfirst : findIdx (fun z => s.pathUp (routeDirs (dieOf z.target) (dieOf c))) (s.core c).grantWait = some (pre.length, y) :=
    hwait ▸ findIdx_append_cons hdown hup rest
  change execRowCreditGrant c s = _
  unfold execRowCreditGrant
  dsimp only
  rw [hfirst]
  simp only [hroom, if_true, hwait, dropNth_append_cons]

theorem rowCreditGrant_of_full {s : State} {c : Nat} (hfull : 32 ≤ (s.core c).credits.length) : exec (.rowCreditGrant c) s = .next s := by
  change execRowCreditGrant c s = _
  unfold execRowCreditGrant
  extract_lets q
  split
  · rfl
  · rw [if_neg (Nat.not_lt.mpr hfull)]

end Sys2Proof.Machine
end

section
/-! PROOFS. ROWS sends its rows, a resumed graph takes the row engine, and the sparse units by themselves (R233, R245, R251 to R254,
R260, R362): O53. -/
namespace Sys2Proof.Machine

/-! ### Credits for a row's targets (R233, R244) -/

/-- A credit-table entry after n credits were taken for a target: its own entry has n less. -/
def Credit.spend (n : Nat) (t : Nat × Nat) (z : Credit) : Credit :=
  if z.target == t.1 && z.rin == t.2 then { z with avail := z.avail - n } else z

/-- A core after n credits were taken for a target. -/
def Core.spend (n : Nat) (t : Nat × Nat) (q : Core) : Core := { q with credits := q.credits.map (Credit.spend n t) }

theorem takeCredits_cons_of_le {n : Nat} {t : Nat × Nat} {q : Core} {y : Credit} (hy : q.creditOf t = some y) (h : n ≤ y.avail)
    (ts : List (Nat × Nat)) : takeCredits n (t :: ts) q = takeCredits n ts (q.spend n t) := by
  simp only [takeCredits, hy, Nat.not_lt.mpr h, if_false]
  rfl

theorem creditOf_some {q : Core} {t : Nat × Nat} {y : Credit} (h : q.creditOf t = some y) : (y.target, y.rin) = t := by
  have hfound := List.find?_some h
  rw [Bool.and_eq_true, beq_iff_eq, beq_iff_eq] at hfound
  exact Prod.ext hfound.1 hfound.2

theorem creditOf_spend (n : Nat) (t : Nat × Nat) (q : Core) (t' : Nat × Nat) :
    (q.spend n t).creditOf t' = (q.creditOf t').map (Credit.spend n t) := by
  have hkey : (fun z : Credit => z.target == t'.1 && z.rin == t'.2) ∘ Credit.spend n t = fun z => z.target == t'.1 && z.rin == t'.2 := by
    funext z
    simp only [Function.comp, Credit.spend]
    split <;> rfl
  exact List.find?_map.trans (by rw [hkey]; rfl)

theorem spend_avail_same {n : Nat} {t : Nat × Nat} {y : Credit} (h : (y.target, y.rin) = t) : (y.spend n t).avail = y.avail - n := by
  subst h
  simp [Credit.spend]

theorem spend_ne {n : Nat} {t : Nat × Nat} {y : Credit} (h : (y.target, y.rin) ≠ t) : y.spend n t = y := by
  refine if_neg fun heq => h ?_
  rw [Bool.and_eq_true, beq_iff_eq, beq_iff_eq] at heq
  exact Prod.ext heq.1 heq.2

/-- Where each target's credits suffice for each time that it is named, they are taken. -/
theorem takeCredits_of_enough {n : Nat} {ts : List (Nat × Nat)} {q : Core}
    (h : ∀ t ∈ ts, ∃ y, q.creditOf t = some y ∧ n * ts.count t ≤ y.avail) : ∃ q', takeCredits n ts q = some q' := by
  induction ts generalizing q with
  | nil => exact ⟨q, rfl⟩
  | cons t ts ih =>
    obtain ⟨y, hy, havail⟩ := h t List.mem_cons_self
    rw [List.count_cons_self, Nat.mul_succ] at havail
    rw [takeCredits_cons_of_le hy (by omega)]
    refine ih fun t' ht' => ?_
    obtain ⟨y', hy', havail'⟩ := h t' (List.mem_cons_of_mem _ ht')
    refine ⟨_, by rw [creditOf_spend, hy', Option.map_some], ?_⟩
    by_cases htt : t = t'
    · subst htt
      rw [spend_avail_same (creditOf_some hy')]
      rw [List.count_cons_self, Nat.mul_succ] at havail'
      omega
    · rw [spend_ne (creditOf_some hy' ▸ Ne.symm htt)]
      rwa [List.count_cons_of_ne htt] at havail'

/-! ### ROWS (R245) -/

@[simp] theorem later_rowPkts (s : State) (x : Option Charge) : (s.later x).rowPkts = s.rowPkts := by
  unfold State.later
  split <;> rfl

/-- A ROWS that has sent its packets leaves the packets under way. -/
@[simp] theorem rowsAdvance_rowPkts (s : State) (c eid : Nat) (e : EngCmd) : (s.rowsAdvance c eid e).rowPkts = s.rowPkts := by
  unfold State.rowsAdvance
  split
  · exact later_rowPkts ..
  · rfl

section
variable {s : State} {c eid : Nat} {e : EngCmd} (hfind : Map.find? (s.core c).engines eid = some e) (hkind : e.kind = .rows)
  (hstate : e.state = .running) (hroom : s.rowRoom c (validTargets e.targets).length = true)
include hfind hkind hstate hroom

/-- Behind its last row, a ROWS sends its end packet to every target. -/
theorem rowsRowSend_end {q : Core} (hcredits : takeCredits 1 (validTargets e.targets) (s.core c) = some q) (hend : e.total ≤ e.next) :
    ∃ t, exec (.rowsRowSend c eid) s = .next t ∧ t.rowPkts = s.rowPkts ++ rowPackets c e.tile e.chan e.graph (validTargets e.targets)
      (if bitOf e.flags 0 then bits (e.word 4) 0 5 else (bits (e.word 4) 0 5 + e.next) % 32)
      (if bitOf e.flags 0 then (bits (e.word 4) 16 16 + e.next) % 65536 else bits (e.word 4) 16 16)
      7 false [] (List.replicate 64 0) false := by
  change ∃ t, execRowsRowSend c eid s = .next t ∧ _
  simp only [execRowsRowSend, hfind, hkind, hstate, hroom, hend, decide_true, Bool.not_true, Bool.and_false, Bool.false_eq_true,
    if_true, if_false, hcredits]
  exact ⟨_, rfl, rowsAdvance_rowPkts ..⟩

/-- A row that has been read goes to every target under its channel as it is bound now. -/
theorem rowsRowSend_row {s1 : State} {data scales : List Byte} {bad : List Nat} {errs : Nat}
    (henough : ∀ t ∈ validTargets e.targets, ∃ y, (s.core c).creditOf t = some y
      ∧ (if Ty.isSix ((s.core c).row.chan e.chan).ty = true then 2 else 1) * (validTargets e.targets).count t ≤ y.avail)
    (hmore : e.next < e.total)
    (hread : s.rowsRead c eid e ((s.core c).row.chan e.chan) e.next = (.data s1 data bad, scales, errs)) (hcore : s1.core c = s.core c) :
    ∃ t, exec (.rowsRowSend c eid) s = .next t ∧ t.rowPkts = s1.rowPkts ++ rowPackets c e.tile e.chan e.graph (validTargets e.targets)
      (if bitOf e.flags 0 then bits (e.word 4) 0 5 else (bits (e.word 4) 0 5 + e.next) % 32)
      (if bitOf e.flags 0 then (bits (e.word 4) 16 16 + e.next) % 65536 else bits (e.word 4) 16 16)
      (bits (e.word 4) 5 3) (!bad.isEmpty) scales data (Ty.isSix ((s.core c).row.chan e.chan).ty) := by
  have hend : ¬ e.total ≤ e.next := Nat.not_le.mpr hmore
  obtain ⟨q, hcredits⟩ := takeCredits_of_enough henough
  obtain ⟨q', hcredits'⟩ := takeCredits_of_enough (q := (s.core c).count 0x041 3 errs) henough
  have hcount : (s1.count c 0x041 3 errs).core c = (s.core c).count 0x041 3 errs := by rw [State.count, core_setCore_same, hcore]
  change ∃ t, execRowsRowSend c eid s = .next t ∧ _
  simp only [execRowsRowSend, hfind, hkind, hstate, hroom, hend, decide_false, Bool.not_true, Bool.not_false, Bool.and_true,
    Bool.false_eq_true, if_false, hcredits, Option.isNone_some, hread, hcount, hcredits']
  exact ⟨_, rfl, rowsAdvance_rowPkts ..⟩

end

/-! ### A resumed graph takes the engine (R260, R362) -/

theorem reload_of_keeps {im : RowEngine} {m : ImageData} (h : m.keeps im.bookParts = true) :
    (im.reload m).chans = im.chans ∧ (im.reload m).rotate = im.rotate
      ∧ ∀ p ∈ (im.reload m).tiles, ∃ q ∈ im.tiles, q.1 = p.1 ∧ p.2 = q.2.reload (m.part (tileAt p.1) q.2.bytes) := by
  simp only [RowEngine.reload, h, if_true, List.forall_mem_map, true_and]
  exact fun q hq => ⟨q, hq, rfl, rfl⟩

theorem engineOwnershipTransfer_of_first {s s0 : State} {c g : Nat} {rest : List Nat} {x : Graph} {im : RowEngine} {m : ImageData}
    (hwait : s.rowWaiters c = g :: rest) (hg : s.graph? g = some x) (howner : (s.core c).row.owner = none) (hresv : (s.core c).row.resv = none)
    (hresume : x.resumeWait.contains c = true) (hloaded : x.state = .loaded) (him : Map.find? x.saved c = some im)
    (hwrites : s.imageWrites c g = false)
    (hread : s.readImage c g x (im.imageParts (((Map.getD x.savedEng c []).filter (fun p => p.2.kind.isRow)).map (fun p => p.2))) = (s0, some m)) :
    ∃ t, exec (.engineOwnershipTransfer c) s = .next t
      ∧ (t.core c).row = { im.reload m with owner := some g, resv := none, waiters := delSet (s.core c).row.waiters g } := by
  change ∃ t, execEngineOwnershipTransfer c s = .next t ∧ _
  simp only [execEngineOwnershipTransfer, hwait, hg, howner, hresv, hresume, hloaded, him, hwrites, hread, beq_self_eq_true,
    decide_true, Bool.and_self, Bool.not_true, Bool.false_eq_true, if_false]
  refine ⟨_, rfl, (row_grantInputs ..).trans ?_⟩
  refine (foldl_keeps (fun a : State => (a.core c).row) (fun a p => row_setEngine ..) _ _).trans ?_
  exact row_setRow ..

/-! ### Heads leave their sides (R253, R254) -/

theorem queue_of_look {x : FibSide} {e : FibEntry} (h : x.look = .data e) : x.queue = e :: x.queue.drop 1 := by
  unfold FibSide.look at h
  split at h
  · cases h
  · next e' t hq =>
    suffices e' = e by rw [hq, this]; rfl
    split at h
    · split at h <;> cases h
    · split at h
      · cases h
      · cases h
      · split at h
        · cases h
        · split at h
          · split at h
            · cases h
            · cases h; rfl
          · cases h; rfl

/-- The head of a side leaves its unit, whatever its operation's entry does. -/
theorem unit_popSide (s : State) (c n : Nat) (b : Bool) (f : FibSide → FibSide) {h : FibEntry} {t : List FibEntry}
    (hq : (((s.core c).row.unit n).side b).queue = h :: t) :
    ((s.popSide c n b f).core c).row = ((s.setUnit c n (((s.core c).row.unit n).setSide b
      (f { ((s.core c).row.unit n).side b with queue := t }))).core c).row := by
  simp only [State.popSide, hq]
  split
  · rfl
  · split
    · rfl
    · rw [row_later, row_dropEngine]

/-- A datum leaves side a, and counts for the next notify. -/
theorem unit_popData_a {s : State} {c n : Nat} {e h : FibEntry} {t : List FibEntry} (hq : ((s.core c).row.unit n).a.queue = h :: t) :
    ((s.popData c n false e).core c).row.unit n = { (s.core c).row.unit n with
      a := { ((s.core c).row.unit n).a with queue := t, prev := some e.coord }, popped := ((s.core c).row.unit n).popped + 1 } := by
  simp only [State.popData, State.countPop, Bool.false_eq_true, if_false, unit_setUnit_same, unit_popSide s c n false (FibSide.passData e.coord) hq]
  rfl

/-- A datum leaves side b. -/
theorem row_popData_b {s : State} {c n : Nat} {e h : FibEntry} {t : List FibEntry} (hq : ((s.core c).row.unit n).b.queue = h :: t) :
    ((s.popData c n true e).core c).row = ((s.setUnit c n { (s.core c).row.unit n with
      b := { ((s.core c).row.unit n).b with queue := t, prev := some e.coord } }).core c).row :=
  unit_popSide s c n true (FibSide.passData e.coord) hq

/-- A datum leaves each side of a unit that has just been set. -/
theorem unit_popData_both (s : State) (c n : Nat) {u : IsUnit} {x y : FibEntry} (ha : u.a.queue = x :: u.a.queue.drop 1)
    (hb : u.b.queue = y :: u.b.queue.drop 1) :
    ((((s.setUnit c n u).popData c n false x).popData c n true y).core c).row.unit n = { u with
      a := { u.a with queue := u.a.queue.drop 1, prev := some x.coord }
      b := { u.b with queue := u.b.queue.drop 1, prev := some y.coord }, popped := u.popped + 1 } := by
  have hset := unit_setUnit_same s c n u
  have hleft := unit_popData_a (e := x) ((congrArg (fun v : IsUnit => v.a.queue) hset).trans ha)
  rw [hset] at hleft
  rw [row_popData_b ((congrArg (fun v : IsUnit => v.b.queue) hleft).trans hb), unit_setUnit_same, hleft]

theorem inserts_setUnit (s : State) (c n : Nat) (u : IsUnit) : ((s.setUnit c n u).core c).row.inserts = (s.core c).row.inserts := by
  rw [State.setUnit, row_setRow]

theorem row_queueInsert (s : State) (c : Nat) (x : Insert) :
    ((s.queueInsert c x).core c).row = { (s.core c).row with inserts := (s.core c).row.inserts ++ [x] } := row_setRow ..

/-! ### Intersect units (R254) -/

section
variable {s : State} {c n : Nat} {x y : FibEntry} (hx : ((s.core c).row.unit n).a.look = .data x)
  (hy : ((s.core c).row.unit n).b.look = .data y)
include hx hy

/-- Equal coordinates multiply into the unit's sum, and both heads leave. -/
theorem intersectStep_equal (hmode : ((s.core c).row.unit n).scale = false) (hxy : x.coord = y.coord) :
    let u := (s.core c).row.unit n
    ∃ t, exec (.intersectStep c n) s = .next t ∧ ((t.core c).row.unit n).sum = Val.sum false [u.sum, Val.mul x.val y.val]
      ∧ ((t.core c).row.unit n).matched = true ∧ ((t.core c).row.unit n).a.queue = u.a.queue.drop 1
      ∧ ((t.core c).row.unit n).b.queue = u.b.queue.drop 1 := by
  change ∃ t, execIntersectStep c n s = .next t ∧ _
  simp only [execIntersectStep, hmode, State.intersectMode, hx, hy, hxy, Nat.lt_irrefl, Bool.false_eq_true, if_false]
  refine ⟨_, rfl, ?_⟩
  rw [unit_popData_both]
  · exact ⟨rfl, rfl, rfl, rfl⟩
  · exact queue_of_look hx
  · exact queue_of_look hy

/-- The lower coordinate, on side a, leaves alone. -/
theorem intersectStep_lower (hmode : ((s.core c).row.unit n).scale = false) (hxy : x.coord < y.coord) :
    let u := (s.core c).row.unit n
    ∃ t, exec (.intersectStep c n) s = .next t ∧ ((t.core c).row.unit n).sum = u.sum
      ∧ ((t.core c).row.unit n).a.queue = u.a.queue.drop 1 ∧ ((t.core c).row.unit n).b.queue = u.b.queue := by
  change ∃ t, execIntersectStep c n s = .next t ∧ _
  simp only [execIntersectStep, hmode, State.intersectMode, hx, hy, hxy, Bool.false_eq_true, if_true, if_false]
  refine ⟨_, rfl, ?_⟩
  rw [unit_popData_a (queue_of_look hx)]
  exact ⟨rfl, rfl, rfl⟩

/-- In scale mode the pair's product is inserted, and the head of side b leaves. -/
theorem intersectStep_scale (hmode : ((s.core c).row.unit n).scale = true) :
    let u := (s.core c).row.unit n
    ∃ t, exec (.intersectStep c n) s = .next t
      ∧ (t.core c).row.inserts = (s.core c).row.inserts ++ [⟨u.acc, y.coord, Val.mul x.val y.val, x.poisonV || y.poisonV, false⟩]
      ∧ ((t.core c).row.unit n).b.queue = u.b.queue.drop 1 ∧ ((t.core c).row.unit n).a.queue = u.a.queue := by
  change ∃ t, execIntersectStep c n s = .next t ∧ _
  simp only [execIntersectStep, hmode, State.scaleMode, hx, hy, if_true]
  refine ⟨_, rfl, ?_⟩
  have hunit : ((s.queueInsert c ⟨((s.core c).row.unit n).acc, y.coord, Val.mul x.val y.val, x.poisonV || y.poisonV, false⟩).core c).row.unit n
      = (s.core c).row.unit n := by rw [row_queueInsert]; rfl
  rw [row_popData_b (by rw [hunit]; exact queue_of_look hy), unit_setUnit_same, inserts_setUnit, row_queueInsert]
  exact ⟨rfl, rfl, by rfl⟩

end

/-! ### Inserts (R251) -/

@[simp] theorem sacc_setSacc_same (s : State) (c n : Nat) (x : Sacc) : ((s.setSacc c n x).core c).row.sacc n = x := by
  simp [State.setSacc, RowEngine.sacc]

@[simp] theorem inserts_setSacc (s : State) (c n : Nat) (x : Sacc) : ((s.setSacc c n x).core c).row.inserts = (s.core c).row.inserts := by
  simp [State.setSacc]

theorem inserts_insert (s : State) (c : Nat) (x : Insert) : ((s.insert c x).core c).row.inserts = (s.core c).row.inserts := by
  simp only [State.insert]
  split
  · exact inserts_setSacc ..
  · split
    · rw [row_count]
    · exact inserts_setSacc ..

/-- An entry of an accumulator after an insert of a value: the value, or its sum with what stood there, rounded once. -/
def Sacc.entryAfter (a : Sacc) (i : Nat) (v : Val) : Nat :=
  match Map.find? a.ents i with
  | none => roundF .f32 .rne false 0 false v
  | some old => roundF .f32 .rne false 0 false (Val.sum false [decodeF .f32 old.toNat, v])

/-- An insert within the accumulator's range adds into its entry. -/
theorem find?_insert_of_range {s : State} {c : Nat} {x : Insert} (hgood : x.fibPoison = false)
    (hlo : ((s.core c).row.sacc x.acc).base ≤ x.coord) (hhi : x.coord ≤ ((s.core c).row.sacc x.acc).base + 4095) :
    let a := (s.core c).row.sacc x.acc
    Map.find? (((s.insert c x).core c).row.sacc x.acc).ents (x.coord - a.base) =
      some (BitVec.ofNat 32 (a.entryAfter (x.coord - a.base) x.val)) := by
  have hin : ¬ (x.coord < ((s.core c).row.sacc x.acc).base ∨ ((s.core c).row.sacc x.acc).base + 4095 < x.coord) := by omega
  simp only [State.insert, hgood, Bool.or_eq_true, decide_eq_true_eq, hin, Bool.false_eq_true, if_false, sacc_setSacc_same, Map.find?_put_same]
  rfl

/-- An insert outside the range is counted, and changes no accumulator. -/
theorem row_insert_of_outside {s : State} {c : Nat} {x : Insert} (hgood : x.fibPoison = false)
    (hout : x.coord < ((s.core c).row.sacc x.acc).base ∨ ((s.core c).row.sacc x.acc).base + 4095 < x.coord) :
    ((s.insert c x).core c).row = (s.core c).row := by
  simp only [State.insert, hgood, Bool.or_eq_true, decide_eq_true_eq, hout, Bool.false_eq_true, if_true, if_false]
  exact row_count ..

/-- The first insert, which no notify token waits for, performs. -/
theorem sparseInsert_first {s : State} {c : Nat} {x : Insert} {rest : List Insert} (hins : (s.core c).row.inserts = x :: rest)
    (hnotes : (s.core c).row.notifies = []) :
    exec (.sparseInsert c 0) s = .next ((s.setRow c { (s.core c).row with inserts := rest, notifies := [] }).insert c x) := by
  change execSparseInsert c 0 s = _
  simp only [execSparseInsert, hins, hnotes, List.getElem?_cons_zero, List.take_zero, List.any_nil, List.map_nil, List.filter_nil,
    List.foldl_nil, Bool.false_eq_true, if_false]
  rfl

/-- Settles O53: a lemma for each step, of what it does where its conditions hold. -/
theorem rowEngineAndSparseUnitsRun : Obligations.RowEngineAndSparseUnitsRun := by
  refine ⟨fun s c => ⟨?packets, ?fire, ?add, ?ends, ?returned, ?grant, ?full, ?rows, ?swap, ?readout, ?transfer⟩,
    fun s c n => ⟨?intersect, ?scale, ?inserts⟩⟩
  case packets =>
    intro p rest hpkts hdst hup hout s1 x
    exact ⟨fun howner hdepth hsrc => rowPacketArrival_enters hpkts hdst hup hout howner hdepth hsrc,
      fun hbad => rowPacketArrival_drops hpkts hdst hup hout hbad⟩
  case fire =>
    intro i e reserved hi hpower hhead hstop hahead hreading hbars hslot hothers
    exact rowFire_of_only hi hpower hhead hstop hahead hreading hbars hslot hothers
  case add => exact fun k p hp hturn => partialAdd_of_expected hp hturn
  case ends => exact fun i e rest d hfront hstop hdrain => endPacket_of_front hfront hstop hdrain
  case returned => exact fun k src target rin n hk hup => rowCreditReturn_of_up hk hup
  case grant =>
    intro pre y rest hwait hroom hdown dirs hup
    exact rowCreditGrant_of_first hwait hroom hdown hup
  case full => exact fun _ hfull => rowCreditGrant_of_full hfull
  case rows =>
    intro eid e hfind hkind hstate henough hroom
    refine ⟨fun hend => ?_, fun s1 data bad scales errs hmore hread hcore => ?_⟩
    · simp only [Nat.not_lt.mpr hend, and_false, if_false] at henough
      obtain ⟨q, hcredits⟩ := takeCredits_of_enough henough
      exact rowsRowSend_end hfind hkind hstate hroom hcredits hend
    · simp only [hmore, and_true] at henough
      exact rowsRowSend_row hfind hkind hstate hroom henough hmore hread hcore
  case swap =>
    intro n howed
    change execBqSwap c n s = _
    rw [execBqSwap, howed]
    rfl
  case readout => exact fun n => rfl
  case transfer =>
    intro g rest x im s0 m hwait hg howner hresv hresume hloaded him hwrites mine hread
    obtain ⟨t, hexec, hrow⟩ := engineOwnershipTransfer_of_first hwait hg howner hresv hresume hloaded him hwrites hread
    refine ⟨t, hexec, hrow, fun hkeeps => ?_, fun p hp hkeeps => ?_⟩
    · obtain ⟨hchans, hrotate, _⟩ := reload_of_keeps hkeeps
      exact hrow ▸ ⟨hchans, hrotate⟩
    · obtain ⟨_, _, htiles⟩ := reload_of_keeps hkeeps
      exact htiles p (by rwa [hrow] at hp)
  case intersect =>
    exact fun x y hmode hx hy => ⟨fun hxy => intersectStep_equal hx hy hmode hxy, fun hxy => intersectStep_lower hx hy hmode hxy⟩
  case scale => exact fun x y hmode hx hy => intersectStep_scale hx hy hmode
  case inserts =>
    intro x rest hins hnotes a
    have hrow : ((s.setRow c { (s.core c).row with inserts := rest, notifies := [] }).core c).row.sacc x.acc = a := by
      rw [row_setRow]
      rfl
    refine ⟨_, sparseInsert_first hins hnotes, ?_, fun hgood hlo hhi => ?_, fun hgood hout => ?_⟩
    · rw [inserts_insert, row_setRow]
    · rw [← hrow] at hlo hhi ⊢
      exact find?_insert_of_range hgood hlo hhi
    · rw [row_insert_of_outside hgood (hrow.symm ▸ hout), hrow]

end Sys2Proof.Machine
end

section
/-! PROOFS. What single acts of a commit do to the row engine, histograms, registers and windows (R146, R147, R220, R242, R246, R247, R255,
R339, R341, R345). -/
namespace Sys2Proof.Machine

/-! ### The row engine (R242, R246, R247) -/

/-- ACCZ zeroes its tile, its sequences and its poison, and drops its partials. -/
theorem acczAct_tile (s : State) (c n : Nat) :
    (s.acczAct c n).mem = s.mem
      ∧ (∀ row col, (((s.acczAct c n).core c).row.tile n).elem row col = 0 ∧ (((s.acczAct c n).core c).row.tile n).bad row col = false
        ∧ Map.getD (((s.acczAct c n).core c).row.tile n).seqs row 0 = 0)
      ∧ ∀ p ∈ ((s.acczAct c n).core c).row.pool, p.tile ≠ n := by
  refine ⟨dropPartials_mem .., ?_, ?_⟩
  · rw [State.acczAct, row_setRow, tile_setTile_same]
    exact fun _ _ => ⟨rfl, rfl, rfl⟩
  · rw [State.acczAct, row_setRow]
    change ∀ p ∈ ((s.dropPartials c 6 (fun p => p.tile == n)).core c).row.pool, p.tile ≠ n
    rw [pool_dropPartials]
    intro p hp
    simpa using (List.mem_filter.mp hp).2

theorem chan_fchbindAct_same (s : State) (c ch : Nat) (cfg scale : Word) :
    Map.getD ((s.fchbindAct c ch cfg scale).core c).row.chans ch Chan.reset = boundChan cfg scale := by
  rw [State.fchbindAct, row_setRow]
  exact Map.getD_putD_same ..

/-- A value set at each of some keys is what stands there. -/
theorem getD_foldl_putD {α : Type} [DecidableEq α] (a e : α) {i : Nat} (l : List Nat) (m : Map α) :
    Map.getD (l.foldl (fun m n => Map.putD e m n a) m) i e = if i ∈ l then a else Map.getD m i e := by
  induction l generalizing m with
  | nil => rfl
  | cons n t ih =>
    rw [List.foldl_cons, ih]
    by_cases hn : i = n
    · simp [hn]
    · simp [hn, Map.getD_putD_ne _ _ _ hn]

/-- MXSEQ sets its tile's drain state, and where it is asked every row's expected sequence. -/
theorem mxseqAct_tile (s : State) (c : Nat) (w : Warp) (n f r ctl fl : Nat) :
    (((s.mxseqAct c w n f r ctl fl).core c).row.tile n).drain =
        some ⟨ctl % 65536, 0, 0, ⟨f, bits r 8 12, r % 256, w.iterAt 0, s.identOf w, .auto⟩⟩
      ∧ ∀ row, row < 32 → bitOf fl 0 = true →
        Map.getD (((s.mxseqAct c w n f r ctl fl).core c).row.tile n).seqs row 0 = bits ctl 16 16 := by
  rw [State.mxseqAct, row_setRow, tile_setTile_same]
  refine ⟨rfl, fun row hrow hfl => ?_⟩
  simp only [hfl, if_true]
  rw [getD_foldl_putD, if_pos (List.mem_range.mpr hrow)]

/-! ### Histograms (R339, R341) -/

theorem hclrAct_channel {s : State} {c ch : Nat} {h : Hist} (hch : Map.find? (s.core c).hists ch = some h) (g mask : Nat) :
    Map.find? ((s.hclrAct c g mask).core c).hists ch = some (if bitOf mask ch = true ∧ h.valid = true ∧ h.graph = g then
      { h with bins := if h.addedAt = s.now then h.added else [] } else h) := by
  rw [State.hclrAct, core_setCore_same]
  simp only [Map.find?_mapVals, hch, Option.map_some, Bool.and_eq_true, beq_iff_eq, and_assoc]

section
variable {s : State} {c g ch : Nat}

/-- A channel of another graph is neither bound nor released. -/
theorem hbindAct_of_taken (hvalid : (Map.getD (s.core c).hists ch Hist.reset).valid = true)
    (hgraph : (Map.getD (s.core c).hists ch Hist.reset).graph ≠ g) (f : Nat) : s.hbindAct c g ch f = s ∧ s.hreleaseAct c g ch = s := by
  simp [State.hbindAct, State.hreleaseAct, State.channelFree, hvalid, hgraph]

/-- A channel that is free, or the graph's own, is bound; a bound one keeps its bins. -/
theorem hbindAct_of_free (h : (Map.getD (s.core c).hists ch Hist.reset).valid = false ∨ (Map.getD (s.core c).hists ch Hist.reset).graph = g)
    (f : Nat) : ∃ h1, Map.find? ((s.hbindAct c g ch f).core c).hists ch = some h1 ∧ h1.valid = true ∧ h1.graph = g ∧ h1.filter = f
      ∧ h1.bins = (if (Map.getD (s.core c).hists ch Hist.reset).valid then (Map.getD (s.core c).hists ch Hist.reset).bins else []) := by
  have hfree : s.channelFree c g ch = true := by simpa [State.channelFree] using h
  simp only [State.hbindAct, hfree, Bool.not_true, Bool.false_eq_true, if_false, core_setCore_same, Map.find?_put_same]
  refine ⟨_, rfl, rfl, rfl, rfl, ?_⟩
  split <;> rfl

/-- The graph's own channel is released. -/
theorem hreleaseAct_of_own (hvalid : (Map.getD (s.core c).hists ch Hist.reset).valid = true)
    (hgraph : (Map.getD (s.core c).hists ch Hist.reset).graph = g) : Map.find? ((s.hreleaseAct c g ch).core c).hists ch = none := by
  simp [State.hreleaseAct, hvalid, hgraph]

end

/-! ### Registers (R146 to R149) -/

theorem refuseWrite_eq (s : State) (c sysn reason : Nat) : s.refuseWrite c sysn reason = s.setCore c { s.core c with
    syswrStatus := BitVec.ofNat 32 (2 ^ 31 + b2n (bitOf (s.core c).syswrStatus.toNat 31) * 2 ^ 30 + reason * 2 ^ 12 + sysn) } := rfl

/-- PKG.POWER_CAP: reserved bits first, then the limits, then an event of the cycle. -/
theorem syswrAct_powerCap (s : State) (c : Nat) (v : Word) : s.syswrAct c 0x801 v =
    if bits v.toNat 12 20 ≠ 0 then s.refuseWrite c 0x801 3
    else if v.toNat < 1000 ∨ 3800 < v.toNat then s.refuseWrite c 0x801 1
    else if s.eventNow c 0x801 = true then s
    else { s with powerCap := v.toNat } := by
  simp [State.syswrAct]

/-- PKG.DRAIN_LIMIT: reserved bits first, then 0. -/
theorem syswrAct_drainLimit (s : State) (c : Nat) (v : Word) : s.syswrAct c 0x802 v =
    if bits v.toNat 16 16 ≠ 0 then s.refuseWrite c 0x802 3
    else if v.toNat = 0 then s.refuseWrite c 0x802 1
    else { s with drainLimit := v.toNat } := by
  simp [State.syswrAct]

/-- GRAPH.ROUND as it is read: of a graph that is loaded its own, else what was written for it (R147). -/
def State.roundOf (s : State) (n : Nat) : Nat :=
  match s.graph? n with
  | some g => g.round
  | none => Map.getD s.control.freeRounds n 0

/-- GRAPH.ROUND set: that of a loaded graph, else what is kept for it. -/
def State.setRound (s : State) (n v : Nat) : State :=
  match s.graph? n with
  | some g => s.setGraph n { g with round := v }
  | none => { s with control := { s.control with freeRounds := Map.putD 0 s.control.freeRounds n v } }

theorem sysRead_round (s : State) (c asid : Nat) {n : Nat} (h : n < 256) : s.sysRead c asid (0x200 + n) = s.roundOf n := by
  have hsub : 0x200 + n - 0x200 = n := by omega
  have h0 : ¬ 0x200 + n = 0x000 := by omega
  have h1 : ¬ 0x200 + n = 0x001 := by omega
  have h2 : ¬ 0x200 + n = 0x002 := by omega
  have h3 : ¬ (0x200 + n < 0x140) := by omega
  have h4 : ¬ (0x200 + n < 0x180) := by omega
  have h5 : 0x200 + n < 0x300 := by omega
  simp only [State.sysRead, h0, h1, h2, h3, h4, h5, Nat.le_add_right, decide_true, decide_false, Bool.and_false, Bool.and_self,
    Bool.false_eq_true, if_false, if_true, hsub]
  rfl

@[simp] theorem roundOf_setRound_same (s : State) (n v : Nat) : (s.setRound n v).roundOf n = v := by
  unfold State.setRound
  split
  · simp [State.roundOf]
  · next h =>
    have hnone : ∀ q, ({ s with control := q } : State).graph? n = none := fun _ => h
    simp [State.roundOf, hnone]

theorem roundOf_setRound_ne (s : State) {n m : Nat} (h : m ≠ n) (v : Nat) : (s.setRound n v).roundOf m = s.roundOf m := by
  unfold State.setRound
  split
  · rw [State.roundOf, graph?_setGraph_ne _ _ h]
    rfl
  · have hgraph : ∀ q, ({ s with control := q } : State).graph? m = s.graph? m := fun _ => rfl
    simp only [State.roundOf, hgraph, Map.getD_putD_ne _ _ _ h]

theorem setRound_mem (s : State) (n v : Nat) : (s.setRound n v).mem = s.mem := by
  unfold State.setRound
  split <;> rfl

/-- GRAPH.ROUND: reserved bits first, then round 7, then an event of the cycle. -/
theorem syswrAct_round (s : State) (c : Nat) {n : Nat} (h : n < 256) (v : Word) : s.syswrAct c (0x200 + n) v =
    if bits v.toNat 3 29 ≠ 0 then s.refuseWrite c (0x200 + n) 3
    else if v.toNat = 7 then s.refuseWrite c (0x200 + n) 1
    else if s.eventNow c (0x200 + n) = true then s
    else s.setRound n v.toNat := by
  have hsub : 0x200 + n - 0x200 = n := by omega
  have h1 : ¬ 0x200 + n = 0x001 := by omega
  have h5 : 0x200 + n < 0x300 := by omega
  simp only [State.syswrAct, h1, h5, Nat.le_add_right, decide_true, Bool.and_self, if_false, if_true, hsub]
  rfl

/-- A word has none of its bits from the third on exactly where it is below 8. -/
theorem bits_three_eq_zero {v : Word} : bits v.toNat 3 29 = 0 ↔ v.toNat < 8 := by
  have := v.isLt
  unfold bits
  omega

/-- GRAPH.TRAP is read-only: no SYSWR names it (R147, R347). -/
theorem syswr_trap_not_wellFormed (b : BlockCtx) {n : Nat} (h : n < 256) {a : FmtS} (ha : a.sysn = 0x300 + n) :
    (Instr.syswr a).wellFormed b = false := by
  have hplace : ((Instr.syswr a).form b).placeOk = false := by
    have hread : sysnReadable a.sysn = true := by
      rw [ha]
      simp only [sysnReadable, Bool.or_eq_true, Bool.and_eq_true, decide_eq_true_eq]
      omega
    have hwrite : sysnWritable a.sysn = false := by
      rw [ha]
      simp only [sysnWritable, Bool.or_eq_false_iff, Bool.and_eq_false_iff, decide_eq_false_iff_not, beq_eq_false_iff_ne]
      omega
    simp [Instr.form, formS, hread, hwrite]
  simp [Instr.wellFormed, Instr.reasons, orReason, hplace]

end Sys2Proof.Machine
end

section
/-! PROOFS. What commit acts do to the partition, stash windows, the trace and the control die (R148, R220, R264, R342 to R344, R350, R351,
R354, R356): O50. -/
namespace Sys2Proof.Machine

/-! ### CORE.SRAM_PART (R146, R148, R149) -/

theorem partOk_iff (v : Nat) : partOk v = true ↔ 1 ≤ bits v 0 8 ∧ bits v 0 8 ≤ 16 ∧ 12 ≤ bits v 16 8 ∧ 1 ≤ bits v 24 8
    ∧ bits v 0 8 + bits v 8 8 + bits v 16 8 + bits v 24 8 = 48 := by
  simp [partOk, and_assoc]

/-- Counting entries as codeOn does adds one for each that a test keeps. -/
theorem foldl_codeOn_count {α : Type} (keep : α → Bool) (size : α → Nat) (l : List α) (a : Nat × Nat) :
    (l.foldl (fun x p => if keep p then (x.1 + size p, x.2 + 1) else x) a).2 = a.2 + l.countP keep := by
  induction l generalizing a with
  | nil => rfl
  | cons p l ih =>
    rw [List.foldl_cons, ih, List.countP_cons]
    split <;> omega

/-- Blocks of a graph that a core holds. -/
def State.blocksHeld (s : State) (c : Nat) (g : Nat × Graph) : Nat := g.2.blocks.zipIdx.countP (fun p => s.inBlockRects g.1 p.2 c)

theorem blocksHeld_eq_zero {s : State} {c : Nat} {g : Nat × Graph} :
    s.blocksHeld c g = 0 ↔ ∀ i, i < g.2.blocks.length → s.inBlockRects g.1 i c = false := by
  simp only [State.blocksHeld, List.countP_eq_zero, Bool.not_eq_true, Prod.forall]
  refine ⟨fun h i hi => h _ i (List.mem_zipIdx_iff_getElem?.mpr (List.getElem?_eq_getElem hi)), fun h y i hy => h i ?_⟩
  exact (List.getElem?_eq_some_iff.mp (List.mem_zipIdx_iff_getElem?.mp hy)).1

/-- No graph has code on a core exactly where none of their blocks lies there. -/
theorem codeOn_eq_zero {s : State} {c : Nat} :
    (s.codeOn c).2 = 0 ↔ ∀ g ∈ s.graphs, ∀ i, i < g.2.blocks.length → s.inBlockRects g.1 i c = false := by
  have hsum : ∀ (l : List (Nat × Graph)) (a : Nat × Nat), (l.foldl (fun a g => (g.2.blocks.zipIdx).foldl (fun x p =>
      if s.inBlockRects g.1 p.2 c then (x.1 + p.1.code.length, x.2 + 1) else x) a) a).2 = a.2 + (l.map (s.blocksHeld c)).sum := by
    intro l
    induction l with
    | nil => exact fun _ => rfl
    | cons g l ih =>
      intro a
      rw [List.foldl_cons, ih, foldl_codeOn_count (fun p : Block × Nat => s.inBlockRects g.1 p.2 c) (fun p => p.1.code.length),
        List.map_cons, List.sum_cons, Nat.add_assoc]
      rfl
  rw [State.codeOn, hsum]
  simp only [Nat.zero_add, List.sum_eq_zero_iff, List.forall_mem_map, blocksHeld_eq_zero]

/-- A partition within its limits is taken at once, or is pending while a graph has code on the core; an event prevails. -/
theorem syswrAct_sramPart (s : State) (c : Nat) (v : Word) : s.syswrAct c 1 v =
    if partOk v.toNat = false then s.refuseWrite c 1 1
    else if s.eventNow c 1 = true then s
    else if (s.codeOn c).2 = 0 then s.setCore c { s.core c with sramPart := v, pendingPart := none }
    else s.setCore c { s.core c with pendingPart := some v } := by
  simp [State.syswrAct]

/-! ### SMAP (R220) -/

@[simp] theorem core_disown (s : State) (d asid line c : Nat) : (s.disown d asid line).core c = s.core c := by
  unfold State.disown
  dsimp only
  split <;> rfl

theorem sent_writeBack (s : State) (c g : Nat) (cid : Option Nat) (l : StashLine) : Sent s (s.writeBack c g cid l) :=
  Sent.foldl _ (fun a _ => sent_addReq a _) _ s

/-- A line that leaves the stash leaves its place empty, and the other places as they are. -/
theorem find?_stash_dropStash (s : State) (c idx : Nat) (write : Bool) (cid : Option Nat) (i : Nat) :
    Map.find? ((s.dropStash c idx write cid).core c).stash i = if i = idx then none else Map.find? (s.core c).stash i := by
  unfold State.dropStash
  extract_lets k
  split
  · next hnone =>
    split
    · next hi => rw [hi]; exact hnone
    · rfl
  · next l hl =>
    extract_lets s1
    have hstash : (s1.core c).stash = (s.core c).stash := by
      show ((if _ then s.writeBack c _ cid l else s).core c).stash = _
      split
      · obtain ⟨m, hm⟩ := (sent_writeBack s c (k.stashGraph idx) cid l).2 c
        rw [hm]
      · rfl
    rw [core_disown, core_setCore_same]
    dsimp only
    rw [hstash]
    split
    · next hi => rw [hi, Map.find?_del_same]
    · next hi => exact Map.find?_del_ne _ hi

theorem find?_stash_foldl_dropStash (c : Nat) (write : Bool) (cid : Option Nat) (i : Nat) (l : List Nat) (s : State) :
    Map.find? ((l.foldl (fun a j => a.dropStash c j write cid) s).core c).stash i =
      if i ∈ l then none else Map.find? (s.core c).stash i := by
  induction l generalizing s with
  | nil => rfl
  | cons j l ih =>
    rw [List.foldl_cons, ih, find?_stash_dropStash]
    by_cases h : i = j
    · simp [h]
    · simp [h]

@[simp] theorem core_endFill (s : State) (f : StashFillReq) (c : Nat) : (s.endFill f).core c = s.core c :=
  foldl_keeps (fun a : State => a.core c) (fun a _ => later_core a _ c) _ _

@[simp] theorem core_dropFills (s : State) (gone : Nat × StashFillReq → Bool) (c : Nat) : (s.dropFills gone).core c = s.core c :=
  foldl_keeps (fun a : State => a.core c) (fun a _ => core_endFill a _ c) _ _

@[simp] theorem dropFills_mem (s : State) (gone : Nat × StashFillReq → Bool) : (s.dropFills gone).mem = s.mem :=
  foldl_mem _ (fun a _ => foldl_mem _ (fun b _ => later_mem b _) _ a) _ _

/-- SMAP waits while an engine of its graph writes to the stash. -/
theorem stashAct_smap_waits {s : State} {c g : Nat} (h : s.stashEngines c g = true) (asid cid va n d : Nat) :
    s.stashAct c g asid cid va (.smap n d) = none := by
  simp [State.stashAct, h]

/-- Else the window is the descriptor's, and the lines of the one before have left the stash. -/
theorem stashAct_smap_done {s : State} {c g : Nat} (h : s.stashEngines c g = false) (asid cid va n d : Nat) :
    ∃ t, s.stashAct c g asid cid va (.smap n d) = some t ∧ t.mem = s.mem
      ∧ Map.find? (t.core c).windows (g * 16 + n) = (if (windowOfDesc d).lines = 0 then none else some (windowOfDesc d))
      ∧ ∀ x, Map.find? (s.core c).windows (g * 16 + n) = some x → ∀ i ∈ x.places, Map.find? (t.core c).stash i = none := by
  simp only [State.stashAct, h, Bool.false_eq_true, if_false]
  refine ⟨_, rfl, ?_, ?_, fun x hx i hi => ?_⟩
  · rw [setCore_mem, dropFills_mem]
    exact foldl_mem _ (fun a i => dropStash_mem a _ _ _ _) _ _
  · rw [core_setCore_same]
    dsimp only
    split
    · exact Map.find?_del_same ..
    · exact Map.find?_put_same ..
  · simp only [core_setCore_same, core_dropFills, hx]
    rw [find?_stash_foldl_dropStash, if_pos hi]

/-! ### The trace (R342 to R344) -/

theorem syncOn_mem (s : State) (c g : Nat) : (s.syncOn c g).mem = s.mem := rfl
theorem syncOn_graph? (s : State) (c g n : Nat) : (s.syncOn c g).graph? n = s.graph? n := rfl

/-- The header that TRON writes: READ and WRITE at its end, and the ring's length (R342). -/
def ringHeader (len : Nat) : List Byte := toBytes 8 64 ++ toBytes 8 64 ++ toBytes 8 (len * 65536) ++ List.replicate 40 0

theorem tronAct_busy {s s1 : State} {g ad len : Nat} {x : Graph} (hg : s.graph? g = some x)
    (hwrite : s.ctlWrite g x.asid x.identity ad (ringHeader len) none = .busy s1) : s.tronAct g ad len = (s1, false) := by
  simp only [ringHeader] at hwrite
  simp only [State.tronAct, hg, hwrite]

/-- Once the ring's header is written, the graph is traced into it. -/
theorem tronAct_done {s s1 : State} {g ad len : Nat} {x y : Graph} (hg : s.graph? g = some x)
    (hwrite : s.ctlWrite g x.asid x.identity ad (ringHeader len) none = .done s1) (hy : s1.graph? g = some y) :
    ∃ t, s.tronAct g ad len = (t, true) ∧ t.mem = s1.mem ∧ t.graph? g = some { y with traceRing := ad, tracing := true, troffAt := none } := by
  simp only [ringHeader] at hwrite
  simp only [State.tronAct, hg, hwrite, hy]
  refine ⟨_, rfl, foldl_mem _ (fun a c => syncOn_mem a c g) _ _, ?_⟩
  exact (foldl_keeps (fun a : State => a.graph? g) (fun a c => syncOn_graph? a c g g) _ _).trans (graph?_setGraph_same ..)

theorem troffAct_of_graph {s : State} {g : Nat} {x : Graph} (hg : s.graph? g = some x) :
    s.troffAct g = s.setGraph g { x with tracing := false, troffAt := if x.tracing then some s.now else x.troffAt } := by
  simp [State.troffAct, hg]

theorem trmarkAct_of_graph {s : State} {g : Nat} {x : Graph} (hg : s.graph? g = some x) (c n : Nat) (v : Word) :
    s.trmarkAct c g n v = if x.tracing = true ∨ x.troffAt = some s.now then s.trace c g 5 (n * 2 ^ 32 + v.toNat) else s := by
  simp [State.trmarkAct, hg, Graph.traces]

theorem srseedAct_of_graph {s : State} {g : Nat} {x : Graph} (hg : s.graph? g = some x) (v : DWord) :
    s.srseedAct g v = s.setGraph g { x with seed := v } := by
  simp [State.srseedAct, hg]

/-! ### The journal (R334, R356) -/

/-- A record appended under the next sequence number is found under it; the launches stand as they were. -/
theorem journalAppend_control (s : State) {r : JRec} (hr : r.seq = s.control.seq) :
    (s.journalAppend r).control.seq = s.control.seq + 1 ∧ Map.find? (s.journalAppend r).control.journal s.control.seq = some r
      ∧ (s.journalAppend r).control.launches = s.control.launches ∧ (s.journalAppend r).control.nextLaunch = s.control.nextLaunch
      ∧ (s.journalAppend r).control.launchQ = s.control.launchQ ∧ (s.journalAppend r).control.launchWait = s.control.launchWait :=
  ⟨rfl, by rw [← hr]; exact Map.find?_put_same .., rfl, rfl, rfl, rfl⟩

/-! ### Instructions that reply (R337) -/

/-- The reply's charge leaves its warp, and nothing else of the state. -/
theorem freeCharge_eq (s : State) (c k : Nat) : ∃ cores, s.freeCharge c k = { s with cores := cores } := by
  unfold State.freeCharge
  split <;> exact ⟨_, rfl⟩

@[simp] theorem freeCharge_control (s : State) (c k : Nat) : (s.freeCharge c k).control = s.control := by
  obtain ⟨cores, h⟩ := freeCharge_eq s c k
  rw [h]

theorem replying_waits {s : State} {c k : Nat} {w : Warp} (h : s.replyCharge c k w = none) (cid imm : Nat)
    (f : State → Reply → Charge → Served ⊕ State) : s.replying c k w cid imm f = .waits s := by
  simp [State.replying, h]

theorem asking_waits {s : State} {c k : Nat} {w : Warp} (h : s.replyCharge c k w = none) (cid imm g : Nat) (op : ServiceOp) :
    s.asking c k w cid imm g op = .waits s := by
  simp [State.asking, h]

/-- What replies waits while its counter is saturated. -/
theorem actOne_reply_waits {s : State} {c k : Nat} {w : Warp} (h : s.replyCharge c k w = none) (cid : Nat) (d : List Word) (n imm : Nat) :
    ∀ a ∈ [AtCommit.gload d imm, .gunld n imm, .preempt n imm, .resume n imm, .launch d imm, .tgen n imm, .dirfl d imm, .tret n d imm],
      s.actOne c k cid w a = .waits s := by
  simp only [List.forall_mem_cons, List.not_mem_nil, false_imp_iff, implies_true, and_true]
  simp only [State.actOne, replying_waits h, asking_waits h, and_self]

section
variable {s s1 : State} {c k : Nat} {w : Warp} {x : Charge} (h : s.replyCharge c k w = some (s1, x))
include h

theorem actOne_launch (cid : Nat) (d : List Word) (imm : Nat) : s.actOne c k cid w (.launch d imm) =
    .done ((s1.launchAct d (s1.sysReplyOf c w imm) x cid).freeCharge c k) := by
  simp only [State.actOne, State.replying, h]

theorem actOne_tgen (cid asid imm : Nat) : s.actOne c k cid w (.tgen asid imm) =
    .done ((s1.tgenAct asid (s1.sysReplyOf c w imm) x cid).freeCharge c k) := by
  simp only [State.actOne, State.replying, h]

/-- A TRET that resolves its record is answered. -/
theorem actOne_tret_done {cid n imm v : Nat} {d : List Word} {t : State} (hact : s1.tretAct c cid n d = some (t, v)) :
    s.actOne c k cid w (.tret n d imm) = .done ((t.freeCharge c k).sysAnswer (some cid) (s1.sysReplyOf c w imm) x [v]) := by
  simp only [State.actOne, State.replying, h, hact]

/-- A TRET that must wait keeps its charge. -/
theorem actOne_tret_waits {cid n : Nat} {d : List Word} (hact : s1.tretAct c cid n d = none) (imm : Nat) :
    s.actOne c k cid w (.tret n d imm) = .waits s1 := by
  simp only [State.actOne, State.replying, h, hact]

end

/-! ### LAUNCH (R264, R350) -/

/-- A launch that enters takes the next number, and a place of the queue, or waits for one. -/
theorem enterLaunch_control (s : State) (l : Launch) : (s.enterLaunch l).control.seq = s.control.seq
    ∧ (s.enterLaunch l).control.journal = s.control.journal
    ∧ Map.find? (s.enterLaunch l).control.launches s.control.nextLaunch = some l
    ∧ (s.control.launchQ.length < 64 → s.control.launchWait = [] →
        (s.enterLaunch l).control.launchQ = s.control.launchQ ++ [s.control.nextLaunch])
    ∧ (64 ≤ s.control.launchQ.length → (s.enterLaunch l).control.launchWait = s.control.launchWait ++ [s.control.nextLaunch]) := by
  unfold State.enterLaunch
  extract_lets q n q1
  split
  · next hroom =>
    have hlt : q.launchQ.length < 64 := by
      rw [Control.launchRoom, Bool.and_eq_true, decide_eq_true_eq] at hroom
      exact hroom.1
    exact ⟨rfl, rfl, Map.find?_put_same .., fun _ _ => rfl, fun hfull => absurd hlt (Nat.not_lt.mpr hfull)⟩
  · next hfull =>
    exact ⟨rfl, rfl, Map.find?_put_same .., fun hlt hwait => absurd (by simp [Control.launchRoom, q, hlt, hwait]) hfull, fun _ => rfl⟩

/-- LAUNCH appends its record of kind 2 to the journal and enters its launch. -/
theorem launchAct_control (s : State) (d : List Word) (r : Reply) (x : Charge) (cid : Nat) :
    (s.launchAct d r x cid).control.seq = s.control.seq + 1
    ∧ Map.find? (s.launchAct d r x cid).control.journal s.control.seq = some (s.newRec 2 (descWord d 0 % 256))
    ∧ Map.find? (s.launchAct d r x cid).control.launches s.control.nextLaunch =
        some (launchFrom d s.control.seq false (some (r, x)) (s.chainHb cid))
    ∧ (s.control.launchQ.length < 64 → s.control.launchWait = [] →
        (s.launchAct d r x cid).control.launchQ = s.control.launchQ ++ [s.control.nextLaunch])
    ∧ (64 ≤ s.control.launchQ.length → (s.launchAct d r x cid).control.launchWait = s.control.launchWait ++ [s.control.nextLaunch]) := by
  obtain ⟨hseq, hjournal, _, hnext, hq, hwait⟩ := journalAppend_control s (r := s.newRec 2 (descWord d 0 % 256)) rfl
  have henter := enterLaunch_control (s.journalAppend (s.newRec 2 (descWord d 0 % 256)))
    (launchFrom d s.control.seq false (some (r, x)) (s.chainHb cid))
  rw [hseq, hnext, hq, hwait] at henter
  obtain ⟨hseq', hjournal', hlaunch, hroom, hfull⟩ := henter
  exact ⟨hseq', by rw [State.launchAct, hjournal', hjournal], hlaunch, hroom, hfull⟩

/-! ### TGEN (R314, R351) -/

/-- No such space: the reply is 0x100. -/
theorem tgenAct_of_no_space {s : State} {asid : Nat} (h : Map.find? s.spaces asid = none) (r : Reply) (x : Charge) (cid : Nat) :
    s.tgenAct asid r x cid = s.sysAnswer (some cid) r x [0x100] := by
  simp only [State.tgenAct, h]

/-- The generation rises, and every compute and base die has still to take it up. -/
theorem tgenAct_of_space {s : State} {asid : Nat} {p : Space} (h : Map.find? s.spaces asid = some p) (r : Reply) (x : Charge) (cid : Nat) :
    s.tgenAct asid r x cid = { s with
      spaces := Map.put s.spaces asid { p with tgen := (p.tgen + 1) % 256 }
      sysReplies := s.sysReplies ++ [⟨asid, List.range 16, (p.tgen + 1) % 256, r, x, cid⟩] } := by
  simp only [State.tgenAct, h]

/-! ### TRET (R354, R359, R360) -/

section
variable {s : State} {c cid : Nat} {d : List Word} {y : FaultRec}

/-- No record that is still to be resolved has the handle: the reply is 1. -/
theorem tretAct_of_no_record (h : ∀ y ∈ s.control.openRecs, y.handle ≠ descPair d 0) (n : Nat) : s.tretAct c cid n d = some (s, 1) := by
  have hnone : s.control.openRecs.find? (fun r => r.handle == descPair d 0) = none :=
    List.find?_eq_none.mpr fun y hy => by simpa using h y hy
  simp only [State.tretAct, hnone]

variable (hfind : s.control.openRecs.find? (fun r => r.handle == descPair d 0) = some y)
include hfind

/-- Replay and poison of a held instance wait behind a landing of this cycle at its frame. -/
theorem tretAct_of_landed {n : Nat} (hn : n < 2) (hk : y.kind = 0) (hlanded : s.landedNow (y.die * 64 + y.core) (fpIndex y.fp) = true) :
    s.tretAct c cid n d = none := by
  simp [State.tretAct, hfind, hn, hk, hlanded]

theorem tretAct_replay (hfree : y.kind = 0 → s.landedNow (y.die * 64 + y.core) (fpIndex y.fp) = false) :
    s.tretAct c cid 0 d = some ((s.closeRec y).tretReplayAct y, 0) := by
  by_cases hk : y.kind = 0
  · simp [State.tretAct, hfind, hk, hfree hk]
  · simp [State.tretAct, hfind, hk]

theorem tretAct_poison (hfree : y.kind = 0 → s.landedNow (y.die * 64 + y.core) (fpIndex y.fp) = false) :
    s.tretAct c cid 1 d = some ((s.closeRec y).tretPoisonAct y, 0) := by
  by_cases hk : y.kind = 0
  · simp [State.tretAct, hfind, hk, hfree hk]
  · simp [State.tretAct, hfind, hk]

theorem tretAct_raiseMark : s.tretAct c cid 2 d = some (s.raiseMark y (bits (descWord d 2) 0 2) (descPair d 4), 0) := by
  simp [State.tretAct, hfind]

theorem tretAct_answer {n : Nat} (hn : 2 < n) : s.tretAct c cid n d = some ((s.cleanCore c (some cid)).sendReply 18 (some cid) 64
    [{ plainToken y.fp (bits (descWord d 2) 0 12) (bits (descWord d 2) 12 8) y.iter y.ident (descPair d 4) with
        rel := .package, relWord := RelWord.every }], 0) := by
  obtain ⟨m, rfl⟩ : ∃ m, n = m + 3 := ⟨n - 3, by omega⟩
  have hm : ¬ m + 3 < 2 := by omega
  simp only [State.tretAct, hfind, hm, decide_false, Bool.false_and, Bool.false_eq_true, if_false]

end

/-- A mark rises where it is higher, for a record of a high-water mark (code 8). -/
theorem raiseMark_of_higher {s : State} {y : FaultRec} {g : Graph} {area mark : Nat} (hg : s.graph? y.graph = some g) (hcode : y.code = 8)
    (hmark : nthD 0 g.hwm area < mark) : s.raiseMark y area mark =
      (s.setGraph y.graph { g with hwm := setNth g.hwm area mark }).replayMarked s y.graph := by
  simp [State.raiseMark, hg, hcode, hmark]

theorem raiseMark_of_other {s : State} {y : FaultRec} (hcode : y.code ≠ 8) (area mark : Nat) : s.raiseMark y area mark = s := by
  simp only [State.raiseMark, hcode]
  split <;> simp

/-! ### The obligation -/

/-- Settles O50: a lemma for each act, of what it does to what it names. -/
theorem commitActsTakeEffect : Obligations.CommitActsTakeEffect := by
  intro s c k cid w q
  refine ⟨?accz, fun n ps => rfl, ?hclr, ?srseed, fun ch cfg sc => ⟨_, rfl, chan_fchbindAct_same ..⟩,
    fun n f r ctl fl => ⟨_, rfl, mxseqAct_tile ..⟩, ?capSet, ?drainSet, ?capRange, ?capReserved, ?drainZero, ?drainReserved, ?round, ?sramPart,
    ?hbind, ?smap, ?trace, ?jrnl, ?waits, ?replies⟩
  case accz =>
    intro n
    obtain ⟨hmem, hzero, hpool⟩ := acczAct_tile s c n
    exact ⟨_, rfl, hmem, hzero, hpool⟩
  case hclr => exact fun m ch h hch => ⟨_, rfl, hclrAct_channel hch ..⟩
  case srseed => exact fun v x hx => congrArg Acted.done (srseedAct_of_graph hx v)
  case capSet =>
    intro v hbits hlo hhi
    refine congrArg Acted.done ?_
    rw [syswrAct_powerCap, if_neg (not_not.mpr hbits), if_neg (by omega)]
  case drainSet =>
    intro v hbits hv
    refine congrArg Acted.done ?_
    rw [syswrAct_drainLimit, if_neg (not_not.mpr hbits), if_neg hv]
  case capRange =>
    intro v hbits hv
    refine congrArg Acted.done ?_
    rw [syswrAct_powerCap, if_neg (not_not.mpr hbits), if_pos hv, refuseWrite_eq]
  case capReserved =>
    intro v hbits
    refine congrArg Acted.done ?_
    rw [syswrAct_powerCap, if_pos hbits, refuseWrite_eq]
  case drainZero =>
    refine congrArg Acted.done ?_
    rw [syswrAct_drainLimit, if_neg (by decide), if_pos (by decide), refuseWrite_eq]
  case drainReserved =>
    intro v hbits
    refine congrArg Acted.done ?_
    rw [syswrAct_drainLimit, if_pos hbits, refuseWrite_eq]
  case round =>
    intro n v hn r st refused
    have hact : s.actOne c k cid w (.syswr r v) = .done _ := congrArg Acted.done (syswrAct_round s c hn v)
    refine ⟨fun hv hevent => ?_, fun hv hevent => ?_, fun hv => ?_, fun hv => ?_, fun b a ha => syswr_trap_not_wellFormed b hn ha⟩
    · rw [if_neg (not_not.mpr (bits_three_eq_zero.mpr (by omega))), if_neg (by omega), if_neg (by simpa using hevent)] at hact
      refine ⟨_, hact, setRound_mem .., fun c' asid => ?_, fun c' asid n' hn' hne => ?_⟩
      · rw [sysRead_round _ _ _ hn, roundOf_setRound_same]
      · rw [sysRead_round _ _ _ hn', roundOf_setRound_ne _ hne, ← sysRead_round _ c' asid hn']
    · rw [hact, if_neg (not_not.mpr (bits_three_eq_zero.mpr (by omega))), if_neg (by omega), if_pos hevent]
    · rw [hact, if_neg (not_not.mpr (bits_three_eq_zero.mpr (by omega))), if_pos hv, refuseWrite_eq]
    · rw [hact, if_pos (mt bits_three_eq_zero.mp (by omega)), refuseWrite_eq]
  case sramPart =>
    intro v
    refine ⟨fun hbad => ?_, fun hok hevent hnone => ?_, fun hok hevent hsome => ?_, partOk_iff _⟩
    · refine congrArg Acted.done ?_
      rw [syswrAct_sramPart, if_pos hbad, refuseWrite_eq]
    · refine congrArg Acted.done ?_
      rw [syswrAct_sramPart, if_neg (by simp [hok]), if_neg (by simp [hevent]), if_pos (codeOn_eq_zero.mpr hnone)]
    · refine congrArg Acted.done ?_
      obtain ⟨g, hg, i, hi, hin⟩ := hsome
      have hcode : ¬ (s.codeOn c).2 = 0 := fun h => by simp [codeOn_eq_zero.mp h g hg i hi] at hin
      rw [syswrAct_sramPart, if_neg (by simp [hok]), if_neg (by simp [hevent]), if_neg hcode]
  case hbind =>
    intro ch f h
    refine ⟨fun hvalid hgraph => ?_, fun hfree => ?_, fun hvalid hgraph => ⟨_, rfl, hreleaseAct_of_own hvalid hgraph⟩⟩
    · obtain ⟨hbind, hrelease⟩ := hbindAct_of_taken hvalid hgraph f
      exact ⟨congrArg Acted.done hbind, congrArg Acted.done hrelease⟩
    · obtain ⟨h1, hbound⟩ := hbindAct_of_free hfree f
      exact ⟨_, h1, rfl, hbound⟩
  case smap => exact fun g asid va n d => ⟨fun h => stashAct_smap_waits h .., fun h => stashAct_smap_done h ..⟩
  case trace =>
    intro x ad len hx r
    refine ⟨fun s1 hr => ?_, fun s1 y hr hy => ?_, congrArg Acted.done (troffAct_of_graph hx),
      fun n v => congrArg Acted.done (trmarkAct_of_graph hx c n v)⟩
    · rw [State.actOne, tronAct_busy hx hr]
      rfl
    · obtain ⟨t, htron, ht⟩ := tronAct_done hx hr hy
      exact ⟨t, by rw [State.actOne, htron]; rfl, ht⟩
  case jrnl =>
    intro code v
    obtain ⟨hseq, hjournal, _⟩ := journalAppend_control s (r := { s.newRec 1 code with
      result := v, tStart := s.now, tEnd := s.now, state := .completed }) rfl
    exact ⟨_, _, rfl, hseq, rfl, hjournal, rfl, rfl, rfl, rfl, rfl, rfl⟩
  case waits => exact fun d n imm h => actOne_reply_waits h cid d n imm
  case replies =>
    intro imm s1 x h r
    refine ⟨fun d => ?launch, fun asid hnone => ?noSpace, fun asid p hp => ?tgen, fun n d hno => ?noRecord, fun n d y hy => ?tret⟩
    case launch =>
      obtain ⟨hseq, hjournal, hlaunch, hroom, hfull⟩ := launchAct_control s1 d r x cid
      refine ⟨_, launchFrom d s1.control.seq false (some (r, x)) (s1.chainHb cid), s1.newRec 2 (descWord d 0 % 256), actOne_launch h .., ?_⟩
      rw [freeCharge_control]
      exact ⟨hseq, hjournal, rfl, rfl, hlaunch, rfl, rfl, rfl, rfl, rfl, rfl, rfl, hroom, hfull⟩
    case noSpace => rw [actOne_tgen h, tgenAct_of_no_space hnone]
    case tgen =>
      obtain ⟨cores, hfree⟩ := freeCharge_eq (s1.tgenAct asid r x cid) c k
      refine ⟨_, actOne_tgen h .., ?_⟩
      rw [hfree, tgenAct_of_space hp]
      exact ⟨Map.find?_put_same .., rfl⟩
    case noRecord => exact actOne_tret_done h (tretAct_of_no_record hno n)
    case tret =>
      intro core frame answered closed
      have hdone : ∀ {t : State}, s1.tretAct c cid n d = some (t, 0) → s.actOne c k cid w (.tret n d imm) = answered t := actOne_tret_done h
      refine ⟨fun hn hkind hlanded => actOne_tret_waits h (tretAct_of_landed hy hn hkind hlanded) imm, ?_, ?_, ?_, ?_, ?_, ?_,
        fun hn => hdone (tretAct_answer hy hn)⟩
      · rintro rfl hkind hfree
        rw [hdone (tretAct_replay hy fun _ => hfree), State.tretReplayAct, if_pos hkind]
        rfl
      · rintro rfl hkind hfree
        rw [hdone (tretAct_poison hy fun _ => hfree), State.tretPoisonAct, if_pos hkind]
        rfl
      · rintro rfl hkind
        rw [hdone (tretAct_replay hy fun hk => absurd hk hkind), State.tretReplayAct, if_neg hkind]
        rfl
      · rintro rfl hkind
        rw [hdone (tretAct_poison hy fun hk => absurd hk hkind), State.tretPoisonAct, if_neg hkind]
        rfl
      · rintro g area rfl hg rfl hcode hmark
        rw [hdone (tretAct_raiseMark hy), raiseMark_of_higher hg hcode hmark]
      · rintro rfl hcode
        rw [hdone (tretAct_raiseMark hy), raiseMark_of_other hcode]

end Sys2Proof.Machine
end

section
/-! PROOFS. What GLOAD has checked of a three-source form that it accepts (R57, R60, R77, R169). -/
namespace Sys2Proof

/-! ### Single checks -/

/-- An instruction that GLOAD accepts has passed the checks of its types, its modes, its modifiers and its operands (R77). -/
theorem checks_of_wellFormed {b : BlockCtx} {i : Instr} (h : i.wellFormed b = true) :
    (i.form b).typeOk = true ∧ (i.form b).modeOk = true ∧ (i.form b).modsOk = true ∧
      ∀ o ∈ (i.form b).ops, operandReasons b.granules o.1 o.2 = [] := by
  simp only [Instr.wellFormed, Instr.reasons, List.isEmpty_iff, List.append_eq_nil_iff, List.flatMap_eq_nil_iff, orReason_eq_nil] at h
  obtain ⟨⟨⟨⟨⟨⟨⟨⟨⟨⟨-, -⟩, hops⟩, htype⟩, hmode⟩, -⟩, -⟩, hmods⟩, -⟩, -⟩, -⟩ := h
  exact ⟨htype, hmode, hmods, hops⟩

/-- An unused operand field holds zero (R60). -/
theorem eq_zero_of_unused {n : Nat} {o : Sel} (h : operandReasons n .unused o = []) : o = .zero := by
  cases o
  case zero => rfl
  all_goals cases h

theorem Rnd.eq_rne_of_isRne {r : Rnd} (h : r.isRne = true) : r = .rne := by
  cases r
  case rne => rfl
  all_goals cases h

theorem Ty.mem_of_isWide {t : Ty} (h : t.isWide = true) : t ∈ [Ty.i32, .n32, .i64, .n64] := by
  cases t
  case i32 | n32 | i64 | n64 => decide
  all_goals cases h

theorem SrcMod.eq_none_of_isNone {m : SrcMod} (h : m.isNone = true) : m = .none := by
  cases m
  case none => rfl
  all_goals cases h

/-- A source that takes no modifier has none, and where saturation is not defined its bit is 0 (R57). -/
theorem Mods.of_within {m : Mods} {ma mb mc sat : Bool} (h : m.within ma mb mc sat = true) :
    (mb = false → m.b = .none) ∧ (mc = false → m.c = .none) ∧ (sat = false → m.sat = false) := by
  simp only [Mods.within, Bool.and_eq_true] at h
  obtain ⟨⟨⟨-, hb⟩, hc⟩, hsat⟩ := h
  refine ⟨?_, ?_, ?_⟩ <;> rintro rfl
  · exact SrcMod.eq_none_of_isNone hb
  · exact SrcMod.eq_none_of_isNone hc
  · simpa using hsat

/-! ### Three-source forms -/

section
variable {b : BlockCtx} {i : Instr} {a : FmtA} {ty rnd ma mb mc sat : Bool} {d s0 s1 s2 : Role}

theorem typeOk_of_formA (hform : i.form b = formA a ty rnd ma mb mc sat d s0 s1 s2) (h : i.wellFormed b = true) : ty = true := by
  obtain ⟨htype, -⟩ := hform ▸ checks_of_wellFormed h
  exact htype

theorem rne_of_formA (hform : i.form b = formA a ty false ma mb mc sat d s0 s1 s2) (h : i.wellFormed b = true) : a.rnd = .rne := by
  obtain ⟨-, hmode, -⟩ := hform ▸ checks_of_wellFormed h
  exact Rnd.eq_rne_of_isRne hmode

theorem mods_of_formA (hform : i.form b = formA a ty rnd ma mb mc sat d s0 s1 s2) (h : i.wellFormed b = true) :
    (mb = false → a.mods.b = .none) ∧ (mc = false → a.mods.c = .none) ∧ (sat = false → a.mods.sat = false) := by
  obtain ⟨-, -, hmods, -⟩ := hform ▸ checks_of_wellFormed h
  exact Mods.of_within hmods

/-- Sources that a form does not use are zero (R60). -/
theorem unused_of_formA (hform : i.form b = formA a ty rnd ma mb mc sat d s0 s1 s2) (h : i.wellFormed b = true) :
    (s1 = .unused → a.sb = .zero) ∧ (s2 = .unused → a.sc = .zero) := by
  obtain ⟨-, -, -, hops⟩ := hform ▸ checks_of_wellFormed h
  refine ⟨?_, ?_⟩ <;> rintro rfl
  · exact eq_zero_of_unused (hops (.unused, a.sb) (by simp [formA]))
  · exact eq_zero_of_unused (hops (.unused, a.sc) (by simp [formA]))

/-- A form of two sources has neither a third source nor a modifier for it. -/
theorem no_c_of_formA (hform : i.form b = formA a ty rnd ma mb false sat d s0 s1 .unused) (h : i.wellFormed b = true) :
    a.sc = .zero ∧ a.mods.c = .none :=
  ⟨(unused_of_formA hform h).2 rfl, (mods_of_formA hform h).2.1 rfl⟩

/-- A form of one source has no other sources, nor modifiers for them. -/
theorem no_b_no_c_of_formA (hform : i.form b = formA a ty rnd ma false false sat d s0 .unused .unused) (h : i.wellFormed b = true) :
    a.sb = .zero ∧ a.sc = .zero ∧ a.mods.b = .none ∧ a.mods.c = .none := by
  obtain ⟨hsc, hc⟩ := no_c_of_formA hform h
  exact ⟨(unused_of_formA hform h).1 rfl, hsc, (mods_of_formA hform h).1 rfl, hc⟩

theorem no_sat_of_formA (hform : i.form b = formA a ty rnd ma mb mc false d s0 s1 s2) (h : i.wellFormed b = true) : a.mods.sat = false :=
  (mods_of_formA hform h).2.2 rfl

/-- An integer form of row 0x1_ is in RND 000 and on a wide type (R153). -/
theorem rne_and_wide_of_formInt (hform : i.form b = formInt a ma mb mc sat d s0 s1 s2) (h : i.wellFormed b = true) :
    a.rnd = .rne ∧ a.ty ∈ [Ty.i32, .n32, .i64, .n64] :=
  ⟨rne_of_formA hform h, Ty.mem_of_isWide (typeOk_of_formA hform h)⟩

end

end Sys2Proof
end

section
/-! PROOFS. Integer arithmetic, carries, dot products and addresses, row 0x1_ (R152 to R156): O12, O13. -/
namespace Sys2Proof.Machine

/-! ### Integer arithmetic (R152, R153) -/

/-- A form of row 0x1_ writes fin of its exact result to every active lane (R152). -/
theorem intStep_inTurn {s : State} {c k : Nat} {w : Warp} (h : State.InTurn s c k w) (a : FmtA) (f : Int → Int → Int → Int) :
    let x := s.view c w
    let W := a.ty.width
    let n := a.ty.words
    intStep s a f = .next (s.wrote c k w a.g a.dst n (fun l => finInt a.ty a.mods.sat
      (f (modInt W a.ty.signed (x.rd l n a.sa) a.mods.a) (modInt W a.ty.signed (x.rd l n a.sb) a.mods.b)
        (modInt W a.ty.signed (x.rd l n a.sc) a.mods.c)))) := laneStep_inTurn h ..

/-- Settles O12: each instruction is the shared form with its own exact result, and GLOAD's checks are those of its integer
form. -/
theorem integerArithmetic : Obligations.IntegerArithmetic := by
  intro s c k w h a x A B C gives
  have hgives : ∀ (i : Instr) (f : Int → Int → Int → Int), exec i s = intStep s a f → gives i (fun l => f (A l) (B l) (C l)) :=
    fun i f hexec => hexec.trans (intStep_inTurn h a f)
  refine ⟨hgives (.iadd a) (fun p q _ => p + q) rfl, hgives (.isub a) (fun p q _ => p - q) rfl, hgives (.imul a) (fun p q _ => p * q) rfl,
    hgives (.imulh a) (fun p q _ => p * q / ((2 ^ a.ty.width : Nat) : Int)) rfl, hgives (.imad a) (fun p q r => p * q + r) rfl,
    hgives (.imin a) (fun p q _ => min p q) rfl, hgives (.imax a) (fun p q _ => max p q) rfl,
    hgives (.iabs a) (fun p _ _ => (p.natAbs : Int)) rfl, hgives (.ineg a) (fun p _ _ => -p) rfl,
    hgives (.isad a) (fun p q r => ((p - q).natAbs : Int) + r) rfl, fun b => ?static⟩
  case static =>
    simp only [List.forall_mem_cons, List.not_mem_nil, false_imp_iff, implies_true, and_true]
    refine ⟨?_, ?_, ?_, ?_⟩
    · and_intros <;> exact rne_and_wide_of_formInt rfl
    · and_intros <;> exact no_c_of_formA rfl
    · and_intros <;> exact no_b_no_c_of_formA rfl
    · and_intros <;> exact no_sat_of_formA rfl

/-! ### Carries (R154) -/

/-- A form with a carry writes its result and then the carry predicate, from operands read before either (R154). -/
theorem carryStep_inTurn {s : State} {c k : Nat} {w : Warp} (h : State.InTurn s c k w) (a : FmtA) {n : Nat} (hsc : a.sc = .p n)
    (f : Nat → Nat → Nat → Bool → Nat × Bool) :
    let x := s.view c w
    let W := a.ty.width
    let r := fun l => f W (wrapTo W (modInt W a.ty.signed (x.rd l a.ty.words a.sa) a.mods.a))
      (wrapTo W (modInt W a.ty.signed (x.rd l a.ty.words a.sb) a.mods.b)) (w.pred l n)
    carryStep s a f = .next (s.issued c k ((w.write (w.active a.g) a.dst a.ty.words (fun l => (r l).1)).write
      (w.active a.g) (.p n) 1 (fun l => b2n (r l).2))) := by
  have hsel : carrySel a.sc = n := by rw [hsc, carrySel]
  rw [carryStep, hsel]
  exact warpStep_inTurn h _

/-- A subtraction borrows exactly when what it takes away is more than what it takes from (R154). -/
theorem subBorrow_eq (W u v : Nat) (p : Bool) :
    subBorrow W u v p = (wrapTo W ((u : Int) - (v : Int) - (b2n p : Int)), decide (u < v + b2n p)) := by
  have hneg : ((u : Int) - (v : Int) - (b2n p : Int) < 0) ↔ u < v + b2n p := by omega
  simp only [subBorrow, hneg]

/-! ### Dot products (R155) -/

/-- A dot product of n packed elements onto its 32-bit addend (R155). -/
theorem dotStep_inTurn {s : State} {c k : Nat} {w : Warp} (h : State.InTurn s c k w) (a : FmtA) (n : Nat) :
    let x := s.view c w
    dotStep s a n = .next (s.wrote c k w a.g a.dst 1 (fun l => finInt (Ty.to32 a.ty) a.mods.sat
      (modInt 32 a.ty.signed (x.rd l 1 a.sc) a.mods.c + dotSum a.ty (x.rd l 1 a.sa) (x.rd l 1 a.sb) n))) := laneStep_inTurn h ..

/-- Settles O13: IADDC and ISUBB through the form with a carry, the dot products through the sum of their elements. -/
theorem carryWideningAndAddress : Obligations.CarryWideningAndAddress := by
  refine ⟨fun s c k w h a n hsc => ?carry, fun s c k w h a => ?widening⟩
  case carry =>
    intro x W ua ub p
    have hiaddc : exec (.iaddc a) s = carryStep s a addCarry := rfl
    have hisubb : exec (.isubb a) s = carryStep s a subBorrow := rfl
    refine ⟨hiaddc.trans (carryStep_inTurn h a hsc _), ?_⟩
    rw [hisubb, carryStep_inTurn h a hsc]
    simp only [subBorrow_eq]
    rfl
  case widening =>
    intro x elem C32
    have himadw : exec (.imadw a) s = execImadw a s := rfl
    have hidot4 : exec (.idot4 a) s = dotStep s a 4 := rfl
    have hidot2 : exec (.idot2 a) s = dotStep s a 2 := rfl
    have hlea : exec (.lea a) s = execLea a s := rfl
    refine ⟨himadw.trans (laneStep_inTurn h ..), ?_, ?_, hlea.trans (laneStep_inTurn h ..)⟩
    · rw [hidot4, dotStep_inTurn h]
      simp only [dotSum, Int.zero_add]
      rfl
    · rw [hidot2, dotStep_inTurn h]
      simp only [dotSum, Int.zero_add]
      rfl

end Sys2Proof.Machine
end

section
/-! PROOFS. Immediates, logic and bits, compares, selections, moves and frame pointers, rows 0x2_ to 0x4_ (R157 to R164): O14, O15,
O16. -/
namespace Sys2Proof.Machine

/-! ### Immediates (R157) -/

/-- The immediate, sign-extended exactly where the type takes pairs (R157). -/
theorem immInt_eq (t : IType) (imm : Word) : immInt t imm = if t.words = 2 then toSigned 32 imm.toNat else (imm.toNat : Int) := by
  simp only [immInt, beq_iff_eq]

/-- An immediate form writes its result, wrapped at the type's width, to every active lane (R157). -/
theorem immStep_inTurn {s : State} {c k : Nat} {w : Warp} (h : State.InTurn s c k w) (a : FmtI) (f : Nat → Int → Int) :
    immStep s a f = .next (s.wrote c k w a.g a.dst a.ity.words (fun l => wrapTo a.ity.width
      (f ((s.view c w).rd l a.ity.words a.sa) (if a.ity.words = 2 then toSigned 32 a.imm.toNat else (a.imm.toNat : Int))))) := by
  rw [← immInt_eq]
  exact laneStep_inTurn h ..

/-! ### Logic and bits (R159) -/

/-- A form of row 0x3_ writes its result, cut to the type's width, to every active lane (R159). -/
theorem bitStep_inTurn {s : State} {c k : Nat} {w : Warp} (h : State.InTurn s c k w) (a : FmtA) (f : Nat → Nat → Nat → Nat) (bw cw : Nat) :
    let x := s.view c w
    bitStep s a f bw cw = .next (s.wrote c k w a.g a.dst a.ty.words (fun l =>
      f (x.rd l a.ty.words a.sa) (x.rd l bw a.sb) (x.rd l cw a.sc) % 2 ^ a.ty.width)) := laneStep_inTurn h ..

/-- A count is one word, whatever the type (R151). -/
theorem countStep_inTurn {s : State} {c k : Nat} {w : Warp} (h : State.InTurn s c k w) (a : FmtA) (f : Nat → Nat → Nat) :
    countStep s a f = .next (s.wrote c k w a.g a.dst 1 (fun l => f a.ty.width ((s.view c w).rd l a.ty.words a.sa))) :=
  laneStep_inTurn h ..

/-- Settles O14: each instruction is its row's form with its own function of the operands. -/
theorem immediateFormsLogicAndShifts : Obligations.ImmediateFormsLogicAndShifts := by
  refine ⟨fun s c k w h => ⟨fun a => ?immediate, fun a => ?compare⟩, fun s c k w h a => ?logic⟩
  case immediate =>
    intro x W v imm pat gives
    have hgives : ∀ (i : Instr) (f : Nat → Int → Int), exec i s = immStep s a f → gives i (fun l => f (v l) imm) :=
      fun i f hexec => hexec.trans (immStep_inTurn h a f)
    have hbits : ∀ (i : Instr) (f : Nat → Nat → Nat), exec i s = immBits s a f → gives i (fun l => (f (v l) pat : Nat)) :=
      fun i f hexec => hgives i (fun p q => (f p (wrapTo W q) : Nat)) hexec
    have hleai : exec (.leai a) s = execLeai a s := rfl
    exact ⟨hgives (.iaddi a) (fun p q => p + q) rfl, hgives (.imuli a) (fun p q => p * q) rfl,
      hbits (.andi a) (fun p q => p &&& q) rfl, hbits (.ori a) (fun p q => p ||| q) rfl, hbits (.xori a) (fun p q => p ^^^ q) rfl,
      hgives (.shli a) (fun p _ => (p * 2 ^ a.imm.toNat : Nat)) rfl, hgives (.shri a) (fun p _ => (p / 2 ^ a.imm.toNat : Nat)) rfl,
      hgives (.shrai a) (fun p _ => intVal W true p / ((2 ^ a.imm.toNat : Nat) : Int)) rfl,
      hgives (.movi a) (fun _ q => q) rfl, hgives (.movki a) (fun _ q => q) rfl, hleai.trans (laneStep_inTurn h ..)⟩
  case compare =>
    have hicmpi : exec (.icmpi a) s = execIcmpi a s := rfl
    exact hicmpi.trans (laneStep_inTurn h ..)
  case logic =>
    intro x W A B n gives counts
    have hgives : ∀ (i : Instr) (f : Nat → Nat → Nat → Nat) (bw cw : Nat), exec i s = bitStep s a f bw cw →
        gives i (fun l => f (A l) (x.rd l bw a.sb) (x.rd l cw a.sc)) := fun i f bw cw hexec => hexec.trans (bitStep_inTurn h a f bw cw)
    have hcounts : ∀ (i : Instr) (f : Nat → Nat → Nat), exec i s = countStep s a f → counts i (fun l => f W (A l)) :=
      fun i f hexec => hexec.trans (countStep_inTurn h a f)
    exact ⟨hgives (.and a) (fun p q _ => p &&& q) a.ty.words 1 rfl, hgives (.or a) (fun p q _ => p ||| q) a.ty.words 1 rfl,
      hgives (.xor a) (fun p q _ => p ^^^ q) a.ty.words 1 rfl, hgives (.andn a) (fun p q _ => p &&& notW W q) a.ty.words 1 rfl,
      hgives (.not a) (fun p _ _ => notW W p) 1 1 rfl, hgives (.shl a) (fun p m _ => if W ≤ m then 0 else p * 2 ^ m) 1 1 rfl,
      hgives (.shr a) (fun p m _ => if W ≤ m then 0 else p / 2 ^ m) 1 1 rfl,
      hgives (.shra a) (fun p m _ => wrapTo W (if W ≤ m then (if intVal W true p < 0 then -1 else 0)
        else intVal W true p / ((2 ^ m : Nat) : Int))) 1 1 rfl,
      hgives (.rotl a) (fun p m _ => rotl W p m) 1 1 rfl,
      hgives (.funnel a) (fun p q m => (p * 2 ^ W + q) / 2 ^ (m % W)) a.ty.words 1 rfl,
      hcounts (.popc a) (fun u p => popCount p u) rfl, hcounts (.clz a) leadZeros rfl, hcounts (.ctz a) trailZeros rfl,
      hgives (.brev a) (fun p _ _ => bitRev W p W) 1 1 rfl, hgives (.bfx a) (fun p m _ => bfx W a.ty.signed p m) 1 1 rfl,
      hgives (.bfi a) (fun p q m => bfi W p q m) a.ty.words 1 rfl⟩

/-! ### Compares, selections and moves (R161 to R163) -/

/-- MOVP's predicate is 0 exactly for an operand of 0 (R161). -/
theorem b2n_ne_zero (n : Nat) : b2n (n != 0) = if n = 0 then 0 else 1 := by
  by_cases hn : n = 0 <;> simp [b2n, hn]

/-- MOVP writes whether its operand is not 0 (R161). -/
theorem execMovp_inTurn {s : State} {c k : Nat} {w : Warp} (h : State.InTurn s c k w) (a : FmtA) :
    execMovp a s = .next (s.wrote c k w a.g a.dst 1 (fun l => if (s.view c w).rd l a.ty.words a.sa = 0 then 0 else 1)) := by
  simp only [execMovp, laneStep_inTurn h, b2n_ne_zero]

/-- Settles O15: every active lane writes its own value, by the rule of the form that acts per lane. -/
theorem comparesSelectionsAndMoves : Obligations.ComparesSelectionsAndMoves := by
  intro s c k w h x
  have hicmp : ∀ a, exec (.icmp a) s = execIcmp a s := fun _ => rfl
  have hplop : ∀ a, exec (.plop a) s = execPlop a s := fun _ => rfl
  have hcnvi : ∀ a, exec (.cnvi a) s = execCnvi a s := fun _ => rfl
  refine ⟨fun a => (hicmp a).trans (laneStep_inTurn h ..), fun a => (hplop a).trans (laneStep_inTurn h ..), fun a => ?moves,
    fun a => (hcnvi a).trans (laneStep_inTurn h ..)⟩
  case moves =>
    have hsel : exec (.sel a) s = execSel a s := rfl
    have hmov : exec (.mov a) s = execMov a s := rfl
    have hmovp : exec (.movp a) s = execMovp a s := rfl
    have hmovk : exec (.movk a) s = execMovk a s := rfl
    have hbytsel : exec (.bytsel a) s = execBytsel a s := rfl
    exact ⟨hsel.trans (laneStep_inTurn h ..), hmov.trans (laneStep_inTurn h ..), hmovp.trans (execMovp_inTurn h a),
      hmovk.trans (laneStep_inTurn h ..), hbytsel.trans (laneStep_inTurn h ..)⟩

/-! ### Frame pointers (R164) -/

/-- Settles O16: every active lane writes its own value, and GLOAD takes no other type. -/
theorem framePointers : Obligations.FramePointers := by
  intro s c k w h a x
  have hfptr : exec (.fptr a) s = execFptr a s := rfl
  have hfpsplit : exec (.fpsplit a) s = execFpsplit a s := rfl
  refine ⟨hfptr.trans (laneStep_inTurn h ..), hfpsplit.trans (laneStep_inTurn h ..), fun b hwf => ?_⟩
  have hty : (a.ty == .n32) = true := hwf.elim (typeOk_of_formA rfl) (typeOk_of_formA rfl)
  exact eq_of_beq hty

end Sys2Proof.Machine
end

section
/-! PROOFS. Lane exchanges (R165 to R168): O17. -/
namespace Sys2Proof

/-- The lane that LANEX names, poured or not (R166). -/
def LaneMode.source (m : LaneMode) (wpop lane b : Nat) : Nat :=
  match m with
  | .from => b
  | .rot => (lane + b) % wpop
  | .mirr => wpop - 1 - lane
  | .xor => lane ^^^ b

end Sys2Proof

namespace Sys2Proof.Machine

/-- The lane that LANEX names is a source where it is poured (R166). -/
theorem laneSource_eq (m : LaneMode) (wpop lane b : Nat) :
    laneSource m wpop lane b = if m.source wpop lane b < wpop then some (m.source wpop lane b) else none := rfl

/-- LANEX gives each active lane what the named lane held before, and 0 where no such lane is poured (R165, R166). -/
theorem execLanex_inTurn {s : State} {c k : Nat} {w : Warp} (h : State.InTurn s c k w) (a : FmtLanex) :
    let x := s.view c w
    let src := fun l => a.mode.source w.wpop l (x.rd l 1 a.sb)
    execLanex a s = .next (s.wrote c k w a.g a.dst a.ty.words (fun l =>
      if src l < w.wpop then x.rd (src l) a.ty.words a.sa else 0)) := by
  intro x src
  have hview : (s.view c w).w = w := rfl
  rw [execLanex, laneStep_inTurn h]
  congr 2
  funext l
  rw [laneSource_eq, hview]
  by_cases hpoured : src l < w.wpop
  · rw [if_pos hpoured, if_pos hpoured]
  · rw [if_neg hpoured, if_neg hpoured]

/-- Settles O17: LANEX through its source lane, POLL and PEERS through the active lanes that they gather. -/
theorem laneExchanges : Obligations.LaneExchanges := by
  intro s c k w h x
  refine ⟨fun a => ?lanex, fun a => ?poll, fun a => ?peers⟩
  case lanex =>
    have hlanex : exec (.lanex a) s = execLanex a s := rfl
    exact hlanex.trans (execLanex_inTurn h a)
  case poll =>
    have hpoll : exec (.poll a) s = execPoll a s := rfl
    exact hpoll.trans (laneStep_inTurn h ..)
  case peers =>
    have hpeers : exec (.peers a) s = execPeers a s := rfl
    exact hpeers.trans (laneStep_inTurn h ..)

end Sys2Proof.Machine
end

section
/-! PROOFS. f32 arithmetic, compares, classes and conversions, rows 0x5_ and 0x6_ (R172, R177 to R180, R185 to R189): O18, O19, O20,
O23. -/
namespace Sys2Proof

theorem Ty.eq_f32_of_isF32 {t : Ty} (h : t.isF32 = true) : t = .f32 := by
  cases t
  case f32 => rfl
  all_goals cases h

end Sys2Proof

namespace Sys2Proof.Machine

/-! ### Arithmetic (R172, R177, R178) -/

/-- A form of row 0x5_ rounds its result once in every active lane, with the draw numbered 0 (R172). -/
theorem f32Step_inTurn {s : State} {c k : Nat} {w : Warp} (h : State.InTurn s c k w) (a : FmtA)
    (f : Bool → Val → Val → Val → Val × Bool) :
    f32Step s a f =
      let x := s.view c w
      let r := fun l => f (x.mode l a.rnd).isRdn ((decodeF .f32 (x.rd l 1 a.sa)).modify a.mods.a)
        ((decodeF .f32 (x.rd l 1 a.sb)).modify a.mods.b) ((decodeF .f32 (x.rd l 1 a.sc)).modify a.mods.c)
      .next (s.wroteFloat c k w a.g a.dst .f32 (fun l => [roundF .f32 (x.mode l a.rnd) a.mods.sat (x.draw l 0) (r l).2 (r l).1])) :=
  floatStep_inTurn h ..

/-- FMIN and FMAX of the warp in turn encode the chosen operand (R178). -/
theorem minMaxStep_inTurn {s : State} {c k : Nat} {w : Warp} (h : State.InTurn s c k w) (a : FmtA) (isMin : Bool) :
    minMaxStep s a isMin =
      let x := s.view c w
      .next (s.wroteFloat c k w a.g a.dst .f32 (fun l => [roundF .f32 .rne false 0 false (minMax isMin
        ((decodeF .f32 (x.rd l 1 a.sa)).modify a.mods.a) ((decodeF .f32 (x.rd l 1 a.sb)).modify a.mods.b))])) :=
  floatStep_inTurn h ..

/-- Settles O18: each instruction is the shared form with its own exact result, FSCALE with its count taken as it stands. -/
theorem floatArithmetic : Obligations.FloatArithmetic := by
  intro s c k w h a x A B C rdn gives picks
  have hgives : ∀ (i : Instr) (f : Bool → Val → Val → Val → Val), exec i s = f32Step s a (fun d p q r => (f d p q r, false)) →
      gives i (fun l => f (rdn l) (A l) (B l) (C l)) := fun i f hexec => hexec.trans (f32Step_inTurn h a _)
  have hpicks : ∀ (i : Instr) (isMin : Bool), exec i s = minMaxStep s a isMin → picks i (fun l => minMax isMin (A l) (B l)) :=
    fun i isMin hexec => hexec.trans (minMaxStep_inTurn h a isMin)
  have hfscale : exec (.fscale a) s = execFscale a s := rfl
  exact ⟨hgives (.fadd a) (fun d p q _ => Val.sum d [p, q]) rfl, hgives (.fsub a) (fun d p q _ => Val.sum d [p, q.neg]) rfl,
    hgives (.fmul a) (fun _ p q _ => p.mul q) rfl, hgives (.ffma a) (fun d p q r => Val.sum d [p.mul q, r]) rfl,
    hfscale.trans (floatStep_inTurn h ..), hpicks (.fmin a) true rfl, hpicks (.fmax a) false rfl⟩

/-! ### Compares and classes (R179, R180) -/

/-- Settles O19: every active lane compares its own two values, and the conditions are R179's. -/
theorem floatCompare : Obligations.FloatCompare := by
  intro s c k w h a x A B nan
  have hfcmp : exec (.fcmp a) s = execFcmp a s := rfl
  exact hfcmp.trans (laneStep_inTurn h ..)

/-- The mask of R180, with each bit by its number. -/
theorem classMask_eq (v : Val) : classMask v =
    match v with
    | .inf true => 2 ^ 0
    | .fin true m e => if (Nat.log2 m : Int) + e < -126 then 2 ^ 2 else 2 ^ 1
    | .zero true => 2 ^ 3
    | .zero false => 2 ^ 4
    | .fin false m e => if (Nat.log2 m : Int) + e < -126 then 2 ^ 5 else 2 ^ 6
    | .inf false => 2 ^ 7
    | .nan => 2 ^ 8 := by
  cases v with
  | nan => rfl
  | inf neg | zero neg | fin neg m e => cases neg <;> rfl

/-- Settles O20: every active lane writes its value's mask; GLOAD's checks are those of a form of one source, which has a
modifier and takes any. -/
theorem floatClass : Obligations.FloatClass := by
  intro s c k w h a
  have hfclass : exec (.fclass a) s = execFclass a s := rfl
  refine ⟨?mask, fun b => ⟨fun hwf => ?static, fun m => ?anyMod⟩⟩
  case mask =>
    refine (hfclass.trans (laneStep_inTurn h ..)).trans ?_
    exact congrArg (fun f => Host.Outcome.next (s.wrote c k w a.g a.dst 1 f)) (funext fun l => classMask_eq _)
  case static =>
    obtain ⟨hsb, hsc, -⟩ := no_b_no_c_of_formA rfl hwf
    exact ⟨Ty.eq_f32_of_isF32 (typeOk_of_formA rfl hwf), rne_of_formA rfl hwf, hsb, hsc⟩
  case anyMod => rfl

/-! ### Conversions (R185 to R189) -/

/-- MXPACK of the warp in turn: its scale is that of the active lanes' values, and a block with a NaN has elements 0 (R188). -/
theorem execMxpack_inTurn {s : State} {c k : Nat} {w : Warp} (h : State.InTurn s c k w) (a : FmtCvt) :
    execMxpack a s =
      let x := s.view c w
      let A := fun l => (decodeF a.sty (x.rd l 1 a.sa)).modify a.mods.a
      let act := w.active a.g
      let low := act.headD 0
      let sc := mxScale a.dty (act.map A)
      let elem := fun l => if sc = 0xFF then 0 else
        roundF a.dty (x.mode low a.rnd) a.mods.sat (x.draw low l) false ((A l).scale (127 - (sc : Int)))
      .next (s.issued c k ((w.write act a.dst 1 (fun l => sc * 256 + elem l)).offer a.dst
        (act.map (fun l => decodeMx a.dty sc (elem l))))) := by
  rw [execMxpack, warpStep_inTurn h]
  simp only [beq_iff_eq]
  rfl

/-- Settles O23: each conversion acts lane by lane, MXPACK on the active lanes together. -/
theorem conversions : Obligations.Conversions := by
  intro s c k w h a x A act low sc elem
  have hfcvt : exec (.fcvt a) s = execFcvt a s := rfl
  have hf2i : exec (.f2i a) s = execF2i a s := rfl
  have hi2f : exec (.i2f a) s = execI2f a s := rfl
  have hmxpack : exec (.mxpack a) s = execMxpack a s := rfl
  have hmxunpk : exec (.mxunpk a) s = execMxunpk a s := rfl
  exact ⟨hfcvt.trans (floatStep_inTurn h ..), hf2i.trans (laneStep_inTurn h ..), hi2f.trans (floatStep_inTurn h ..),
    hmxpack.trans (execMxpack_inTurn h a), hmxunpk.trans (floatStep_inTurn h ..)⟩

end Sys2Proof.Machine
end

section
/-! PROOFS. Roots by Newton steps, and powers of two that round to themselves (R100, R104, R184). -/
namespace Sys2Proof

/-! ### Roots -/

/-- A Newton step stays at or above the root. -/
theorem sqrt_le_newton (n : Nat) {x : Nat} (hx : 0 < x) : Nat.sqrt n ≤ (x + n / x) / 2 := by
  have hmean : (2 * Nat.sqrt n - x) * x ≤ n := by
    refine le_trans ?_ (Nat.sqrt_le n)
    obtain hle | hlt := Nat.le_total (2 * Nat.sqrt n) x
    · simp [Nat.sub_eq_zero_of_le hle]
    · zify [hlt]
      nlinarith [sq_nonneg ((Nat.sqrt n : Int) - x)]
  have hquot : 2 * Nat.sqrt n - x ≤ n / x := (Nat.le_div_iff_mul_le hx).mpr hmean
  omega

/-- Each Newton step at least halves the distance to the root, so that f steps reach it from less than 2^f above. -/
theorem isqrtAux_eq_sqrt {n : Nat} (hn : 0 < n) (f : Nat) {x : Nat} (hle : Nat.sqrt n ≤ x) (hlt : x < Nat.sqrt n + 2 ^ f) :
    isqrtAux f n x = Nat.sqrt n := by
  induction f generalizing x with
  | zero => simpa [isqrtAux] using Nat.le_antisymm (Nat.lt_succ_iff.mp hlt) hle
  | succ f ih =>
    have hx : 0 < x := (Nat.sqrt_pos.mpr hn).trans_le hle
    have habove : Nat.sqrt n ≤ (x + n / x) / 2 := sqrt_le_newton n hx
    rw [isqrtAux]
    obtain rfl | hgt := hle.eq_or_lt
    · exact if_neg (Nat.not_lt.mpr habove)
    · have hquot : n / x ≤ Nat.sqrt n :=
        Nat.lt_succ_iff.mp ((Nat.div_lt_iff_lt_mul hx).mpr ((Nat.lt_succ_sqrt n).trans_le (Nat.mul_le_mul_left _ hgt)))
      rw [if_pos (by omega)]
      exact ih habove (by rw [Nat.pow_succ] at hlt; omega)

/-- From the first guess, a power of two above the root, as many steps are enough as that guess has bits. -/
theorem isqrtAux_guess {n f : Nat} (hn : 0 < n) (hf : Nat.log2 n / 2 + 1 ≤ f) : isqrtAux f n (2 ^ (Nat.log2 n / 2 + 1)) = Nat.sqrt n := by
  have hguess : Nat.sqrt n < 2 ^ (Nat.log2 n / 2 + 1) := by
    rw [Nat.sqrt_lt, ← Nat.pow_add]
    exact Nat.lt_log2_self.trans_le (Nat.pow_le_pow_right (by decide) (by omega))
  have hfuel : 2 ^ (Nat.log2 n / 2 + 1) ≤ 2 ^ f := Nat.pow_le_pow_right (by decide) hf
  exact isqrtAux_eq_sqrt hn f hguess.le (hfuel.trans_lt (Nat.lt_add_of_pos_left (Nat.sqrt_pos.mpr hn)))

/-- The model's 600 steps are enough for numbers of up to 1198 bits. -/
theorem isqrt_eq_sqrt {n : Nat} (hlog : Nat.log2 n < 1198) : isqrt n = Nat.sqrt n := by
  obtain rfl | hpos := Nat.eq_zero_or_pos n
  · rfl
  · rw [isqrt, if_neg hpos.ne', isqrtAux_guess hpos (by omega)]

/-- The model's root of an even power of two is exact. -/
theorem isqrt_two_pow {k : Nat} (hk : 2 * k < 1198) : isqrt (2 ^ (2 * k)) = 2 ^ k := by
  rw [isqrt_eq_sqrt (Nat.log2_two_pow.trans_lt hk), Nat.mul_comm, Nat.pow_mul, Nat.sqrt_eq']

/-! ### Powers of two -/

/-- Where nothing is discarded, no mode rounds up (R104). -/
theorem roundUp_exact (md : Rnd) (neg : Bool) (lo sh dr : Nat) : roundUp md neg lo 0 sh false dr = false := rfl

/-- A power of two is a power of two of quanta, where the quantum is no higher (R104). -/
theorem roundMag_two_pow (md : Rnd) (neg : Bool) (dr : Nat) {k p : Nat} {e q : Int} (h : (k : Int) + e = q + p) :
    roundMag md neg (2 ^ k) e q false dr = 2 ^ p := by
  unfold roundMag
  by_cases hq : q ≤ e
  · have hp : p = k + (e - q).toNat := by omega
    simp [hq, hp, Nat.pow_add]
  · have hk : k = p + (q - e).toNat := by omega
    have hnear : ¬ log2 (2 ^ k) + 64 < (q - e).toNat := by rw [log2, Nat.log2_two_pow]; omega
    simp only [if_neg hq, if_neg hnear]
    rw [hk, Nat.pow_add, Nat.mul_mod_left, roundUp_exact, Nat.mul_div_cancel _ (Nat.two_pow_pos _)]
    rfl

/-- A power of two among the normal values of f32 is exact in every mode (R100, R104). -/
theorem roundF_f32_two_pow (md : Rnd) (sat : Bool) (dr : Nat) {k j : Nat} {e : Int} (h : (k : Int) + e = (j : Int) - 127) (hlo : 1 ≤ j)
    (hhi : j ≤ 254) : roundF .f32 md sat dr false (.fin false (2 ^ k) e) = j * 2 ^ 23 := by
  have htop : magLog (2 ^ k) e = (j : Int) - 127 := by rw [magLog, log2, Nat.log2_two_pow, h]
  have hquantum : max ((j : Int) - 127) (1 - (127 : Nat)) - (23 : Nat) = (j : Int) - 150 := by omega
  have hmag : roundMag md false (2 ^ k) e ((j : Int) - 150) false dr = 2 ^ 23 := roundMag_two_pow md false dr (by omega)
  have hstep : ((j : Int) - 150 - (1 - (127 : Nat) - (23 : Nat))).toNat = j - 1 := by omega
  have hnormal : ¬ (127 : Nat) + 2 < (j : Int) - 127 := by omega
  have henc : 2 ^ 23 + (j - 1) * 2 ^ 23 = j * 2 ^ 23 := by omega
  have hfinite : ¬ 0x7F7FFFFF < j * 2 ^ 23 := by omega
  simp only [roundF, Ty.fmt, htop, hquantum, hmag, hstep, henc, if_neg hnormal, if_neg hfinite, FFmt.sign, b2n,
    Bool.false_eq_true, if_false, Nat.zero_mul, Nat.zero_add]

/-! ### The special functions at 1 (R184) -/

/-- The value of f32's encoding of 1 (R103). -/
theorem decodeF_f32_one : decodeF .f32 0x3F800000 = .fin false (2 ^ 23) (-23) := by decide

theorem two_pow_fixP_div {k : Nat} (hk : k ≤ 640) : 2 ^ fixP / 2 ^ k = 2 ^ (640 - k) := Nat.pow_div hk (by decide)

/-- The reciprocal of a power of two is exact. -/
theorem fnRcp_two_pow (z : Bool) {k : Nat} (hk : k ≤ 640) (e : Int) :
    fnRcp (.fin z (2 ^ k) e) = (.fin z (2 ^ (640 - k)) (-640 - e), false) := by
  have hexact : 2 ^ fixP % 2 ^ k = 0 := Nat.mod_eq_zero_of_dvd (Nat.pow_dvd_pow 2 hk)
  simp only [fnRcp, two_pow_fixP_div hk, hexact]
  rfl

/-- At an odd exponent, the root of a power of two that is a power of two in fixed point is exact. -/
theorem fnSqrt_two_pow {k p : Nat} {e : Int} (he : e % 2 ≠ 0) (hp : k + 641 = 2 * p) (hsmall : p < 599) :
    fnSqrt (.fin false (2 ^ k) e) = (.fin false (2 ^ p) ((e - 1 - 640) / 2), false) := by
  have hsquare : 2 * 2 ^ k * 2 ^ fixP = 2 ^ (2 * p) := by rw [← hp, ← Nat.pow_succ', ← Nat.pow_add]; rfl
  have hroot : isqrt (2 ^ (2 * p)) = 2 ^ p := isqrt_two_pow (by omega)
  have hexact : 2 ^ p * 2 ^ p = 2 ^ (2 * p) := by rw [← Nat.pow_add, Nat.two_mul]
  simp only [fnSqrt, Bool.false_eq_true, if_false, he, hsquare, hroot, hexact, ne_eq, not_true_eq_false, decide_false]
  rfl

/-- At an odd exponent, the reciprocal root of a power of two that is a power of two in fixed point is exact. -/
theorem fnRsq_two_pow {k p : Nat} {e : Int} (he : e % 2 ≠ 0) (hp : k + 1 + 2 * p = 640) :
    fnRsq (.fin false (2 ^ k) e) = (.fin false (2 ^ p) (-320 - (e - 1) / 2), false) := by
  have hquot : 2 ^ fixP / (2 * 2 ^ k) = 2 ^ (2 * p) := by
    rw [← Nat.pow_succ', two_pow_fixP_div (by omega), show 640 - (k + 1) = 2 * p by omega]
  have hroot : isqrt (2 ^ (2 * p)) = 2 ^ p := isqrt_two_pow (by omega)
  have hexact : 2 ^ p * 2 ^ p * (2 * 2 ^ k) = 2 ^ fixP := by
    rw [← Nat.pow_succ', ← Nat.pow_add, ← Nat.pow_add, show p + p + (k + 1) = fixP by rw [fixP]; omega]
  simp only [fnRsq, Bool.false_eq_true, if_false, he, hquot, hroot, hexact, ne_eq, not_true_eq_false, decide_false]
  rfl

/-- A value of 1 in fixed point. -/
theorem toFix_of_one {k : Nat} {e : Int} (h : (k : Int) + e = 0) (hk : k ≤ fixP) : toFix (2 ^ k) e = ((2 ^ fixP : Nat) : Int) := by
  have hpos : 0 ≤ e + (fixP : Int) := by omega
  have hexp : k + (e + (fixP : Int)).toNat = fixP := by omega
  rw [toFix, if_pos hpos, ← Nat.pow_add, hexp]

theorem magLog_of_one {k : Nat} {e : Int} (h : (k : Int) + e = 0) : magLog (2 ^ k) e = 0 := by
  rw [magLog, log2, Nat.log2_two_pow, h]

theorem fnExp2_of_one {k : Nat} {e : Int} (h : (k : Int) + e = 0) (hk : k ≤ fixP) :
    fnExp2 (.fin false (2 ^ k) e) = (.fin false 1 1, false) := by
  have hone : ((2 ^ fixP : Nat) : Int) ≠ 0 := Int.natCast_ne_zero.mpr (Nat.two_pow_pos _).ne'
  have hnear : ¬ (9 : Int) ≤ 0 := by decide
  simp only [fnExp2, magLog_of_one h, toFix_of_one h hk, if_neg hnear, Bool.false_eq_true, if_false, one_mul, Int.ediv_self hone,
    Int.emod_self, if_true]

theorem fnLog2_of_one {k : Nat} {e : Int} (h : (k : Int) + e = 0) (hk : k ≤ fixP) :
    fnLog2 (.fin false (2 ^ k) e) = (.zero false, false) := by
  have hint : Val.int 0 = .zero false := rfl
  simp only [fnLog2, magLog_of_one h, Int.sub_zero, toFix_of_one h hk, Bool.false_eq_true, if_false, if_true, hint]

/-- What an exact function of 1 rounds to. -/
theorem roundF_at_one {f : Val → Val × Bool} {v : Val} (hf : f (.fin false (2 ^ 23) (-23)) = (v, false))
    (md : Rnd) (sat : Bool) (dr : Nat) :
    roundF .f32 md sat dr (f (decodeF .f32 0x3F800000)).2 (f (decodeF .f32 0x3F800000)).1 = roundF .f32 md sat dr false v := by
  rw [decodeF_f32_one, hf]

/-- The functions of 1 that R184's table gives are exact in every mode. -/
theorem special_functions_at_one (md : Rnd) (sat : Bool) (dr : Nat) :
    let one := fun (f : Val → Val × Bool) =>
      roundF .f32 md sat dr (f (decodeF .f32 0x3F800000)).2 (f (decodeF .f32 0x3F800000)).1
    one fnRcp = 0x3F800000 ∧ one fnRsq = 0x3F800000 ∧ one fnSqrt = 0x3F800000 ∧ one fnExp2 = 0x40000000 ∧ one fnLog2 = 0 := by
  have hpow : ∀ {f : Val → Val × Bool} {k j : Nat} {e : Int}, f (.fin false (2 ^ 23) (-23)) = (.fin false (2 ^ k) e, false) →
      (k : Int) + e = (j : Int) - 127 → 1 ≤ j → j ≤ 254 →
      roundF .f32 md sat dr (f (decodeF .f32 0x3F800000)).2 (f (decodeF .f32 0x3F800000)).1 = j * 2 ^ 23 :=
    fun hf h hlo hhi => (roundF_at_one hf md sat dr).trans (roundF_f32_two_pow md sat dr h hlo hhi)
  refine ⟨?rcp, ?rsq, ?sqrt, ?exp2, ?log2⟩
  case rcp => exact hpow (j := 127) (fnRcp_two_pow false (by decide) (-23)) (by decide) (by decide) (by decide)
  case rsq => exact hpow (j := 127) (fnRsq_two_pow (p := 308) (by decide) rfl) (by decide) (by decide) (by decide)
  case sqrt => exact hpow (j := 127) (fnSqrt_two_pow (p := 332) (by decide) rfl (by decide)) (by decide) (by decide) (by decide)
  case exp2 => exact hpow (j := 128) (k := 0) (fnExp2_of_one (by decide) (by decide)) (by decide) (by decide) (by decide)
  case log2 => exact roundF_at_one (fnLog2_of_one (by decide) (by decide)) md sat dr

/-! ### Reciprocals and roots of finite values (R184) -/

/-- The reciprocal of a finite value is cut to a quotient of 2^640, and says whether that was needed (R184). -/
theorem fnRcp_quotient (z : Bool) {m : Nat} (e : Int) (hm : 0 < m) :
    ∃ n, (fnRcp (.fin z m e)).1 = .fin z n (-640 - e) ∧ n * m ≤ 2 ^ 640 ∧ 2 ^ 640 < (n + 1) * m
      ∧ ((fnRcp (.fin z m e)).2 = true ↔ n * m ≠ 2 ^ 640) := by
  have hval : fnRcp (.fin z m e) = (.fin z (2 ^ 640 / m) (-640 - e), decide (2 ^ 640 % m ≠ 0)) := by rw [fnRcp, fixP, Nat.cast_ofNat]
  have hcut : 2 ^ 640 % m ≠ 0 ↔ 2 ^ 640 / m * m ≠ 2 ^ 640 :=
    not_congr (Nat.dvd_iff_mod_eq_zero.symm.trans (Nat.dvd_iff_div_mul_eq _ _))
  rw [hval, decide_eq_true_iff]
  exact ⟨_, rfl, Nat.div_mul_le_self _ _, (Nat.div_lt_iff_lt_mul hm).mp (Nat.lt_succ_self _), hcut⟩

/-- A finite value's root is that of its magnitude times a power of two that makes the exponent even (R184). -/
theorem fnSqrt_fin {m h : Nat} {e f : Int} (hh : h ≤ 1) (he : e = 2 * f + 640 + h) :
    (fnSqrt (.fin false m e)).1 = .fin false (isqrt (m * 2 ^ (fixP + h))) f := by
  obtain rfl | rfl := Nat.le_one_iff_eq_zero_or_eq_one.mp hh
  · have heven : e % 2 = 0 := by omega
    have hf : (e - (fixP : Int)) / 2 = f := by rw [fixP]; omega
    simp only [fnSqrt, Bool.false_eq_true, if_false, heven, if_true, hf, Nat.add_zero]
  · have hodd : ¬ e % 2 = 0 := by omega
    have hf : (e - 1 - (fixP : Int)) / 2 = f := by rw [fixP]; omega
    have hscale : 2 * m * 2 ^ fixP = m * 2 ^ (fixP + 1) := by rw [Nat.mul_comm 2 m, Nat.mul_assoc, ← Nat.pow_succ']
    simp only [fnSqrt, Bool.false_eq_true, if_false, hodd, hscale, hf]

theorem log2_mul_two_pow_lt {m a : Nat} (b : Nat) (hm : 0 < m) (hlt : m < 2 ^ a) : Nat.log2 (m * 2 ^ b) < a + b := by
  rw [Nat.log2_lt (Nat.mul_pos hm (Nat.two_pow_pos b)).ne', Nat.pow_add]
  exact Nat.mul_lt_mul_of_pos_right hlt (Nat.two_pow_pos b)

/-- The root of a finite value is its floor in units of 2^f, for the one f that leaves 640 or 641 bits below the magnitude (R184). -/
theorem fnSqrt_root {m : Nat} (e : Int) (hm : 0 < m) (hlt : m < 2 ^ 24) :
    ∃ n f, (fnSqrt (.fin false m e)).1 = .fin false n f
      ∧ (∀ h : Nat, e = 2 * f + 640 + h → h ≤ 1 ∧ n * n ≤ m * 2 ^ (640 + h) ∧ m * 2 ^ (640 + h) < (n + 1) * (n + 1))
      ∧ (e = 2 * f + 640 ∨ e = 2 * f + 641) := by
  obtain ⟨f, k, hk, he⟩ : ∃ (f : Int) (k : Nat), k ≤ 1 ∧ e = 2 * f + 640 + k :=
    ⟨(e - 640) / 2, (e % 2).toNat, by omega, by omega⟩
  refine ⟨_, f, fnSqrt_fin hk he, fun h hh => ?_, by omega⟩
  obtain rfl : h = k := by omega
  rw [isqrt_eq_sqrt ((log2_mul_two_pow_lt _ hm hlt).trans (by rw [fixP]; omega))]
  exact ⟨hk, Nat.sqrt_le _, Nat.lt_succ_sqrt _⟩

end Sys2Proof
end

section
/-! PROOFS. The elementary functions: special values, the exact values at 1, reciprocals and roots (R172, R184): O22. -/
namespace Sys2Proof.Machine

/-- Settles O22: each instruction is the shared form with its own function; the table's values are the functions' own, what it
gives at 1 is exact, and the quotient and the root are cut in their last place. -/
theorem elementaryFunctions : Obligations.ElementaryFunctions := by
  intro s c k w h a x gives
  have hgives : ∀ (i : Instr) (f : Val → Val × Bool), exec i s = f32Step s a (fun _ p _ _ => f p) → gives i f :=
    fun i f hexec => hexec.trans (f32Step_inTurn h a _)
  refine ⟨?forms, ?nan, ?rcp, ?rsq, ?sqrt, ?exp2, ?log2, fun z => ?trigAndTanh, special_functions_at_one,
    fun z m e => fnRcp_quotient z e, fun m e => fnSqrt_root e⟩
  case forms =>
    exact ⟨hgives (.frcp a) fnRcp rfl, hgives (.frsq a) fnRsq rfl, hgives (.fsqrt a) fnSqrt rfl, hgives (.fexp2 a) fnExp2 rfl,
      hgives (.flog2 a) fnLog2 rfl, hgives (.fsin a) fnSin rfl, hgives (.fcos a) fnCos rfl, hgives (.ftanh a) fnTanh rfl⟩
  case nan =>
    simp only [List.forall_mem_cons, List.not_mem_nil, false_imp_iff, implies_true, and_true]
    exact ⟨rfl, rfl, rfl, rfl, rfl, rfl, rfl, rfl⟩
  case rcp => exact ⟨rfl, rfl, fun _ => rfl⟩
  case rsq | sqrt | log2 => exact ⟨rfl, rfl, fun _ => rfl, fun _ _ => rfl⟩
  case exp2 => exact ⟨rfl, rfl, fun _ => rfl⟩
  case trigAndTanh => exact ⟨rfl, rfl, rfl, rfl, rfl, rfl⟩

end Sys2Proof.Machine
end

section
/-! PROOFS. Stash fills, recalls and the ownership of lines (R203 to R205, R320, R327, R367): O45. -/
namespace Sys2Proof.Machine

/-! ### Steps that change tables of dies only -/

/-- A translation uses or fills a home's TLB, and changes nothing outside the dies. -/
theorem translate_eq_dies {s t : State} {st asid va : Nat} {l : Option Leaf} (h : s.translate st asid va = some (t, l)) :
    ∃ dies, t = { s with dies := dies } := by
  unfold State.translate at h
  dsimp only at h
  split at h
  · cases h
  · split at h
    · cases h
      exact ⟨_, rfl⟩
    · split at h
      · cases h
      · split at h <;> cases h <;> exact ⟨_, rfl⟩

/-- An access that marks its home line changes nothing outside the dies. -/
theorem atSlice_eq_dies (s : State) (st asid va : Nat) (write onlyPresent : Bool) (hint : Hint) :
    ∃ dies, s.atSlice st asid va write onlyPresent hint = { s with dies := dies } := by
  rcases atSlice_cases s st asid va write onlyPresent hint with h | ⟨d, x, h⟩ <;> exact ⟨_, h⟩

/-! ### Recalls that nobody has to be asked for (R204, R205) -/

theorem askRecall_of_no_dieDir {s : State} {d : Nat} (h : (s.die d).dieDir = []) (asid line : Nat) : s.askRecall d asid line = none := by
  simp [State.askRecall, h, Map.find?]

theorem askOwner_of_no_owners {s : State} {st : Nat} (h : (s.die (8 + st)).owners = []) (asid line keep : Nat) :
    s.askOwner st asid line keep = none := by
  simp [State.askOwner, h]

/-! ### The end of a fill (R13, R203, R204) -/

/-- The end of a fill sends the decrement of each that waited, and changes nothing else. -/
theorem endFill_eq (s : State) (f : StashFillReq) : s.endFill f = { s with decrs := s.decrs ++ f.waiters.map (fun y => y.2.2) } := by
  unfold State.endFill
  induction f.waiters generalizing s with
  | nil => simp
  | cons y ys ih =>
    rw [List.foldl_cons, ih]
    simp [State.later]

section
variable (s : State) (c : Nat) (f : StashFillReq) (data : List Byte) (poison : List Nat)

theorem stashInstall_stash : Map.find? ((s.stashInstall c f data poison).core c).stash f.index =
    some (StashLine.fill (Map.find? (s.core c).stash f.index) f.asid f.line data poison) := by
  simp [State.stashInstall]

theorem stashInstall_dieDir : Map.find? ((s.stashInstall c f data poison).die (dieOf c)).dieDir (dirKey f.asid f.line) = some c := by
  rw [State.stashInstall, endFill_eq]
  exact (congrArg (fun x : Die => Map.find? x.dieDir _) (die_setDie_same ..)).trans (Map.find?_put_same ..)

theorem stashInstall_decrs : (s.stashInstall c f data poison).decrs = s.decrs ++ f.waiters.map (fun y => y.2.2) := by
  rw [State.stashInstall, endFill_eq]
  rfl

theorem stashInstall_stashFills : (s.stashInstall c f data poison).stashFills = s.stashFills := by
  rw [State.stashInstall, endFill_eq]
  rfl

theorem stashInstall_mem : (s.stashInstall c f data poison).mem = s.mem := by
  rw [State.stashInstall, endFill_eq]
  rfl

end

/-- What a fill of a line at an empty place leaves (R13, R203, R204). -/
theorem stashInstall_at_empty {s t : State} {c : Nat} {f : StashFillReq} {data : List Byte} {poison : List Nat}
    (hcores : t.cores = s.cores) (hempty : Map.find? (s.core c).stash f.index = none) :
    Map.find? ((t.stashInstall c f data poison).core c).stash f.index = some ⟨f.asid, f.line, data, poison, 65535, false, 0, 0⟩ := by
  have hcore : t.core c = s.core c := congrArg (fun m => Map.getD m c Core.reset) hcores
  rw [stashInstall_stash, hcore, hempty]
  rfl

/-! ### The grant of a request (R205, R320, R327) -/

/-- The first request of its line, of which no grant is on its way, waits for no other. -/
theorem no_own_before {s : State} {k : Nat} {o : OwnReq}
    (h : ∀ j p, s.owns[j]? = some p → j ≠ k → p.asid = o.asid → p.line = o.line → k < j ∧ p.granted = false) :
    (s.owns.zipIdx).any (fun p => p.2 != k && p.1.asid == o.asid && p.1.line == o.line && (p.2 < k || p.1.granted)) = false := by
  rw [List.any_eq_false]
  rintro ⟨p, j⟩ hp
  simp only [Bool.and_eq_true, bne_iff_ne, beq_iff_eq, Bool.or_eq_true, decide_eq_true_eq, not_and, not_or, and_imp]
  intro hne hasid hline
  obtain ⟨hlt, hgranted⟩ := h j p (List.mem_zipIdx_iff_getElem?.mp hp) hne hasid hline
  exact ⟨by omega, by simp [hgranted]⟩

/-- Of two entries of an owner directory the one granted earlier, the first of two of the same cycle. -/
def Owner.elder (a b : Owner) : Owner := if b.granted < a.granted then b else a

theorem Owner.elder_granted_le (a b : Owner) : (a.elder b).granted ≤ a.granted ∧ (a.elder b).granted ≤ b.granted := by
  unfold Owner.elder
  split <;> omega

theorem Owner.elder_eq_or (a b : Owner) : a.elder b = a ∨ a.elder b = b := by
  unfold Owner.elder
  split
  · exact .inr rfl
  · exact .inl rfl

/-- The entry that a full set gives up is one of its ways, and none was granted before it. -/
theorem foldl_elder_oldest (ys : List Owner) (y : Owner) :
    ys.foldl Owner.elder y ∈ y :: ys ∧ ∀ v ∈ y :: ys, (ys.foldl Owner.elder y).granted ≤ v.granted := by
  induction ys generalizing y with
  | nil => simp
  | cons b t ih =>
    obtain ⟨hmem, hmin⟩ := ih (y.elder b)
    obtain ⟨hleft, hright⟩ := y.elder_granted_le b
    have hhead := hmin _ List.mem_cons_self
    rw [List.foldl_cons]
    constructor
    · rcases List.mem_cons.mp hmem with h | h
      · rw [h]
        rcases y.elder_eq_or b with he | he <;> simp [he]
      · simp [h]
    · simp only [List.forall_mem_cons] at hmin ⊢
      exact ⟨hhead.trans hleft, hhead.trans hright, hmin.2⟩

/-! ### The steps -/

/-- A line of the core's own stack that no core of the die and no die holds, that no request goes to, and whose checks pass, is filled
from memory (R203, R207). -/
theorem stashFill_fills {s s2 : State} {c : Nat} {p : Nat × StashFillReq} {x : Leaf} (hfills : s.stashFills = [p]) (hcore : p.1 = c)
    (hfault : p.2.fault = none) (hhome : s.homeOf (dieOf c) p.2.asid (p.2.line * 128) = (s.chipId, dieOf c))
    (hup : s.pathUp (s.trip (dieOf c) (8 + dieOf c)) = true) (hdir : (s.die (dieOf c)).dieDir = []) (hreqs : s.reqs = [])
    (howners : (s.die (8 + dieOf c)).owners = []) (htrans : s.translate (dieOf c) p.2.asid (p.2.line * 128) = some (s2, some x))
    (hpass : s.faultOf (dieOf c) p.2.graph p.2.asid (match s.graph? p.2.graph with | some y => y.identity | none => 0) (p.2.line * 128) 128
      ⟨true, false, none, false⟩ (some x) = none) :
    let pa := s.physOf (dieOf c) p.2.asid (p.2.line * 128) x
    exec (.stashFill c 0) s = .next (State.stashInstall
      ((({ s2 with stashFills := [] } : State).countFlits (s.trip (dieOf c) (8 + dieOf c)) 128).atSlice (dieOf c) p.2.asid (p.2.line * 128)
        false false) c p.2 (memReads s.mem pa 128) (s.poisonIn pa 128)) := by
  have hrecall := askRecall_of_no_dieDir hdir p.2.asid p.2.line
  have hask := askOwner_of_no_owners howners p.2.asid p.2.line 99
  dsimp only [exec]
  simp only [execStashFill, hfills, hcore, List.filter_cons, List.filter_nil, beq_self_eq_true, if_true, List.getElem?_cons_zero, hfault,
    hrecall, hask, hhome, hup, htrans, hreqs, State.storeUnderWay, List.any_nil, Option.isSome_none, Bool.or_self, Bool.false_eq_true,
    ne_eq, not_true_eq_false, decide_false, Bool.false_and, Bool.not_true, if_false]
  split
  · next hx =>
    cases hx
    rfl
  · next hcode => cases hpass.symm.trans hcode
  · next hx => cases hx

/-- The version of a request's line in memory, where its home translates the line by a leaf. -/
def State.homeVersion (s : State) (o : OwnReq) (l : Option Leaf) : Nat :=
  Map.getD s.versions ((match l with | some x => s.physOf o.die o.asid (o.line * 128) x | none => 0) / 128) 0

section
variable {s : State} {k st : Nat} {o : OwnReq} (hreq : s.owns[k]? = some o) (hwaits : o.granted = false)
  (hfirst : ∀ j p, s.owns[j]? = some p → j ≠ k → p.asid = o.asid → p.line = o.line → k < j ∧ p.granted = false)
  (hinc : o.inc = (s.die o.die).incarnation) (hlive : (s.die o.die).state ≠ .draining) (hhome : (s.homeOf o.die o.asid (o.line * 128)).2 = st)
  (hup : s.pathUp (s.trip o.die (8 + st)) = true) (howner : s.askOwner st o.asid o.line o.die = none)
  (hrecall : s.askRecall st o.asid o.line = none)
include hreq hwaits hfirst hinc hlive hhome hup howner hrecall

/-- A request takes the entry of its line, with the version of the line that its home holds, and its grant leaves (R205, R320). -/
theorem ownershipRequest_takes (hroom : (s.die (8 + st)).fullSet o.asid o.line = []) {s0 : State} {l : Option Leaf}
    (htrans : s.translate st o.asid (o.line * 128) = some (s0, l)) :
    let v := s.homeVersion o l
    exec (.ownershipRequest k) s = .next (State.setDie
      { s0.countFlits (s.homeWay (8 + st) (routeDirs o.die (8 + st))) 16 with
        owns := setNth s0.owns k { o with granted := true, withData := !(o.had && v == o.version) } }
      (8 + st) { s0.die (8 + st) with owners := (s.die (8 + st)).owners.filter (fun y => !(y.asid == o.asid && y.line == o.line))
        ++ [⟨o.asid, o.line, o.die, o.inc, v, false, s.now⟩] }) := by
  dsimp only [exec]
  simp only [execOwnershipRequest, hreq, hwaits, hlive, no_own_before hfirst, hhome, hup, howner, hrecall, hroom, htrans, decide_false,
    Bool.or_self, Bool.false_eq_true, Bool.not_true, if_false, if_neg (not_not.mpr hinc)]
  rfl

/-- Where the set of its line is full, a request has the way recalled that was granted first (R320). -/
theorem ownershipRequest_recalls {y : Owner} {ys : List Owner} (hfull : (s.die (8 + st)).fullSet o.asid o.line = y :: ys) :
    exec (.ownershipRequest k) s = .next (s.setDie (8 + st) { s.die (8 + st) with
      owners := (s.die (8 + st)).owners.map (fun e => if e = ys.foldl Owner.elder y then { e with recalled := true } else e) }) := by
  dsimp only [exec]
  simp only [execOwnershipRequest, hreq, hwaits, hlive, no_own_before hfirst, hhome, hup, howner, hrecall, hfull, decide_false,
    Bool.or_self, Bool.false_eq_true, Bool.not_true, if_false, if_neg (not_not.mpr hinc)]
  rfl

end

/-- The recall of an entry crosses to its owner once no grant of the line is on its way there (R205, R327). -/
theorem ownerRecall_recalls {s : State} {d k : Nat} {o : Owner} (hentry : (s.die d).owners[k]? = some o) (hrecalled : o.recalled = true)
    (hgranted : ∀ p ∈ s.owns, p.granted = true → p.die = o.owner → p.asid = o.asid → p.line ≠ o.line)
    (hup : s.pathUp (s.homeWay d (roundTrip d o.owner)) = true) :
    let s1 := (s.countFlits (s.homeWay d (roundTrip d o.owner)) 16).recallFrom o.owner o.asid o.line
    exec (.ownerRecall d k) s = .next (s1.setDie d { s1.die d with
      owners := (s1.die d).owners.filter (fun p => !(p.asid == o.asid && p.line == o.line)) }) := by
  have hnone : s.owns.any (fun p => p.granted && p.die == o.owner && p.asid == o.asid && p.line == o.line) = false := by
    rw [List.any_eq_false]
    simpa only [Bool.and_eq_true, beq_iff_eq, not_and, and_imp] using hgranted
  dsimp only [exec]
  simp only [execOwnerRecall, hentry, hrecalled, hnone, hup, Bool.not_true, Bool.or_self, Bool.false_eq_true, if_false]

/-- Settles O45: each step's equation, its tests settled by the hypotheses; what a translation and the mark of a home line change lies
within the dies. -/
theorem lineOwnershipMoves : Obligations.LineOwnershipMoves := by
  intro s
  refine ⟨?fill, ?directory, ?ownerRecall, ?request, ?grant⟩
  case fill =>
    intro c p x s2 hfills hcore hfault hhome hup hdir hreqs howners hempty htrans hpass pa
    have hexec := stashFill_fills hfills hcore hfault hhome hup hdir hreqs howners htrans hpass
    obtain ⟨dies, rfl⟩ := translate_eq_dies htrans
    obtain ⟨dies2, hslice⟩ := atSlice_eq_dies (State.countFlits { s with dies := dies, stashFills := [] }
      (s.trip (dieOf c) (8 + dieOf c)) 128) (dieOf c) p.2.asid (p.2.line * 128) false false .normal
    rw [hslice] at hexec
    exact ⟨_, hexec, stashInstall_stashFills .., stashInstall_mem .., stashInstall_decrs .., stashInstall_at_empty rfl hempty,
      stashInstall_dieDir ..⟩
  case directory =>
    intro d k r hr
    dsimp only [exec]
    simp only [execDieDirectoryRecall, hr]
  case ownerRecall => exact fun d k o hentry hrecalled hgranted hup => ownerRecall_recalls hentry hrecalled hgranted hup
  case request =>
    intro k o hreq hwaits hfirst hinc hlive st x hup htrans howner hrecall
    refine ⟨fun hroom => ?_, fun y ys hfull => ?_⟩
    · obtain ⟨⟨s0, l⟩, hs0⟩ := Option.isSome_iff_exists.mp htrans
      have hexec := ownershipRequest_takes hreq hwaits hfirst hinc hlive rfl hup howner hrecall hroom hs0
      obtain ⟨dies, rfl⟩ := translate_eq_dies hs0
      refine ⟨_, ⟨o.asid, o.line, o.die, o.inc, s.homeVersion o l, false, s.now⟩, hexec, ?_, rfl, rfl, rfl, rfl, rfl, rfl, rfl, rfl⟩
      rw [die_setDie_same]
      simp
    · obtain ⟨hmem, hmin⟩ := foldl_elder_oldest ys y
      exact ⟨_, hmem, hmin, ownershipRequest_recalls hreq hwaits hfirst hinc hlive rfl hup howner hrecall hfull⟩
  case grant =>
    intro k o ho hgranted dirs d s1 hup
    dsimp only [exec]
    simp only [execUpgradeGrant, ho, hgranted, Bool.not_true, Bool.false_or]
    rw [if_neg (by rw [hup]; decide)]
    split <;> rfl

end Sys2Proof.Machine
end

section
/-! PROOFS. Stores and accesses without a reply, into the commit buffer (R31, R132, R210, R211, R219, R221 to R229): O30. -/
namespace Sys2Proof.Machine

/-- A FENCE or ROUNDA that names no scope has the package's (R227, R229). -/
theorem isAuto_ite (q : Scope) : (if Scope.isAuto q then Scope.package else q) = if q = .auto then .package else q := by
  cases q <;> rfl

/-- Settles O30: each form is its access in the commit buffer; an access of no bytes is aligned to 1, which is its address as it stands. -/
theorem storesAndAccessesWithoutReply : Obligations.StoresAndAccessesWithoutReply := by
  refine ⟨fun s c k w h m => ⟨?stg, ?stl, ?stp⟩, fun s c k w h => ⟨fun m => ⟨?putf, ?sete, ?swb, ?sinv, ?rounda, ?fence⟩, ?atom⟩⟩
  case stg => exact storeForm_inTurn h m false false (fun x l => x.ea l m false)
  case stl => exact storeForm_inTurn h m true false (fun x l => x.ea l m false)
  case stp => exact (withWarp_inTurn h _).trans (storeForm_inTurn h m false true (fun x l => x.privEa l m false (s.privBase w)))
  case putf => exact withWarp_inTurn h _
  case sete => exact bareForm_inTurn h m 8 (.full .sete 0)
  case swb => exact bareForm_inTurn h m 0 .swb
  case sinv => exact bareForm_inTurn h m 0 .sinv
  case rounda =>
    refine (withWarp_inTurn h _).trans ?_
    simp only [isAuto_ite, Nat.div_one, Nat.mul_one]
    rfl
  case fence =>
    refine (withWarp_inTurn h _).trans ?_
    rw [isAuto_ite]
  case atom => exact fun a => withWarp_inTurn h _

end Sys2Proof.Machine
end

section
/-! PROOFS. A load asks no home for a part whose line a store under way holds back, where an earlier part's request has taken that store's
number (R124, R216): O32 fails. -/
namespace Sys2Proof.Machine

/-- A warp of one lane whose registers 0 and 1 hold an address 4 bytes below the end of line 32. -/
def straddlingWarp : Warp := { bareWarp with v := [(0, 0x107C)] }

/-- An LDG of 8 bytes from there into registers 2 and 3: 4 bytes of line 32 and 4 of line 33. -/
def straddlingLoad : FmtM := ⟨⟨false, 7⟩, 0, .auto, 0, false, .b8, .v 2, .v 0, .normal, 0⟩

/-- A copy of line 33. -/
def copyOfLine33 : Line := ⟨0, 33, 0, 0, 0, 0, false, false, List.replicate 128 0, [], 0, 0, false⟩

/-- The package where die 0 holds a copy of line 33 and a store to that line is on its way, under a number that has not been given yet: the
next, 1, is the load's own, and 2 is that of its first request. -/
def renumberingState : State :=
  { State.reset with
    cur := some (0, 0)
    cores := [(0, { State.reset.core 0 with frames := [(0, bareFrame)], warps := [(0, straddlingWarp)] })]
    dies := [(0, { State.reset.die 0 with lines := [copyOfLine33] })]
    reqs := [(2, Req.bare 0 0 0 0 0x1080 4 (.store [1, 2, 3, 4] false) 0)] }

/-- The addresses of the requests under way in a next state. -/
def requestedBy : Host.Outcome State Fault Refusal → Option (List Nat)
  | .next t => some (t.reqs.map (fun p => p.2.va))
  | .fault _ | .refused _ => none

/-- The request for line 32 takes the store's place, and the copy then serves line 33. -/
theorem renumberingState_requests : requestedBy (exec (.ldg straddlingLoad) renumberingState) = some [0x107C] := by decide

theorem renumberingState_room : renumberingState.roomFor 0 64 := by
  intro i f p hf
  have hmem : (i, f) ∈ [(0, bareFrame)] := Map.mem_of_find? hf
  obtain ⟨rfl, rfl⟩ : i = 0 ∧ f = bareFrame := by simpa using hmem
  cases p <;> decide

/-- Refutes O32: before the load no copy serves line 33, since a store to it is under way, and yet no request for it is sent. Numbers only
rise, so that this needs a table of requests that lists a number still to be given, which the statement does not exclude. -/
theorem not_loadsIssue : ¬ Obligations.LoadsIssue := by
  intro h
  obtain ⟨⟨t, w', hnext, -, -, -, -, -, -, -, -, hasks⟩, -⟩ :=
    h.1 renumberingState 0 0 straddlingWarp ⟨rfl, rfl⟩ (by decide) renumberingState_room straddlingLoad 2 rfl
  obtain ⟨n, q, hq, -, -, -, hva, -⟩ := hasks rfl 0 (by decide) (4, 0x1080, 4) (by decide) (fun n _ => rfl) (by decide)
  have hreqs := renumberingState_requests
  rw [hnext] at hreqs
  have hlisted : q.va ∈ t.reqs.map (fun p => p.2.va) := List.mem_map_of_mem (f := fun p : Nat × Req => p.2.va) (Map.mem_of_find? hq)
  rw [Option.some.inj hreqs, hva] at hlisted
  exact absurd hlisted (by decide)

end Sys2Proof.Machine
end

section
/-! PROOFS. SMAP, PREF and ACQ at issue (R218, R220, R228): O34. -/
namespace Sys2Proof.Machine

/-! ### Which warps and frames a core holds -/

/-- The warps and the frames of a core. -/
def State.warpsAndFrames (s : State) (c : Nat) : Map Warp × Map Frame := ((s.core c).warps, (s.core c).frames)

theorem warp?_of_warpsAndFrames {s t : State} {c : Nat} (h : t.warpsAndFrames c = s.warpsAndFrames c) (k : Nat) :
    t.warp? c k = s.warp? c k :=
  congrArg (fun q : Map Warp × Map Frame => q.1.find? k) h

theorem frames_of_warpsAndFrames {s t : State} {c : Nat} (h : t.warpsAndFrames c = s.warpsAndFrames c) :
    (t.core c).frames = (s.core c).frames := congrArg Prod.snd h

theorem warpsAndFrames_setCore {s : State} {c : Nat} {q : Core} (hw : q.warps = (s.core c).warps) (hf : q.frames = (s.core c).frames)
    (d : Nat) : (s.setCore c q).warpsAndFrames d = s.warpsAndFrames d := by
  by_cases hd : d = c
  · subst hd
    simp [State.warpsAndFrames, hw, hf]
  · simp [State.warpsAndFrames, core_setCore_ne _ _ hd]

theorem Sent.warpsAndFrames {s t : State} (h : Sent s t) (d : Nat) : t.warpsAndFrames d = s.warpsAndFrames d := by
  obtain ⟨m, hm⟩ := h.2 d
  simp [State.warpsAndFrames, hm]

@[simp] theorem frames_issued (s : State) (c k : Nat) (w : Warp) : ((s.issued c k w).core c).frames = (s.core c).frames := by
  rw [issued_eq, core_setCore_same]
  rfl

/-! ### Acquires (R124, R228) -/

@[simp] theorem warpsAndFrames_dropStash (s : State) (c idx : Nat) (write : Bool) (cid : Option Nat) (d : Nat) :
    (s.dropStash c idx write cid).warpsAndFrames d = s.warpsAndFrames d := by
  have hdisown : ∀ (a : State) (x asid line : Nat), (a.disown x asid line).warpsAndFrames d = a.warpsAndFrames d := fun a x asid line => by
    rw [State.warpsAndFrames, core_disown]
    rfl
  unfold State.dropStash
  dsimp only
  split
  · rfl
  · rw [hdisown]
    refine (warpsAndFrames_setCore (by rfl) (by rfl) d).trans ?_
    split
    · exact (sent_writeBack ..).warpsAndFrames d
    · rfl

@[simp] theorem warpsAndFrames_acquireStash (s : State) (e asid : Nat) (all : Bool) (ids : List Nat) (d : Nat) :
    (s.acquireStash e asid all ids).warpsAndFrames d = s.warpsAndFrames d := by
  refine foldl_keeps (fun a : State => a.warpsAndFrames d) (fun a p => ?_) _ s
  exact foldl_keeps (fun a : State => a.warpsAndFrames d) (fun b _ => warpsAndFrames_dropStash b _ _ _ _ d) _ a

theorem sent_putReq (s : State) (r : Req) : Sent s (s.putReq r) := ⟨⟨_, _, _, rfl⟩, fun _ => ⟨_, rfl⟩⟩

theorem sent_askRounds (s : State) (e asid : Nat) (qs : List (Nat × Nat)) : Sent s (s.askRounds e asid qs) :=
  Sent.foldl _ (fun a _ => sent_putReq a _) qs s

/-- An acquire of a die leaves the warps and frames of every core. -/
@[simp] theorem warpsAndFrames_acquireOver (s : State) (e asid : Nat) (all : Bool) (ids : List Nat) (d : Nat) :
    (s.acquireOver e asid all ids).warpsAndFrames d = s.warpsAndFrames d :=
  ((sent_askRounds ..).warpsAndFrames d).trans (warpsAndFrames_acquireStash ..)

/-! ### SMAP, PREF and ACQ -/

section
variable {s : State} {c k : Nat} {w : Warp}

theorem smap_of_good (h : State.InTurn s c k w) {m : FmtM}
    (hgood : ∀ l ∈ w.active m.g, (s.core c).badWindow w.graph (m.ofs % 16) (s.asidOf w) ((s.view c w).rd l 4 m.data) = false) :
    exec (.smap m) s = .next (s.buffered c k w ((w.active m.g).map (fun l =>
      ⟨m.lsid, l, 0, 0, .smap (m.ofs % 16) ((s.view c w).rd l 4 m.data), none, false, .normal, false⟩))) := by
  have hnone : (w.active m.g).filter (fun l =>
      (s.core c).badWindow w.graph (m.ofs % 16) (s.asidOf w) ((s.view c w).rd l 4 m.data)) = [] :=
    List.filter_eq_nil_iff.mpr fun l hl => by simp [hgood l hl]
  dsimp only [exec]
  rw [execSmap, withWarp_inTurn h]
  dsimp only
  rw [hnone]
  rfl

/-- What PREF does for one lane: nothing where its line is in the stash or on its way there; else a stash fill, the use of a copy, or a
request for the line (R218). -/
def State.prefLane (s : State) (c asid : Nat) (w : Warp) (hint : Hint) (va : Nat) : State :=
  match (s.core c).windowOf w.graph asid va with
  | some (_, win) =>
    if (s.core c).stashHas (win.index va) asid va 128 || s.stashFills.any (fun p => p.1 == c && p.2.index == win.index va) then s
    else { s with stashFills := s.stashFills ++ [(c, ⟨win.index va, asid, lineOf va, w.graph, [], none, none, s.now⟩)] }
  | none =>
    match s.copyFor c asid va hint {} with
    | some y => if (s.die (dieOf c)).lines.contains y then s.useCopy (dieOf c) y else s.takeIn (dieOf c) y hint
    | none => s.addReq { s.mkReq c w va 1 .load with hint := hint, fillIn := true }

theorem core_takeIn (s : State) (d : Nat) (l : Line) (hint : Hint) (c : Nat) : (s.takeIn d l hint).core c = s.core c := by
  unfold State.takeIn State.installLine
  dsimp only
  repeat' split
  all_goals rfl

theorem warpsAndFrames_prefLane (s : State) (c asid : Nat) (w : Warp) (hint : Hint) (va d : Nat) :
    (s.prefLane c asid w hint va).warpsAndFrames d = s.warpsAndFrames d := by
  unfold State.prefLane
  split
  · split <;> rfl
  · split
    · split
      · rfl
      · rw [State.warpsAndFrames, core_takeIn]
        rfl
    · exact (sent_addReq ..).warpsAndFrames d

/-- The lines that the guard-true lanes of PREF ask for, one after another. -/
def State.prefetched (s : State) (c : Nat) (w : Warp) (m : FmtM) : State :=
  (w.active m.g).foldl (fun a l => a.prefLane c (s.asidOf w) w m.hint (alignTo 128 ((s.view c w).ea l m false))) s

theorem pref_inTurn (h : State.InTurn s c k w) (m : FmtM) : exec (.pref m) s = .next ((s.prefetched c w m).issued c k w) := by
  dsimp only [exec]
  rw [execPref, withWarp_inTurn h]
  rfl

theorem warpsAndFrames_prefetched (s : State) (c : Nat) (w : Warp) (m : FmtM) (d : Nat) :
    (s.prefetched c w m).warpsAndFrames d = s.warpsAndFrames d :=
  foldl_keeps (fun a : State => a.warpsAndFrames d) (fun a _ => warpsAndFrames_prefLane a ..) _ s

/-- The regions that the guard-true lanes of an instruction address. -/
def State.addressed (s : State) (c : Nat) (w : Warp) (m : FmtM) : List Nat :=
  uniSet [] ((w.active m.g).map (fun l => (s.region (dieOf c) (s.asidOf w) ((s.view c w).ea l m false)).1))

theorem acq_of_narrow (h : State.InTurn s c k w) {m : FmtM} (hscope : ¬ (m.scope = .auto ∨ m.scope = .package)) :
    exec (.acq m) s = .next (s.issued c k w) := by
  dsimp only [exec]
  rw [execAcq, withWarp_inTurn h]
  simp only [hscope, decide_false, Bool.false_and, Bool.false_eq_true, if_false]

theorem acq_of_wide (h : State.InTurn s c k w) {m : FmtM} (hscope : m.scope = .auto ∨ m.scope = .package) :
    ∃ s1 : State, exec (.acq m) s = .next (s1.issued c k { w with acqWait := uniSet w.acqWait (s.addressed c w m) })
      ∧ s1.warpsAndFrames c = s.warpsAndFrames c := by
  refine ⟨if (s.addressed c w m).isEmpty then s else s.acquireOver (dieOf c) (s.asidOf w) false (s.addressed c w m), ?_, ?_⟩
  · dsimp only [exec]
    rw [execAcq, withWarp_inTurn h]
    simp only [hscope, decide_true, Bool.true_and, if_true, ← State.addressed.eq_def]
    cases List.isEmpty (s.addressed c w m) <;> rfl
  · split
    · rfl
    · exact warpsAndFrames_acquireOver ..

end

/-- Settles O34: what prefetches and acquires change on the dies and in stashes leaves the warps and the frames of every core. -/
theorem windowsPrefetchesAndAcquires : Obligations.WindowsPrefetchesAndAcquires := by
  intro s c k w h m x ea wide regions
  refine ⟨smap_of_good h, ?pref, acq_of_narrow h, ?acq⟩
  case pref =>
    have hexec := pref_inTurn h m
    refine ⟨_, _, hexec, warp?_issued_same .., rfl, ?_, congrArg Prod.fst ((pref_keepsStored s m).of_next _ hexec)⟩
    rw [frames_issued, frames_of_warpsAndFrames (warpsAndFrames_prefetched ..)]
  case acq =>
    intro hwide
    obtain ⟨s1, hexec, hkept⟩ := acq_of_wide h hwide
    refine ⟨_, _, hexec, warp?_issued_same .., rfl, ?_, congrArg Prod.fst ((acq_keepsStored s m).of_next _ hexec)⟩
    rw [frames_issued, frames_of_warpsAndFrames hkept]

end Sys2Proof.Machine
end

section
/-! PROOFS. FALLOC, FFREE, JOIN and GATE, and TRAP, BRK, NOP and DONE at issue (R286, R288 to R292): O26, O28. -/
namespace Sys2Proof.Machine

section
variable {s : State} {c k : Nat} {w : Warp}

theorem falloc_of_good (h : State.InTurn s c k w) {a : FmtSpawn}
    (hgood : ∀ l ∈ w.active a.g, s.depthOf c w l ≠ 10 ∧ bits ((s.view c w).rd l 1 a.frm) 0 9 = 0) :
    exec (.falloc a) s = .next (s.issued c k { w with
      acts := w.acts ++ (w.active a.g).map (fun l => AtCommit.falloc l (fpCore ((s.view c w).rd l 1 a.frm)) a.nb a.block a.slot w.spawnPos)
      spawnPos := w.spawnPos + 1 }) := by
  have hbad : (w.active a.g).filterMap (fun l => if s.depthOf c w l = 10 then some (⟨l, 0x06, 0⟩ : LaneFault)
      else if badFp ((s.view c w).rd l 1 a.frm) then some ⟨l, 0x05, 0⟩ else none) = [] := by
    refine List.filterMap_eq_nil_iff.mpr fun l hl => ?_
    obtain ⟨hdepth, hlow⟩ := hgood l hl
    simp [hdepth, badFp, hlow]
  change execFalloc a s = _
  rw [execFalloc, withWarp_inTurn h]
  dsimp only
  rw [hbad]
  rfl

theorem ffree_of_good (h : State.InTurn s c k w) {a : FmtI} (hgood : ∀ l ∈ w.active a.g, bits ((s.view c w).rd l 1 a.sa) 0 9 = 0) :
    exec (.ffree a) s = .next (s.issued c k { w with
      emits := w.emits ++ (w.active a.g).map (fun l => Emitted.free l ((s.view c w).rd l 1 a.sa)) }) := by
  have hbad : (w.active a.g).filter (fun l => badFp ((s.view c w).rd l 1 a.sa)) = [] :=
    List.filter_eq_nil_iff.mpr fun l hl => by simp [badFp, hgood l hl]
  change execFfree a s = _
  rw [execFfree, withWarp_inTurn h]
  dsimp only
  rw [hbad]
  rfl

/-- BRK marks its warp where the graph's breakpoints are armed (R291). -/
theorem brk_inTurn (h : State.InTurn s c k w) (a : FmtS) {g : Graph} (hg : s.graph? w.graph = some g) :
    exec (.brk a) s = .next (s.issued c k (if g.brk then { w with brk := some (w.brk.getD (a.imm % 65536)) } else w)) := by
  change execBrk a s = _
  rw [execBrk, withWarp_inTurn h, hg]

end

/-- Settles O26: no lane faults where each frame pointer is aligned and no activation is nested ten deep. -/
theorem framesAndWatches : Obligations.FramesAndWatches := by
  intro s c k w h x
  exact ⟨fun a hgood => falloc_of_good h hgood, fun a hgood => ffree_of_good h hgood,
    fun a => ⟨withWarp_inTurn h _, withWarp_inTurn h _⟩⟩

/-- Settles O28: each of the four is its meaning for the warp in turn. -/
theorem trapsAndWarpControl : Obligations.TrapsAndWarpControl := by
  intro s c k w h a
  refine ⟨withWarp_inTurn h _, fun g hg hbrk => ?_, fun g hg hbrk => ?_, withWarp_inTurn h _, withWarp_inTurn h _⟩
  · rw [brk_inTurn h a hg, hbrk]
    rfl
  · rw [brk_inTurn h a hg, hbrk]
    rfl

/-- Settles O7: no byte is listed at reset. -/
theorem resetMeetsTheInvariant : Obligations.ResetMeetsTheInvariant := (rfl : Memory.wf [] = true)

end Sys2Proof.Machine
end

section
/-! PROOFS. SPAWN and SPAWNQ reserve for their lanes in the task queue, then in the graph's spill ring (R269, R287): O27. -/
namespace Sys2Proof.Machine

/-! ### Predicates that lanes write -/

theorem pred_setPred (w : Warp) (l j : Nat) {r : Nat} (b : Bool) (hr : r < 7) : (w.setPred j r b).pred l r = if l = j then b else w.pred l r := by
  have hne : (r == 7) = false := beq_false_of_ne (by omega)
  simp only [Warp.setPred, Warp.pred, hr, if_true, hne, Bool.false_or]
  split
  · next h => rw [h, Map.getD_putD_same]
  · next h => exact Map.getD_putD_ne _ _ _ (by omega)

/-- What lanes write to a predicate reads back in each of them. -/
theorem pred_foldl_setPred (f : Nat → Bool) {r l : Nat} (hr : r < 7) (ls : List Nat) (w : Warp) :
    (ls.foldl (fun b j => b.setPred j r (f j)) w).pred l r = if l ∈ ls then f l else w.pred l r := by
  induction ls generalizing w with
  | nil => rfl
  | cons j t ih =>
    rw [List.foldl_cons, ih, pred_setPred _ _ _ _ hr]
    by_cases ht : l ∈ t <;> by_cases hj : l = j <;> simp [ht, hj]

/-- Predicates apart, what lanes write to a predicate leaves the warp. -/
theorem foldl_setPred_keeps {β : Type} (g : Warp → β) (hg : ∀ w p, g { w with p := p } = g w) (f : Nat → Bool) (r : Nat) (ls : List Nat)
    (w : Warp) : g (ls.foldl (fun b j => b.setPred j r (f j)) w) = g w := by
  induction ls generalizing w with
  | nil => rfl
  | cons j t ih =>
    rw [List.foldl_cons, ih, Warp.setPred]
    split
    · exact hg ..
    · rfl

/-! ### Reservations -/

section
variable {s : State} {c g : Nat} {mk : Nat → Bool → AtCommit} {spill : Bool}

/-- A core after n reservations in its task queue. -/
def State.reserveTasks (s : State) (c n : Nat) : State :=
  if n = 0 then s else s.setCore c { s.core c with taskResv := (s.core c).taskResv + n }

theorem core_reserveTasks (n : Nat) : (s.reserveTasks c n).core c = { s.core c with taskResv := (s.core c).taskResv + n } := by
  unfold State.reserveTasks
  split
  · next h => rw [h]; rfl
  · exact core_setCore_same ..

theorem spill_reserveTasks (n : Nat) : (s.reserveTasks c n).spill g c = s.spill g c := by
  unfold State.reserveTasks
  split <;> rfl

theorem reserveTasks_succ (n : Nat) : (s.reserveTasks c 1).reserveTasks c n = s.reserveTasks c (n + 1) := by
  cases n with
  | zero => rfl
  | succ n => simp [State.reserveTasks, Nat.add_assoc, Nat.add_comm 1]

/-- Two runs of lanes reserve one after the other. -/
theorem reserveLanes_append (xs ys : List Nat) (s : State) :
    reserveLanes s c g mk spill (xs ++ ys) =
      let r := reserveLanes s c g mk spill xs
      let q := reserveLanes r.1 c g mk spill ys
      (q.1, r.2.1 ++ q.2.1, r.2.2.1 ++ q.2.2.1, r.2.2.2 ++ q.2.2.2) := by
  induction xs generalizing s with
  | nil => rfl
  | cons l t ih =>
    rw [List.cons_append, reserveLanes, reserveLanes]
    cases s.reserveChild c g spill with
    | none => simp only [ih, List.cons_append]
    | some p => simp only [ih, List.cons_append]

theorem taskFree_iff : s.taskFree c g = true ↔ (s.core c).tasks.length + (s.core c).taskResv < 512 ∧ (s.spill g c).ents = [] := by
  simp [State.taskFree]

/-- Lanes that the task queue has room for each reserve there. -/
theorem reserveLanes_of_room {xs : List Nat} (hents : (s.spill g c).ents = [])
    (hroom : (s.core c).tasks.length + (s.core c).taskResv + xs.length ≤ 512) :
    reserveLanes s c g mk spill xs = (s.reserveTasks c xs.length, xs.map (fun l => mk l false), xs.map (fun _ => Taken.task), []) := by
  induction xs generalizing s with
  | nil => rfl
  | cons l t ih =>
    rw [List.length_cons] at hroom
    have hchild : s.reserveChild c g spill = some (s.reserveTasks c 1, false) := if_pos (taskFree_iff.mpr ⟨by omega, hents⟩)
    have htail := ih (s := s.reserveTasks c 1) (by rw [spill_reserveTasks, hents]) (by rw [core_reserveTasks]; dsimp only; omega)
    rw [reserveLanes, hchild]
    dsimp only
    rw [htail, reserveTasks_succ]
    rfl

/-- Lanes that may not spill reserve nothing in a full queue. -/
theorem reserveLanes_of_full {ys : List Nat} (hfull : s.taskFree c g = false) : reserveLanes s c g mk false ys = (s, [], [], ys) := by
  induction ys with
  | nil => rfl
  | cons l t ih =>
    have hchild : s.reserveChild c g false = none := by simp [State.reserveChild, hfull]
    rw [reserveLanes, hchild]
    dsimp only
    rw [ih]

/-- Lanes that may spill reserve in the graph's ring beside a full queue, where that has room for them. -/
theorem reserveLanes_of_ringRoom {ys : List Nat} (hfull : s.taskFree c g = false)
    (hroom : (s.spill g c).ents.length + Map.getD (s.core c).spillResv g 0 + ys.length ≤ 4194304) :
    ∃ t, reserveLanes s c g mk true ys = (t, ys.map (fun l => mk l true), ys.map (fun _ => Taken.spill), [])
      ∧ Map.getD (t.core c).spillResv g 0 = Map.getD (s.core c).spillResv g 0 + ys.length ∧ (t.core c).taskResv = (s.core c).taskResv := by
  induction ys generalizing s with
  | nil => exact ⟨s, rfl, rfl, rfl⟩
  | cons l t ih =>
    rw [List.length_cons] at hroom
    have hfree : s.spillFree c g = true := decide_eq_true (show _ < 4194304 by omega)
    have hchild : s.reserveChild c g true = some (s.setCore c ((s.core c).reserveSpill g true), true) := by
      simp [State.reserveChild, hfull, hfree]
    have hcore : (s.setCore c ((s.core c).reserveSpill g true)).core c = (s.core c).reserveSpill g true := core_setCore_same ..
    have hresv : Map.getD ((s.core c).reserveSpill g true).spillResv g 0 = Map.getD (s.core c).spillResv g 0 + 1 := by
      simp [Core.reserveSpill]
    have hfull' : (s.setCore c ((s.core c).reserveSpill g true)).taskFree c g = false := by
      rw [← hfull, State.taskFree, State.taskFree, hcore]
      rfl
    obtain ⟨u, hu, hspill, htask⟩ := ih hfull' (by
      rw [hcore, hresv]
      have : ((s.setCore c ((s.core c).reserveSpill g true)).spill g c).ents.length = (s.spill g c).ents.length := rfl
      omega)
    rw [hcore] at hspill htask
    refine ⟨u, ?_, by rw [hspill, hresv, List.length_cons]; omega, htask⟩
    rw [reserveLanes, hchild]
    dsimp only
    rw [hu]
    rfl

end

/-! ### SPAWN and SPAWNQ -/

section
variable {s : State} {c k : Nat} {w : Warp} {a : FmtSpawn}

/-- No guard-true lane of a SPAWN or SPAWNQ meets one of its faults (R287). -/
def State.spawnsGood (s : State) (c : Nat) (w : Warp) (a : FmtSpawn) : Prop :=
  ∀ l ∈ w.active a.g, s.depthOf c w l ≠ 10 ∧ bits ((s.view c w).rd l 1 a.frm) 0 9 = 0
    ∧ s.inBlockRects w.graph a.block (bits ((s.view c w).rd l 1 a.frm) 23 9) = true
    ∧ (match s.frame? c (w.frameOf l) with | some f => f.join | none => 0) + w.frameSpawns (w.active a.g) l < 2 ^ 32

theorem spawnFaults_nil (hgood : s.spawnsGood c w a) : (w.active a.g).filterMap (s.spawnFault c (s.view c w) a) = [] := by
  refine List.filterMap_eq_nil_iff.mpr fun l hl => ?_
  obtain ⟨hdepth, hlow, hrect, hjoin⟩ := hgood l hl
  have hbad : badFp ((s.view c w).rd l 1 a.frm) = false := by simp [badFp, hlow]
  have hw : (s.view c w).w = w := rfl
  unfold State.spawnFault
  dsimp only
  rw [hw, if_neg hdepth, hbad, fpCore, hrect, if_neg (by decide), if_neg]
  generalize s.frame? c (w.frameOf l) = f at hjoin ⊢
  cases f <;> dsimp only at hjoin ⊢ <;> omega

/-- A SPAWN whose lanes all reserve issues, with their children left for the commit. -/
theorem spawn_of_reserved (h : State.InTurn s c k w) (hgood : s.spawnsGood c w a) {t : State} {acts : List AtCommit} {taken : List Taken}
    (hres : reserveLanes s c w.graph (s.childOf c (s.view c w) a) true (w.active a.g) = (t, acts, taken, [])) :
    exec (.spawn a) s = .next (t.issued c k { w with acts := w.acts ++ acts, taken := w.taken ++ taken, spawnPos := w.spawnPos + 1 }) := by
  change execSpawn a s = _
  rw [execSpawn, withWarp_inTurn h]
  dsimp only
  rw [spawnFaults_nil hgood, hres]
  rfl

/-- A SPAWNQ issues; its predicate says which lanes have reserved nothing. -/
theorem spawnq_of_reserved (h : State.InTurn s c k w) (hgood : s.spawnsGood c w a) {t : State} {acts : List AtCommit} {taken : List Taken}
    {unserved : List Nat} (hres : reserveLanes s c w.graph (s.childOf c (s.view c w) a) false (w.active a.g) = (t, acts, taken, unserved)) :
    exec (.spawnq a) s = .next (t.issued c k ((w.active a.g).foldl (fun b l => b.setPred l a.stop (unserved.contains l))
      { w with acts := w.acts ++ acts, taken := w.taken ++ taken, spawnPos := w.spawnPos + 1 })) := by
  change execSpawnq a s = _
  rw [execSpawnq, withWarp_inTurn h]
  dsimp only
  rw [spawnFaults_nil hgood, hres]
  rfl

/-- The task entries that lanes of a warp can still reserve. -/
def State.queueRoom (s : State) (c g : Nat) : Nat :=
  if (s.spill g c).ents = [] then 512 - ((s.core c).tasks.length + (s.core c).taskResv) else 0

/-- With fewer task entries than lanes, the first lanes take them, and the queue is full for the rest. -/
theorem reserveLanes_of_partRoom {g : Nat} {mk : Nat → Bool → AtCommit} {spill : Bool} {ls : List Nat} (hn : s.queueRoom c g < ls.length) :
    reserveLanes s c g mk spill (ls.take (s.queueRoom c g)) = (s.reserveTasks c (s.queueRoom c g),
        (ls.take (s.queueRoom c g)).map (fun l => mk l false), List.replicate (s.queueRoom c g) Taken.task, [])
      ∧ (s.reserveTasks c (s.queueRoom c g)).taskFree c g = false := by
  have hlen : (ls.take (s.queueRoom c g)).length = s.queueRoom c g := by rw [List.length_take]; omega
  have hfull : (s.reserveTasks c (s.queueRoom c g)).taskFree c g = false := by
    rw [Bool.eq_false_iff, Ne, taskFree_iff, core_reserveTasks, spill_reserveTasks]
    rintro ⟨hlt, hents⟩
    rw [State.queueRoom, if_pos hents] at hlt
    dsimp only at hlt
    omega
  refine ⟨?_, hfull⟩
  rcases Nat.eq_zero_or_pos (s.queueRoom c g) with h0 | hpos
  · rw [h0]
    rfl
  · have hents : (s.spill g c).ents = [] := by
      by_contra hne
      rw [State.queueRoom, if_neg hne] at hpos
      omega
    have hq : s.queueRoom c g = 512 - ((s.core c).tasks.length + (s.core c).taskResv) := if_pos hents
    rw [reserveLanes_of_room hents (by omega), hlen, List.map_const', hlen]

/-- The lanes that the queue does not take reserve in the ring. -/
theorem reserveLanes_queue_ring {g : Nat} (mk : Nat → Bool → AtCommit) {ls : List Nat} (hn : s.queueRoom c g < ls.length)
    (hring : (s.spill g c).ents.length + Map.getD (s.core c).spillResv g 0 + (ls.length - s.queueRoom c g) ≤ 4194304) :
    ∃ t, reserveLanes s c g mk true ls = (t,
        (ls.take (s.queueRoom c g)).map (fun l => mk l false) ++ (ls.drop (s.queueRoom c g)).map (fun l => mk l true),
        List.replicate (s.queueRoom c g) Taken.task ++ List.replicate (ls.length - s.queueRoom c g) Taken.spill, [])
      ∧ Map.getD (t.core c).spillResv g 0 = Map.getD (s.core c).spillResv g 0 + (ls.length - s.queueRoom c g)
      ∧ (t.core c).taskResv = (s.core c).taskResv + s.queueRoom c g := by
  obtain ⟨htake, hfull⟩ := reserveLanes_of_partRoom (mk := mk) (spill := true) hn
  obtain ⟨t, ht, hspill, htask⟩ := reserveLanes_of_ringRoom (mk := mk) (ys := ls.drop (s.queueRoom c g)) hfull
    (by rw [spill_reserveTasks, core_reserveTasks, List.length_drop]; exact hring)
  rw [core_reserveTasks] at hspill htask
  refine ⟨t, ?_, by rw [hspill, List.length_drop], htask⟩
  rw [List.map_const', List.length_drop] at ht
  conv => lhs; rw [← List.take_append_drop (s.queueRoom c g) ls, reserveLanes_append, htake]
  dsimp only
  rw [ht]
  rfl

/-- Where lanes may not spill, those that the queue does not take reserve nothing. -/
theorem reserveLanes_queue_only {g : Nat} (mk : Nat → Bool → AtCommit) {ls : List Nat} (hn : s.queueRoom c g < ls.length) :
    reserveLanes s c g mk false ls = (s.reserveTasks c (s.queueRoom c g), (ls.take (s.queueRoom c g)).map (fun l => mk l false),
      List.replicate (s.queueRoom c g) Taken.task, ls.drop (s.queueRoom c g)) := by
  obtain ⟨htake, hfull⟩ := reserveLanes_of_partRoom (mk := mk) (spill := false) hn
  conv => lhs; rw [← List.take_append_drop (s.queueRoom c g) ls, reserveLanes_append, htake]
  dsimp only
  rw [reserveLanes_of_full hfull, List.append_nil, List.append_nil, List.nil_append]

theorem core_issued_resv (t : State) (c k : Nat) (v : Warp) :
    ((t.issued c k v).core c).taskResv = (t.core c).taskResv ∧ ((t.issued c k v).core c).spillResv = (t.core c).spillResv := by
  rw [issued_eq, core_setCore_same]
  exact ⟨rfl, rfl⟩

end

/-- Settles O27: the lanes that the queue has room for come first; the rest go to the ring, or are told by the predicate. -/
theorem spawnsReserveAndComplete : Obligations.SpawnsReserveAndComplete := by
  intro s c k w h a x ls q hgood
  replace hgood : s.spawnsGood c w a := hgood
  refine ⟨fun hroom hents => ?all, fun hnone i hi => ?noLane, fun hn => ?part⟩
  case all =>
    have hres : ∀ spill, _ := fun spill => reserveLanes_of_room (mk := s.childOf c x a) (spill := spill) hents hroom
    have htasks : ls ≠ [] → s.reserveTasks c ls.length = s.setCore c { q with taskResv := q.taskResv + ls.length } :=
      fun hne => if_neg (by simpa using hne)
    refine ⟨fun hne => ?_, fun hne => ?_⟩
    · rw [spawn_of_reserved h hgood (hres true), htasks hne]
    · rw [spawnq_of_reserved h hgood (hres false), htasks hne]
      rfl
  case noLane =>
    have hres : ∀ spill, reserveLanes s c w.graph (s.childOf c x a) spill (w.active a.g) = (s, [], [], []) := fun _ => by
      rw [show w.active a.g = [] from hnone]
      rfl
    simp only [List.mem_cons, List.not_mem_nil, or_false] at hi
    rcases hi with rfl | rfl
    · rw [spawn_of_reserved h hgood (hres true), List.append_nil, List.append_nil]
    · rw [spawnq_of_reserved h hgood (hres false), List.append_nil, List.append_nil, show w.active a.g = [] from hnone]
      rfl
  case part =>
    refine ⟨fun hring => ?spawn, ?spawnq⟩
    case spawn =>
      obtain ⟨t, ht, hspill, htask⟩ := reserveLanes_queue_ring (s.childOf c x a) hn hring
      refine ⟨_, _, spawn_of_reserved h hgood ht, warp?_issued_same .., rfl, rfl, (List.append_assoc ..).symm, (List.append_assoc ..).symm, ?_, ?_⟩
      · rw [(core_issued_resv ..).2, hspill]
        rfl
      · rw [(core_issued_resv ..).1, htask]
        rfl
    case spawnq =>
      refine ⟨_, _, spawnq_of_reserved h hgood (reserveLanes_queue_only (s.childOf c x a) hn), warp?_issued_same .., ?_, ?_, ?_, ?_, fun l hl hstop => ?_⟩
      · exact congrArg (· + 1) (foldl_setPred_keeps Warp.pc (fun _ _ => rfl) _ a.stop ls _)
      · exact foldl_setPred_keeps Warp.acts (fun _ _ => rfl) _ a.stop ls _
      · rw [(core_issued_resv ..).1, core_reserveTasks]
        rfl
      · rw [(core_issued_resv ..).2, core_reserveTasks]
      · exact (pred_foldl_setPred _ hstop ls _).trans (if_pos hl)

end Sys2Proof.Machine
end

section
/-! PROOFS. SPDM: the root's exchange with a die, and the host's with the control die (R324, R326, R372, R373, R389 to R392): O57. -/
namespace Sys2Proof.Machine

/-! ### A die's answers -/

section
variable {s : State} {n d : Nat} {errs : List Nat} {a : SpdmAnswer}

/-- Messages between the root and a die go: the control die runs, and no boundary of their way has stopped (R325, R396). -/
structure State.MgmtRuns (s : State) (d : Nat) : Prop where
  die : d < 18
  powered : s.control.powered = true
  cool : s.control.hot = false
  up : s.mgmtUp (roundTrip 18 d) = true

/-- What a die has attested so far, after a good answer to message n. -/
def State.stepOn (s : State) (n d : Nat) (a : SpdmAnswer) : State :=
  (s.countMgmt n d).setDie d { (s.die d).learn n a with state := .attesting, attStep := n + 1, attAt := s.now }

theorem die_countMgmt (s : State) (n d e : Nat) : (s.countMgmt n d).die e = s.die e := rfl

/-- The checks that come before a die's answer find nothing. -/
theorem dieMessage_guard (h : s.MgmtRuns d) :
    (decide (18 ≤ d) || !(s.countMgmt n d).control.powered || (s.countMgmt n d).control.hot || !s.mgmtUp (roundTrip 18 d)) = false := by
  obtain ⟨hd, hpowered, hcool, hup⟩ := h
  simp [State.countMgmt, hd, hpowered, hcool, hup]

theorem dieMessage_good (h : s.MgmtRuns d) (hstate : (s.die d).state = .attesting) (hstep : (s.die d).attStep = n) (hsilent : a.silent = false)
    (hgood : a.good = true) (hversion : a.version = 0x13) :
    s.dieMessage n d errs a = if n = 8 then ((dirsOf d).foldl (fun t k => t.countMgmt 9 (senderOf k)) (s.stepOn n d a)).keyLinks d
      else s.stepOn n d a := by
  unfold State.dieMessage
  dsimp only
  rw [dieMessage_guard h, die_countMgmt, hstate, hstep, hsilent, hgood, hversion]
  simp
  rfl

/-- A bad answer fails the attestation; one of another version always with reason 2 (R389, R391). -/
theorem dieMessage_bad (h : s.MgmtRuns d) (hstate : (s.die d).state = .attesting) (hstep : (s.die d).attStep = n) (hsilent : a.silent = false)
    (hbad : a.good = false ∨ a.version ≠ 0x13) :
    s.dieMessage n d errs a = (s.countMgmt n d).attestFail d (if a.version ≠ 0x13 then 2 else if errs.contains a.err then a.err else errs.headD 7) := by
  have hany : (!a.good || decide (a.version ≠ 0x13)) = true := by simpa using hbad
  unfold State.dieMessage
  dsimp only
  rw [dieMessage_guard h, die_countMgmt, hstate, hstep, hsilent, hany]
  simp

/-- With GET_VERSION a quarantined die starts ATTESTING, and its good answer takes it to step 1 (R326, R391, R392). -/
theorem dieMessage_first (h : s.MgmtRuns d) (hstate : (s.die d).state = .quarantined) (htry : (s.die d).attTry = 0)
    (hready : d = 16 ∨ s.control.ready = true ∨ (s.die 16).keyed = true) :
    (a.silent = true → s.dieMessage 0 d errs a = (s.countMgmt 0 d).setDie d { s.die d with state := .attesting, attStep := 0, attAt := s.now })
    ∧ (a.silent = false → a.good = true → a.version = 0x13 → s.dieMessage 0 d errs a = s.stepOn 0 d a) := by
  have hfirst : (0 == 0 && decide ((s.die d).state = .quarantined) && (s.die d).attTry == 0
      && (d == 16 || s.control.ready || (s.die 16).keyed)) = true := by simpa [hstate, htry, or_assoc] using hready
  have hcontrol : (s.countMgmt 0 d).control = s.control := rfl
  unfold State.dieMessage
  dsimp only
  rw [dieMessage_guard h, die_countMgmt, die_countMgmt, hcontrol, hfirst]
  refine ⟨fun hsilent => ?_, fun hsilent hgood hversion => ?_⟩
  · rw [hsilent]
    rfl
  · rw [hsilent, hgood, hversion, hstate]
    simp
    rfl

/-- Within a die's session a good message does its effect on the die. -/
theorem dieSession_good (h : s.MgmtRuns d) (hsess : (s.die d).sess = true) (hgood : a.good = true) (hversion : a.version = 0x13) (f : Die → Die) :
    s.dieSession d a f = (s.countMgmt 9 d).setDie d (f (s.die d)) := by
  obtain ⟨hd, hpowered, hcool, hup⟩ := h
  simp [State.dieSession, State.answers, hd, hpowered, hcool, hup, hsess, hgood, hversion]

end

/-! ### The host's requests -/

section
variable {s : State} {x : Nat} {a : SpdmAnswer}

theorem answers_of_runs (hpowered : s.control.powered = true) (hcool : s.control.hot = false) : s.answers = true := by
  rw [State.answers, hpowered, hcool]
  rfl

theorem hostMessage_served (hanswers : s.answers = true) (hversion : a.version = 0x13) (n : Nat) :
    s.hostMessage x n a = s.spdmReply x .served (if n = 6 then s.hostBlocks else []) (s.spdmContent n) := by
  simp [State.hostMessage, hanswers, hversion]

theorem hostMessage_otherVersion (hanswers : s.answers = true) (hversion : a.version ≠ 0x13) (n : Nat) :
    s.hostMessage x n a = s.spdmReply x .versionMismatch [] := by
  simp [State.hostMessage, hanswers, hversion]

theorem hostRequest_served (hanswers : s.answers = true) (hversion : a.version = 0x13) (t : State) : s.hostRequest x a t = t := by
  simp [State.hostRequest, hanswers, hversion]

theorem hostRequest_otherVersion (hanswers : s.answers = true) (hversion : a.version ≠ 0x13) (t : State) :
    s.hostRequest x a t = s.spdmReply x .versionMismatch [] := by
  simp [State.hostRequest, hanswers, hversion]

/-- A good FINISH makes the host's session live, gives it the free credits, and sends the status messages that waited (R372, R373). -/
theorem finish_host {y : Session} (hanswers : s.answers = true) (hversion : a.version = 0x13)
    (hy : s.control.sessions.find? (fun y => y.id == x && !y.live) = some y) (hgood : a.good = true) :
    exec (.finish (.host x) a) s = .next ((State.spdmReply { s with control := { s.control with
      sessions := s.control.sessions.filter (fun z => z.id != x) ++ [{ y with live := true, step := 2 }] } } x .served []).grantAll.sendStatusHeld) := by
  change execFinish (.host x) a s = _
  rw [execFinish]
  dsimp only
  rw [hostRequest_served hanswers hversion, hy, hgood]
  simp only [Bool.not_true, Bool.false_eq_true, if_false]

end

/-! ### Sessions and credits -/

/-- The commands and the numbers of the sessions. -/
def State.sessionIds (s : State) : List Nat × Map Cmd := (s.control.sessions.map (fun y => y.id), s.control.cmds)

theorem sessionIds_pushStatus (s : State) (m : Status) : (s.pushStatus m).sessionIds = s.sessionIds := by
  unfold State.pushStatus
  dsimp only
  split
  · rfl
  · split <;> rfl

theorem sessionIds_grantPool (s : State) (q : Nat) : (s.grantPool q).sessionIds = s.sessionIds := by
  unfold State.grantPool
  split
  · rfl
  · dsimp only
    split
    · rfl
    · rw [sessionIds_pushStatus]
      simp only [State.sessionIds, Control.addCredit, List.map_map, Prod.mk.injEq, and_true]
      refine List.map_congr_left fun y _ => ?_
      rw [Function.comp_apply]
      split <;> rfl

theorem sessionIds_grantAll (s : State) : s.grantAll.sessionIds = s.sessionIds :=
  foldl_keeps State.sessionIds sessionIds_grantPool _ s

/-- A session that ends is gone, and the commands stay (R372). -/
theorem sessionIds_endSession (s : State) (x : Nat) :
    (s.endSession x).sessionIds = ((s.control.sessions.filter (fun y => y.id != x)).map (fun y => y.id), s.control.cmds) :=
  sessionIds_grantAll _

/-- The messages of the root's exchange before FINISH, in their order (R391). -/
noncomputable def rootMessages : List (SpdmPeer → SpdmAnswer → Instr) :=
  [.getVersion, .getCapabilities, .negotiateAlgorithms, .getDigests, .getCertificate, .challenge, .getMeasurements, .keyExchange]

theorem exec_rootMessage {n : Nat} {m : SpdmPeer → SpdmAnswer → Instr} (hm : rootMessages[n]? = some m) :
    n < 8 ∧ ∃ errs, ∀ d a s, exec (m (.die d) a) s = .next (s.dieMessage n d errs a) := by
  refine ⟨(List.getElem?_eq_some_iff.mp hm).1, ?_⟩
  match n, hm with
  | 0, rfl | 1, rfl | 2, rfl => exact ⟨[2], fun _ _ _ => rfl⟩
  | 3, rfl => exact ⟨[3], fun _ _ _ => rfl⟩
  | 4, rfl => exact ⟨[3, 4], fun _ _ _ => rfl⟩
  | 5, rfl => exact ⟨[5], fun _ _ _ => rfl⟩
  | 6, rfl => exact ⟨[5, 6], fun _ _ _ => rfl⟩
  | 7, rfl => exact ⟨[7], fun _ _ _ => rfl⟩

/-- A request of another version is answered with the error, whichever it is (R389). -/
theorem exec_rootMessage_otherVersion {s : State} {a : SpdmAnswer} {m : SpdmPeer → SpdmAnswer → Instr} (hm : m ∈ rootMessages)
    (hanswers : s.answers = true) (hversion : a.version ≠ 0x13) (x : Nat) :
    exec (m (.host x) a) s = .next (s.spdmReply x .versionMismatch []) := by
  have hmessage : ∀ n, Host.Outcome.next (s.hostMessage x n a) = (.next (s.spdmReply x .versionMismatch []) : Host.Outcome State Fault Refusal) :=
    fun n => congrArg _ (hostMessage_otherVersion hanswers hversion n)
  simp only [rootMessages, List.mem_cons, List.not_mem_nil, or_false] at hm
  rcases hm with rfl | rfl | rfl | rfl | rfl | rfl | rfl | rfl
  · exact hmessage 0
  · exact hmessage 1
  · exact hmessage 2
  · exact hmessage 3
  · exact hmessage 4
  · exact hmessage 5
  · exact hmessage 6
  · exact congrArg _ (hostRequest_otherVersion hanswers hversion _)

/-! ### The two clocks (R391) -/

theorem attestationResponseTimeout_late {s : State} {d : Nat} (hd : d < 18) (hpowered : s.control.powered = true)
    (hlate : (s.die d).attAt + 17000000 ≤ s.now) (hstate : (s.die d).state = .attesting) (hstep : (s.die d).attStep < 9)
    (hruns : s.halted d = false) : exec (.attestationResponseTimeout d) s = .next (s.attestFail d 1) := by
  have hguard : (decide (18 ≤ d) || !s.control.powered || s.halted d || decide (s.now < (s.die d).attAt + responseCycles)) = false := by
    have hnow : ¬ s.now < (s.die d).attAt + responseCycles := Nat.not_lt.mpr hlate
    simp [hd, hpowered, hruns, hnow]
  change execAttestationResponseTimeout d s = _
  unfold execAttestationResponseTimeout
  dsimp only
  rw [hguard, hstate, decide_eq_true hstep]
  rfl

theorem attestationRetry_late {s : State} {d : Nat} (hd : d < 18) (hcool : s.control.hot = false) (hstate : (s.die d).state = .quarantined)
    (hfirst : 1 ≤ (s.die d).attTry) (hlast : (s.die d).attTry ≤ 2) (hlate : (s.die d).attAt + 1700000 ≤ s.now) :
    exec (.attestationRetry d) s = .next (s.setDie d { s.die d with state := .attesting, attStep := 0, attAt := s.now }) := by
  have hguard : (decide (18 ≤ d) || s.control.hot || decide ((s.die d).state ≠ .quarantined) || decide ((s.die d).attTry < 1)
      || decide (2 < (s.die d).attTry) || decide (s.now < (s.die d).attAt + retryCycles)) = false := by
    have hsome : (s.die d).attTry ≠ 0 := by omega
    have hnow : ¬ s.now < (s.die d).attAt + retryCycles := Nat.not_lt.mpr hlate
    simp [hd, hcool, hstate, hsome, hlast, hnow]
  change execAttestationRetry d s = _
  unfold execAttestationRetry
  dsimp only
  rw [hguard]
  rfl

/-- Settles O57: a die's answers by the state of its attestation, the host's requests by their version, and the two clocks. -/
theorem spdmMessagesAct : Obligations.SpdmMessagesAct := by
  intro s a c msgs
  refine ⟨?goodAnswer, ?getVersion, ?finish, ?badAnswer, ?host, ?otherVersion, ?otherVersionInSession, ?dieSession, ?checkFailure, ?timeout, ?retry⟩
  case goodAnswer =>
    intro n d m hm hd hpowered hcool hstate hstep _ hup hsilent hgood hversion
    obtain ⟨hn, errs, hexec⟩ := exec_rootMessage hm
    rw [hexec, dieMessage_good ⟨hd, hpowered, hcool, hup⟩ hstate hstep hsilent hgood hversion, if_neg (by omega)]
    rfl
  case getVersion =>
    intro d hd hpowered hcool hstate htry hup hready
    obtain ⟨hwaits, hanswered⟩ := dieMessage_first (a := a) (errs := [2]) ⟨hd, hpowered, hcool, hup⟩ hstate htry hready
    exact ⟨fun hsilent => congrArg Host.Outcome.next (hwaits hsilent),
      fun hsilent hgood hversion => congrArg Host.Outcome.next (hanswered hsilent hgood hversion)⟩
  case finish =>
    intro d hd hpowered hcool hstate hstep hsilent hgood hup hversion
    exact congrArg Host.Outcome.next (dieMessage_good (errs := [7]) ⟨hd, hpowered, hcool, hup⟩ hstate hstep hsilent hgood hversion)
  case badAnswer =>
    intro n d m hm hd hpowered hcool hstate hstep hsilent hup hbad
    obtain ⟨-, errs, hexec⟩ := exec_rootMessage hm
    exact ⟨_, (hexec d a s).trans (congrArg _ (dieMessage_bad ⟨hd, hpowered, hcool, hup⟩ hstate hstep hsilent hbad)), fun h => if_pos h⟩
  case host =>
    intro x hpowered hcool hversion
    have hanswers := answers_of_runs hpowered hcool
    have hserved := hostMessage_served (x := x) hanswers hversion
    have hrequest := hostRequest_served (x := x) hanswers hversion
    refine ⟨congrArg _ (hserved 0), congrArg _ (hserved 1), congrArg _ (hserved 2), congrArg _ (hserved 3), congrArg _ (hserved 4),
      congrArg _ (hserved 5), congrArg _ (hserved 6), congrArg _ (hrequest _), fun hgood hfew hnew => ?keyExchange, fun y hy hgood => ?hostFinish,
      fun hgood hlive => ?keyUpdate, fun hopen => ?endSession⟩
    case keyExchange =>
      have hcan : (!a.good || decide (4 ≤ s.control.sessions.length) || s.control.sessions.any (fun y => y.id == x)) = false := by
        simpa [hgood] using ⟨hfew, hnew⟩
      exact congrArg _ ((hrequest _).trans (if_neg (ne_true_of_eq_false hcan)))
    case hostFinish =>
      exact finish_host hanswers hversion hy hgood
    case keyUpdate =>
      change Host.Outcome.next (s.hostRequest x a _) = _
      rw [hrequest, hgood, hlive]
      rfl
    case endSession =>
      change Host.Outcome.next (s.hostRequest x a _) = _
      rw [hrequest, hopen]
      rfl
  case otherVersion =>
    intro x m hm hpowered hcool hversion
    exact exec_rootMessage_otherVersion hm (answers_of_runs hpowered hcool) hversion x
  case otherVersionInSession =>
    intro x hpowered hcool hversion i hi
    have hanswers := answers_of_runs hpowered hcool
    simp only [List.mem_cons, List.not_mem_nil, or_false] at hi
    rcases hi with rfl | rfl | rfl
    all_goals exact congrArg Host.Outcome.next (hostRequest_otherVersion hanswers hversion _)
  case dieSession =>
    intro d hd hpowered hcool hsess hup hgood hversion
    have hsession := dieSession_good ⟨hd, hpowered, hcool, hup⟩ hsess hgood hversion
    exact ⟨congrArg Host.Outcome.next (hsession _), congrArg Host.Outcome.next (hsession _)⟩
  case checkFailure =>
    intro x
    have hends := sessionIds_endSession s x
    simp only [State.sessionIds, Prod.mk.injEq] at hends
    obtain ⟨hids, hcmds⟩ := hends
    refine ⟨_, rfl, fun y hy => ?_, hcmds⟩
    have hmem : y.id ∈ (s.control.sessions.filter (fun y => y.id != x)).map (fun y => y.id) := hids ▸ List.mem_map_of_mem hy
    obtain ⟨z, hz, hzy⟩ := List.mem_map.mp hmem
    rw [← hzy]
    simpa using (List.mem_filter.mp hz).2
  case timeout =>
    exact fun d hd hpowered hlate hstate hstep hruns => attestationResponseTimeout_late hd hpowered hlate hstate hstep hruns
  case retry =>
    exact fun d hd hcool hstate hfirst hlast hlate => attestationRetry_late hd hcool hstate hfirst hlast hlate

end Sys2Proof.Machine
end

section
/-! PROOFS. What each host command does once it runs (R291, R322, R333, R348 to R350, R353, R364, R372, R376, R377, R379, R385, R391, R392):
O56. -/
namespace Sys2Proof.Machine

/-! ### H_COPY (R376) -/

section
variable {s : State} {seq n : Nat} {x : Cmd} {data : List Byte}

/-- The sweep that an H_COPY from this package's memory waits for (R200). -/
def State.copySweeps (s : State) (x : Cmd) : Bool :=
  decide (HostCommand.b x.cmd 0 % 4 ≠ 1) && s.sweeping 0 (HostCommand.b x.cmd 1 % 4096) RelWord.every

/-- The stores of an H_COPY's first n bytes that still stand, and the first offset at which one has met a fault. -/
def State.copyStands (s : State) (x : Cmd) (n : Nat) : Bool :=
  s.copyWrites (HostCommand.b x.cmd 4 % 4096) (HostCommand.b x.cmd 5 + 2 ^ 32 * HostCommand.b x.cmd 6) n

def State.copyFails (s : State) (x : Cmd) (n : Nat) : Option Nat :=
  s.copyFault (HostCommand.b x.cmd 4 % 4096) (HostCommand.b x.cmd 5 + 2 ^ 32 * HostCommand.b x.cmd 6) n

/-- The bytes of an H_COPY's next piece (R376). -/
def Cmd.pieceSize (x : Cmd) (data : List Byte) (n : Nat) : Nat :=
  if HostCommand.b x.cmd 0 % 4 = 1 then
    min (min (HostCommand.b x.cmd 7 - n) (min (toPage (HostCommand.b x.cmd 2 + n)) (toPage (HostCommand.b x.cmd 5 + n)))) data.length
  else min (HostCommand.b x.cmd 7 - n) (min (toPage (HostCommand.b x.cmd 2 + n)) (toPage (HostCommand.b x.cmd 5 + n)))

theorem copySweeps_false (h : HostCommand.b x.cmd 0 % 4 ≠ 1 → s.sweeping 0 (HostCommand.b x.cmd 1 % 4096) RelWord.every = false) :
    s.copySweeps x = false := by
  simpa [State.copySweeps] using h

theorem hCopy_first (hrun : s.running seq 4 = some x) (hstep : x.step = 0) :
    exec (.hCopy seq data) s = .next ((if HostCommand.b x.cmd 0 % 4 = 1 then s
      else s.acquire 0 (HostCommand.b x.cmd 1 % 4096) RelWord.every).setCmd seq { x with step := 1 }) := by
  change execHCopy seq data s = _
  simp only [execHCopy, hrun, hstep]

/-- A copy that no store and no sweep holds up, and whose data may move to or from the host, moves its next piece, or ends once it has moved
all and its writes have performed. -/
theorem hCopy_goesOn (hrun : s.running seq 4 = some x) (hhost : HostCommand.b x.cmd 0 % 4 = 0 ∨ s.control.liveSessions ≠ []) (hstep : x.step = n + 1)
    (hclear : HostCommand.b x.cmd 0 % 4 = 2 ∨ (s.copyStands x n = false ∧ s.copyFails x n = none)) (hsweep : s.copySweeps x = false) :
    exec (.hCopy seq data) s = if HostCommand.b x.cmd 7 ≤ n then
        .next (if s.reqs.any (fun p => p.2.graph == 256 && p.2.kind.isStore) then s else s.readyCmd seq false (HostCommand.b x.cmd 7))
      else .next (if x.pieceSize data n = 0 || !(decide (HostCommand.b x.cmd 0 % 4 ≠ 1) || (decide (64 ≤ data.length) && decide (data.length ≤ 4096)))
        then s else s.copyPiece seq x n (x.pieceSize data n) data) := by
  have hnone : (if decide (HostCommand.b x.cmd 0 % 4 = 2) || s.copyStands x n then none else s.copyFails x n) = none := by
    rcases hclear with hkind | ⟨hstands, hfails⟩
    · simp [hkind]
    · simp [hfails]
  have hhold : (decide (HostCommand.b x.cmd 0 % 4 ≠ 0) && s.control.liveSessions.isEmpty
      || decide (HostCommand.b x.cmd 0 % 4 ≠ 2) && s.copyStands x n) = false := by
    have hlive : (decide (HostCommand.b x.cmd 0 % 4 ≠ 0) && s.control.liveSessions.isEmpty) = false := by simpa [or_iff_not_imp_left] using hhost
    have hstand : (decide (HostCommand.b x.cmd 0 % 4 ≠ 2) && s.copyStands x n) = false := by
      rcases hclear with hkind | ⟨hstands, -⟩
      · simp [hkind]
      · simp [hstands]
    rw [hlive, hstand]
    rfl
  change execHCopy seq data s = _
  rw [execHCopy, hrun]
  dsimp only
  rw [hstep]
  dsimp only
  split
  · next ofs hsome => cases hnone.symm.trans hsome
  · rw [State.copySweeps] at hsweep
    rw [State.copyStands] at hhold
    rw [hsweep, hhold]
    rfl

/-- The next piece moves where no earlier store of the copy stands or has met a fault, and no sweep is waited for. -/
theorem hCopy_piece (hrun : s.running seq 4 = some x) (hhost : HostCommand.b x.cmd 0 % 4 = 0 ∨ s.control.liveSessions ≠ []) (hstep : x.step = n + 1)
    (hmore : n < HostCommand.b x.cmd 7) (hclear : HostCommand.b x.cmd 0 % 4 = 2 ∨ (s.copyStands x n = false ∧ s.copyFails x n = none))
    (hunit : HostCommand.b x.cmd 0 % 4 = 1 → 64 ≤ data.length ∧ data.length ≤ 4096) (hsweep : s.copySweeps x = false)
    (hroom : 0 < x.pieceSize data n) : exec (.hCopy seq data) s = .next (s.copyPiece seq x n (x.pieceSize data n) data) := by
  have hgood : (decide (HostCommand.b x.cmd 0 % 4 ≠ 1) || (decide (64 ≤ data.length) && decide (data.length ≤ 4096))) = true := by
    by_cases hkind : HostCommand.b x.cmd 0 % 4 = 1
    · simp [hunit hkind]
    · simp [hkind]
  rw [hCopy_goesOn hrun hhost hstep hclear hsweep, if_neg (by omega), hgood, decide_eq_false (by omega)]
  rfl

theorem hCopy_end (hrun : s.running seq 4 = some x) (hhost : HostCommand.b x.cmd 0 % 4 = 0 ∨ s.control.liveSessions ≠ []) (hstep : x.step = n + 1)
    (hall : HostCommand.b x.cmd 7 ≤ n) (hfails : HostCommand.b x.cmd 0 % 4 = 2 ∨ s.copyFails x n = none)
    (hdone : ∀ p ∈ s.reqs, p.2.graph = 256 → p.2.kind.isStore = false) (hsweep : s.copySweeps x = false) :
    exec (.hCopy seq data) s = .next (s.readyCmd seq false (HostCommand.b x.cmd 7)) := by
  have hstands : s.copyStands x n = false := by
    refine List.any_eq_false.mpr fun p hp hstands => ?_
    simp only [Bool.and_eq_true, beq_iff_eq] at hstands
    obtain ⟨⟨⟨⟨hgraph, -⟩, hstore⟩, -⟩, -⟩ := hstands
    rw [hdone p hp hgraph] at hstore
    cases hstore
  have hnone : s.reqs.any (fun p => p.2.graph == 256 && p.2.kind.isStore) = false := by
    refine List.any_eq_false.mpr fun p hp hstore => ?_
    simp only [Bool.and_eq_true, beq_iff_eq] at hstore
    rw [hdone p hp hstore.1] at hstore
    cases hstore.2
  rw [hCopy_goesOn hrun hhost hstep (hfails.imp_right fun h => ⟨hstands, h⟩) hsweep, if_pos hall, hnone]
  rfl

/-- A copy stops at its first fault (R376). -/
theorem hCopy_fault {o : Nat} (hrun : s.running seq 4 = some x) (hstep : x.step = n + 1) (hkind : HostCommand.b x.cmd 0 % 4 ≠ 2)
    (hstands : s.copyStands x n = false) (hfails : s.copyFails x n = some o) :
    exec (.hCopy seq data) s = .next ((s.clearCopy (HostCommand.b x.cmd 4 % 4096) (HostCommand.b x.cmd 5 + 2 ^ 32 * HostCommand.b x.cmd 6) n).readyCmd
      seq true (o + 2 ^ 32 * o)) := by
  change execHCopy seq data s = _
  rw [State.copyStands] at hstands
  rw [State.copyFails] at hfails
  simp only [execHCopy, hrun, hstep, hstands, hfails, hkind, decide_false, Bool.or_false, Bool.false_eq_true, if_false]

end

/-! ### Commands on graphs, dies and the journal -/

section
variable {s : State} {seq : Nat} {x : Cmd}

theorem hLoad_ok {s1 : State} {g : Nat} (hrun : s.running seq 1 = some x)
    (hload : s.loadGraph ⟨x.cmd.body.take 8, 256, HostCommand.b x.cmd 8 % 4096, hostIdent, true, none⟩ = .ok s1 g) :
    exec (.hLoad seq) s = .next (s1.readyCmd seq false (g * 256)) := by
  change execHLoad seq s = _
  rw [execHLoad, hrun]
  dsimp only
  rw [hload]

theorem hLaunch_made {n : Nat} (hrun : s.running seq 3 = some x) (hplace : x.launch = some n) (hnew : Map.find? s.control.launches n = none) :
    exec (.hLaunch seq) s = .next { s with control := { s.control with
      launches := Map.put s.control.launches n (launchFrom x.cmd.body seq true none []) } } := by
  change execHLaunch seq s = _
  rw [execHLaunch, hrun]
  dsimp only
  rw [hplace]
  dsimp only
  rw [hnew]
  rfl

theorem hJournalRead_live (hrun : s.running seq 8 = some x) (hlive : s.control.liveSessions ≠ []) :
    exec (.hJournalRead seq) s = .next (State.readyCmd { s with control := { s.control with
      reads := s.control.reads ++ (List.range (min 4096 (HostCommand.b x.cmd 2))).map (fun i =>
        s.control.journalBytes (HostCommand.b x.cmd 0 + 2 ^ 32 * HostCommand.b x.cmd 1 + i)) } } seq false (min 4096 (HostCommand.b x.cmd 2))) := by
  change execHJournalRead seq s = _
  rw [execHJournalRead, hrun]
  exact if_neg (by simpa using hlive)

/-- H_DIE_RESET begins with the device-level event; an orderly one of an ACTIVE die drains it, any other resets it (R376, R392). -/
theorem hDieReset_first (hrun : s.running seq 9 = some x) (hstep : x.step = 0) (orderly : Bool)
    (horderly : (bitOf (HostCommand.b x.cmd 0) 8 && decide ((s.die (HostCommand.b x.cmd 0 % 32)).state = .active)) = orderly) :
    exec (.hDieReset seq) s = .next (if orderly then ((s.setCmd seq { x with step := 1 }).deviceEvent 1).drainDie (HostCommand.b x.cmd 0 % 32)
      else ((s.setCmd seq { x with step := 2 }).deviceEvent 1).resetDie (HostCommand.b x.cmd 0 % 32)) := by
  change execHDieReset seq s = _
  rw [execHDieReset, hrun]
  dsimp only
  rw [hstep]
  simp only [horderly]
  cases orderly with
  | true => simp only [if_true]
  | false => simp only [Bool.false_eq_true, if_false]

theorem hAttest_first (hrun : s.running seq 10 = some x) (hstep : x.step = 0) (hd : HostCommand.b x.cmd 0 % 32 < 18)
    (hstate : (s.die (HostCommand.b x.cmd 0 % 32)).state = .active) :
    exec (.hAttest seq) s = .next ((s.setCmd seq { x with step := 1 }).setDie (HostCommand.b x.cmd 0 % 32)
      { s.die (HostCommand.b x.cmd 0 % 32) with attStep := 25, attAt := s.now }) := by
  have htargets : attestTargets (HostCommand.b x.cmd 0 % 32) = [HostCommand.b x.cmd 0 % 32] := by
    rw [attestTargets, Nat.mod_mod, if_neg (by omega)]
  have hactive : (decide (HostCommand.b x.cmd 0 % 32 < 18) && decide ((s.die (HostCommand.b x.cmd 0 % 32)).state = .active)) = true := by
    simp [hd, hstate]
  change execHAttest seq s = _
  rw [execHAttest, hrun]
  dsimp only
  rw [htargets, if_pos hstep]
  have hnone : (if HostCommand.b x.cmd 0 % 32 = 31 then none else [HostCommand.b x.cmd 0 % 32].find? (fun d =>
      decide (d < 18) && decide ((s.die d).state ≠ .active))) = none := by
    rw [if_neg (by omega), List.find?_cons, hstate, Bool.and_comm]
    rfl
  rw [hnone]
  exact congrArg _ (if_pos hactive)

/-! ### H_DEBUG and H_CONFIGURE (R291, R322, R364, R377, R384, R385) -/

theorem hDebugHalt_active (hrun : s.running seq 11 = some x) (h : HostCommand.b x.cmd 0 % 16 = 0) (hd : HostCommand.b x.cmd 1 % 32 < 8)
    (hstate : (s.die (HostCommand.b x.cmd 1 % 32)).state = .active) :
    exec (.hDebugHalt seq) s = .next ((s.haltDie (HostCommand.b x.cmd 1 % 32)).readyCmd seq false 0) := by
  change execHDebugHalt seq s = _
  rw [execHDebugHalt, debugCmd_running _ hrun h]
  simp only [hd, hstate, decide_true, Bool.and_true, if_true]

theorem hDebugHalt_refused (hrun : s.running seq 11 = some x) (h : HostCommand.b x.cmd 0 % 16 = 0)
    (hnot : 8 ≤ HostCommand.b x.cmd 1 % 32 ∨ (s.die (HostCommand.b x.cmd 1 % 32)).state ≠ .active) :
    exec (.hDebugHalt seq) s = .next (s.readyCmd seq false 1) := by
  have hguard : ¬ (decide (HostCommand.b x.cmd 1 % 32 < 8) && decide ((s.die (HostCommand.b x.cmd 1 % 32)).state = .active)) = true := by
    simpa [imp_iff_not_or] using hnot
  change execHDebugHalt seq s = _
  rw [execHDebugHalt, debugCmd_running _ hrun h]
  simp only [hguard, Bool.false_eq_true, if_false]

theorem hDebugRelease_halted (hrun : s.running seq 11 = some x) (h : HostCommand.b x.cmd 0 % 16 = 1)
    (hstate : (s.die (HostCommand.b x.cmd 1 % 32)).state = .halted) :
    exec (.hDebugRelease seq) s = .next ((s.releaseDie (HostCommand.b x.cmd 1 % 32)).readyCmd seq false 0) := by
  change execHDebugRelease seq s = _
  rw [execHDebugRelease, debugCmd_running _ hrun h]
  simp only [hstate, if_true]

theorem loaded_arm {i : Nat} {g : Graph} (on : Bool) (hg : s.graph? i = some g) : s.arm i on = some (s.setGraph i { g with brk := on }) := by
  rw [State.arm, hg]

theorem hDebugArm_loaded {g : Graph} (hrun : s.running seq 11 = some x) (h : HostCommand.b x.cmd 0 % 16 = 2)
    (hg : s.graph? (HostCommand.b x.cmd 1 % 256) = some g) :
    exec (.hDebugArm seq) s = .next ((s.setGraph (HostCommand.b x.cmd 1 % 256) { g with brk := true }).readyCmd seq false 0) := by
  change execHDebugArm seq s = _
  rw [execHDebugArm, debugCmd_running _ hrun h, loaded_arm true hg]

theorem hDebugDisarm_loaded {g : Graph} (hrun : s.running seq 11 = some x) (h : HostCommand.b x.cmd 0 % 16 = 3)
    (hg : s.graph? (HostCommand.b x.cmd 1 % 256) = some g) :
    exec (.hDebugDisarm seq) s = .next ((s.setGraph (HostCommand.b x.cmd 1 % 256) { g with brk := false }).readyCmd seq false 0) := by
  change execHDebugDisarm seq s = _
  rw [execHDebugDisarm, debugCmd_running _ hrun h, loaded_arm false hg]

theorem hConfigureQueuePriority_sets (hrun : s.running seq 12 = some x) (h : HostCommand.b x.cmd 0 % 16 = 0) :
    exec (.hConfigureQueuePriority seq) s = .next (State.readyCmd { s with control := { s.control with
      queuePrio := Map.put s.control.queuePrio (HostCommand.b x.cmd 1 % 64) (HostCommand.b x.cmd 2 % 4) } } seq false 0) := by
  change execHConfigureQueuePriority seq s = _
  rw [execHConfigureQueuePriority, configCmd_running _ hrun h]

/-- A cap outside 1,000 to 3,800 is refused (R377). -/
theorem hConfigurePowerCap_sets (hrun : s.running seq 12 = some x) (h : HostCommand.b x.cmd 0 % 16 = 1) :
    exec (.hConfigurePowerCap seq) s = .next (if 1000 ≤ HostCommand.b x.cmd 1 ∧ HostCommand.b x.cmd 1 ≤ 3800
      then State.readyCmd (State.byEvent { s with powerCap := HostCommand.b x.cmd 1 } 0 0x801) seq false 0 else s.readyCmd seq false 1) := by
  change execHConfigurePowerCap seq s = _
  rw [execHConfigurePowerCap, configCmd_running _ hrun h]
  simp only [Bool.and_eq_true, decide_eq_true_eq]
  by_cases hcap : 1000 ≤ HostCommand.b x.cmd 1 ∧ HostCommand.b x.cmd 1 ≤ 3800
  · simp only [if_pos hcap]
  · simp only [if_neg hcap]

/-- A descriptor that R322 does not allow is refused (R377). -/
theorem hConfigureExchangeGroup_sets (hrun : s.running seq 12 = some x) (h : HostCommand.b x.cmd 0 % 16 = 2)
    (hnone : Map.find? s.exchange (HostCommand.b x.cmd 1 % 256) = none) :
    let g := groupFrom (memReads s.mem ((HostCommand.b x.cmd 2 + 2 ^ 32 * HostCommand.b x.cmd 3) % 2 ^ 39) 160) s.now
    exec (.hConfigureExchangeGroup seq) s = .next (if g.primary ≠ g.standby ∧ 1700 ≤ g.timeout ∧ g.timeout ≤ 17000000
      then (s.setGroup (HostCommand.b x.cmd 1 % 256) g).readyCmd seq false 0 else s.readyCmd seq false 1) := by
  intro g
  change execHConfigureExchangeGroup seq s = _
  rw [execHConfigureExchangeGroup, configCmd_running _ hrun h]
  simp only [hnone, Bool.false_or]
  by_cases hgood : g.primary ≠ g.standby ∧ 1700 ≤ g.timeout ∧ g.timeout ≤ 17000000
  · have hallowed : g.allowed = true := by simpa [Group.allowed, and_assoc] using hgood
    simp only [if_pos hgood, show groupFrom _ _ = g from rfl, hallowed, Bool.not_true, Bool.false_eq_true, if_false]
  · have hallowed : g.allowed = false := by simpa [Group.allowed, and_assoc] using hgood
    simp only [if_neg hgood, show groupFrom _ _ = g from rfl, hallowed, Bool.not_false, if_true]

theorem hConfigureChip_sets (hrun : s.running seq 12 = some x) (h : HostCommand.b x.cmd 0 % 16 = 3) (hfresh : s.control.chipSet = false) :
    exec (.hConfigureChip seq) s = .next (State.readyCmd { s with
      chipId := HostCommand.b x.cmd 1 % 4096
      reachable := bitmapChips (memReads s.mem ((HostCommand.b x.cmd 2 + 2 ^ 32 * HostCommand.b x.cmd 3) % 2 ^ 39) 384)
      control := { s.control with chipSet := true } } seq false 0) := by
  change execHConfigureChip seq s = _
  rw [execHConfigureChip, configCmd_running _ hrun h]
  simp only [hfresh, Bool.false_and, Bool.false_eq_true, if_false]

theorem hConfigureInstallKey_sets (hrun : s.running seq 12 = some x) (h : HostCommand.b x.cmd 0 % 16 = 4) :
    exec (.hConfigureInstallKey seq) s = .next (State.readyCmd { s with
      domainKeys := Map.put s.domainKeys (HostCommand.b x.cmd 1 % 2) (HostCommand.key x.cmd)
      portCount := dropKey s.portCount (HostCommand.b x.cmd 1 % 2) } seq false 0) := by
  change execHConfigureInstallKey seq s = _
  rw [execHConfigureInstallKey, configCmd_running _ hrun h]

theorem hConfigureSendKey_sets (hrun : s.running seq 12 = some x) (h : HostCommand.b x.cmd 0 % 16 = 5) :
    exec (.hConfigureSendKey seq) s = .next (State.readyCmd { s with sendKey := HostCommand.b x.cmd 1 % 2 } seq false 0) := by
  change execHConfigureSendKey seq s = _
  rw [execHConfigureSendKey, configCmd_running _ hrun h]

theorem hConfigureEraseKey_sets (hrun : s.running seq 12 = some x) (h : HostCommand.b x.cmd 0 % 16 = 6) :
    exec (.hConfigureEraseKey seq) s = .next (State.readyCmd { s with
      domainKeys := Map.del s.domainKeys (HostCommand.b x.cmd 1 % 2)
      portCount := dropKey s.portCount (HostCommand.b x.cmd 1 % 2) } seq false 0) := by
  change execHConfigureEraseKey seq s = _
  rw [execHConfigureEraseKey, configCmd_running _ hrun h]

end

/-- Settles O56: each command runs, and is its own lemma or the law of its kind. -/
theorem hostCommandsAct : Obligations.HostCommandsAct := by
  refine ⟨fun s seq x => ?acts, fun s seq x => ?settings⟩
  case acts =>
    refine ⟨fun s1 g hrun hload => hLoad_ok hrun hload, fun s1 ws hrun hserved => ?unload, fun n hrun hplace hnew => hLaunch_made hrun hplace hnew,
      fun data hrun hhost => ?copy, fun s1 ws hrun hserved => ?preempt, fun s1 ws hrun hserved => ?resume, fun hrun => ?query,
      fun hrun hlive => hJournalRead_live hrun hlive, fun hrun hstep => ?reset, fun hrun hstep hd hstate => ?attest⟩
    case unload =>
      change execHUnload seq s = _
      rw [execHUnload, hrun]
      dsimp only
      rw [hserved]
      rfl
    case copy =>
      exact ⟨fun hstep => hCopy_first hrun hstep,
        fun n hstep hmore hclear hunit hsweep hroom => hCopy_piece hrun hhost hstep hmore hclear hunit (copySweeps_false hsweep) hroom,
        fun n o hstep hkind hstands hfails => hCopy_fault hrun hstep hkind hstands hfails,
        fun n hstep hall hfails hdone hsweep => hCopy_end hrun hhost hstep hall hfails hdone (copySweeps_false hsweep)⟩
    case preempt =>
      change execHPreempt seq s = _
      rw [execHPreempt, hrun]
      dsimp only
      rw [hserved]
      rfl
    case resume =>
      change execHResume seq s = _
      rw [execHResume, hrun]
      dsimp only
      rw [hserved]
      rfl
    case query =>
      refine ⟨fun h => ?_, fun h => ?_, fun h => ?_⟩
      · change execHQueryDieEntry seq s = _
        rw [execHQueryDieEntry, queryCmd_running _ hrun h]
      · change execHQueryErrorCounter seq s = _
        rw [execHQueryErrorCounter, queryCmd_running _ hrun h]
      · change execHQueryExchange seq s = _
        rw [execHQueryExchange, queryCmd_running _ hrun h]
    case reset =>
      exact ⟨fun hbit => hDieReset_first hrun hstep false (by rw [hbit]; rfl),
        fun hbit hstate => hDieReset_first hrun hstep true (by rw [hbit, decide_eq_true hstate]; rfl)⟩
    case attest =>
      exact ⟨_, hAttest_first hrun hstep hd hstate, by rw [die_setDie_same], by rw [die_setDie_same]⟩
  case settings =>
    exact ⟨fun hrun => ⟨fun h hd hstate => hDebugHalt_active hrun h hd hstate, fun h hnot => hDebugHalt_refused hrun h hnot,
        fun h hstate => hDebugRelease_halted hrun h hstate, fun g h hg => hDebugArm_loaded hrun h hg, fun g h hg => hDebugDisarm_loaded hrun h hg⟩,
      fun hrun => ⟨fun h => hConfigureQueuePriority_sets hrun h, fun h => hConfigurePowerCap_sets hrun h, fun h hnone => hConfigureExchangeGroup_sets hrun h hnone,
        fun h hfresh => hConfigureChip_sets hrun h hfresh, fun h => hConfigureInstallKey_sets hrun h, fun h => hConfigureSendKey_sets hrun h,
        fun h => hConfigureEraseKey_sets hrun h⟩⟩

end Sys2Proof.Machine
end

section
/-! PROOFS. The exchange between chips: posts, phases, grants and the two baristas (R301, R302, R323, R386 to R388): O59. -/
namespace Sys2Proof.Machine

section
variable {s : State} {n : Nat} {g : Group}

theorem postArrival_other {m : Nat} (hg : Map.find? s.exchange n = some g) (hsound : g.failed = false) (hm : m < g.members.length)
    (hother : g.indexOf s.chipId ≠ some m) (row : List Nat) :
    let g1 := { g with posts := Map.put g.posts m ((List.range g.members.length).map (fun j => nthD 0 row j % 2 ^ 32)), waiters := g.waiters ++ [] }
    exec (.postArrival n m row) s = .next (if g1.posts.length = g.members.length then s.makeCalendar n g1 else s.setGroup n g1) := by
  have hguard : (g.failed || decide (g.members.length ≤ m)) = false := by simp [hsound, hm]
  change execPostArrival n m row s = _
  rw [execPostArrival, hg]
  simp only [hguard, hother, Bool.false_eq_true, if_false]

/-- A granted sender's marker is kept; with the last one the phase ends (R387). -/
theorem phaseDoneMarker_granted {c : Calendar} {p : CalPhase} {rest : List CalPhase} {m : DoneMarker} (hg : Map.find? s.exchange n = some g)
    (hcur : g.current = some c) (hphases : c.phases = p :: rest) (hrun : c.started.isSome = true) (hsends : p.senders.contains m.member = true)
    (hnew : c.markers.contains m.member = false) (hhere : s.delivered n g c p m = true) :
    let c1 := { c with markers := insSet c.markers m.member, unused := c.unused + if g.indexOf s.chipId = some m.member then 0 else min m.unused p.len }
    exec (.phaseDoneMarker n m) s = .next (if p.senders.all (fun i => (insSet c.markers m.member).contains i)
      then s.endPhase n g c1 0 m.lost m.alive false else s.setGroup n (g.setCal c1)) := by
  intro c1
  have hguard : (c.started.isNone || !p.senders.contains m.member || c.markers.contains m.member || !s.delivered n g c p m) = false := by
    rw [Option.isNone_eq_false_iff.mpr hrun, hsends, hnew, hhere]
    rfl
  change execPhaseDoneMarker n m s = _
  rw [execPhaseDoneMarker, hg]
  dsimp only
  rw [hcur]
  dsimp only
  rw [hphases]
  simp only [hguard, beq_iff_eq, Bool.false_eq_true, if_false]
  rw [← hphases]
  split <;> rfl

theorem phaseTimeout_late {c : Calendar} {t : Nat} {x : LatePhase} (hg : Map.find? s.exchange x.group = some g) (hcur : g.current = some c)
    (hstart : c.started = some t) (hlate : t + g.timeout ≤ s.now) (hhold : s.debugHold = []) :
    exec (.phaseTimeout x) s = .next (s.endPhase x.group g c (min x.unused (c.unmarked (g.indexOf s.chipId))) x.lost x.alive true) := by
  change execPhaseTimeout x s = _
  rw [execPhaseTimeout, hg]
  dsimp only
  rw [hcur]
  dsimp only
  rw [hstart]
  refine congrArg _ (if_pos ?_)
  rw [decide_eq_true hlate, Bool.true_and, Bool.not_eq_true']
  simp only [State.halted, hhold, List.contains_nil]
  split <;> rfl

/-! ### Grants (R279, R302, R387) -/

/-- How many more units a DXCH may send under a grant (R302, R387). -/
def EngCmd.grantRoom (e : EngCmd) (c : Calendar) (me j : Nat) : Nat :=
  min (nthD 0 e.amounts j) (nthD 0 (nthD [] c.demand me) j) - (nthD 0 e.sent j - e.lo)

/-- The running DXCH of a group takes the grant of the running phase: a unit while it allows one, and then the marker. -/
theorem dxchGrant_running {core eid me j : Nat} {e : EngCmd} {c : Calendar} {x : Grant} (hg : Map.find? s.exchange n = some g)
    (he : Map.find? (s.core core).engines eid = some e) (hn : e.exchGroup = n) (hkind : e.kind = .dxch) (hstate : e.state = .running)
    (hcur : g.current = some c) (hme : g.indexOf s.chipId = some me)
    (hgrant : g.grants.find? (fun y => y.cal == c.id && y.phase == c.ended + 1) = some x) (hj : g.indexOf x.dst = some j)
    (hcal : e.cal = some c.id) (hread : e.targets ≠ []) (hstart : c.started.isSome = true) (hnext : e.next ≤ c.ended) :
    exec (.dxchGrant core eid) s = if e.lo < min x.units (e.grantRoom c me j) then .next (s.sendUnit core eid e g c me j)
      else if !s.pathUp (s.baristaDirs core g) then .next s
      else .next (((s.setEngine core eid { e with next := c.ended + 1, startAt := s.now }).setGroup n
        { g with grants := g.grants.filter (fun y => y != x) }).toBaristas core g
        (exchMessage 1 n me (toBytes 4 (c.ended + 1) ++ toBytes 4 (x.units - e.lo) ++ toBytes 4 0))) := by
  have hguard : (decide (e.kind ≠ .dxch) || decide (e.state ≠ .running) || e.cal != some c.id || e.targets.isEmpty || c.started.isNone
      || decide (c.ended < e.next)) = false := by
    simp [hkind, hstate, hcal, hread, Option.isNone_eq_false_iff.mpr hstart, hnext]
  subst hn
  change execDxchGrant core eid s = _
  rw [execDxchGrant, he]
  dsimp only
  rw [hg]
  dsimp only
  rw [hcur, hme]
  dsimp only
  rw [hgrant]
  dsimp only
  rw [hj]
  dsimp only
  rw [hguard]
  rfl

/-- Where the standby in charge has failed, a DXCH that took no grant for four phase timeouts ends its calendar (R388). -/
theorem dxchGrantTimeout_failed {core eid id : Nat} {e : EngCmd} (hg : Map.find? s.exchange n = some g)
    (he : Map.find? (s.core core).engines eid = some e) (hn : e.exchGroup = n) (hkind : e.kind = .dxch) (hstate : e.state = .running)
    (hcal : e.cal = some id) (hread : e.targets ≠ []) (hfailed : s.standbyFailed g = true) (hlate : e.startAt + 4 * g.timeout ≤ s.now)
    (hruns : s.halted (dieOf core) = false) :
    exec (.dxchGrantTimeout core eid) s = .next ((s.setGroup n { g with
      failed := true, posts := [], cals := g.cals.map (fun c => if c.id = id then { c with phases := [], started := none } else c) }).dxchEnd
      core eid e) := by
  have hnow : ¬ s.now < e.startAt + 4 * g.timeout := Nat.not_lt.mpr hlate
  have hguard : (decide (e.kind ≠ .dxch) || decide (e.state ≠ .running) || e.targets.isEmpty || !s.standbyFailed g
      || decide (s.now < e.startAt + 4 * g.timeout) || s.halted (dieOf core)) = false := by
    simp [hkind, hstate, hread, hfailed, hnow, hruns]
  subst hn
  change execDxchGrantTimeout core eid s = _
  rw [execDxchGrantTimeout, he]
  dsimp only
  rw [hg, hcal]
  dsimp only
  rw [hguard]
  rfl

/-! ### Failover (R388) -/

theorem baristaHeartbeat_primary (hg : Map.find? s.exchange n = some g) (hcharge : g.inCharge = false) (hsound : g.failed = false)
    (hup : g.down = false) (hhere : g.primary = s.chipId) (hactive : (s.die g.primaryDie).state = .active) (hlate : g.beat + 13600 ≤ s.now) :
    exec (.baristaHeartbeat n) s = .next (if g.standby != s.chipId
      then (s.setGroup n { g with beat := s.now }).fabric g.standby 4 (exchMessage 2 n 0 []) else s.setGroup n { g with beat := s.now }) := by
  have hissuing : s.issuing g = true := by simp [State.issuing, Group.barista, hcharge, hsound, hup, hhere, hactive]
  have hnow : ¬ s.now < g.beat + 13600 := Nat.not_lt.mpr hlate
  have hprimary : (g.primary == s.chipId) = true := beq_iff_eq.mpr hhere
  change execBaristaHeartbeat n s = _
  rw [execBaristaHeartbeat, hg]
  simp only [hcharge, hprimary, hissuing, decide_eq_false hnow]
  rfl

theorem standbyTakeover_late (hg : Map.find? s.exchange n = some g) (hcharge : g.inCharge = false) (hsound : g.failed = false)
    (hlate : g.beat + 40800 ≤ s.now) (hidle : ∀ c, g.current = some c → c.started = none ∧ g.issued ≤ c.ended)
    (halive : g.standby = s.chipId → (s.die g.standbyDie).state = .active) :
    exec (.standbyTakeover n) s = .next ((s.sendNotices n g).startPhase n { g with inCharge := true, down := false, cals := g.cals.map (fun c =>
      if c.running then { c with phases := phasesOf c.left, standby := true } else c) }) := by
  have hdead : (g.standby == s.chipId && decide ((s.die g.standbyDie).state ≠ .active)) = false := by simpa using halive
  have hnow : ¬ s.now < g.beat + 40800 := Nat.not_lt.mpr hlate
  change execStandbyTakeover n s = _
  rw [execStandbyTakeover, hg]
  refine if_neg ?_
  rw [hcharge, hsound, hdead, decide_eq_false hnow]
  cases hcur : g.current with
  | none => exact Bool.false_ne_true
  | some c => simp [hidle c hcur]

/-- A takeover notice makes the ports drop the primary's grants; at a member on another chip than the standby it also puts that in charge
(R388). -/
theorem takeoverNotice_cases (hg : Map.find? s.exchange n = some g) :
    (g.inCharge = true → exec (.takeoverNotice n) s = .next (s.setGroup n { g with noticed := true, grants := g.grants.filter (fun x => x.epoch) }))
    ∧ (g.inCharge = false → g.standby = s.chipId → exec (.takeoverNotice n) s = .next s)
    ∧ (g.inCharge = false → g.standby ≠ s.chipId →
      exec (.takeoverNotice n) s = .next (s.setGroup n { g.taken with noticed := true, grants := g.grants.filter (fun x => x.epoch) })) := by
  change (_ → execTakeoverNotice n s = _) ∧ (_ → _ → execTakeoverNotice n s = _) ∧ (_ → _ → execTakeoverNotice n s = _)
  simp only [execTakeoverNotice, hg]
  refine ⟨fun hcharge => ?_, fun hcharge hhere => ?_, fun hcharge haway => ?_⟩
  · simp [hcharge]
  · simp [hcharge, hhere]
  · simp [hcharge, haway]
    rfl

end

/-- Settles O59: posts, markers and timeouts by the calendar that runs, then grants, then failover. -/
theorem exchangeRuns : Obligations.ExchangeRuns := by
  intro s n g hg
  obtain ⟨hinCharge, hhere, haway⟩ := takeoverNotice_cases hg
  refine ⟨fun m row hsound hm hother => postArrival_other hg hsound hm hother row,
    fun m c p rest unused lost alive hcur hphases hrun hsends hnew hhere => phaseDoneMarker_granted hg hcur hphases hrun hsends hnew hhere,
    fun c t unused lost alive hcur hstart hlate hhold => phaseTimeout_late hg hcur hstart hlate hhold,
    fun core eid e c me x j he hn hkind hstate hcur hme hgrant hj hcal hread hstart hnext => ?grant,
    fun hcharge hsound hup hprimary hactive hlate => baristaHeartbeat_primary hg hcharge hsound hup hprimary hactive hlate,
    fun hcharge hsound hlate hidle halive => standbyTakeover_late hg hcharge hsound hlate hidle halive, hinCharge, hhere, haway,
    fun core eid e id he hn hkind hstate hcal hread hfailed hlate hruns =>
      dxchGrantTimeout_failed hg he hn hkind hstate hcal hread hfailed hlate hruns⟩
  case grant =>
    have hexec := dxchGrant_running hg he hn hkind hstate hcur hme hgrant hj hcal hread hstart hnext
    refine ⟨fun hmore => hexec.trans (if_pos hmore), fun hdone hup => hexec.trans ((if_neg (Nat.not_lt.mpr hdone)).trans ?_)⟩
    rw [hup]
    rfl

end Sys2Proof.Machine
end


section
/-! PROOFS. What leaves memory alone: tokens, frames, warps, and the memory system as it is asked: O8. -/
namespace Sys2Proof.Machine
open Host

/-- The memory that an instruction leaves; of a fault or a refusal, that before it. -/
def memAfter (s : State) : Outcome State Fault Refusal → List Cell
  | .next t => t.mem
  | .fault _ | .refused _ => s.mem

@[simp] theorem memAfter_next (s t : State) : memAfter s (.next t) = t.mem := rfl

/-! ### Memory, copies and rounds (R195 to R208, R310 to R319) -/

@[simp] theorem putReq_mem (s : State) (r : Req) : (s.putReq r).mem = s.mem := rfl

@[simp] theorem sendRows_mem (s : State) (c : Nat) (ps : List RowPacket) : (s.sendRows c ps).mem = s.mem := rfl

@[simp] theorem dropRows_mem (s : State) (gone : RowPacket → Bool) : (s.dropRows gone).mem = s.mem := rfl

@[simp] theorem askRounds_mem (s : State) (d asid : Nat) (qs : List (Nat × Nat)) :
    (s.askRounds d asid qs).mem = s.mem := foldl_mem _ (fun _ _ => by simp) _ _

@[simp] theorem installLine_mem (s : State) (d : Nat) (l : Line) : (s.installLine d l).mem = s.mem := by
  unfold State.installLine
  dsimp only
  (repeat' split) <;> simp

@[simp] theorem installRdc_mem (s : State) (d : Nat) (l : Line) : (s.installRdc d l).mem = s.mem := by
  unfold State.installRdc
  extract_lets x n
  split
  · rfl
  · rw [setDie_mem]

@[simp] theorem useCopy_mem (s : State) (d : Nat) (l : Line) : (s.useCopy d l).mem = s.mem := rfl

@[simp] theorem poisonRange_mem (s : State) (pa n : Nat) : (s.poisonRange pa n).mem = s.mem := rfl

/-! ### Tokens (R13 to R22, R48, R192, R193, R266, R289, R358) -/

@[simp] theorem countTogether_mem (s : State) (ds : List Nat) (n : Nat) : (s.countTogether ds n).mem = s.mem := rfl

@[simp] theorem sendChip_mem (s : State) (src chip : Nat) (t : Token) : (s.sendChip src chip t).mem = s.mem := by
  unfold State.sendChip
  split <;> simp

@[simp] theorem markLanded_mem (s : State) (c i : Nat) : (s.markLanded c i).mem = s.mem := rfl

theorem appendChain_mem (s : State) (c i : Nat) (mk : Nat → ChainRec) {t : State} (h : s.appendChain c i mk = some t) :
    t.mem = s.mem := by
  unfold State.appendChain at h
  (repeat' split at h) <;> cases h <;> simp

@[simp] theorem address_mem (s : State) (c : Nat) (t : Token) : (s.address c t).mem = s.mem := by
  unfold State.address
  (repeat' split) <;> simp

@[simp] theorem openEntry_mem (s : State) (c i : Nat) (o : Option (Nat × Entry)) : (s.openEntry c i o).mem = s.mem := by
  unfold State.openEntry
  split <;> simp

theorem handleToken_done_mem {s s1 : State} {c : Nat} {t : Token} {log : Bool} (h : s.handleToken c t log = .done s1) :
    s1.mem = s.mem := by
  unfold State.handleToken at h
  split at h
  · cases h; simp
  · split at h
    · cases h
    · split at h
      · cases h
      · next happend => cases h; rw [count_mem, appendChain_mem _ _ _ _ happend]; simp
  · extract_lets s0 asid s2 at h
    have addressed : s0.mem = s.mem := address_mem ..
    have acquired : s2.mem = s.mem := (acquire_mem ..).trans addressed
    clear_value s2 asid s0
    (repeat' split at h) <;> cases h <;> simp [acquired, addressed]

theorem handleToken_again_mem {s s1 : State} {c : Nat} {t t1 : Token} {log : Bool} (h : s.handleToken c t log = .again s1 t1) :
    s1.mem = s.mem := by
  unfold State.handleToken at h
  split at h
  · cases h
  · split at h
    · cases h
    · split at h <;> cases h
  · extract_lets s0 asid s2 at h
    have addressed : s0.mem = s.mem := address_mem ..
    have acquired : s2.mem = s.mem := (acquire_mem ..).trans addressed
    clear_value s2 asid s0
    (repeat' split at h) <;> cases h <;> simp [acquired, addressed]

@[simp] theorem presentOne_mem (s : State) (c i n : Nat) (t : Token) : (s.presentOne c i n t).mem = s.mem := by
  unfold State.presentOne
  dsimp only
  split
  · simp
  all_goals
    split
    · simp
    · next h => rw [setChain_mem, handleToken_again_mem h]
    · next h => rw [freeLog_mem, setChain_mem, handleToken_done_mem h]

@[simp] theorem endPass_mem (s : State) (c i : Nat) : (s.endPass c i).mem = s.mem := by
  unfold State.endPass
  split <;> rfl

/-! ### Carafes, aborts and faults (R22 to R26, R34, R277, R278, R359) -/

@[simp] theorem holdInst_mem (s : State) (c i j code : Nat) : (s.holdInst c i j code).mem = s.mem := by
  unfold State.holdInst
  split <;> simp

@[simp] theorem resumeHeld_mem (s : State) (c i j : Nat) : (s.resumeHeld c i j).mem = s.mem := by
  unfold State.resumeHeld
  (repeat' split) <;> simp

@[simp] theorem poisonHeld_mem (s : State) (c i j : Nat) : (s.poisonHeld c i j).mem = s.mem := by
  simp [State.poisonHeld]

/-! ### Frames and tasks (R11, R36 to R41, R191, R269, R286 to R288) -/

@[simp] theorem evict_mem (s : State) (c i : Nat) (f : Frame) : (s.evict c i f).mem = s.mem := by
  simp [State.evict]

theorem makeRoom_mem {s t : State} {c n fuel : Nat} (h : s.makeRoom c n fuel = some t) : t.mem = s.mem := by
  induction fuel generalizing s with
  | zero => cases h
  | succ fuel ih =>
    unfold State.makeRoom at h
    dsimp only at h
    split at h
    · cases h; rfl
    · split at h
      · cases h
      · exact (ih h).trans (evict_mem ..)

@[simp] theorem sendEntry_mem (s : State) (c task : Nat) (t : Token) : (s.sendEntry c task t).mem = s.mem := by
  unfold State.sendEntry
  dsimp only
  split <;> simp

theorem askFrame_mem {s t : State} {c : Nat} {cr : Creation} (h : s.askFrame c cr = some t) : t.mem = s.mem := by
  unfold State.askFrame at h
  split at h
  · cases h
  · cases h; rfl

@[simp] theorem execFrameCreate_mem (c : Nat) (s : State) : memAfter s (execFrameCreate c s) = s.mem := by
  unfold execFrameCreate
  dsimp only
  (repeat' split) <;> simp

@[simp] theorem rootRetired_mem (s : State) (l : Option Nat) : (s.rootRetired l).mem = s.mem := by
  unfold State.rootRetired
  (repeat' split) <;> simp

@[simp] theorem retire_mem (s : State) (c : Nat) (f : Frame) (parentSerial : DWord) :
    (s.retire c f parentSerial).mem = s.mem := by
  unfold State.retire
  split <;> simp

@[simp] theorem closeFrame_mem (s : State) (c i : Nat) : (s.closeFrame c i).mem = s.mem := by
  unfold State.closeFrame
  split <;> simp

@[simp] theorem releaseFrame_mem (s : State) (c i : Nat) (f : Frame) : (s.releaseFrame c i f).mem = s.mem := by
  have freed : (f.chain.foldl (fun a r => (if r.isWatch then a.count c 0x040 0 1 else a).freeLog c r.log) s).mem = s.mem :=
    foldl_mem _ (fun a r => by split <;> simp) _ _
  unfold State.releaseFrame
  dsimp only
  split
  · rw [retire_mem, setCore_mem, freed]
  · rw [setCore_mem, freed]

@[simp] theorem execFrameRelease_mem (c i : Nat) (s : State) : memAfter s (execFrameRelease c i s) = s.mem := by
  unfold execFrameRelease
  (repeat' split) <;> simp

@[simp] theorem joinFalls_mem (s : State) (c i : Nat) (f : Frame) : (s.joinFalls c i f).mem = s.mem := by
  unfold State.joinFalls
  dsimp only
  split
  · rw [runWatches_mem, storeFrame_mem]
  · exact storeFrame_mem ..

@[simp] theorem execChildRetirement_mem (k : Nat) (s : State) : memAfter s (execChildRetirement k s) = s.mem := by
  unfold execChildRetirement
  dsimp only
  (repeat' split) <;> simp

@[simp] theorem execFreeRequest_mem (c k : Nat) (s : State) : memAfter s (execFreeRequest c k s) = s.mem := by
  unfold execFreeRequest
  dsimp only
  (repeat' split) <;> simp

@[simp] theorem execFrameBringIn_mem (c i : Nat) (s : State) : memAfter s (execFrameBringIn c i s) = s.mem := by
  unfold execFrameBringIn
  split
  · rfl
  · split
    · rfl
    · split
      · rfl
      · next h => rw [memAfter_next, count_mem, setFrame_mem, makeRoom_mem h]

@[simp] theorem setSpill_mem (s : State) (g c : Nat) (r : SpillRing) : (s.setSpill g c r).mem = s.mem := by
  unfold State.setSpill
  split <;> rfl

@[simp] theorem spillTask_mem (s : State) (c : Nat) (e : TaskEntry) : (s.spillTask c e).mem = s.mem := by
  unfold State.spillTask
  dsimp only
  split
  · rfl
  · rw [hwWrite_mem, setSpill_mem]

@[simp] theorem execTaskDispatch_mem (c : Nat) (s : State) : memAfter s (execTaskDispatch c s) = s.mem := by
  unfold execTaskDispatch
  dsimp only
  split
  · rfl
  · rw [memAfter_next]
    cases h : State.askFrame _ _ _ with
    | none => rfl
    | some t => rw [Option.getD_some, askFrame_mem h, setCore_mem]

@[simp] theorem execSpillDrain_mem (c g : Nat) (s : State) : memAfter s (execSpillDrain c g s) = s.mem := by
  unfold execSpillDrain
  dsimp only
  (repeat' split) <;> simp

/-! ### The matching unit and the pour (R14, R18, R22 to R29, R193) -/

@[simp] theorem execTokenLand_mem (c k : Nat) (s : State) : memAfter s (execTokenLand c k s) = s.mem := by
  unfold execTokenLand
  dsimp only
  repeat' split
  · rfl
  · rfl
  · simp
  · next h => rw [memAfter_next, handleToken_done_mem h]; simp
  · simp
  · next h => rw [memAfter_next, setCore_mem, handleToken_again_mem h]; simp
  · rfl

@[simp] theorem execDeferredTokenRepresent_mem (c i : Nat) (s : State) :
    memAfter s (execDeferredTokenRepresent c i s) = s.mem := by
  unfold execDeferredTokenRepresent
  (repeat' split) <;> simp

@[simp] theorem execTokenLogWaitResume_mem (c : Nat) (s : State) : memAfter s (execTokenLogWaitResume c s) = s.mem := by
  unfold execTokenLogWaitResume
  dsimp only
  repeat' split
  · rfl
  · next h => rw [memAfter_next, handleToken_done_mem h]; simp
  · rfl
  · next h => rw [memAfter_next, setCore_mem, handleToken_again_mem h]; simp
  · rfl

@[simp] theorem execRecordInstance_mem (c i j : Nat) (s : State) : memAfter s (execRecordInstance c i j s) = s.mem := by
  unfold execRecordInstance
  dsimp only
  (repeat' split) <;> simp

@[simp] theorem execBrewTimerExpiry_mem (c n : Nat) (s : State) : memAfter s (execBrewTimerExpiry c n s) = s.mem := by
  unfold execBrewTimerExpiry
  dsimp only
  (repeat' split) <;> simp

@[simp] theorem execCarafeLingerExpiry_mem (c n : Nat) (s : State) :
    memAfter s (execCarafeLingerExpiry c n s) = s.mem := by
  unfold execCarafeLingerExpiry
  dsimp only
  (repeat' split) <;> simp

@[simp] theorem execPriorityAging_mem (c g : Nat) (s : State) : memAfter s (execPriorityAging c g s) = s.mem := by
  unfold execPriorityAging
  dsimp only
  (repeat' split) <;> simp

@[simp] theorem execAgePromotion_mem (c n : Nat) (s : State) : memAfter s (execAgePromotion c n s) = s.mem := by
  unfold execAgePromotion
  dsimp only
  (repeat' split) <;> simp

theorem pourOn_keepsMem (s : State) (c n : Nat) (y : Carafe) (b : Block) (p : Nat) :
    (s.pourOn c n y b p).mem = s.mem := by
  cases hslot : (s.core c).freeSlotOf p with
  | none => simp [State.pourOn, hslot]
  | some slot =>
    cases hg : s.graph? y.graph with
    | none => simp [State.pourOn, hslot, hg]
    | some g => exact pourOn_mem hslot hg

@[simp] theorem execPour_mem (c : Nat) (s : State) : memAfter s (execPour c s) = s.mem := by
  unfold execPour
  dsimp only
  repeat' split
  · rfl
  · rfl
  · exact pourOn_keepsMem ..

@[simp] theorem execSyncStallTimeout_mem (c k : Nat) (s : State) : memAfter s (execSyncStallTimeout c k s) = s.mem := by
  unfold execSyncStallTimeout
  (repeat' split) <;> simp

/-! ### Fills, fences and acquires (R32, R209 to R230) -/

@[simp] theorem dropFaulted_mem (s : State) (c g : Nat) :
    (s.dropFaulted c g).mem = s.mem := congrArg Prod.fst (dropFaulted_stored ..)

end Sys2Proof.Machine
end

section
/-! PROOFS. What leaves memory alone: requests on their way, replies, fills and ownership: O8. -/
namespace Sys2Proof.Machine
open Host

/-! ### Requests, replies, fills and ownership (R195 to R208, R213 to R226, R319, R320, R360, R367) -/

@[simp] theorem tlbPut_mem (s : State) (st asid va : Nat) (l : Leaf) : (s.tlbPut st asid va l).mem = s.mem := rfl

theorem translate_mem {s : State} {st asid va : Nat} {r : State × Option Leaf} (h : s.translate st asid va = some r) :
    r.1.mem = s.mem :=
  congrArg Prod.fst (translate_stored h)

@[simp] theorem cleanLines_mem (s : State) (c : Nat) (cid : Option Nat) (idxs : List Nat) :
    (s.cleanLines c cid idxs).mem = s.mem := by
  refine foldl_mem _ (fun a i => ?_) _ _
  dsimp only
  repeat' split
  · rfl
  · rfl
  · rw [setCore_mem, writeBack_mem]

@[simp] theorem recallFrom_mem (s : State) (d asid line : Nat) : (s.recallFrom d asid line).mem = s.mem := by
  unfold State.recallFrom
  (repeat' split) <;> simp

@[simp] theorem execDieDirectoryRecall_mem (die k : Nat) (s : State) :
    memAfter s (execDieDirectoryRecall die k s) = s.mem := by
  unfold execDieDirectoryRecall
  dsimp only
  split <;> simp

@[simp] theorem execOwnerRecall_mem (die k : Nat) (s : State) : memAfter s (execOwnerRecall die k s) = s.mem := by
  unfold execOwnerRecall
  dsimp only
  (repeat' split) <;> simp

theorem askRecall_mem {s t : State} {d asid line : Nat} (h : s.askRecall d asid line = some t) : t.mem = s.mem :=
  congrArg Prod.fst (askRecall_stored h)

theorem askOwner_mem {s t : State} {st asid line keep : Nat} (h : s.askOwner st asid line keep = some t) :
    t.mem = s.mem :=
  congrArg Prod.fst (askOwner_stored h)

theorem recallFor_mem {s t : State} {d st asid line : Nat} (h : s.recallFor d st asid line = some t) : t.mem = s.mem :=
  congrArg Prod.fst (recallFor_stored h)

@[simp] theorem reportHome_mem (s : State) (st entry : Nat) (r : Req) (code : Nat) :
    (s.reportHome st entry r code).mem = s.mem := by
  simp [State.reportHome]

@[simp] theorem markParked_mem (s : State) (r : Req) : (s.markParked r).mem = s.mem := by
  unfold State.markParked
  (repeat' split) <;> simp

@[simp] theorem park_mem (s : State) (rid : Nat) (r : Req) (st code : Nat) (l : Option Leaf) :
    (s.park rid r st code l).mem = s.mem := by
  unfold State.park
  dsimp only
  (repeat' split) <;> simp

@[simp] theorem spreadRound_mem (s : State) (rid : Nat) (r : Req) (scope : Scope) (q n : Nat) :
    (s.spreadRound rid r scope q n).mem = s.mem := rfl

@[simp] theorem failAsk_mem (s : State) (r : Req) (code : Nat) : (s.failAsk r code).mem = s.mem := by
  unfold State.failAsk
  split <;> rfl

@[simp] theorem loadFault_mem (s : State) (rid st : Nat) (r : Req) (code : Nat) :
    (s.loadFault rid st r code).mem = s.mem := by
  unfold State.loadFault
  (repeat' split) <;> simp

@[simp] theorem dropPrefetch_mem (s : State) (rid st : Nat) (r : Req) : (s.dropPrefetch rid st r).mem = s.mem := by
  unfold State.dropPrefetch
  split <;> simp

@[simp] theorem faultReq_mem (s : State) (rid : Nat) (r : Req) (st code : Nat) (l : Option Leaf) :
    (s.faultReq rid r st code l).mem = s.mem := by
  unfold State.faultReq
  (repeat' split) <;> simp

@[simp] theorem remoteReq_mem (s : State) (rid : Nat) (r : Req) (chip : Nat) :
    (s.remoteReq rid r chip).mem = s.mem := by
  unfold State.remoteReq
  split <;> simp

@[simp] theorem startWalk_mem (s : State) (rid : Nat) (r : Req) (st : Nat) : (s.startWalk rid r st).mem = s.mem := by
  unfold State.startWalk
  dsimp only
  (repeat' split) <;> simp

theorem wake_mem {s : State} {rid : Nat} {f : State → Req → State} (h : ∀ r, (f s r).mem = s.mem) :
    (s.wake rid f).mem = s.mem := by
  unfold State.wake
  split
  · rfl
  · exact h _

@[simp] theorem execLoadReturn_mem (core slot k : Nat) (s : State) :
    memAfter s (execLoadReturn core slot k s) = s.mem := by
  unfold execLoadReturn
  (repeat' split) <;> simp

@[simp] theorem execInFlightDecrement_mem (k : Nat) (s : State) : memAfter s (execInFlightDecrement k s) = s.mem := by
  unfold execInFlightDecrement
  (repeat' split) <;> simp

@[simp] theorem dropCopies_mem (s : State) (d asid line : Nat) : (s.dropCopies d asid line).mem = s.mem := rfl

@[simp] theorem execCacheFillArrival_mem (k : Nat) (s : State) : memAfter s (execCacheFillArrival k s) = s.mem := by
  unfold execCacheFillArrival
  split
  · rfl
  · extract_lets dirs l s1 s2 busy
    have dropped : s1.mem = s.mem := by simp [s1]
    have installed : s2.mem = s.mem := by dsimp only [s2]; split <;> simp [dropped]
    repeat' split
    · rfl
    · exact dropped
    · rw [memAfter_next, installRdc_mem, installed]
    · exact installed

@[simp] theorem askOwn_mem (s : State) (c asid line : Nat) : (s.askOwn c asid line).mem = s.mem := by
  unfold State.askOwn
  dsimp only
  split <;> simp

@[simp] theorem hwLoad_mem (s : State) (c g asid ident va : Nat) (elem : Option (Nat × Nat)) :
    (s.hwLoad c g asid ident va elem).mem = s.mem := rfl

@[simp] theorem clearAsk_mem (s : State) (c g asid va : Nat) : (s.clearAsk c g asid va).mem = s.mem := rfl

@[simp] theorem askLine_mem (s : State) (c g asid ident va : Nat) (pref : Bool) :
    (s.askLine c g asid ident va pref).mem = s.mem := congrArg Prod.fst (askLine_stored ..)

@[simp] theorem fillFaulted_mem (s : State) (core : Nat) (f : StashFillReq) (p : Nat × StashFillReq) (ident code : Nat) :
    (s.fillFaulted core f p ident code).mem = s.mem := by
  unfold State.fillFaulted
  (repeat' split) <;> simp

@[simp] theorem execStashFill_mem (core k : Nat) (s : State) : memAfter s (execStashFill core k s) = s.mem := by
  unfold execStashFill
  split
  · rfl
  · extract_lets f d va h ident s0 prefetch dirs
    repeat' split
    · rfl
    · next hask => exact askRecall_mem hask
    · rfl
    · exact fillFaulted_mem ..
    · exact clearAsk_mem ..
    · exact (stashInstall_mem ..).trans (useCopy_mem ..)
    · exact (fillFaulted_mem ..).trans (clearAsk_mem ..)
    · exact askLine_mem ..
    · exact (stashInstall_mem ..).trans (countDie_mem ..)
    · exact askOwn_mem ..
    · next hask =>
      rw [memAfter_next]
      split at hask
      · exact askOwner_mem hask
      · exact askRecall_mem hask
    · rfl
    · rfl
    · rfl
    · next htr _ _ => have hmem := translate_mem htr; exact ((stashInstall_mem ..).trans (atSlice_mem ..)).trans hmem
    · next htr _ _ => have hmem := translate_mem htr; exact ((stashInstall_mem ..).trans (atSlice_mem ..)).trans hmem
    · next htr _ => have hmem := translate_mem htr; exact (fillFaulted_mem ..).trans hmem
    · next htr _ => exact translate_mem htr

@[simp] theorem execOwnershipRequest_mem (k : Nat) (s : State) : memAfter s (execOwnershipRequest k s) = s.mem := by
  unfold execOwnershipRequest
  dsimp only
  repeat' split
  · rfl
  · rfl
  · rfl
  · rfl
  · next hask => exact askOwner_mem hask
  · next hask => exact askRecall_mem hask
  · exact setDie_mem ..
  · rfl
  · next htr => exact translate_mem htr
  · next htr => exact translate_mem htr

@[simp] theorem execUpgradeGrant_mem (k : Nat) (s : State) : memAfter s (execUpgradeGrant k s) = s.mem := by
  unfold execUpgradeGrant
  dsimp only
  (repeat' split) <;> simp

@[simp] theorem execGenWrapSweep_mem (die k : Nat) (s : State) : memAfter s (execGenWrapSweep die k s) = s.mem := by
  unfold execGenWrapSweep
  dsimp only
  split <;> simp

@[simp] theorem execRdcSweepWalker_mem (die k : Nat) (s : State) : memAfter s (execRdcSweepWalker die k s) = s.mem := by
  unfold execRdcSweepWalker
  dsimp only
  split <;> simp

@[simp] theorem execRoundViewUpdate_mem (k : Nat) (s : State) : memAfter s (execRoundViewUpdate k s) = s.mem := by
  unfold execRoundViewUpdate
  (repeat' split) <;> simp

@[simp] theorem execRoundaComplete_mem (k : Nat) (s : State) : memAfter s (execRoundaComplete k s) = s.mem := by
  unfold execRoundaComplete
  dsimp only
  (repeat' split) <;> simp

end Sys2Proof.Machine
end

section
/-! PROOFS. What leaves memory alone: the engines and the exchange: O8. -/
namespace Sys2Proof.Machine
open Host

/-! ### What the engines read and write (R144, R271) -/

@[simp] theorem readNow_mem (s : State) (c g asid ident : Nat) (stash eng : Bool) (va n : Nat) :
    (s.readNow c g asid ident stash eng va n).state.mem = s.mem := congrArg Prod.fst (readNow_stored ..)

@[simp] theorem setEngine_mem (s : State) (c eid : Nat) (e : EngCmd) : (s.setEngine c eid e).mem = s.mem := rfl

@[simp] theorem dropEngine_mem (s : State) (c eid : Nat) : (s.dropEngine c eid).mem = s.mem := rfl

theorem engRead_stored (s : State) (c eid i : Nat) (e : EngCmd) (va n : Nat) :
    (s.engRead c eid i e va n).state.stored = s.stored := by
  unfold State.engRead
  split
  · split <;> rfl
  · split
    · exact foldl_stored _ (fun a p => addReq_stored ..) _ _
    · exact readNow_stored ..

@[simp] theorem engRead_mem (s : State) (c eid i : Nat) (e : EngCmd) (va n : Nat) :
    (s.engRead c eid i e va n).state.mem = s.mem :=
  congrArg Prod.fst (engRead_stored ..)

theorem engRead_busy_mem {s s1 : State} {c eid i va n : Nat} {e : EngCmd} (h : s.engRead c eid i e va n = .busy s1) :
    s1.mem = s.mem := by
  have hmem := engRead_mem s c eid i e va n
  rwa [h] at hmem

theorem engRead_data_mem {s s1 : State} {c eid i va n : Nat} {e : EngCmd} {data : List Byte} {poison : List Nat}
    (h : s.engRead c eid i e va n = .data s1 data poison) : s1.mem = s.mem := by
  have hmem := engRead_mem s c eid i e va n
  rwa [h] at hmem

theorem engRead_fault_mem {s s1 : State} {c eid i va n code addr : Nat} {e : EngCmd}
    (h : s.engRead c eid i e va n = .fault s1 code addr) : s1.mem = s.mem := by
  have hmem := engRead_mem s c eid i e va n
  rwa [h] at hmem

@[simp] theorem keepPart_mem (s : State) (c eid i : Nat) (e : EngCmd) (b : List Byte) (bad : List Nat) :
    (s.keepPart c eid i e b bad).1.mem = s.mem := rfl

@[simp] theorem addOffers_mem (s : State) (c g b : Nat) (m : Map Nat) : (s.addOffers c g b m).mem = s.mem := by
  unfold State.addOffers
  dsimp only
  (repeat' split) <;> simp

@[simp] theorem commitStore_mem (s : State) (c : Nat) (w : Warp) (cid : Nat) (batch : Option Nat) (charge : Option Charge) (va : Nat)
    (data : List Byte) (bad : Bool) :
    (s.commitStore c w cid batch charge va data bad).mem = s.mem := foldl_mem _ (fun _ _ => by simp) _ _

@[simp] theorem storeRuns_mem (s : State) (c : Nat) (w : Warp) (cid : Nat) (batch : Option Nat) (va : Nat)
    (rs : List (Nat × List Byte × Bool)) :
    (s.storeRuns c w cid batch va rs).mem = s.mem := foldl_mem _ (fun _ _ => by simp) _ _

@[simp] theorem openBatch_mem (s : State) (b : Nat) (x : Batch) : (s.openBatch b x).mem = s.mem := by
  unfold State.openBatch
  split <;> simp

/-! ### The engine image (R260, R362) -/

@[simp] theorem writeEngine_mem (s : State) (g c : Nat) (r : RowEngine) (es : List EngCmd) :
    (s.writeEngine g c r es).mem = s.mem := by
  unfold State.writeEngine
  split
  · rfl
  · exact foldl_mem _ (fun _ _ => hwWrite_mem ..) _ _

@[simp] theorem readImage_mem (s : State) (c g : Nat) (x : Graph) (ps : List (Nat × List Byte)) :
    (s.readImage c g x ps).1.mem = s.mem := by
  induction ps generalizing s with
  | nil => rfl
  | cons p t ih =>
    unfold State.readImage
    extract_lets va r
    have hr : r.state.mem = s.mem := by
      dsimp only [r]
      split <;> exact readNow_mem ..
    clear_value r
    cases r with
    | busy s1 => exact hr
    | fault s1 code at' => exact hr
    | data s1 b bad =>
      have hrest := (ih s1).trans hr
      dsimp only
      split <;> next heq => rwa [heq] at hrest

/-! ### The row engine (R144, R232 to R250, R260) -/

@[simp] theorem setRow_mem (s : State) (c : Nat) (r : RowEngine) : (s.setRow c r).mem = s.mem := rfl

@[simp] theorem warpOffer_mem (s : State) (c k : Nat) (vals : List Val) : (s.warpOffer c k vals).mem = s.mem := by
  unfold State.warpOffer
  split <;> rfl

@[simp] theorem execRowCreditReturn_mem (k : Nat) (s : State) : memAfter s (execRowCreditReturn k s) = s.mem := by
  unfold execRowCreditReturn
  dsimp only
  (repeat' split) <;> simp

@[simp] theorem execRowCreditGrant_mem (c : Nat) (s : State) : memAfter s (execRowCreditGrant c s) = s.mem := by
  unfold execRowCreditGrant
  dsimp only
  (repeat' split) <;> simp

@[simp] theorem revokeGrants_mem (s0 : State) (c : Nat) :
    (s0.revokeGrants c).mem = s0.mem := foldl_mem _ (fun _ _ => by simp) _ _

@[simp] theorem grantInputs_mem (c : Nat) (l : List (RowInput × Nat)) (s : State) :
    (grantInputs c l s).mem = s.mem := by
  induction l generalizing s with
  | nil => rfl
  | cons x t ih =>
    unfold grantInputs
    split
    · exact ih s
    · exact (ih _).trans (setCore_mem ..)

@[simp] theorem releaseRow_mem (s : State) (c : Nat) : (s.releaseRow c).mem = s.mem := rfl

@[simp] theorem endReservation_mem (s : State) (c k g : Nat) : (s.endReservation c k g).mem = s.mem := by
  unfold State.endReservation
  dsimp only
  split <;> simp

@[simp] theorem discardEngine_mem (s : State) (c eid : Nat) (e : EngCmd) : (s.discardEngine c eid e).mem = s.mem := rfl

@[simp] theorem dropFeeds_mem (s : State) (c : Nat) :
    (s.dropFeeds c).mem = s.mem := foldl_mem _ (fun _ _ => by split <;> simp) _ _

theorem mxcfgAct_mem (s : State) (c k g : Nat) (ws : List Word) {t : State} (h : s.mxcfgAct c k g ws = some t) :
    t.mem = s.mem := by
  unfold State.mxcfgAct at h
  (repeat' split at h) <;> cases h <;> simp

@[simp] theorem execEngineOwnershipTransfer_mem (c : Nat) (s : State) :
    memAfter s (execEngineOwnershipTransfer c s) = s.mem := by
  unfold execEngineOwnershipTransfer
  extract_lets r
  split
  · rfl
  · next g _ _ =>
    split
    · rfl
    · next x _ =>
      split
      · rfl
      · split
        · rfl
        · next im _ =>
          split
          · rfl
          · extract_lets all mine
            have hread := readImage_mem s c g x (im.imageParts (mine.map (fun e => e.2)))
            split
            · next heq => rwa [heq] at hread
            · next heq =>
              rw [heq] at hread
              rw [memAfter_next, grantInputs_mem, foldl_mem _ (fun a e => setEngine_mem ..), setRow_mem, setGraph_mem, hread]

theorem bldqAct_mem (s : State) (c : Nat) (qs : List (Nat × BQuarter)) {t : State} (h : s.bldqAct c qs = some t) :
    t.mem = s.mem := by
  unfold State.bldqAct at h
  dsimp only at h
  (repeat' split at h) <;> cases h <;> simp

@[simp] theorem execBqSwap_mem (c q : Nat) (s : State) : memAfter s (execBqSwap c q s) = s.mem := by
  unfold execBqSwap
  dsimp only
  split <;> simp

@[simp] theorem execRowPacketArrival_mem (k : Nat) (s : State) : memAfter s (execRowPacketArrival k s) = s.mem := by
  unfold execRowPacketArrival
  dsimp only
  (repeat' split) <;> simp

@[simp] theorem tryFire_mem (s : State) (c i : Nat) : (s.tryFire c i).1.mem = s.mem := by
  unfold State.tryFire
  dsimp only
  repeat' split
  all_goals simp

@[simp] theorem fireInputs_mem (c : Nat) (l : List Nat) (room : Nat) (first : Option Nat) (s : State) :
    (fireInputs c l room first s).1.mem = s.mem := by
  induction l generalizing room first s with
  | nil => rfl
  | cons i t ih =>
    unfold fireInputs
    split
    · rfl
    · exact (ih ..).trans (tryFire_mem ..)

@[simp] theorem execRowFire_mem (c : Nat) (s : State) : memAfter s (execRowFire c s) = s.mem := by
  unfold execRowFire
  dsimp only
  (repeat' split) <;> simp

@[simp] theorem execPartialAdd_mem (c k : Nat) (s : State) : memAfter s (execPartialAdd c k s) = s.mem := by
  unfold execPartialAdd
  dsimp only
  (repeat' split) <;> simp

@[simp] theorem execEndPacket_mem (c i : Nat) (s : State) : memAfter s (execEndPacket c i s) = s.mem := by
  unfold execEndPacket
  dsimp only
  (repeat' split) <;> simp

@[simp] theorem acczAct_mem (s : State) (c n : Nat) : (s.acczAct c n).mem = s.mem := by
  simp [State.acczAct]

@[simp] theorem mxseqAct_mem (s : State) (c : Nat) (w : Warp) (n frame reply ctl flags : Nat) :
    (s.mxseqAct c w n frame reply ctl flags).mem = s.mem := rfl

theorem accwbAct_mem {s t : State} {c k : Nat} {w : Warp} {cid n addr stride flags : Nat} (h : s.accwbAct c k w cid n addr stride flags = some t) :
    t.mem = s.mem := by
  unfold State.accwbAct at h
  split at h
  · cases h
  · next hcharge =>
    cases h
    refine (foldl_mem _ (fun _ _ => storeRuns_mem ..) _ _).trans ?_
    simp [charge_mem hcharge]

@[simp] theorem execAccwbReadoutEnd_mem (c n : Nat) (s : State) : memAfter s (execAccwbReadoutEnd c n s) = s.mem := rfl

theorem foldl_option_mem {α : Type} {f : Option State → α → Option State}
    (h : ∀ a x t, f a x = some t → ∃ u, a = some u ∧ t.mem = u.mem) {l : List α} {a : Option State} {t : State}
    (hfold : l.foldl f a = some t) : ∃ u, a = some u ∧ t.mem = u.mem := by
  induction l generalizing a with
  | nil => exact ⟨t, hfold, rfl⟩
  | cons x rest ih =>
    obtain ⟨u, hu, hmem⟩ := ih hfold
    obtain ⟨v, hv, hstep⟩ := h a x u hu
    exact ⟨v, hv, hmem.trans hstep⟩

theorem storeCharged_mem {s t : State} {c : Nat} {w : Warp} {cid va : Nat} {rs : List (Nat × List Byte × Bool)}
    (h : s.storeCharged c w cid va rs = some t) : t.mem = s.mem := by
  obtain ⟨u, hu, hmem⟩ := foldl_option_mem (fun a r u hrun => foldl_option_mem (fun b p v hpart => by
    obtain ⟨x, hx, hcharge⟩ := Option.bind_eq_some_iff.mp hpart
    refine ⟨x, hx, ?_⟩
    split at hcharge
    · cases hcharge
    · next hc => cases hcharge; exact (commitStore_mem ..).trans (charge_mem hc)) hrun) h
  cases hu
  exact hmem

theorem accstAct_mem {s t : State} {c k : Nat} {w : Warp} {cid n addr row flags pc : Nat}
    (h : s.accstAct c k w cid n addr row flags pc = some t) : t.mem = s.mem := by
  unfold State.accstAct at h
  dsimp only at h
  obtain ⟨s1, hstore, rfl⟩ := Option.map_eq_some_iff.mp h
  exact (warpOffer_mem ..).trans (storeCharged_mem hstore)

@[simp] theorem fchbindAct_mem (s : State) (c ch : Nat) (cfg scale : Word) :
    (s.fchbindAct c ch cfg scale).mem = s.mem := rfl

@[simp] theorem rowsRead_mem (s : State) (c eid : Nat) (e : EngCmd) (ch : Chan) (i : Nat) :
    (s.rowsRead c eid e ch i).1.state.mem = s.mem := by
  unfold State.rowsRead
  extract_lets addr aux
  split
  · split
    · next hread => exact engRead_busy_mem hread
    · next hread => exact engRead_fault_mem hread
    · next hread =>
      extract_lets x e1 blocks first r
      have hblocks : r.1.state.mem = s.mem := by
        have hr := congrArg Prod.fst (readBlocks_stored (rd := fun (t : State) (va n : Nat) => t.engRead c eid (8 * i + 1 + b2n (va != first)) e1 va n)
          (fun _ _ _ => engRead_stored ..) addr blocks x.1)
        have hmem := engRead_data_mem hread
        exact hr.trans hmem
      split <;> next heq => rwa [heq] at hblocks
  · split
    · next hread => exact engRead_busy_mem hread
    · next hread => exact engRead_fault_mem hread
    · next hread =>
      have hrow := engRead_data_mem hread
      split
      · exact hrow
      · dsimp only
        split
        · next hscales => exact ((engRead_busy_mem hscales).trans (keepPart_mem ..)).trans hrow
        · next hscales => exact ((engRead_fault_mem hscales).trans (keepPart_mem ..)).trans hrow
        · next hscales => exact ((engRead_data_mem hscales).trans (keepPart_mem ..)).trans hrow

@[simp] theorem rowsAdvance_mem (s : State) (c eid : Nat) (e : EngCmd) : (s.rowsAdvance c eid e).mem = s.mem := by
  unfold State.rowsAdvance
  split <;> rfl

@[simp] theorem execRowsRowSend_mem (c eid : Nat) (s : State) : memAfter s (execRowsRowSend c eid s) = s.mem := by
  unfold execRowsRowSend
  split
  · rfl
  · split
    · extract_lets ch six ts isEnd two hdr i bySeq arow seq send r
      have hsend (a : State) (payload scales : List Byte) (stop : Nat) (bad : Bool) : (send a payload scales stop bad).mem = a.mem := by
        dsimp only [send]
        split
        · rfl
        · rw [rowsAdvance_mem, sendRows_mem, setCore_mem]
      have hread : r.1.state.mem = s.mem := rowsRead_mem ..
      generalize (if two = true then 2 else 1) = need
      clear_value send r
      split
      · rfl
      · split
        · exact hsend ..
        · split
          · rfl
          · split
            · next hbusy => rwa [hbusy] at hread
            · rfl
            · next hdata =>
              rw [hdata] at hread
              exact ((hsend ..).trans (count_mem ..)).trans hread
    · rfl

/-! ### The sparse units (R251 to R258) -/

@[simp] theorem setUnit_mem (s : State) (c n : Nat) (u : IsUnit) : (s.setUnit c n u).mem = s.mem := rfl

@[simp] theorem setSacc_mem (s : State) (c n : Nat) (x : Sacc) : (s.setSacc c n x).mem = s.mem := rfl

@[simp] theorem insert_mem (s : State) (c : Nat) (x : Insert) : (s.insert c x).mem = s.mem := by
  unfold State.insert
  dsimp only
  (repeat' split) <;> simp

@[simp] theorem sacciAct_mem (s : State) (c acc : Nat) (pairs : List (Word × Word)) :
    (s.sacciAct c acc pairs).mem = s.mem := foldl_mem _ (fun _ _ => by simp) _ _

@[simp] theorem execSparseInsert_mem (c k : Nat) (s : State) : memAfter s (execSparseInsert c k s) = s.mem := by
  unfold execSparseInsert
  dsimp only
  repeat' split
  · rfl
  · rfl
  · exact (foldl_mem _ (fun _ _ => sendToken_mem ..) _ _).trans (insert_mem ..)

@[simp] theorem iscfgAct_mem (s : State) (c : Nat) (w : Warp) (n cfg reply : Nat) :
    (s.iscfgAct c w n cfg reply).mem = s.mem := foldl_mem _ (fun _ _ => by split <;> simp) _ _

theorem saccfAct_mem {s t : State} {c : Nat} {w : Warp} {cid acc caddr vaddr ctl flags : Nat}
    (h : s.saccfAct c w cid acc caddr vaddr ctl flags = some t) : t.mem = s.mem := by
  unfold State.saccfAct at h
  split at h
  · cases h
  · next hcharge =>
    cases h
    rw [batchStep_mem, storeRuns_mem, storeRuns_mem, ← charge_mem hcharge]
    rfl

@[simp] theorem isxFeed_mem (s : State) (c eid : Nat) (e : EngCmd) : (s.isxFeed c eid e).mem = s.mem := by
  unfold State.isxFeed
  dsimp only
  split
  · rfl
  · split
    · next hread => exact engRead_busy_mem hread
    · rfl
    · next hread =>
      have hcoord := engRead_data_mem hread
      split
      · simp [hcoord]
      · split
        · next hvals => exact (engRead_busy_mem hvals).trans hcoord
        · exact hcoord
        · next hvals => simp [engRead_data_mem hvals, hcoord]

@[simp] theorem popSide_mem (s : State) (c n : Nat) (b : Bool) (f : FibSide → FibSide) :
    (s.popSide c n b f).mem = s.mem := by
  unfold State.popSide
  dsimp only
  (repeat' split) <;> simp

@[simp] theorem queueInsert_mem (s : State) (c : Nat) (x : Insert) : (s.queueInsert c x).mem = s.mem := rfl

@[simp] theorem notify_mem (s : State) (c n level : Nat) : (s.notify c n level).mem = s.mem := by
  unfold State.notify
  dsimp only
  (repeat' split) <;> simp

@[simp] theorem startSkip_mem (s : State) (c n : Nat) (b : Bool) : (s.startSkip c n b).mem = s.mem := by
  simp [State.startSkip]

@[simp] theorem passOver_mem (s : State) (c n : Nat) (b count : Bool) : (s.passOver c n b count).mem = s.mem := by
  unfold State.passOver
  split <;> simp

@[simp] theorem countPop_mem (s : State) (c n : Nat) (b : Bool) : (s.countPop c n b).mem = s.mem := by
  unfold State.countPop
  split <;> rfl

@[simp] theorem popData_mem (s : State) (c n : Nat) (b : Bool) (e : FibEntry) : (s.popData c n b e).mem = s.mem := by
  simp [State.popData]

@[simp] theorem closeBoth_mem (s : State) (c n la lb : Nat) : (s.closeBoth c n la lb).mem = s.mem := by
  unfold State.closeBoth
  dsimp only
  split <;> simp

@[simp] theorem intersectMode_mem (s : State) (c n : Nat) : (s.intersectMode c n).mem = s.mem := by
  unfold State.intersectMode
  dsimp only
  (repeat' split) <;> simp

@[simp] theorem scaleMode_mem (s : State) (c n : Nat) : (s.scaleMode c n).mem = s.mem := by
  unfold State.scaleMode
  dsimp only
  (repeat' split) <;> simp

@[simp] theorem execIntersectStep_mem (c n : Nat) (s : State) : memAfter s (execIntersectStep c n s) = s.mem := by
  unfold execIntersectStep
  split <;> simp

@[simp] theorem elemStore_mem (s : State) (c eid i : Nat) (e : EngCmd) (va : Nat) (data : List Byte) (bad : Bool) (cid : Option Nat) :
    (s.elemStore c eid i e va data bad cid).mem = s.mem := foldl_mem _ (fun _ _ => by simp) _ _

@[simp] theorem elemPart_mem (s : State) (c eid i : Nat) (e : EngCmd) (va : Nat) (data : List Byte) (poison : List Nat) :
    (s.elemPart c eid i e va data poison).mem = s.mem := rfl

@[simp] theorem nzEnd_mem (s : State) (c eid : Nat) (e : EngCmd) (poison : Bool) :
    (s.nzEnd c eid e poison).mem = s.mem := by
  unfold State.nzEnd
  dsimp only
  split <;> simp

@[simp] theorem nzStep_mem (s : State) (c eid : Nat) (e : EngCmd) : (s.nzStep c eid e).mem = s.mem := by
  unfold State.nzStep
  dsimp only
  split
  · exact nzEnd_mem ..
  · split
    · next hread => exact engRead_busy_mem hread
    · rfl
    · next hread => 
      have hmem := engRead_data_mem hread
      repeat' split
      all_goals simp [hmem]

@[simp] theorem nzReply_mem (s : State) (c eid : Nat) (e : EngCmd) : (s.nzReply c eid e).mem = s.mem := by
  unfold State.nzReply
  split <;> simp

/-! ### Copies, gathers and streams (R137, R271 to R276, R293 to R300) -/

@[simp] theorem enterEngine_mem (s : State) (c : Nat) (e : EngCmd) (cid : Nat) :
    (s.enterEngine c e cid).mem = s.mem := rfl

@[simp] theorem execOperandsConsumed_mem (c buf : Nat) (s : State) :
    memAfter s (execOperandsConsumed c buf s) = s.mem := by
  unfold execOperandsConsumed
  dsimp only
  (repeat' split) <;> simp

@[simp] theorem execEngineCommandStart_mem (c eid : Nat) (s : State) :
    memAfter s (execEngineCommandStart c eid s) = s.mem := by
  unfold execEngineCommandStart
  dsimp only
  (repeat' split) <;> simp

@[simp] theorem execIndirectStreamStart_mem (d : Nat) (s : State) :
    memAfter s (execIndirectStreamStart d s) = s.mem := by
  unfold execIndirectStreamStart
  dsimp only
  (repeat' split) <;> simp

@[simp] theorem elemSource_mem (s : State) (c eid i : Nat) (e : EngCmd) (src n : Nat) :
    (s.elemSource c eid i e src n).state.mem = s.mem := by
  unfold State.elemSource
  split
  · split <;> rfl
  · exact engRead_mem ..

@[simp] theorem elemDone_mem (s : State) (c eid i : Nat) (e : EngCmd) : (s.elemDone c eid i e).mem = s.mem := rfl

@[simp] theorem stashWrite_mem (s : State) (c idx va : Nat) (data : List Byte) (poison : List Nat) (elem : Bool) :
    (s.stashWrite c idx va data poison elem).mem = s.mem := by
  unfold State.stashWrite
  dsimp only
  split <;> simp

theorem stashReady_mem {s s1 : State} {c eid i j va : Nat} {e : EngCmd} (h : s.stashReady c eid i j e va = .waits s1) :
    s1.mem = s.mem := by
  unfold State.stashReady at h
  split at h
  · cases h
  · extract_lets idx here at h
    clear_value here
    split at h
    · cases h
    · split at h
      · cases h; rfl
      · split at h
        · next hread => cases h; exact engRead_busy_mem hread
        · cases h; rfl
        · next hread =>
          split at h
          · cases h
          · have hmem := engRead_data_mem hread
            cases h
            exact hmem

@[simp] theorem stashParts_mem (c eid i : Nat) (e : EngCmd) (data : List Byte) (poison : List Nat) (j : Nat) (ps : List (Nat × Nat × Nat))
    (s : State) : (stashParts c eid i e data poison j ps s).1.mem = s.mem := by
  induction ps generalizing j s with
  | nil => rfl
  | cons p t ih =>
    unfold stashParts
    split
    · next h => exact stashReady_mem h
    · exact ih ..
    · exact ih ..
    · dsimp only
      split
      · exact (stashWrite_mem ..).trans (ih ..)
      · exact ih ..

@[simp] theorem elemParts_mem (s : State) (c eid i : Nat) (e : EngCmd) (data : List Byte) (poison : List Nat)
    (ps : List (Nat × Nat × Nat)) :
    (s.elemParts c eid i e data poison ps).mem = s.mem := foldl_mem _ (fun _ _ => by simp) _ _

@[simp] theorem elemWrite_mem (s : State) (c eid i : Nat) (e : EngCmd) (dest pair dst : Nat) (data : List Byte) (poison : List Nat) :
    (s.elemWrite c eid i e dest pair dst data poison).mem = s.mem := by
  unfold State.elemWrite
  dsimp only
  (repeat' split) <;> simp

theorem elemSource_busy_mem {s s1 : State} {c eid i src n : Nat} {e : EngCmd} (h : s.elemSource c eid i e src n = .busy s1) :
    s1.mem = s.mem := by
  have hmem := elemSource_mem s c eid i e src n
  rwa [h] at hmem

theorem elemSource_data_mem {s s1 : State} {c eid i src n : Nat} {e : EngCmd} {data : List Byte} {bad : List Nat}
    (h : s.elemSource c eid i e src n = .data s1 data bad) : s1.mem = s.mem := by
  have hmem := elemSource_mem s c eid i e src n
  rwa [h] at hmem

@[simp] theorem copyElem_mem (s : State) (c eid i : Nat) (e : EngCmd) : (s.copyElem c eid i e).mem = s.mem := by
  unfold State.copyElem
  dsimp only
  split
  · next hread => exact elemSource_busy_mem hread
  · rfl
  · next hread => exact (elemWrite_mem ..).trans (elemSource_data_mem hread)

@[simp] theorem fillElem_mem (s : State) (c eid i : Nat) (e : EngCmd) : (s.fillElem c eid i e).mem = s.mem := by
  unfold State.fillElem
  dsimp only
  split
  · next hread => exact engRead_busy_mem hread
  · rfl
  · next hread => rw [elemDone_mem, setCore_mem, engRead_data_mem hread]

@[simp] theorem indexedElem_mem (s : State) (c eid i : Nat) (e : EngCmd) : (s.indexedElem c eid i e).mem = s.mem := by
  unfold State.indexedElem
  extract_lets iw n
  split
  · next hread => exact engRead_busy_mem hread
  · rfl
  · next hread =>
    have hindex := engRead_data_mem hread
    dsimp only
    split
    · split
      · simp [hindex]
      · split
        · next hvals => simp [engRead_busy_mem hvals, hindex]
        · simp [hindex]
        · next hvals => simp [engRead_data_mem hvals, hindex]
    · split
      · simp [hindex]
      · split
        · next hvals => simp [elemSource_busy_mem hvals, hindex]
        · simp [hindex]
        · next hvals => simp [elemSource_data_mem hvals, hindex]

@[simp] theorem complete_mem (s : State) (c eid : Nat) (t : Token) (fin : State → State) (h : ∀ a, (fin a).mem = a.mem) :
    (s.complete c eid t fin).mem = s.mem := by
  have ended (a : State) : (((fin a).dropEngine c eid).sendToken c t).mem = a.mem := by rw [sendToken_mem, dropEngine_mem, h]
  unfold State.complete
  dsimp only
  split
  · exact ended s
  · split
    · exact cleanCore_mem ..
    · exact (ended _).trans (cleanCore_mem ..)

@[simp] theorem execStreamElement_mem (c n : Nat) (s : State) : memAfter s (execStreamElement c n s) = s.mem := by
  unfold execStreamElement
  dsimp only
  split
  · rfl
  · split
    · rfl
    · split
      · split
        · rfl
        · exact elemStore_mem ..
      · split
        · rfl
        · split
          · next hread => exact engRead_busy_mem hread
          · rfl
          · next hread =>
            have hmem := engRead_data_mem hread
            rw [memAfter_next]
            split <;> simp [hmem]

@[simp] theorem logWrite_mem (s : State) (c eid : Nat) (e : EngCmd) (stage va : Nat) (data : List Byte) :
    (s.logWrite c eid e stage va data).mem = s.mem := by
  simp [State.logWrite]

@[simp] theorem logEntry_mem (s : State) (c eid : Nat) (e : EngCmd) (g : Graph) :
    (s.logEntry c eid e g).mem = s.mem := by
  unfold State.logEntry
  dsimp only
  split
  · next hread => exact engRead_busy_mem hread
  · rfl
  · next hread =>
    have hhead := engRead_data_mem hread
    split
    · simp [hhead]
    · split
      · next hold => exact (engRead_busy_mem hold).trans hhead
      · exact hhead
      · next hold => simp [engRead_data_mem hold, hhead]

@[simp] theorem endStore_mem (s : State) (c eid : Nat) (e : EngCmd) : (s.endStore c eid e).mem = s.mem := by
  simp [State.endStore]

@[simp] theorem execStreamClose_mem (c n : Nat) (s : State) : memAfter s (execStreamClose c n s) = s.mem := by
  unfold execStreamClose
  (repeat' split) <;> simp

@[simp] theorem execStreamControlDelivery_mem (c eid : Nat) (s : State) :
    memAfter s (execStreamControlDelivery c eid s) = s.mem := by
  unfold execStreamControlDelivery
  dsimp only
  (repeat' split) <;> simp

/-! ### The exchange (R279, R301 to R303, R322, R323, R386 to R388) -/

@[simp] theorem setGroup_mem (s : State) (n : Nat) (g : Group) : (s.setGroup n g).mem = s.mem := rfl

@[simp] theorem sendGrants_mem (s : State) (n : Nat) (g : Group) (c : Calendar) (k : Nat) :
    (s.sendGrants n g c k).mem = s.mem := by
  unfold State.sendGrants
  split
  · rfl
  · refine foldl_mem _ (fun a x => ?_) _ _
    dsimp only
    split
    · rfl
    · exact fabric_mem ..

@[simp] theorem startPhase_mem (s : State) (n : Nat) (g : Group) : (s.startPhase n g).mem = s.mem := by
  unfold State.startPhase
  split
  · exact setGroup_mem ..
  · split
    · exact setGroup_mem ..
    · extract_lets g1 g2 s1 base
      split
      · exact (setGroup_mem ..).trans (foldl_mem _ (fun _ _ => sendGrants_mem ..) _ _)
      · exact setGroup_mem ..

@[simp] theorem toBaristas_mem (s : State) (c : Nat) (g : Group) (payload : List Byte) :
    (s.toBaristas c g payload).mem = s.mem := foldl_mem _ (fun _ _ => by split <;> simp) _ _

@[simp] theorem dpostStep_mem (s : State) (c eid : Nat) (e : EngCmd) : (s.dpostStep c eid e).mem = s.mem := by
  unfold State.dpostStep
  split
  · rfl
  · split
    · rfl
    · split
      · rfl
      · split
        · next hread => exact engRead_busy_mem hread
        · rfl
        · next hread => rw [toBaristas_mem, setEngine_mem, engRead_data_mem hread]

@[simp] theorem unitArrives_mem (s : State) (c eid : Nat) (e : EngCmd) (cal : Calendar) (me j : Nat) (data : List Byte) (bad : List Nat) :
    (s.unitArrives c eid e cal me j data bad).mem = s.mem := foldl_mem _ (fun _ _ => by simp) _ _

@[simp] theorem dxchEnd_mem (s : State) (c eid : Nat) (e : EngCmd) : (s.dxchEnd c eid e).mem = s.mem := by
  simp [State.dxchEnd]

@[simp] theorem dxchStep_mem (s : State) (c eid : Nat) (e : EngCmd) : (s.dxchStep c eid e).mem = s.mem := by
  unfold State.dxchStep
  split
  · rfl
  · split
    · split
      · rfl
      · exact (setGroup_mem ..).trans (setEngine_mem ..)
    · split
      · rfl
      · split
        · split
          · next hread => exact engRead_busy_mem hread
          · rfl
          · next hread => exact (setEngine_mem ..).trans (engRead_data_mem hread)
        · split
          · rfl
          · exact dxchEnd_mem ..

@[simp] theorem dxchOver_mem (s : State) (e : EngCmd) : (s.dxchOver e).mem = s.mem := by
  unfold State.dxchOver
  (repeat' split) <;> simp

@[simp] theorem makeCalendar_mem (s : State) (n : Nat) (g : Group) : (s.makeCalendar n g).mem = s.mem := by
  unfold State.makeCalendar
  extract_lets d ps cal s1 fresh
  refine (startPhase_mem ..).trans (foldl_mem _ (fun a w => ?_) _ _)
  split
  · rfl
  · exact setEngine_mem ..

@[simp] theorem execPostArrival_mem (group member : Nat) (row : List Nat) (s : State) :
    memAfter s (execPostArrival group member row s) = s.mem := by
  unfold execPostArrival
  dsimp only
  (repeat' split) <;> simp

@[simp] theorem phaseOver_mem (s : State) (n : Nat) (g : Group) (c : Calendar) (p : CalPhase) (lost : Nat) :
    (s.phaseOver n g c p lost).1.mem = s.mem := by
  unfold State.phaseOver
  dsimp only
  split <;> simp

@[simp] theorem shadowUpdate_mem (s : State) (n : Nat) (g : Group) (ended : Nat) (timed : Bool) :
    (s.shadowUpdate n g ended timed).mem = s.mem := by
  unfold State.shadowUpdate
  split <;> rfl

@[simp] theorem sendNotices_mem (s : State) (n : Nat) (g : Group) : (s.sendNotices n g).mem = s.mem := by
  unfold State.sendNotices
  split
  · rfl
  · exact foldl_mem _ (fun _ _ => fabric_mem ..) _ _

@[simp] theorem endPhase_mem (s : State) (n : Nat) (g : Group) (c : Calendar) (late lost : Nat) (alive timed : Bool) :
    (s.endPhase n g c late lost alive timed).mem = s.mem := by
  unfold State.endPhase
  (repeat' split) <;> simp

@[simp] theorem execPhaseDoneMarker_mem (group : Nat) (m : DoneMarker) (s : State) :
    memAfter s (execPhaseDoneMarker group m s) = s.mem := by
  unfold execPhaseDoneMarker
  dsimp only
  (repeat' split) <;> simp

@[simp] theorem execPhaseTimeout_mem (late : LatePhase) (s : State) : memAfter s (execPhaseTimeout late s) = s.mem := by
  unfold execPhaseTimeout
  dsimp only
  (repeat' split) <;> simp

theorem fabric_in_mem (s : State) (chip cls : Nat) (b : List Byte) (at' : Option (Nat × Nat × Nat)) :
    (s.fabric chip cls b at').mem = s.mem := rfl

@[simp] theorem sendUnit_mem (s : State) (c eid : Nat) (e : EngCmd) (g : Group) (cal : Calendar) (me j : Nat) :
    (s.sendUnit c eid e g cal me j).mem = s.mem := by
  unfold State.sendUnit
  extract_lets i va chip dirs
  split
  · rfl
  · split
    · next hread => exact engRead_busy_mem hread
    · rfl
    · next hread =>
      have hmem := engRead_data_mem hread
      dsimp only
      split
      · rw [unitArrives_mem, hmem]
      · rw [foldl_mem _ (fun _ _ => fabric_in_mem ..), countFlits_mem, setEngine_mem, hmem]

@[simp] theorem execDxchGrant_mem (core eid : Nat) (s : State) : memAfter s (execDxchGrant core eid s) = s.mem := by
  unfold execDxchGrant
  dsimp only
  (repeat' split) <;> simp

theorem exchangeData_mem (s : State) (die schip : Nat) (payload : List Byte) (sentIn : Option (Nat × Nat × Nat)) {t : State}
    (h : s.exchangeData die schip payload sentIn = some t) :
    t.mem = s.mem := by
  unfold State.exchangeData at h
  dsimp only at h
  (repeat' split at h) <;> cases h <;> simp

@[simp] theorem execBaristaHeartbeat_mem (group : Nat) (s : State) :
    memAfter s (execBaristaHeartbeat group s) = s.mem := by
  unfold execBaristaHeartbeat
  dsimp only
  (repeat' split) <;> simp

@[simp] theorem execStandbyTakeover_mem (group : Nat) (s : State) :
    memAfter s (execStandbyTakeover group s) = s.mem := by
  unfold execStandbyTakeover
  dsimp only
  (repeat' split) <;> simp

@[simp] theorem execTakeoverNotice_mem (group : Nat) (s : State) : memAfter s (execTakeoverNotice group s) = s.mem := by
  unfold execTakeoverNotice
  dsimp only
  (repeat' split) <;> simp

@[simp] theorem execDxchGrantTimeout_mem (core eid : Nat) (s : State) :
    memAfter s (execDxchGrantTimeout core eid s) = s.mem := by
  unfold execDxchGrantTimeout
  (repeat' split) <;> simp

@[simp] theorem takeGrant_mem (s : State) (n schip : Nat) (x : Grant) : (s.takeGrant n schip x).mem = s.mem := by
  unfold State.takeGrant
  dsimp only
  (repeat' split) <;> simp

@[simp] theorem exchangeControl_mem (s : State) (schip : Nat) (b : List Byte) :
    memAfter s (s.exchangeControl schip b) = s.mem := by
  unfold State.exchangeControl
  extract_lets f n
  split
  · rfl
  · extract_lets member away
    split
    · split
      · exact execPostArrival_mem ..
      · rfl
    · split
      · rfl
      · split
        · exact execPhaseDoneMarker_mem ..
        · rfl
    · split
      · exact execBaristaHeartbeat_mem ..
      · rfl
    · exact takeGrant_mem ..
    · split
      · exact execTakeoverNotice_mem ..
      · rfl
    · split
      · rfl
      · extract_lets done
        rw [memAfter_next]
        split
        · exact endPhase_mem ..
        · rfl
    · rfl

/-! ### The steps of every engine (R137, R257, R293) -/

@[simp] theorem execEngineElement_mem (c eid i : Nat) (s : State) :
    memAfter s (execEngineElement c eid i s) = s.mem := by
  unfold execEngineElement
  dsimp only
  (repeat' split) <;> simp

@[simp] theorem bufferFilled_mem (s : State) (c eid : Nat) (e : EngCmd) : (s.bufferFilled c eid e).mem = s.mem := by
  unfold State.bufferFilled
  dsimp only
  split <;> simp

@[simp] theorem endStream_mem (s : State) (c eid : Nat) (e : EngCmd) : (s.endStream c eid e).mem = s.mem := rfl

@[simp] theorem execEngineCompletion_mem (c eid : Nat) (s : State) :
    memAfter s (execEngineCompletion c eid s) = s.mem := by
  have ended {fin : State → State} (hfin : ∀ a, (fin a).mem = a.mem) (p : Prop) [Decidable p] (t : Token) :
      (if p then s.complete c eid t fin else s).mem = s.mem := by
    split
    · exact complete_mem _ _ _ _ _ hfin
    · rfl
  unfold execEngineCompletion
  split
  · rfl
  · split
    · exact nzReply_mem ..
    · exact ended (fun _ => bufferFilled_mem ..) _ _
    · exact ended (fun _ => rfl) _ _
    · exact ended (fun _ => rfl) _ _
    · exact ended (fun _ => endStream_mem ..) _ _
    · exact ended (fun _ => endStream_mem ..) _ _
    · exact ended (fun _ => rfl) _ _
    · exact ended (fun _ => dxchOver_mem ..) _ _
    · exact complete_mem _ _ _ _ _ (fun _ => rfl)
    · rfl

/-! ### System instructions at issue -/

@[simp] theorem byEvent_mem (s : State) (c sysn : Nat) : (s.byEvent c sysn).mem = s.mem := rfl

end Sys2Proof.Machine
end

section
/-! PROOFS. What leaves memory alone: the control die and the parts of a commit: O8. -/
namespace Sys2Proof.Machine
open Host

/-- The state that the answer of a service carries. -/
def Served.state : Served → State
  | .wait s | .done s _ => s

/-- The state that a write of the control die leaves. -/
def WriteNow.state : WriteNow → State
  | .busy s | .fault s _ | .done s => s

/-! ### The journal and host credits (R334, R356, R372 to R380) -/

@[simp] theorem journalPut_mem (s : State) (r : JRec) : (s.journalPut r).mem = s.mem := rfl

@[simp] theorem journalAppend_mem (s : State) (r : JRec) : (s.journalAppend r).mem = s.mem := rfl

@[simp] theorem jrnlAct_mem (s : State) (code : Nat) (v : DWord) : (s.jrnlAct code v).mem = s.mem := rfl

@[simp] theorem grantPool_mem (s : State) (queue : Nat) : (s.grantPool queue).mem = s.mem := by
  unfold State.grantPool
  dsimp only
  (repeat' split) <;> simp

@[simp] theorem grantAll_mem (s : State) : (s.grantAll).mem = s.mem := foldl_mem _ (fun _ _ => by simp) _ _

@[simp] theorem sendStatusHeld_mem (s : State) : (s.sendStatusHeld).mem = s.mem := foldl_mem _ (fun _ _ => by simp) _ _

@[simp] theorem closeCmd_mem (s : State) (seq : Nat) (x : Cmd) (st : CmdState) (cause : Nat) (result : DWord) :
    (s.closeCmd seq x st cause result).mem = s.mem := by
  unfold State.closeCmd
  dsimp only
  split <;> simp

@[simp] theorem discardWaiters_mem (fuel : Nat) (seqs : List Nat) (s : State) :
    (discardWaiters fuel seqs s).mem = s.mem := by
  induction fuel generalizing seqs s with
  | zero => rfl
  | succ fuel ih =>
    cases seqs with
    | nil => rfl
    | cons seq rest =>
      rw [discardWaiters]
      refine (ih ..).trans (foldl_mem _ (fun a w => ?_) _ _)
      split
      · rfl
      · exact closeCmd_mem ..

@[simp] theorem discardCmd_mem (s : State) (seq cause : Nat) : (s.discardCmd seq cause).mem = s.mem := by
  unfold State.discardCmd
  split <;> simp

@[simp] theorem finishCmd_mem (s : State) (seq : Nat) (x : Cmd) : (s.finishCmd seq x).mem = s.mem := by
  simp [State.finishCmd]

@[simp] theorem readyCmd_mem (s : State) (seq : Nat) (fails : Bool) (result : Nat) :
    (s.readyCmd seq fails result).mem = s.mem := by
  unfold State.readyCmd
  split <;> rfl

@[simp] theorem execCommandEnd_mem (seq : Nat) (s : State) : memAfter s (execCommandEnd seq s) = s.mem := by
  unfold execCommandEnd
  (repeat' split) <;> simp

@[simp] theorem execCommandAccept_mem (session : Nat) (bytes : List Byte) (s : State) :
    memAfter s (execCommandAccept session bytes s) = s.mem := by
  unfold execCommandAccept
  dsimp only
  (repeat' split) <;> simp

@[simp] theorem execCommandStart_mem (s : State) : memAfter s (execCommandStart s) = s.mem := by
  unfold execCommandStart
  dsimp only
  (repeat' split) <;> simp

@[simp] theorem setCmd_mem (s : State) (seq : Nat) (x : Cmd) : (s.setCmd seq x).mem = s.mem := rfl

/-! ### What control firmware reads (R149, R308 to R314, R348) -/

@[simp] theorem ctlRead_mem (s : State) (g asid ident va n : Nat) :
    (s.ctlRead g asid ident va n).state.mem = s.mem := by
  unfold State.ctlRead
  split <;> simp

@[simp] theorem ctlReq_mem (s : State) (g asid ident va : Nat) (data : List Byte) (bad : Bool) (cid : Option Nat) :
    (s.ctlReq g asid ident va data bad cid).mem = s.mem := rfl

@[simp] theorem ctlCheck_mem (s : State) (g asid ident : Nat) (ps : List (Nat × Nat × Nat)) :
    (s.ctlCheck g asid ident ps).state.mem = s.mem := by
  induction ps generalizing s with
  | nil => rfl
  | cons p t ih =>
    unfold State.ctlCheck
    extract_lets h
    split
    · exact ih s
    · split
      · rfl
      · split
        · next hrecall => exact recallFor_mem hrecall
        · split
          · rfl
          · next htr =>
            have hmem := translate_mem htr
            split
            · exact hmem
            · exact (ih _).trans hmem

@[simp] theorem takeUp_mem (s : State) (asid gen : Nat) (tab : List Region) (d : Nat) :
    (s.takeUp asid gen tab d).mem = s.mem := rfl

@[simp] theorem openSpace_mem (s : State) (asid regtab root : Nat) : (s.openSpace asid regtab root).mem = s.mem := by
  unfold State.openSpace
  extract_lets tab s1
  have h1 : s1.mem = s.mem := foldl_mem _ (fun a d => by rw [takeUp_mem, setDie_mem]) (List.range 16) s
  clear_value s1
  exact h1

@[simp] theorem closeSpace_mem (s : State) (asid : Nat) : (s.closeSpace asid).mem = s.mem := by
  unfold State.closeSpace
  extract_lets s1
  have h1 : s1.mem = s.mem := foldl_mem _ (fun a d => setDie_mem ..) (List.range 16) s
  clear_value s1
  split
  · rfl
  · exact h1

/-! ### Graphs that leave and come back (R139, R260, R349, R353, R362, R363) -/

@[simp] theorem traceEnd_mem (s : State) (g : Nat) : (s.traceEnd g).mem = s.mem := by
  unfold State.traceEnd
  (repeat' split) <;> simp

@[simp] theorem burstDone_mem (s : State) (c g n lost : Nat) : (s.burstDone c g n lost).mem = s.mem := by
  simp [State.burstDone]

@[simp] theorem stopWarps_mem (s : State) (g : Nat) : (s.stopWarps g).mem = s.mem := by
  refine foldl_mem _ (fun a p => ?_) _ _
  split
  · exact abort_mem ..
  · rfl

@[simp] theorem dropCarafes_mem (s : State) (g : Nat) : (s.dropCarafes g).mem = s.mem :=
  foldl_mem _ (fun _ _ => (setCore_mem ..).trans (foldl_mem _ (fun _ _ => foldl_mem _ (fun _ _ => setEntry_mem ..) _ _) _ _)) _ _

@[simp] theorem dropReads_mem (s : State) (c eid : Nat) : (s.dropReads c eid).mem = s.mem := rfl

@[simp] theorem discardLaunch_mem (s : State) (lid cause : Nat) : (s.discardLaunch lid cause).mem = s.mem := by
  unfold State.discardLaunch
  dsimp only
  (repeat' split) <;> simp

@[simp] theorem strayChain_mem (s : State) (c : Nat) (chain : List ChainRec) : (s.strayChain c chain).mem = s.mem := by
  refine foldl_mem _ (fun b r => (freeLog_mem ..).trans ?_) _ _
  cases r with
  | deferred n t => exact (endCharge_mem ..).trans (stray_mem ..)
  | watch p j n => exact count_mem ..

@[simp] theorem emptyWindows_mem (s : State) (g c : Nat) :
    (s.emptyWindows g c).mem = s.mem := foldl_mem _ (fun _ _ => by simp) _ _

@[simp] theorem clearGraphOn_mem (s : State) (g c : Nat) : (s.clearGraphOn g c).mem = s.mem := by
  have hwindows : (((s.core c).frames.filter (fun p => p.2.graph == g)).foldl (fun a p => a.strayChain c p.2.chain) s |>.emptyWindows g c).mem
      = s.mem := (emptyWindows_mem ..).trans (foldl_mem _ (fun _ _ => strayChain_mem ..) _ _)
  unfold State.clearGraphOn
  dsimp only
  rw [setCore_mem]
  split
  · rw [setCore_mem, hwindows]
  · exact hwindows

@[simp] theorem applyPending_mem (s : State) (c : Nat) : (s.applyPending c).mem = s.mem := by
  unfold State.applyPending
  dsimp only
  (repeat' split) <;> simp

@[simp] theorem dropParked_mem (s : State) (g : Nat) : (s.dropParked g).mem = s.mem :=
  foldl_mem _ (fun _ _ => foldl_mem _ (fun _ _ => setDie_mem ..) _ _) (List.range 8) s

@[simp] theorem eraseGraph_mem (s : State) (g : Nat) (x : Graph) : (s.eraseGraph g x).mem = s.mem := by
  unfold State.eraseGraph
  extract_lets ls s1 s2 s3 c s4
  have h1 : s1.mem = s.mem := foldl_mem _ (fun _ _ => discardLaunch_mem ..) _ _
  have h2 : s2.mem = s1.mem := foldl_mem _ (fun _ _ => clearGraphOn_mem ..) _ _
  have h3 : s3.mem = s2.mem := dropParked_mem ..
  have h4 : s4.mem = s3.mem := dropRows_mem s3 _
  rw [foldl_mem _ (fun _ _ => applyPending_mem ..), byEvent_mem, closeSpace_mem, h4, h3, h2, h1]

@[simp] theorem spillTasks_mem (s : State) (g c : Nat) : (s.spillTasks g c).mem = s.mem := by
  refine foldl_mem _ (fun a e => ?_) _ _
  dsimp only
  split
  · rfl
  · rw [spillTask_mem, setCore_mem, setCore_mem]

@[simp] theorem saveGraphOn_mem (s : State) (g c : Nat) : (s.saveGraphOn g c).mem = s.mem := by
  unfold State.saveGraphOn
  extract_lets k keep s1 q s2 owns kept s3 r _ bare s4 s5
  have h1 : s1.mem = s.mem := foldl_mem _ (fun _ _ => dropReads_mem ..) _ _
  have h2 : s2.mem = s1.mem := setCore_mem ..
  have h3 : s3.mem = s2.mem := by
    dsimp only [s3]
    split
    · rfl
    · exact setGraph_mem ..
  have h4 : s4.mem = s3.mem := by
    dsimp only [s4]
    split
    · rw [releaseRow_mem, setRow_mem, revokeGrants_mem, writeEngine_mem]
    · rfl
  have h5 : s5.mem = s4.mem := (spillTasks_mem ..).trans (emptyWindows_mem ..)
  refine (foldl_mem _ (fun a p => ?_) _ _).trans (h5.trans (h4.trans (h3.trans (h2.trans h1))))
  split
  · rfl
  · split
    · exact (setFrame_mem ..).trans (writeImage_mem ..)
    · rfl

@[simp] theorem acquireEverywhere_mem (s : State) (asid : Nat) :
    (s.acquireEverywhere asid).mem = s.mem := foldl_mem _ (fun _ _ => by simp) _ _

@[simp] theorem restoreEngines_mem (s : State) (g c : Nat) : (s.restoreEngines g c).mem = s.mem := by
  unfold State.restoreEngines
  split
  · rfl
  · exact (foldl_mem _ (fun _ _ => setEngine_mem ..) _ _).trans (setGraph_mem ..)

@[simp] theorem retakeRow_mem (s : State) (g c : Nat) : (s.retakeRow g c).mem = s.mem := by
  unfold State.retakeRow
  extract_lets r s1
  have hrow : s1.mem = s.mem := setRow_mem ..
  have htransfer := execEngineOwnershipTransfer_mem c s1
  split
  · next h =>
    rw [h] at htransfer
    exact htransfer.trans hrow
  · exact hrow
  · exact hrow

@[simp] theorem resumeGraph_mem (s : State) (asker g : Nat) : (s.resumeGraph asker g).state.mem = s.mem := by
  unfold State.resumeGraph
  split
  · rfl
  · split
    · rfl
    · split
      · rfl
      · split
        · rfl
        · extract_lets cs s1 s2
          have h1 : s1.mem = s.mem := (setGraph_mem ..).trans (acquireEverywhere_mem ..)
          have h2 : s2.mem = s1.mem := foldl_mem _ (fun _ _ => restoreEngines_mem ..) _ _
          exact (foldl_mem _ (fun _ _ => retakeRow_mem ..) _ _).trans (h2.trans h1)

/-! ### Services of the control die (R9, R264, R314, R350 to R352, R354, R358) -/

@[simp] theorem sysAnswer_mem (s : State) (cid : Option Nat) (r : Reply) (x : Charge) (words : List Nat) :
    (s.sysAnswer cid r x words).mem = s.mem := by
  simp [State.sysAnswer]

@[simp] theorem enterLaunch_mem (s : State) (l : Launch) : (s.enterLaunch l).mem = s.mem := by
  unfold State.enterLaunch
  dsimp only
  split <;> simp

@[simp] theorem launchAct_mem (s : State) (d : List Word) (r : Reply) (x : Charge) (cid : Nat) :
    (s.launchAct d r x cid).mem = s.mem := by
  simp [State.launchAct]

@[simp] theorem tgenAct_mem (s : State) (asid : Nat) (r : Reply) (x : Charge) (cid : Nat) :
    (s.tgenAct asid r x cid).mem = s.mem := by
  unfold State.tgenAct
  split <;> simp

@[simp] theorem execTgenTakeUp_mem (die k : Nat) (s : State) : memAfter s (execTgenTakeUp die k s) = s.mem := by
  unfold execTgenTakeUp
  dsimp only
  (repeat' split) <;> simp

@[simp] theorem recallOwner_mem (s : State) (st cid : Nat) (o : Owner) : (s.recallOwner st cid o).mem = s.mem := by
  unfold State.recallOwner
  (repeat' split) <;> simp

@[simp] theorem dirflAct_mem (s : State) (d : List Word) (cid : Nat) :
    (s.dirflAct d cid).1.mem = s.mem := foldl_mem _ (fun _ _ => by simp) _ _

@[simp] theorem replay_mem (s : State) (qs : List Nat) :
    (s.replay qs).mem = s.mem := foldl_mem _ (fun _ _ => by split <;> simp) _ _

@[simp] theorem poisonReq_mem (s : State) (die q : Nat) : (s.poisonReq die q).mem = s.mem := by
  unfold State.poisonReq
  split <;> simp

@[simp] theorem replayMarked_mem (s old : State) (g : Nat) :
    (s.replayMarked old g).mem = s.mem := foldl_mem _ (fun _ _ => by simp) _ _

@[simp] theorem closeRec_mem (s : State) (r : FaultRec) : (s.closeRec r).mem = s.mem := rfl

@[simp] theorem leaveEntry_mem (s : State) (r : FaultRec) : (s.leaveEntry r).mem = s.mem := by
  unfold State.leaveEntry
  dsimp only
  split <;> simp

@[simp] theorem tretReplayAct_mem (s : State) (r : FaultRec) : (s.tretReplayAct r).mem = s.mem := by
  unfold State.tretReplayAct
  split <;> simp

@[simp] theorem tretPoisonAct_mem (s : State) (r : FaultRec) : (s.tretPoisonAct r).mem = s.mem := by
  unfold State.tretPoisonAct
  extract_lets c
  split
  · split
    · exact clearInputs_mem ..
    · exact poisonHeld_mem ..
  · exact (leaveEntry_mem ..).trans (foldl_mem _ (fun _ _ => poisonReq_mem ..) _ _)

@[simp] theorem raiseMark_mem (s : State) (r : FaultRec) (n mark : Nat) : (s.raiseMark r n mark).mem = s.mem := by
  unfold State.raiseMark
  (repeat' split) <;> simp

theorem tretAct_mem (s : State) (c cid action : Nat) (d : List Word) {t : State} {r : Nat} (h : s.tretAct c cid action d = some (t, r)) :
    t.mem = s.mem := by
  unfold State.tretAct at h
  (repeat' split at h) <;> cases h <;> simp

/-! ### What the parts of a commit do (R33, R129, R132, R220, R286, R287, R339) -/

@[simp] theorem stashPut_mem (s : State) (c idx va : Nat) (data : List Byte) :
    (s.stashPut c idx va data).mem = s.mem := by
  simp [State.stashPut]

theorem stashAct_mem {s t : State} {c g asid cid va : Nat} {kind : ReqKind} (h : s.stashAct c g asid cid va kind = some t) : t.mem = s.mem := by
  unfold State.stashAct at h
  extract_lets k at h
  split at h
  · split at h <;> cases h
    · exact stashPut_mem ..
    · rfl
  · extract_lets old s0 s1 w k1 at h
    have h0 : s0.mem = s.mem := foldl_mem _ (fun _ _ => dropStash_mem ..) _ _
    have h1 : s1.mem = s.mem := (dropFills_mem ..).trans h0
    clear_value s1
    split at h
    · cases h
    · cases h; exact h1
  · split at h <;> cases h
    · exact cleanLines_mem ..
    · rfl
  · split at h <;> cases h
    · exact foldl_mem _ (fun _ _ => dropStash_mem ..) _ _
    · rfl
  all_goals cases h; rfl

@[simp] theorem release_mem (s : State) (g src : Nat) (e : Emitted) : (s.release g src e).mem = s.mem := by
  unfold State.release
  (repeat' split) <;> simp

@[simp] theorem holdBack_mem (s : State) (g c cid : Nat) (scope : Scope) (e : Emitted) :
    (s.holdBack g c cid scope e).mem = s.mem := by
  unfold State.holdBack
  (repeat' split) <;> simp

theorem watchAct_mem {s t : State} {c i : Nat} {w : WatchCond} {tok : Token} (h : s.watchAct c i w tok = some t) :
    t.mem = s.mem := by
  unfold State.watchAct at h
  extract_lets _ s1 at h
  have h1 : s1.mem = s.mem := setCore_mem ..
  clear_value s1
  split at h
  · cases h; exact h1
  · extract_lets hold at h
    split at h
    · cases h; exact (sendToken_mem ..).trans h1
    · exact (appendChain_mem _ _ _ _ h).trans h1

theorem sendOne_mem {s t : State} {c cid : Nat} {w : Warp} {e : Emitted} (h : s.sendOne c cid w e = some t) :
    t.mem = s.mem := by
  unfold State.sendOne at h
  split at h
  · split at h
    · cases h
    · split at h <;> cases h
      · exact release_mem ..
      · exact holdBack_mem ..
  · split at h
    · cases h; rfl
    · split at h <;> cases h
      exact inject_mem ..
  · split at h
    · cases h
    · exact watchAct_mem h
  · cases h; exact holdBack_mem ..
  · cases h; rfl

@[simp] theorem refuseWrite_mem (s : State) (c sysn reason : Nat) : (s.refuseWrite c sysn reason).mem = s.mem := rfl

@[simp] theorem syswrAct_mem (s : State) (c sysn : Nat) (w : Word) : (s.syswrAct c sysn w).mem = s.mem := by
  unfold State.syswrAct
  extract_lets v
  generalize v = n
  split
  · split
    · exact refuseWrite_mem ..
    · split
      · rfl
      · split <;> exact setCore_mem ..
  · split
    · split
      · exact refuseWrite_mem ..
      · split
        · exact refuseWrite_mem ..
        · split
          · rfl
          · split
            · exact setGraph_mem ..
            · rfl
    · split
      · split
        · exact refuseWrite_mem ..
        · split
          · exact refuseWrite_mem ..
          · split <;> rfl
      · split
        · split
          · exact refuseWrite_mem ..
          · split
            · exact refuseWrite_mem ..
            · rfl
        · rfl

@[simp] theorem raiseJoin_mem (s : State) (c i : Nat) : (s.raiseJoin c i).mem = s.mem := by
  unfold State.raiseJoin
  split <;> rfl

theorem fallocAct_mem {s t : State} {c : Nat} {w : Warp} {lane target nb block slot pos : Nat}
    (h : s.fallocAct c w lane target nb block slot pos = some t) : t.mem = s.mem := by
  unfold State.fallocAct at h
  extract_lets i at h
  split at h
  · cases h; rfl
  · exact (askFrame_mem h).trans (raiseJoin_mem ..)

@[simp] theorem spawnAct_mem (s : State) (c cid : Nat) (w : Warp) (lane target nb block slot : Nat) (payload : DWord) (pos : Nat)
    (rel : Scope) (edge : Nat) (spill : Bool) :
    (s.spawnAct c cid w lane target nb block slot payload pos rel edge spill).mem = s.mem := by
  unfold State.spawnAct
  dsimp only
  (repeat' split) <;> simp

@[simp] theorem hbindAct_mem (s : State) (c g ch filter : Nat) : (s.hbindAct c g ch filter).mem = s.mem := by
  unfold State.hbindAct
  split <;> rfl

@[simp] theorem hreleaseAct_mem (s : State) (c g ch : Nat) : (s.hreleaseAct c g ch).mem = s.mem := by
  unfold State.hreleaseAct
  dsimp only
  split <;> simp

@[simp] theorem hclrAct_mem (s : State) (c g mask : Nat) : (s.hclrAct c g mask).mem = s.mem := rfl

@[simp] theorem troffAct_mem (s : State) (g : Nat) : (s.troffAct g).mem = s.mem := by
  unfold State.troffAct
  split <;> rfl

@[simp] theorem trmarkAct_mem (s : State) (c g imm : Nat) (v : Word) : (s.trmarkAct c g imm v).mem = s.mem := by
  unfold State.trmarkAct
  (repeat' split) <;> simp

@[simp] theorem srseedAct_mem (s : State) (g : Nat) (v : DWord) : (s.srseedAct g v).mem = s.mem := by
  unfold State.srseedAct
  split <;> rfl

/-! ### Commits (R13, R33, R127 to R132, R336, R337) -/

@[simp] theorem haltDie_mem (s : State) (d : Nat) : (s.haltDie d).mem = s.mem := by
  unfold State.haltDie
  split <;> rfl

@[simp] theorem openCommit_mem (s : State) (c k : Nat) (w : Warp) : (s.openCommit c k w).mem = s.mem := rfl

theorem stashSend_mem {s t : State} {cid : Nat} {r : Req} (h : s.stashSend cid r = some t) : t.mem = s.mem := by
  unfold State.stashSend at h
  extract_lets kind at h
  split at h
  · cases h
  · split at h
    · obtain ⟨u, hact, rfl⟩ := Option.map_eq_some_iff.mp h
      exact (later_mem ..).trans (stashAct_mem hact)
    · cases h; exact addReq_mem ..

theorem sendStore_mem {s t : State} {c cid : Nat} {w : Warp} {bs : List (Nat × Scope)} {x : StoreSlot}
    (h : s.sendStore c cid w bs x = some t) : t.mem = s.mem := by
  unfold State.sendStore at h
  extract_lets g asid at h
  split at h
  · cases h
  · split at h
    · split at h
      · cases h
      · next s1 ch hcharge =>
        have h1 : s1.mem = s.mem := by
          split at hcharge
          · cases hcharge; rfl
          · obtain ⟨y, hy, heq⟩ := Option.map_eq_some_iff.mp hcharge
            cases heq
            exact charge_mem hy
        extract_lets r at h
        split at h
        · exact (stashSend_mem h).trans h1
        · split at h <;> cases h <;> exact h1
    · split at h
      · cases h
      · next s1 ch hcharge =>
        have h1 : s1.mem = s.mem := charge_mem hcharge
        extract_lets s2 _ r at h
        have h2 : s2.mem = s.mem := by
          dsimp only [s2]
          split
          · exact (cleanCore_mem ..).trans h1
          · exact h1
        clear_value s2
        split at h
        · cases h; exact (addReq_mem ..).trans h2
        · split at h <;> cases h <;> exact h2

@[simp] theorem sendStores_mem (s : State) (c cid : Nat) (w : Warp) (bs : List (Nat × Scope)) (xs : List StoreSlot) :
    (s.sendStores c cid w bs xs).1.mem = s.mem := by
  induction xs generalizing s with
  | nil => rfl
  | cons x t ih =>
    unfold State.sendStores
    split
    · rfl
    · next h => exact (ih _).trans (sendStore_mem h)

theorem replyCharge_mem {s t : State} {c k : Nat} {w : Warp} {x : Charge} (h : s.replyCharge c k w = some (t, x)) :
    t.mem = s.mem := by
  unfold State.replyCharge at h
  split at h
  · cases h; rfl
  · split at h
    · cases h
    · next hcharge => cases h; exact (setWarp_mem ..).trans (charge_mem hcharge)

@[simp] theorem freeCharge_mem (s : State) (c k : Nat) : (s.freeCharge c k).mem = s.mem := by
  unfold State.freeCharge
  split <;> rfl

@[simp] theorem sendEmits_mem (s : State) (c cid : Nat) (w : Warp) (es : List Emitted) :
    (s.sendEmits c cid w es).1.mem = s.mem := by
  induction es generalizing s with
  | nil => rfl
  | cons e t ih =>
    unfold State.sendEmits
    split
    · rfl
    · next h => exact (ih _).trans (sendOne_mem h)

@[simp] theorem traceCommit_mem (s : State) (c k : Nat) (w : Warp) : (s.traceCommit c k w).mem = s.mem := by
  unfold State.traceCommit
  split
  · rfl
  · refine (foldl_mem _ (fun a e => ?_) (List.range 8) _).trans (trace_mem ..)
    split
    · rfl
    · exact trace_mem ..

@[simp] theorem endCommit_mem (s : State) (c k cid : Nat) (w : Warp) : (s.endCommit c k cid w).mem = s.mem := by
  unfold State.endCommit
  extract_lets s1 s2 q s3 free own gone
  have h1 : s1.mem = s.mem := traceCommit_mem ..
  have h2 : s2.mem = s1.mem := foldl_mem _ (fun _ _ => clearInputs_mem ..) _ _
  have h3 : s3.mem = s2.mem := setCore_mem ..
  rw [retireCommit_mem, foldl_mem _ (fun _ _ => closeFrame_mem ..), h3, h2, h1]

@[simp] theorem execReleasedTokenSend_mem (cid k : Nat) (s : State) :
    memAfter s (execReleasedTokenSend cid k s) = s.mem := by
  unfold execReleasedTokenSend
  dsimp only
  (repeat' split) <;> simp

theorem sendGroup_mem {cid : Nat} {rs : List Req} {s t : State} (h : s.sendGroup cid rs = some t) : t.mem = s.mem := by
  induction rs generalizing s with
  | nil => cases h; rfl
  | cons r rs ih =>
    obtain ⟨u, hsend, hrest⟩ := Option.bind_eq_some_iff.mp h
    exact (ih hrest).trans (stashSend_mem hsend)

@[simp] theorem execFenceGroupAdvance_mem (cid : Nat) (s : State) :
    memAfter s (execFenceGroupAdvance cid s) = s.mem := by
  unfold execFenceGroupAdvance
  split
  · rfl
  · extract_lets scope sending dirty now' r1
    split
    · rfl
    · split
      · exact cleanCore_mem ..
      · split
        · rfl
        · split
          · rfl
          · next hsend =>
            have hmem := sendGroup_mem hsend
            rw [memAfter_next]
            split
            · exact (cleanCore_mem ..).trans hmem
            · exact hmem

/-! ### Fault records, launches and the drain (R9, R90, R264, R278, R342, R350, R358) -/

theorem askFrame_getD_mem {s t : State} (h : t.mem = s.mem) (c : Nat) (cr : Creation) :
    ((t.askFrame c cr).getD s).mem = s.mem := by
  cases hask : t.askFrame c cr with
  | none => rfl
  | some u => exact (askFrame_mem hask).trans h

@[simp] theorem execFaultRecordDelivery_mem (s : State) : memAfter s (execFaultRecordDelivery s) = s.mem := by
  unfold execFaultRecordDelivery
  extract_lets q
  split
  · rfl
  · split
    · rfl
    · extract_lets s1 none'
      split
      · exact count_mem ..
      · split
        · rw [memAfter_next]
          exact askFrame_getD_mem (by rfl) ..
        · exact count_mem ..

@[simp] theorem endLaunch_mem (s : State) (lid : Nat) (l : Launch) (code : Nat) :
    (s.endLaunch lid l code).mem = s.mem := by
  unfold State.endLaunch
  (repeat' split) <;> simp

@[simp] theorem freeRows_mem (s : State) (g : Nat) :
    (s.freeRows g).mem = s.mem := foldl_mem _ (fun _ _ => by split <;> simp) _ _

@[simp] theorem lastLaunch_mem (s : State) (g : Nat) : (s.lastLaunch g).mem = s.mem := by
  unfold State.lastLaunch
  split <;> simp

@[simp] theorem execLaunchStart_mem (s : State) : memAfter s (execLaunchStart s) = s.mem := by
  unfold execLaunchStart
  extract_lets c going
  split
  · rfl
  · split
    · rfl
    · split
      · rfl
      · split
        · exact (lastLaunch_mem ..).trans (endLaunch_mem ..)
        · rfl
        · extract_lets s1 s2 s3
          have h1 : s1.mem = s.mem := foldl_mem _ (fun _ _ => acquire_mem ..) _ _
          have h2 : s2.mem = s1.mem := (setLevel_mem ..).trans (setGraph_mem ..)
          have h3 : s3.mem = s2.mem := journalSet_mem ..
          clear_value s3
          exact h3.trans (h2.trans h1)

@[simp] theorem execRootTokenSend_mem (s : State) : memAfter s (execRootTokenSend s) = s.mem := by
  unfold execRootTokenSend
  extract_lets ls pick
  clear_value pick
  split
  · rfl
  · split
    · rfl
    · extract_lets cs
      split
      · rfl
      · split
        · rfl
        · next h =>
          have hmem := askFrame_mem h
          exact hmem

@[simp] theorem cleanGraph_mem (s : State) (g : Nat) :
    (s.cleanGraph g).mem = s.mem := foldl_mem _ (fun _ _ => by simp) _ _

@[simp] theorem execLaunchComplete_mem (lid : Nat) (s : State) : memAfter s (execLaunchComplete lid s) = s.mem := by
  unfold execLaunchComplete
  (repeat' split) <;> simp

@[simp] theorem drained_mem (s : State) (c i : Nat) (f : Frame) (m : Nat) : (s.drained c i f m).mem = s.mem := by
  simp [State.drained]

@[simp] theorem withdraw_mem (s : State) (c i m : Nat) (f : Frame) : (s.withdraw c i m f).mem = s.mem := by
  simp [State.withdraw]

@[simp] theorem execDrainLimitExpiry_mem (core frame : Nat) (s : State) :
    memAfter s (execDrainLimitExpiry core frame s) = s.mem := by
  unfold execDrainLimitExpiry
  dsimp only
  (repeat' split) <;> simp

@[simp] theorem execTraceLoss_mem (core : Nat) (s : State) : memAfter s (execTraceLoss core s) = s.mem := by
  unfold execTraceLoss
  dsimp only
  split <;> simp

end Sys2Proof.Machine
end

section
/-! PROOFS. What leaves memory alone: resets, boundaries, attestation and host commands: O8. -/
namespace Sys2Proof.Machine
open Host

/-! ### Events, resets and the power manager (R49, R150, R364 to R371, R379, R392 to R396) -/

@[simp] theorem countDropped_mem (s : State) (p : Packet) : (s.countDropped p).mem = s.mem := by
  unfold State.countDropped
  split <;> rfl

@[simp] theorem dropTokens_mem (s : State) : s.dropTokens.mem = s.mem := by
  unfold State.dropTokens
  extract_lets keep s0 gone s1
  have h0 : s0.mem = s.mem := foldl_mem _ (fun _ _ => countDropped_mem ..) _ _
  have h1 : s1.mem = s0.mem := rfl
  rw [settle_mem, foldl_mem _ (fun _ _ => moveCredits_mem ..), h1, h0]

@[simp] theorem dropReqs_mem (s : State) : (s.dropReqs).mem = s.mem := rfl

@[simp] theorem undoAct_mem (s : State) (c g : Nat) (a3 : AtCommit) : (s.undoAct c g a3).mem = s.mem := by
  unfold State.undoAct
  (repeat' split) <;> simp

@[simp] theorem dropWarp_mem (s : State) (c k : Nat) (w : Warp) : (s.dropWarp c k w).mem = s.mem := by
  unfold State.dropWarp
  extract_lets s0 s1 _ s2
  have h0 : s0.mem = s.mem := by
    refine foldl_mem _ (fun a i => ?_) _ _
    split
    · exact setFrame_mem ..
    · rfl
  have h1 : s1.mem = s.mem := by
    dsimp only [s1]
    split
    · rw [foldl_mem _ (fun _ _ => undoAct_mem ..), sendStores_mem, h0]
    all_goals exact foldl_mem _ (fun _ _ => giveBack_mem ..) _ _
  have h2 : s2.mem = s1.mem := (forgetWarp_mem ..).trans (setCore_mem ..)
  refine (foldl_mem _ (fun a i => ?_) _ _).trans (h2.trans h1)
  split
  · split
    · exact enterCarafe_mem ..
    · rfl
  · rfl

@[simp] theorem dropWarps_mem (s : State) (c : Nat) : (s.dropWarps c).mem = s.mem := by
  refine foldl_mem _ (fun a p => ?_) _ _
  extract_lets of past
  split
  · exact dropWarp_mem ..
  · rfl

@[simp] theorem dropOnCore_mem (s : State) (gs : List Nat) (c : Nat) : (s.dropOnCore gs c).mem = s.mem := by
  unfold State.dropOnCore
  extract_lets k gone roots s0 s1 s2 q rows left
  have h0 : s0.mem = s.mem :=
    (foldl_mem _ (fun _ _ => foldl_mem _ (fun _ _ => (freeLog_mem ..).trans (count_mem ..)) _ _) _ _).trans (count_mem ..)
  have h1 : s1.mem = s0.mem := keepRecs_mem ..
  have h2 : s2.mem = s1.mem := by
    dsimp only [s2]
    split
    · split
      · exact releaseRow_mem ..
      · rfl
    · rfl
  rw [setCore_mem, h2, h1, h0]

@[simp] theorem deviceEvent_mem (s : State) (cause : Nat) : (s.deviceEvent cause).mem = s.mem := by
  unfold State.deviceEvent
  extract_lets ls gs _ c0 s0 cs s1 s2 rows s3 s4
  have h1 : s1.mem = s.mem := by
    dsimp only [s1]
    rw [foldl_mem _ (fun _ _ => dropWarps_mem ..), dropReqs_mem, dropTokens_mem]
  have h2 : s2.mem = s1.mem := foldl_mem _ (fun _ _ => dropOnCore_mem ..) _ _
  have hrows : rows.mem = s2.mem := dropRows_mem ..
  have h3 : s3.mem = rows.mem := rfl
  have h4 : s4.mem = s3.mem := foldl_mem _ (fun _ _ => discardLaunch_mem ..) _ _
  rw [foldl_mem _ (fun _ _ => discardCmd_mem ..), h4, h3, hrows, h2, h1]

@[simp] theorem maybeResume_mem (s : State) : (s.maybeResume).mem = s.mem := by
  unfold State.maybeResume
  dsimp only
  split <;> simp

@[simp] theorem loseLine_mem (s : State) (st asid line : Nat) : (s.loseLine st asid line).mem = s.mem := by
  unfold State.loseLine
  split <;> rfl

@[simp] theorem journalLost_mem (s : State) (r : LostRange) : (s.journalLost r).mem = s.mem := rfl

@[simp] theorem downLinks_mem (s : State) (d : Nat) : (s.downLinks d).mem = s.mem := rfl

@[simp] theorem resetAny_mem (s : State) (d : Nat) : (s.resetAny d).mem = s.mem := foldl_mem _ (fun _ _ => by simp) _ _

@[simp] theorem resetCompute_mem (s : State) (d : Nat) : (s.resetCompute d).mem = s.mem := by
  unfold State.resetCompute
  extract_lets lost s1 s2 gone s3 here readOf lostX lostPkts sr _ s4 s5
  have h1 : s1.mem = s.mem := foldl_mem _ (fun _ _ => loseLine_mem ..) _ _
  have h2 : s2.mem = s1.mem := foldl_mem _ (fun _ _ => journalLost_mem ..) _ _
  have h3 : s3.mem = s2.mem := foldl_mem _ (fun _ _ => moveCredits_mem ..) _ _
  have hrows : sr.mem = s3.mem := dropRows_mem ..
  have h4 : s4.mem = sr.mem := rfl
  have h5 : s5.mem = s4.mem := foldl_mem _ (fun _ _ => setDie_mem ..) (List.range 8) s4
  rw [resetAny_mem, foldl_mem _ (fun _ _ => countDropped_mem ..), h5, h4, hrows, h3, h2, h1]

@[simp] theorem resetBase_mem (s : State) (d : Nat) (all : Bool) : (s.resetBase d all).mem = s.mem := by
  unfold State.resetBase
  extract_lets x parked s0 walking s1
  have h0 : s0.mem = s.mem := by
    refine foldl_mem _ (fun a o => foldl_mem _ (fun b i => ?_) (List.range 64) a) x.owners s
    dsimp only
    split
    · rfl
    · exact dropStash_mem ..
  have h1 : s1.mem = s0.mem := rfl
  rw [resetAny_mem, h1, h0]

@[simp] theorem resetFabric_mem (s : State) (d : Nat) : (s.resetFabric d).mem = s.mem := by
  simp [State.resetFabric]

@[simp] theorem resetDie_mem (s : State) (d : Nat) : (s.resetDie d).mem = s.mem := by
  unfold State.resetDie
  split
  · exact resetCompute_mem ..
  · split
    · exact resetBase_mem ..
    · exact resetFabric_mem ..

@[simp] theorem execDieReset_mem (die : Nat) (s : State) : memAfter s (execDieReset die s) = s.mem := by
  unfold execDieReset
  rw [memAfter_next]
  split
  · rfl
  · exact (resetDie_mem ..).trans (deviceEvent_mem ..)

@[simp] theorem freshKey_mem (s : State) (n : Nat) : (s.freshKey n).mem = s.mem := rfl

@[simp] theorem keyLinks_mem (s : State) (d : Nat) : (s.keyLinks d).mem = s.mem := by
  refine foldl_mem _ (fun a n => ?_) _ _
  split
  · exact freshKey_mem ..
  · rfl

@[simp] theorem execDieRejoin_mem (die : Nat) (s : State) : memAfter s (execDieRejoin die s) = s.mem := by
  unfold execDieRejoin
  extract_lets x live s1 s2
  have h1 : s1.mem = s.mem := foldl_mem _ (fun _ _ => setDie_mem ..) (List.range 8) s
  have h2 : s2.mem = s1.mem := rfl
  clear_value s1 s2
  split
  · rfl
  · rw [memAfter_next, maybeResume_mem, settle_mem, setDie_mem, h2, h1]

@[simp] theorem requarantine_mem (s : State) (d : Nat) : (s.requarantine d).mem = s.mem := rfl

@[simp] theorem loseRequest_mem (s : State) (id : Nat) (r : Req) : (s.loseRequest id r).mem = s.mem := rfl

@[simp] theorem slotReadError_mem (s : State) (c k lane n : Nat) : (s.slotReadError c k lane n).mem = s.mem := by
  unfold State.slotReadError
  (repeat' split) <;> simp

@[simp] theorem slotError_mem (s : State) (c i n : Nat) : (s.slotError c i n).mem = s.mem := by
  unfold State.slotError
  split <;> rfl

@[simp] theorem execMemoryError_mem (site : ErrorSite) (corrected : Bool) (s : State) :
    memAfter s (execMemoryError site corrected s) = s.mem := by
  unfold execMemoryError
  dsimp only
  (repeat' split) <;> simp

@[simp] theorem execUncorrectableMatchingError_mem (core : Nat) (s : State) :
    memAfter s (execUncorrectableMatchingError core s) = s.mem := by
  simp [execUncorrectableMatchingError]

@[simp] theorem execMgmtHeartbeatTimeout_mem (s : State) : memAfter s (execMgmtHeartbeatTimeout s) = s.mem := by
  unfold execMgmtHeartbeatTimeout
  split <;> simp

@[simp] theorem execPowerControlInterval_mem (s : State) : memAfter s (execPowerControlInterval s) = s.mem := by
  unfold execPowerControlInterval
  dsimp only
  split <;> simp

@[simp] theorem discardQueues_mem (s : State) (cause : Nat) : (s.discardQueues cause).mem = s.mem := by
  refine foldl_mem _ (fun a seq => ?_) _ _
  split
  · rfl
  · exact closeCmd_mem ..

@[simp] theorem resetPackage_mem (s : State) : s.resetPackage.mem = s.mem := by
  unfold State.resetPackage
  extract_lets _ s1 s2 s3 x s4 c
  have h1 : s1.mem = s.mem := deviceEvent_mem ..
  have h2 : s2.mem = s1.mem := discardQueues_mem ..
  have h3 : s3.mem = s2.mem := by
    refine foldl_mem _ (fun a d => ?_) (List.range 18) s2
    split
    · exact resetCompute_mem ..
    · split
      · exact resetBase_mem ..
      · exact resetFabric_mem ..
  have h4 : s4.mem = s3.mem := setDie_mem ..
  clear_value s4
  exact h4.trans (h3.trans (h2.trans h1))

@[simp] theorem execPackageReset_mem (s : State) : memAfter s (execPackageReset s) = s.mem := by
  unfold execPackageReset
  rw [memAfter_next]
  split
  · exact resetPackage_mem s
  · rfl

@[simp] theorem execPowerSample_mem (watts : Nat) (x : Sensed) (s : State) :
    memAfter s (execPowerSample watts x s) = s.mem := by
  unfold execPowerSample
  dsimp only
  split <;> simp

@[simp] theorem execThermalTrip_mem (s : State) : memAfter s (execThermalTrip s) = s.mem := by
  unfold execThermalTrip
  rw [memAfter_next]
  split
  · exact resetPackage_mem _
  · rfl

@[simp] theorem execPowerOn_mem (s : State) : memAfter s (execPowerOn s) = s.mem := by
  unfold execPowerOn
  split
  · rfl
  · extract_lets s2
    have h2 : s2.mem = s.mem := foldl_mem _ (fun _ _ => setDie_mem ..) (List.range 19) s
    clear_value s2
    exact h2

/-! ### Boundaries and the fabric (R48, R49, R266, R325, R381 to R385, R393) -/

@[simp] theorem setLink_mem (s : State) (n : Nat) (x : LinkDir) : (s.setLink n x).mem = s.mem := rfl

@[simp] theorem execBoundaryTokenCreditReturn_mem (k : Nat) (s : State) :
    memAfter s (execBoundaryTokenCreditReturn k s) = s.mem := by
  unfold execBoundaryTokenCreditReturn
  dsimp only
  (repeat' split) <;> simp

@[simp] theorem countMgmt_mem (s : State) (n d : Nat) : (s.countMgmt n d).mem = s.mem := rfl

@[simp] theorem execKeyRolloverStart_mem (dir : Nat) (s : State) : memAfter s (execKeyRolloverStart dir s) = s.mem := by
  unfold execKeyRolloverStart
  split <;> rfl

@[simp] theorem execSenderKeyDelivery_mem (dir : Nat) (s : State) :
    memAfter s (execSenderKeyDelivery dir s) = s.mem := by
  unfold execSenderKeyDelivery
  dsimp only
  split <;> simp

@[simp] theorem execFirstNewKeyFlit_mem (dir : Nat) (s : State) : memAfter s (execFirstNewKeyFlit dir s) = s.mem := by
  unfold execFirstNewKeyFlit
  dsimp only
  split <;> simp

@[simp] theorem execDrainMarkerSend_mem (dir : Nat) (s : State) : memAfter s (execDrainMarkerSend dir s) = s.mem := by
  unfold execDrainMarkerSend
  dsimp only
  split <;> simp

@[simp] theorem execDrainMarkerArrival_mem (dir : Nat) (s : State) :
    memAfter s (execDrainMarkerArrival dir s) = s.mem := by
  unfold execDrainMarkerArrival
  dsimp only
  split <;> simp

@[simp] theorem execFlitCounterLimit_mem (dir : Nat) (s : State) : memAfter s (execFlitCounterLimit dir s) = s.mem := by
  unfold execFlitCounterLimit
  dsimp only
  split <;> simp

@[simp] theorem execFabricPortChange_mem (port : Nat) (up : Bool) (s : State) :
    memAfter s (execFabricPortChange port up s) = s.mem := by
  unfold execFabricPortChange
  dsimp only
  (repeat' split) <;> simp

@[simp] theorem unreachable_mem (s : State) (p : FabricPacket) : (s.unreachable p).mem = s.mem := by
  unfold State.unreachable
  dsimp only
  (repeat' split) <;> simp

@[simp] theorem execFabricPacketSend_mem (k : Nat) (s : State) : memAfter s (execFabricPacketSend k s) = s.mem := by
  unfold execFabricPacketSend
  (repeat' split) <;> simp

@[simp] theorem remoteIn_mem (s : State) (schip : Nat) (b : List Byte) : (s.remoteIn schip b).mem = s.mem := rfl

@[simp] theorem remoteFill_mem (s : State) (r : Req) (data : List Byte) (poison : List Nat) :
    (s.remoteFill r data poison).mem = s.mem := by
  unfold State.remoteFill
  dsimp only
  split <;> simp

@[simp] theorem onlyFill_mem (s : State) (r : Req) : (s.onlyFill r).mem = s.mem := rfl

@[simp] theorem remoteAnswer_mem (s : State) (b : List Byte) : (s.remoteAnswer b).mem = s.mem := by
  unfold State.remoteAnswer
  dsimp only
  (repeat' split) <;> simp

@[simp] theorem execFabricPacketReceive_mem (die : Nat) (w : WirePacket) (s : State) :
    memAfter s (execFabricPacketReceive die w s) = s.mem := by
  unfold execFabricPacketReceive
  extract_lets pkt
  clear_value pkt
  split
  · rfl
  · split
    · exact countDie_mem ..
    · split
      · exact sendFrom_mem ..
      · exact remoteIn_mem ..
      · exact remoteAnswer_mem ..
      · rw [memAfter_next]
        cases hdata : s.exchangeData die pkt.schip pkt.payload pkt.sentIn with
        | none => rfl
        | some t => exact exchangeData_mem _ _ _ _ _ hdata
      · exact exchangeControl_mem ..

/-! ### Attestation (R326, R372, R373, R389 to R392) -/

@[simp] theorem attestFail_mem (s : State) (d err : Nat) : (s.attestFail d err).mem = s.mem := rfl

@[simp] theorem reattestFail_mem (s : State) (d err : Nat) : (s.reattestFail d err).mem = s.mem := by
  unfold State.reattestFail
  dsimp only
  rw [resetDie_mem, deviceEvent_mem, setDie_mem]

@[simp] theorem dieMessage_mem (s : State) (n d : Nat) (errs : List Nat) (a : SpdmAnswer) :
    (s.dieMessage n d errs a).mem = s.mem := by
  unfold State.dieMessage
  extract_lets s0 x err bad first y _ y2 s1
  have h0 : s0.mem = s.mem := countMgmt_mem ..
  have h1 : s1.mem = s.mem := (setDie_mem ..).trans h0
  clear_value s0 s1 first bad
  repeat' split
  · rfl
  · exact (setDie_mem ..).trans h0
  · rfl
  · exact (reattestFail_mem ..).trans h0
  · exact (setDie_mem ..).trans h0
  · exact (setDie_mem ..).trans h0
  · rfl
  · exact (attestFail_mem ..).trans h0
  · exact (attestFail_mem ..).trans h0
  · rw [keyLinks_mem, foldl_mem _ (fun _ _ => countMgmt_mem ..), h1]
  · exact h1

@[simp] theorem execAttestationResponseTimeout_mem (die : Nat) (s : State) :
    memAfter s (execAttestationResponseTimeout die s) = s.mem := by
  unfold execAttestationResponseTimeout
  dsimp only
  (repeat' split) <;> simp

@[simp] theorem execAttestationRetry_mem (die : Nat) (s : State) : memAfter s (execAttestationRetry die s) = s.mem := by
  unfold execAttestationRetry
  dsimp only
  split <;> simp

@[simp] theorem spdmReply_mem (s : State) (session : Nat) (code : SpdmCode) (blocks : List (Nat × List Word)) (content : SpdmContent) :
    (s.spdmReply session code blocks content).mem = s.mem := rfl

@[simp] theorem hostMessage_mem (s : State) (session n : Nat) (a : SpdmAnswer) :
    (s.hostMessage session n a).mem = s.mem := by
  unfold State.hostMessage
  (repeat' split) <;> simp

@[simp] theorem spdm_mem (n : Nat) (errs : List Nat) (peer : SpdmPeer) (a : SpdmAnswer) (s : State) :
    (spdm n errs peer a s).mem = s.mem := by
  cases peer with
  | die d => exact dieMessage_mem ..
  | host x => exact hostMessage_mem ..

@[simp] theorem execGetVersion_mem (peer : SpdmPeer) (answer : SpdmAnswer) (s : State) :
    memAfter s (execGetVersion peer answer s) = s.mem := by
  simp [execGetVersion]

@[simp] theorem execGetCapabilities_mem (peer : SpdmPeer) (answer : SpdmAnswer) (s : State) :
    memAfter s (execGetCapabilities peer answer s) = s.mem := by
  simp [execGetCapabilities]

@[simp] theorem execNegotiateAlgorithms_mem (peer : SpdmPeer) (answer : SpdmAnswer) (s : State) :
    memAfter s (execNegotiateAlgorithms peer answer s) = s.mem := by
  simp [execNegotiateAlgorithms]

@[simp] theorem execGetDigests_mem (peer : SpdmPeer) (answer : SpdmAnswer) (s : State) :
    memAfter s (execGetDigests peer answer s) = s.mem := by
  simp [execGetDigests]

@[simp] theorem execGetCertificate_mem (peer : SpdmPeer) (answer : SpdmAnswer) (s : State) :
    memAfter s (execGetCertificate peer answer s) = s.mem := by
  simp [execGetCertificate]

@[simp] theorem execChallenge_mem (peer : SpdmPeer) (answer : SpdmAnswer) (s : State) :
    memAfter s (execChallenge peer answer s) = s.mem := by
  simp [execChallenge]

@[simp] theorem execGetMeasurements_mem (peer : SpdmPeer) (answer : SpdmAnswer) (s : State) :
    memAfter s (execGetMeasurements peer answer s) = s.mem := by
  simp [execGetMeasurements]

@[simp] theorem hostRequest_mem (s : State) (session : Nat) (a : SpdmAnswer) {serve : State} (h : serve.mem = s.mem) :
    (s.hostRequest session a serve).mem = s.mem := by
  unfold State.hostRequest
  split
  · rfl
  · split
    · rfl
    · exact h

@[simp] theorem execKeyExchange_mem (peer : SpdmPeer) (answer : SpdmAnswer) (s : State) :
    memAfter s (execKeyExchange peer answer s) = s.mem := by
  cases peer with
  | die d => exact spdm_mem ..
  | host x => exact hostRequest_mem _ _ _ (by split <;> rfl)

@[simp] theorem execFinish_mem (peer : SpdmPeer) (answer : SpdmAnswer) (s : State) :
    memAfter s (execFinish peer answer s) = s.mem := by
  cases peer with
  | die d => exact spdm_mem ..
  | host x =>
    refine hostRequest_mem _ _ _ ?_
    split
    · rfl
    · dsimp only
      split
      · rfl
      · exact (sendStatusHeld_mem ..).trans (grantAll_mem ..)

@[simp] theorem dieSession_mem (s : State) (d : Nat) (a : SpdmAnswer) (f : Die → Die) :
    (s.dieSession d a f).mem = s.mem := by
  unfold State.dieSession
  split <;> rfl

@[simp] theorem execKeyUpdate_mem (peer : SpdmPeer) (answer : SpdmAnswer) (s : State) :
    memAfter s (execKeyUpdate peer answer s) = s.mem := by
  cases peer with
  | die d => exact dieSession_mem ..
  | host x => exact hostRequest_mem _ _ _ (by split <;> rfl)

@[simp] theorem endSession_mem (s : State) (x : Nat) : (s.endSession x).mem = s.mem := by
  simp [State.endSession]

@[simp] theorem execEndSession_mem (peer : SpdmPeer) (answer : SpdmAnswer) (s : State) :
    memAfter s (execEndSession peer answer s) = s.mem := by
  cases peer with
  | die d => exact dieSession_mem ..
  | host x =>
    refine hostRequest_mem _ _ _ ?_
    split
    · exact endSession_mem ..
    · rfl

@[simp] theorem execUnsupportedRequest_mem (peer : SpdmPeer) (answer : SpdmAnswer) (s : State) :
    memAfter s (execUnsupportedRequest peer answer s) = s.mem := by
  cases peer with
  | die d =>
    dsimp only [execUnsupportedRequest]
    rw [memAfter_next]
    split
    · rfl
    · exact countMgmt_mem s 9 d
  | host x => exact hostRequest_mem _ _ _ (by rfl)

@[simp] theorem execSecuredMessageCheckFailure_mem (session : Nat) (s : State) :
    memAfter s (execSecuredMessageCheckFailure session s) = s.mem := by
  simp [execSecuredMessageCheckFailure]

/-! ### Host commands (R291, R322, R333, R364, R376, R377, R379, R385) -/

@[simp] theorem servedCmd_mem (s : State) (seq : Nat) (r : Served) : memAfter s (servedCmd seq r) = r.state.mem := by
  cases r with
  | wait t => rfl
  | done t words => exact readyCmd_mem ..

@[simp] theorem execHResume_mem (seq : Nat) (s : State) : memAfter s (execHResume seq s) = s.mem := by
  unfold execHResume
  split
  · rfl
  · rw [servedCmd_mem, resumeGraph_mem]

@[simp] theorem execHLaunch_mem (seq : Nat) (s : State) : memAfter s (execHLaunch seq s) = s.mem := by
  unfold execHLaunch
  (repeat' split) <;> simp

@[simp] theorem clearCopy_mem (s : State) (asid dst n : Nat) : (s.clearCopy asid dst n).mem = s.mem := rfl

@[simp] theorem queryCmd_mem (seq item : Nat) (f : State → Cmd → Nat) (s : State) :
    memAfter s (queryCmd seq item f s) = s.mem := by
  unfold queryCmd
  split
  · rfl
  · rw [memAfter_next]
    split
    · exact readyCmd_mem ..
    · rfl

@[simp] theorem execHQueryDieEntry_mem (seq : Nat) (s : State) :
    memAfter s (execHQueryDieEntry seq s) = s.mem := queryCmd_mem ..

@[simp] theorem execHQueryErrorCounter_mem (seq : Nat) (s : State) :
    memAfter s (execHQueryErrorCounter seq s) = s.mem := queryCmd_mem ..

@[simp] theorem execHQueryExchange_mem (seq : Nat) (s : State) :
    memAfter s (execHQueryExchange seq s) = s.mem := queryCmd_mem ..

@[simp] theorem execHJournalRead_mem (seq : Nat) (s : State) : memAfter s (execHJournalRead seq s) = s.mem := by
  unfold execHJournalRead
  (repeat' split) <;> simp

@[simp] theorem dieBack_mem (s : State) (seq d : Nat) : (s.dieBack seq d).mem = s.mem := by
  unfold State.dieBack
  dsimp only
  (repeat' split) <;> simp

@[simp] theorem drainDie_mem (s : State) (d : Nat) : (s.drainDie d).mem = s.mem := by
  unfold State.drainDie
  extract_lets s1 s2
  have h1 : s1.mem = s.mem := by
    dsimp only [s1]
    split
    · rfl
    · exact foldl_mem _ (fun _ _ => foldl_mem _ (fun _ _ => dropStash_mem ..) _ _) (List.range 64) s
  have h2 : s2.mem = s1.mem := foldl_mem _ (fun _ _ => setDie_mem ..) (List.range 8) _
  rw [setDie_mem, h2, h1]

@[simp] theorem execHDieReset_mem (seq : Nat) (s : State) : memAfter s (execHDieReset seq s) = s.mem := by
  unfold execHDieReset
  split
  · rfl
  · extract_lets d s1 busy
    split
    · have h1 : s1.mem = s.mem := (deviceEvent_mem ..).trans (setCmd_mem ..)
      rw [memAfter_next]
      split
      · exact (drainDie_mem ..).trans h1
      · exact (resetDie_mem ..).trans h1
    · rw [memAfter_next]
      split
      · rfl
      · exact (resetDie_mem ..).trans (setCmd_mem ..)
    · exact dieBack_mem ..

@[simp] theorem execHAttest_mem (seq : Nat) (s : State) : memAfter s (execHAttest seq s) = s.mem := by
  unfold execHAttest
  split
  · rfl
  · extract_lets b ts bad s1
    have h1 : s1.mem = s.mem := setCmd_mem ..
    clear_value bad s1
    split
    · split
      · exact readyCmd_mem ..
      · rw [memAfter_next]
        refine (foldl_mem _ (fun a d => ?_) _ _).trans h1
        split
        · exact setDie_mem ..
        · rfl
    · split
      · rfl
      · exact readyCmd_mem ..

@[simp] theorem releaseDie_mem (s : State) (d : Nat) : (s.releaseDie d).mem = s.mem := by
  simp [State.releaseDie]

theorem debugCmd_mem {f : State → Nat → Option State} {s : State} (h : ∀ b t, f s b = some t → t.mem = s.mem) (seq action : Nat) :
    memAfter s (debugCmd seq action f s) = s.mem := by
  unfold debugCmd
  split
  · rfl
  · split
    · rfl
    · split
      · next hf =>
        rw [memAfter_next, readyCmd_mem]
        split at hf
        · exact h _ _ hf
        · cases hf
      · exact readyCmd_mem ..

@[simp] theorem execHDebugHalt_mem (seq : Nat) (s : State) : memAfter s (execHDebugHalt seq s) = s.mem :=
  debugCmd_mem (fun b t h => by
    split at h
    · cases h; exact haltDie_mem ..
    · cases h) ..

@[simp] theorem execHDebugRelease_mem (seq : Nat) (s : State) : memAfter s (execHDebugRelease seq s) = s.mem :=
  debugCmd_mem (fun b t h => by
    split at h
    · cases h; exact releaseDie_mem ..
    · cases h) ..

theorem armed_mem (s : State) (g : Nat) (on : Bool) {t : State} (h : s.arm g on = some t) : t.mem = s.mem := by
  unfold State.arm at h
  (repeat' split at h) <;> cases h <;> rfl

@[simp] theorem execHDebugArm_mem (seq : Nat) (s : State) : memAfter s (execHDebugArm seq s) = s.mem :=
  debugCmd_mem (fun _ _ h => armed_mem _ _ _ h) ..

@[simp] theorem execHDebugDisarm_mem (seq : Nat) (s : State) : memAfter s (execHDebugDisarm seq s) = s.mem :=
  debugCmd_mem (fun _ _ h => armed_mem _ _ _ h) ..

theorem configCmd_mem {f : State → HostCommand → Option State} {s : State} (h : ∀ c t, f s c = some t → t.mem = s.mem) (seq item : Nat) :
    memAfter s (configCmd seq item f s) = s.mem := by
  unfold configCmd
  split
  · rfl
  · extract_lets i
    split
    · rfl
    · split
      · next hf =>
        rw [memAfter_next, readyCmd_mem]
        split at hf
        · exact h _ _ hf
        · cases hf
      · exact readyCmd_mem ..

@[simp] theorem execHConfigureQueuePriority_mem (seq : Nat) (s : State) :
    memAfter s (execHConfigureQueuePriority seq s) = s.mem :=
  configCmd_mem (fun _ _ h => by cases h; rfl) ..

@[simp] theorem execHConfigurePowerCap_mem (seq : Nat) (s : State) :
    memAfter s (execHConfigurePowerCap seq s) = s.mem :=
  configCmd_mem (fun c t h => by
    dsimp only at h
    split at h <;> cases h
    rfl) ..

@[simp] theorem execHConfigureExchangeGroup_mem (seq : Nat) (s : State) :
    memAfter s (execHConfigureExchangeGroup seq s) = s.mem :=
  configCmd_mem (fun c t h => by
    extract_lets n pa isOpen g at h
    clear_value g isOpen
    split at h <;> cases h
    exact setGroup_mem ..) ..

@[simp] theorem execHConfigureChip_mem (seq : Nat) (s : State) : memAfter s (execHConfigureChip seq s) = s.mem :=
  configCmd_mem (fun c t h => by
    extract_lets pa id at h
    clear_value pa id
    split at h <;> cases h
    rfl) ..

@[simp] theorem execHConfigureInstallKey_mem (seq : Nat) (s : State) :
    memAfter s (execHConfigureInstallKey seq s) = s.mem :=
  configCmd_mem (fun _ _ h => by cases h; rfl) ..

@[simp] theorem execHConfigureSendKey_mem (seq : Nat) (s : State) : memAfter s (execHConfigureSendKey seq s) = s.mem :=
  configCmd_mem (fun _ _ h => by cases h; rfl) ..

@[simp] theorem execHConfigureEraseKey_mem (seq : Nat) (s : State) :
    memAfter s (execHConfigureEraseKey seq s) = s.mem :=
  configCmd_mem (fun _ _ h => by cases h; rfl) ..

end Sys2Proof.Machine
end

section
/-! PROOFS. What writes memory keeps it in its canonical form: O8. -/
namespace Sys2Proof.Machine
open Host

/-! ### What a write, a fold and an answer keep -/

theorem homeWrite_skip_inv {s : State} (h : s.Inv) (pa : Nat) (data : List Byte) (bad : Bool) (skip : List Nat) :
    (s.homeWrite pa data bad skip).Inv := memWrites_wf data s.mem pa h

theorem foldl_inv {α : Type} {f : State → α → State} (hf : ∀ s a, s.Inv → (f s a).Inv) (l : List α) {s : State} (h : s.Inv) :
    (l.foldl f s).Inv := by
  induction l generalizing s with
  | nil => exact h
  | cons a t ih => exact ih (hf s a h)

/-- What an instruction answers meets the invariant, if it is a state. -/
def InvAfter : Outcome State Fault Refusal → Prop
  | .next t => t.Inv
  | .fault _ | .refused _ => True

@[simp] theorem invAfter_next (t : State) : InvAfter (.next t) ↔ t.Inv := Iff.rfl

theorem invAfter_of_mem {s : State} {o : Outcome State Fault Refusal} (h : s.Inv) (e : memAfter s o = s.mem) :
    InvAfter o := by
  cases o with
  | next t => exact inv_of_mem h e
  | fault f => trivial
  | refused f => trivial

/-- The state that a load of a graph leaves. -/
def Loaded.state : Loaded → State
  | .busy s | .refused s _ _ _ | .ok s _ => s

/-- The state that an act leaves, done or not. -/
def Acted.state : Acted → State
  | .done s | .waits s => s

theorem served_state_done (s : State) (ws : List Nat) : (Served.done s ws).state = s := rfl

theorem acted_state_done (s : State) : (Acted.done s).state = s := rfl

/-! ### Requests at their homes -/

theorem performReq_inv {s : State} (h : s.Inv) (rid : Nat) (r : Req) (st pa : Nat) :
    (s.performReq rid r st pa).Inv := by
  cases hk : r.kind with
  | load => exact inv_of_mem h (performReq_load_mem hk ..)
  | store new bad =>
    unfold State.Inv
    rw [performReq_store_mem hk]
    exact memWrites_wf _ _ _ h
  | atomic k ws =>
    unfold State.Inv
    rw [performReq_atomic_mem hk]
    split
    · exact h
    · split
      · exact h
      · exact memWrites_wf _ _ _ h
  | full op data =>
    unfold State.Inv
    rw [performReq_full_mem hk]
    split
    · exact memWrites_wf _ _ _ h
    · exact h
  | rounda scope =>
    refine inv_of_mem h ?_
    simp only [State.performReq, hk]
    split <;> simp
  | roundv => exact inv_of_mem h (by simp [State.performReq, hk])
  | stashStore _ | smap _ _ | swb | sinv => exact inv_of_mem h (by simp [State.performReq, hk])

theorem finishReq_inv {s : State} (h : s.Inv) (rid : Nat) (r : Req) (st : Nat) (l : Option Leaf) :
    (s.finishReq rid r st l).Inv := by
  unfold State.finishReq
  split
  · split
    · split
      · exact performReq_inv h ..
      · exact inv_of_mem h (faultReq_mem ..)
    · exact performReq_inv h ..
  · split
    · exact inv_of_mem h (faultReq_mem ..)
    · exact inv_of_mem h (faultReq_mem ..)
    · split
      · exact h
      · exact performReq_inv h ..

theorem execHomeAccess_inv {s : State} (h : s.Inv) (req : Nat) : InvAfter (execHomeAccess req s) := by
  unfold execHomeAccess
  split
  · exact h
  · split
    · exact h
    · exact h
    · exact h
    · exact h
    all_goals
      split
      · exact h
      · extract_lets x
        split
        · exact finishReq_inv h ..
        · split
          · split
            · next hask =>
              split at hask
              · cases hask
              · exact inv_of_mem h (askRecall_mem hask)
            · exact inv_of_mem h (remoteReq_mem ..)
          · split
            · exact h
            · split
              · exact finishReq_inv h ..
              · split
                · next hrecall =>
                  split at hrecall
                  · cases hrecall
                  · exact inv_of_mem h (recallFor_mem hrecall)
                · split
                  · exact finishReq_inv (inv_of_mem h (tlbUse_mem ..)) ..
                  · exact inv_of_mem h (startWalk_mem ..)

theorem execPageWalkComplete_inv {s : State} (h : s.Inv) (die k : Nat) : InvAfter (execPageWalkComplete die k s) := by
  unfold execPageWalkComplete
  extract_lets d st others
  split
  · exact h
  · extract_lets l sv left s1 s2 again s3
    have h1 : s1.Inv := inv_of_mem h (setDie_mem ..)
    have h2 : s2.Inv := by
      clear_value l
      cases l with
      | none => exact h1
      | some x =>
        dsimp only [s2]
        split
        · exact inv_of_mem h1 (tlbPut_mem ..)
        · exact h1
    have h3 : s3.Inv := inv_of_mem h2 (foldl_mem (fun a q => a.wake q (fun b r => { b with reqs := Map.put b.reqs q r }))
      (fun _ _ => wake_mem (fun _ => rfl)) again s2)
    refine foldl_inv (fun a q ha => ?_) _ h3
    unfold State.wake
    split
    · exact ha
    · dsimp only
      split
      · exact finishReq_inv ha ..
      · exact ha

/-! ### What a boundary link loses (R333) -/

theorem loseAnswer_inv {s : State} (h : s.Inv) (id : Nat) (r : Req) : (s.loseAnswer id r).Inv := by
  unfold State.loseAnswer
  split
  · exact inv_of_mem h (loseRequest_mem ..)
  · exact inv_of_mem h (loseRequest_mem ..)
  · extract_lets mute
    have hacc : InvAfter (execHomeAccess id { s with reqs := Map.put s.reqs id mute }) :=
      execHomeAccess_inv (inv_of_mem h (by rfl)) id
    split
    · next heq => rwa [heq] at hacc
    · exact h
    · exact h

theorem losePacket_inv {s : State} (h : s.Inv) (dir : Nat) (what : LostPacket) : (s.losePacket dir what).Inv := by
  unfold State.losePacket
  extract_lets lose
  have hlose (id : Nat) (f : Req → State) (hf : ∀ r, (f r).Inv) : (lose id f).Inv := by
    dsimp only [lose]
    split
    · exact h
    · split
      iterate 2
        · split
          · exact hf _
          · exact h
      all_goals exact h
  clear_value lose
  split
  · refine inv_of_mem h ?_
    split
    · rfl
    · split
      · rw [countDropped_mem, moveCredits_mem]
      · rfl
  · exact hlose _ _ (fun _ => inv_of_mem h (loseRequest_mem ..))
  · exact hlose _ _ (fun _ => loseAnswer_inv h ..)
  · exact inv_of_mem h (by split <;> [rfl; split <;> rfl])
  · exact inv_of_mem h (by split <;> [rfl; split <;> rfl])
  · exact inv_of_mem h (by split <;> [rfl; split <;> rfl])
  · exact inv_of_mem h (by split <;> [rfl; split <;> rfl])
  · exact inv_of_mem h (by split <;> [rfl; split <;> rfl])
  · exact inv_of_mem h (by split <;> [rfl; split <;> rfl])
  · refine inv_of_mem h ?_
    split
    · rfl
    · split
      · exact (foldl_mem _ (fun _ _ => countDropped_mem ..) _ _).trans (setCore_mem ..)
      · rfl
  · exact inv_of_mem h (by split <;> [rfl; split <;> rfl])
  · exact h

theorem execBoundaryTagFailure_inv {s : State} (h : s.Inv) (f : TagFailure) :
    InvAfter (execBoundaryTagFailure f s) := by
  unfold execBoundaryTagFailure
  extract_lets dir rx s0 s1
  split
  · exact h
  · exact inv_of_mem (losePacket_inv h dir f.what) (by
      rw [requarantine_mem, requarantine_mem, deviceEvent_mem, countDie_mem])

/-! ### Writes of the control die (R225, R348) -/

theorem ctlPut_inv {s : State} (h : s.Inv) (g asid ident : Nat) (cid : Option Nat) (va : Nat) (data : List Byte) (bad : Bool) :
    (s.ctlPut g asid ident cid va data bad).Inv := by
  unfold State.ctlPut
  extract_lets x
  split
  · exact inv_of_mem h (ctlReq_mem ..)
  · split
    · exact h
    · dsimp only
      refine inv_of_mem (homeWrite_skip_inv (inv_of_mem h ?_) ..) (touchCopies_mem ..)
      rw [atSlice_mem, countTogether_mem]

theorem ctlWrite_inv {s : State} (h : s.Inv) (g asid ident va : Nat) (data : List Byte) (cid : Option Nat) :
    (s.ctlWrite g asid ident va data cid).state.Inv := by
  unfold State.ctlWrite
  extract_lets ps
  have hcheck : (s.ctlCheck g asid ident ps).state.Inv := inv_of_mem h (ctlCheck_mem ..)
  split
  · next heq =>
    rw [heq] at hcheck
    exact foldl_inv (fun _ _ ha => ctlPut_inv ha ..) _ hcheck
  · exact hcheck

theorem copyWrite_inv {s : State} (h : s.Inv) (asid va : Nat) (data : List Byte) (poison : List Nat) :
    (s.copyWrite asid va data poison).state.Inv := by
  unfold State.copyWrite
  have hcheck : (s.ctlCheck 256 asid hostIdent (lineRun va data.length (data.length / 128 + 2) 0)).state.Inv :=
    inv_of_mem h (ctlCheck_mem ..)
  split
  · next heq =>
    rw [heq] at hcheck
    exact foldl_inv (fun _ _ ha => foldl_inv (fun _ _ hb => ctlPut_inv hb ..) _ ha) _ hcheck
  · exact hcheck

theorem copyPiece_inv {s : State} (h : s.Inv) (seq : Nat) (x : Cmd) (done n : Nat) (data : List Byte) :
    (s.copyPiece seq x done n data).Inv := by
  unfold State.copyPiece
  extract_lets b kind src dst fails read
  have hread : read.state.Inv := by
    dsimp only [read]
    split
    · exact h
    · exact inv_of_mem h (ctlRead_mem ..)
  clear_value read
  split
  · exact hread
  · exact inv_of_mem hread ((readyCmd_mem ..).trans (clearAsk_mem ..))
  · next s1 bytes bad =>
    extract_lets next
    split
    · exact inv_of_mem hread (setCmd_mem s1 seq next)
    · have hwrite : (s1.copyWrite (b 4 % 4096) dst bytes bad).state.Inv := copyWrite_inv hread ..
      split <;> rename_i heq <;> rw [heq] at hwrite
      · exact hwrite
      · exact inv_of_mem hwrite (readyCmd_mem ..)
      · exact inv_of_mem hwrite (setCmd_mem ..)

theorem execHCopy_inv {s : State} (h : s.Inv) (seq : Nat) (data : List Byte) : InvAfter (execHCopy seq data s) := by
  unfold execHCopy
  split
  · exact h
  · extract_lets b total
    split
    · refine inv_of_mem h ?_
      rw [setCmd_mem]
      split
      · rfl
      · exact acquire_mem ..
    · extract_lets asid dst room n
      split
      · exact inv_of_mem h ((readyCmd_mem ..).trans (clearCopy_mem ..))
      · split
        · exact h
        · split
          · exact h
          · split
            · rw [invAfter_next]
              split
              · exact h
              · exact inv_of_mem h (readyCmd_mem ..)
            · rw [invAfter_next]
              split
              · exact h
              · exact copyPiece_inv h ..

/-! ### The trace (R351) -/

theorem traceWords_inv {s : State} (h : s.Inv) (g : Nat) (x : Graph) (len : Nat) (hit : Bool) (pos lost : Nat) (ws : List TraceWord) :
    (s.traceWords g x len hit pos lost ws).1.Inv := by
  induction ws generalizing s hit pos lost with
  | nil => exact h
  | cons v t ih =>
    unfold State.traceWords
    have hwrite := ctlWrite_inv h g x.asid x.identity (x.traceRing + 64 + 8 * (pos % ((len - 64) / 8))) (toBytes 8 v.word.toNat) none
    split <;> rename_i heq <;> rw [heq] at hwrite
    · exact ih hwrite ..
    · exact ih hwrite ..
    · exact hwrite

theorem drainTrace_inv {s : State} (h : s.Inv) (c g n : Nat) : (s.drainTrace c g n).Inv := by
  unfold State.drainTrace
  extract_lets words k
  have hdone {t : State} (ht : t.Inv) (m : Nat) : (t.burstDone c g k m).Inv := inv_of_mem ht (burstDone_mem ..)
  split
  · exact hdone h _
  · next x _ =>
    split
    · exact h
    · split
      · exact hdone h _
      · have hread : (s.ctlRead g x.asid x.identity x.traceRing 24).state.Inv := inv_of_mem h (ctlRead_mem ..)
        split
        · next heq => rwa [heq] at hread
        · next heq => rw [heq] at hread; exact hdone (inv_of_mem hread (clearAsk_mem ..)) _
        · next s1 b _ heq =>
          rw [heq] at hread
          extract_lets len m pos used
          have hwords : (s1.traceWords g x len false pos 0 words).1.Inv := traceWords_inv hread ..
          split
          · exact h
          · split
            · next heq => rwa [heq] at hwords
            · next s2 lost heq =>
              rw [heq] at hwords
              have hring := ctlWrite_inv hwords g x.asid x.identity x.traceRing (toBytes 8 (64 + 8 * ((pos + k) % m))) none
              split <;> rename_i heq <;> rw [heq] at hring
              · exact hring
              · exact hdone hring _
              · exact hdone hring _

theorem drainNext_inv {s : State} (h : s.Inv) (c n : Nat) : (s.drainNext c n).Inv := by
  unfold State.drainNext
  split
  · exact drainTrace_inv h ..
  · exact inv_of_mem h (foldl_mem _ (fun _ _ => traceEnd_mem ..) _ _)

theorem drainGraph_inv {s : State} (h : s.Inv) (g : Nat) : (s.drainGraph g).Inv :=
  foldl_inv (fun _ _ ha => foldl_inv (fun _ _ hb => drainTrace_inv hb ..) _ ha) _ h

theorem tronAct_inv {s : State} (h : s.Inv) (g addr len : Nat) : (s.tronAct g addr len).1.Inv := by
  unfold State.tronAct
  split
  · exact h
  · next x _ =>
    extract_lets head go
    have hgo {a : State} (ha : a.Inv) : (go a).Inv := by
      dsimp only [go]
      refine foldl_inv (fun _ _ hb => inv_of_mem hb (syncOn_mem ..)) _ ?_
      split
      · exact inv_of_mem ha (setGraph_mem ..)
      · exact ha
    clear_value go
    have hwrite := ctlWrite_inv h g x.asid x.identity addr head none
    split <;> rename_i heq <;> rw [heq] at hwrite
    · exact hwrite
    · exact hgo (inv_of_mem hwrite (hwWrite_mem ..))
    · exact hgo hwrite

/-! ### Graphs are loaded and leave (R348, R349, R353) -/

theorem placeGraph_inv {s : State} (h : s.Inv) (a : LoadAsk) (g : Nat) (x : Graph) (data : List Byte) :
    (s.placeGraph a g x data).state.Inv := by
  unfold State.placeGraph
  extract_lets s1 refuse
  have h1 : s1.Inv := inv_of_mem h (setGraph_mem ..)
  have hdata := ctlWrite_inv h1 g x.asid x.identity ((x.privBase + 0x2000000000) % 2 ^ 56) data a.cid
  split <;> rename_i heq <;> rw [heq] at hdata
  · exact hdata
  · exact hdata
  · next s2 =>
    have hlog := ctlWrite_inv (s := s2) hdata g x.asid x.identity x.dlogBase dlogHeader a.cid
    split <;> rename_i heq <;> rw [heq] at hlog
    · exact hlog
    · exact hlog
    · next s3 =>
      extract_lets s4 s5 _ s6
      have h3 : s3.Inv := hlog
      have h4 : s4.Inv := by
        dsimp only [s4]
        split
        · exact foldl_inv (fun _ _ hb => inv_of_mem hb ((byEvent_mem ..).trans (setCore_mem ..))) _ h3
        · exact h3
      have h5 : s5.Inv := foldl_inv (fun _ _ hb => inv_of_mem hb (setCore_mem ..)) _ h4
      clear_value s5
      have h6 : s6.Inv := inv_of_mem h5 rfl
      exact inv_of_mem h6 ((byEvent_mem ..).trans (setGraph_mem ..))

theorem preemptGraph_inv {s : State} (h : s.Inv) (asker key g : Nat) : (s.preemptGraph asker key g).state.Inv := by
  unfold State.preemptGraph
  split
  · exact h
  · split
    · exact h
    · split
      · exact h
      · split
        · exact h
        · extract_lets s1 rows s0 away n s2
          have h1 : s1.Inv := by
            dsimp only [s1]
            split
            · exact h
            · exact inv_of_mem h (by rw [dropCarafes_mem, stopWarps_mem, setGraph_mem])
          have h0 : s0.Inv := drainGraph_inv h1 g
          have h2 : s2.Inv := inv_of_mem h0 (foldl_mem _ (fun _ _ => saveGraphOn_mem ..) _ _)
          clear_value s1 s0 s2 rows away
          split
          · exact h1
          · split
            · exact h0
            · split
              · exact h2
              · split
                · exact h2
                · exact inv_of_mem h2 (setGraph_mem ..)

theorem unloadGraph_inv {s : State} (h : s.Inv) (asker key g : Nat) : (s.unloadGraph asker key g).state.Inv := by
  unfold State.unloadGraph
  split
  · exact h
  · split
    · exact h
    · split
      · exact h
      · split
        · exact h
        · extract_lets a s1 s2 n
          have ha : a.Inv := inv_of_mem h (by rw [dropCarafes_mem, stopWarps_mem, setGraph_mem])
          have h1 : s1.Inv := by
            dsimp only [s1]
            split
            · exact h
            · refine inv_of_mem ha (foldl_mem _ (fun b k => foldl_mem _ (fun d p => ?_) _ _) _ _)
              split
              · exact discardEngine_mem ..
              · rfl
          have h2 : s2.Inv := drainGraph_inv h1 g
          clear_value s1 s2 n
          split
          · exact h1
          · split
            · exact h2
            · split
              · exact inv_of_mem h2 (dropParked_mem ..)
              · split
                · exact h2
                · next y _ =>
                  rw [served_state_done]
                  exact inv_of_mem h2 (eraseGraph_mem ..)

theorem readImg_mem (s : State) (a : LoadAsk) (ps : List (Nat × Nat × Nat)) : (s.readImg a ps).st.mem = s.mem := by
  unfold State.readImg
  refine foldl_keeps (fun x : ImgRead => x.st.mem) (fun x p => ?_) ps ⟨s, [], []⟩
  have hread := ctlRead_mem x.st a.from' a.asid a.ident p.2.1 p.2.2
  split <;> rename_i heq <;> rwa [heq] at hread

theorem checkLoad_inv {s : State} (h : s.Inv) (a : LoadAsk) (i : ImgRead) : (s.checkLoad a i).state.Inv := by
  unfold State.checkLoad
  extract_lets d b hd whole x wantsPart
  clear_value whole
  repeat' split
  on_goal 9 => exact placeGraph_inv h ..
  all_goals exact h

theorem loadGraph_inv {s : State} (h : s.Inv) (a : LoadAsk) : (s.loadGraph a).state.Inv := by
  unfold State.loadGraph
  extract_lets d asid regtab root space mismatch va s0 undo told
  have h0 : s0.Inv := by
    dsimp only [s0]
    split
    · exact inv_of_mem h (openSpace_mem ..)
    · exact h
  have hundo {t : State} (ht : t.Inv) : (undo t).Inv := by
    dsimp only [undo]
    split <;> exact ht
  have htold {t : State} (ht : t.Inv) (n : Nat) : (told t n).Inv := inv_of_mem ht (clearAsk_mem ..)
  clear_value s0 undo told mismatch
  split
  · exact h
  · have hhead : (s0.ctlRead a.from' a.asid a.ident va 128).state.Inv := inv_of_mem h0 (ctlRead_mem ..)
    split <;> rename_i heq <;> rw [heq] at hhead
    · exact hundo hhead
    · exact hundo (htold hhead _)
    · extract_lets hd
      split
      · exact hundo hhead
      · have hsize : (s0.ctlRead a.from' a.asid a.ident va hd.size).state.Inv := inv_of_mem h0 (ctlRead_mem ..)
        have himage (ps : List (Nat × Nat × Nat)) :
            (((s0.readImg a ps).lost.foldl (fun t p => told t p.2.1) (s0.readImg a ps).st).checkLoad a (s0.readImg a ps)).state.Inv :=
          checkLoad_inv (foldl_inv (fun _ _ ht => htold ht _) _ (inv_of_mem h0 (readImg_mem ..))) ..
        split
        · next heq =>
          rw [heq] at hsize
          exact hundo hsize
        all_goals
          have hload := himage (lineRun va hd.size (hd.size / 128 + 2) 0)
          split <;> rename_i heq <;> rw [heq] at hload
          · exact hundo hload
          · exact hundo hload
          · exact hload

theorem serve_inv {s : State} (h : s.Inv) (v : Service) : (s.serve v).state.Inv := by
  unfold State.serve
  split
  · exact unloadGraph_inv h ..
  · exact preemptGraph_inv h ..
  · exact inv_of_mem h (resumeGraph_mem ..)

theorem serveNth_inv {s : State} (h : s.Inv) (n : Nat) (v : Service) : (s.serveNth n v).Inv := by
  unfold State.serveNth
  split
  · exact h
  · have hserve := serve_inv h v
    split <;> rename_i heq <;> rw [heq] at hserve
    · exact hserve
    · exact inv_of_mem hserve ((retireCommit_mem ..).trans (sysAnswer_mem ..))

theorem serveSlot_inv {s : State} (h : s.Inv) (c k : Nat) : (s.serveSlot c k).Inv := by
  refine foldl_inv (fun a p ha => ?_) _ h
  split
  · exact serveNth_inv ha ..
  · exact ha

theorem gloadServed_inv {s : State} (h : s.Inv) (w : Warp) (cid : Nat) (d : List Word) :
    (s.gloadServed w cid d).state.Inv := by
  unfold State.gloadServed
  extract_lets fw
  have hload := loadGraph_inv h ⟨d, w.graph, s.asidOf w, s.identOf w, fw, some cid⟩
  split <;> rename_i heq <;> rw [heq] at hload <;> exact hload

/-! ### Commits (R33, R337) -/

/-- What serves an instruction that replies. -/
def answered : Served ⊕ State → State
  | .inl r => r.state
  | .inr s => s

theorem replying_inv {s : State} (h : s.Inv) (c k : Nat) (w : Warp) (cid imm : Nat) {f : State → Reply → Charge → Served ⊕ State}
    (hf : ∀ a r x, a.Inv → (answered (f a r x)).Inv) : (s.replying c k w cid imm f).state.Inv := by
  unfold State.replying
  split
  · exact h
  · next s1 x hcharge =>
    have hserved := hf s1 (s1.sysReplyOf c w imm) x (inv_of_mem h (replyCharge_mem hcharge))
    extract_lets r
    split <;> rename_i heq <;> rw [heq] at hserved
    · exact hserved
    · next s2 words =>
      have h2 : s2.Inv := hserved
      rw [acted_state_done]
      exact inv_of_mem h2 ((sysAnswer_mem ..).trans (freeCharge_mem ..))
    · next s2 =>
      have h2 : s2.Inv := hserved
      rw [acted_state_done]
      exact inv_of_mem h2 (freeCharge_mem ..)

theorem asking_inv {s : State} (h : s.Inv) (c k : Nat) (w : Warp) (cid imm g : Nat) (op : ServiceOp) :
    (s.asking c k w cid imm g op).state.Inv := by
  unfold State.asking
  split
  · exact h
  · next s1 x hcharge =>
    extract_lets v s2
    have h2 : s2.Inv := inv_of_mem h ((freeCharge_mem ..).trans (replyCharge_mem hcharge))
    exact serveNth_inv (s := { s2 with services := s2.services ++ [v] }) h2 ..

theorem acted_of_inv {s : State} (h : s.Inv) {o : Option State} (ho : ∀ t, o = some t → t.mem = s.mem) :
    (Acted.of s o).state.Inv := by
  cases o with
  | none => exact h
  | some t => exact inv_of_mem h (ho t rfl)

theorem actOne_inv {s : State} (h : s.Inv) (c k cid : Nat) (w : Warp) (a : AtCommit) :
    (s.actOne c k cid w a).state.Inv := by
  cases a with
  | syswr n v => exact inv_of_mem h (syswrAct_mem ..)
  | falloc l t nb b sl p => exact acted_of_inv h (fun _ => fallocAct_mem)
  | spawn l t nb b sl pay p rel e sp => exact inv_of_mem h (spawnAct_mem ..)
  | engine e => exact inv_of_mem h (enterEngine_mem ..)
  | mxcfg ws => exact acted_of_inv h (fun _ hact => (mxcfgAct_mem _ _ _ _ _ hact).trans (setWarp_mem ..))
  | bldq qs => exact acted_of_inv h (fun _ => bldqAct_mem _ _ _)
  | rowp ps =>
    unfold State.actOne
    dsimp only
    split
    · exact inv_of_mem h (sendRows_mem ..)
    · exact h
  | accz t => exact inv_of_mem h (acczAct_mem ..)
  | accwb t ad st fl => exact acted_of_inv h (fun _ => accwbAct_mem)
  | accst t ad r fl pc => exact acted_of_inv h (fun _ => accstAct_mem)
  | iscfg u cfg r => exact inv_of_mem h (iscfgAct_mem ..)
  | sacci n ps => exact inv_of_mem h (sacciAct_mem ..)
  | saccf n ca va ctl fl => exact acted_of_inv h (fun _ => saccfAct_mem)
  | fchbind ch cfg sc => exact inv_of_mem h (fchbindAct_mem ..)
  | mxseq t f r ctl fl => exact inv_of_mem h (mxseqAct_mem ..)
  | hbind ch f => exact inv_of_mem h (hbindAct_mem ..)
  | hbindRelease ch => exact inv_of_mem h (hreleaseAct_mem ..)
  | hclr m => exact inv_of_mem h (hclrAct_mem ..)
  | tron ad len =>
    have htron := tronAct_inv h w.graph ad len
    unfold State.actOne
    dsimp only
    split <;> exact htron
  | troff => exact inv_of_mem h (troffAct_mem ..)
  | trmark imm v => exact inv_of_mem h (trmarkAct_mem ..)
  | srseed v => exact inv_of_mem h (srseedAct_mem ..)
  | jrnl code v => exact inv_of_mem h (jrnlAct_mem ..)
  | gload d imm =>
    exact replying_inv h c k w cid imm (f := fun a _ _ => .inl (a.gloadServed w cid d)) (fun _ _ _ ha => gloadServed_inv ha ..)
  | gunld g imm => exact asking_inv h ..
  | preempt g imm => exact asking_inv h ..
  | resume g imm => exact asking_inv h ..
  | launch d imm =>
    exact replying_inv h c k w cid imm (f := fun a r x => .inr (a.launchAct d r x cid)) (fun _ _ _ ha => inv_of_mem ha (launchAct_mem ..))
  | tgen asid imm =>
    exact replying_inv h c k w cid imm (f := fun a r x => .inr (a.tgenAct asid r x cid)) (fun _ _ _ ha => inv_of_mem ha (tgenAct_mem ..))
  | dirfl d imm =>
    exact replying_inv h c k w cid imm (f := fun a _ _ => .inl (.done (a.dirflAct d cid).1 [(a.dirflAct d cid).2]))
      (fun _ _ _ ha => inv_of_mem ha (dirflAct_mem ..))
  | tret n d imm =>
    exact replying_inv h c k w cid imm (f := fun a _ _ => match a.tretAct c cid n d with
      | none => .inl (.wait a)
      | some p => .inl (.done p.1 [p.2])) (fun a _ _ ha => by
        split
        · exact ha
        · next p hact => exact inv_of_mem ha (tretAct_mem _ _ _ _ _ hact))

theorem actAll_inv {s : State} (h : s.Inv) (c k cid : Nat) (sends : List Emitted) (acts : List AtCommit) :
    (s.actAll c k cid sends acts).1.Inv := by
  induction acts generalizing s with
  | nil => exact h
  | cons a t ih =>
    unfold State.actAll
    split
    · exact h
    · next w _ =>
      have hact := actOne_inv h c k cid w a
      split <;> rename_i heq <;> rw [heq] at hact
      · exact hact
      · extract_lets s2
        refine ih ?_
        dsimp only [s2]
        split
        · exact inv_of_mem hact (setWarp_mem ..)
        · exact hact

theorem runCommit_inv {s : State} (h : s.Inv) (c k : Nat) : (s.runCommit c k).Inv := by
  unfold State.runCommit
  split
  · exact h
  · next w _ =>
    split
    · exact h
    · exact h
    · next acts sends cid _ =>
      split
      · exact h
      · extract_lets r s0 r1
        have hr : r.1.Inv := inv_of_mem h (sendStores_mem ..)
        split
        · exact inv_of_mem hr (setWarp_mem ..)
        · have h0 : s0.Inv := by
            dsimp only [s0]
            split
            · exact hr
            · exact inv_of_mem hr (setWarp_mem ..)
          have h1 : r1.1.Inv := actAll_inv h0 ..
          clear_value r1
          split
          · exact h1
          · split
            · exact h1
            · next w1 _ =>
              extract_lets s1 s2 r2
              have hs1 : s1.Inv := inv_of_mem h1 ((setWarp_mem ..).trans (addOffers_mem ..))
              have hs2 : s2.Inv := by
                dsimp only [s2]
                split
                · exact inv_of_mem hs1 (cleanCore_mem ..)
                · exact hs1
              have hr2 : r2.1.Inv := inv_of_mem hs2 (sendEmits_mem ..)
              split
              · exact inv_of_mem hr2 (endCommit_mem ..)
              · split
                · exact hr2
                · exact inv_of_mem hr2 (setWarp_mem ..)

theorem stashLinesReady_mem {s t : State} {c : Nat} {w : Warp} {xs : List StoreSlot} (h : s.stashLinesReady c w xs = .waits t) :
    t.mem = s.mem := by
  induction xs with
  | nil => cases h
  | cons x xs ih =>
    unfold State.stashLinesReady at h
    split at h
    · extract_lets asid at h
      split at h
      · exact ih h
      · extract_lets idx here at h
        clear_value here
        split at h
        · exact ih h
        · split at h
          · cases h
          · split at h
            · next hfill => cases h; exact congrArg Prod.fst (startFill_stored hfill)
            · cases h; rfl
    · exact ih h

theorem execCommit_inv {s : State} (h : s.Inv) (core slot : Nat) : InvAfter (execCommit core slot s) := by
  have hrun (w : Warp) : ((s.openCommit core slot w).runCommit core slot).Inv :=
    runCommit_inv (inv_of_mem h (openCommit_mem ..)) ..
  unfold execCommit
  split
  · exact h
  · split
    · exact h
    · split
      · exact h
      · exact hrun _
      · split
        · exact h
        · split
          · next hready =>
            refine inv_of_mem h (Eq.trans ?_ (stashLinesReady_mem hready))
            split
            · exact stalled_mem ..
            · rfl
          · exact inv_of_mem h ((dropFaulted_mem ..).trans (takeFault_mem ..))
          · split
            · exact inv_of_mem h ((haltDie_mem ..).trans (setWarp_mem ..))
            · exact hrun _

theorem execCommitResume_inv {s : State} (h : s.Inv) (core slot : Nat) : InvAfter (execCommitResume core slot s) :=
  runCommit_inv (serveSlot_inv h ..) ..

theorem execTraceDrain_inv {s : State} (h : s.Inv) (core n : Nat) :
    InvAfter (execTraceDrain core n s) := drainNext_inv h ..

/-! ### Host commands -/

theorem servedCmd_inv {r : Served} (h : r.state.Inv) (seq : Nat) : InvAfter (servedCmd seq r) := by
  cases r with
  | wait s => exact h
  | done s words => exact inv_of_mem h (readyCmd_mem ..)

theorem execHPreempt_inv {s : State} (h : s.Inv) (seq : Nat) : InvAfter (execHPreempt seq s) := by
  unfold execHPreempt
  split
  · exact h
  · exact servedCmd_inv (preemptGraph_inv h ..) seq

theorem execHUnload_inv {s : State} (h : s.Inv) (seq : Nat) : InvAfter (execHUnload seq s) := by
  unfold execHUnload
  split
  · exact h
  · exact servedCmd_inv (unloadGraph_inv h ..) seq

theorem execHLoad_inv {s : State} (h : s.Inv) (seq : Nat) : InvAfter (execHLoad seq s) := by
  unfold execHLoad
  split
  · exact h
  · next x _ =>
    have hload := loadGraph_inv h ⟨x.cmd.body.take 8, 256, HostCommand.b x.cmd 8 % 4096, hostIdent, true, none⟩
    split <;> rename_i heq <;> rw [heq] at hload
    · exact hload
    · exact inv_of_mem hload (readyCmd_mem ..)
    · exact inv_of_mem hload (readyCmd_mem ..)

end Sys2Proof.Machine
end

section
/-! PROOFS. Every step keeps memory in its canonical form: O8. -/
namespace Sys2Proof.Machine
open Host

/-! ### A word of which the map reads 64 bits (R60, R74) -/

theorem bits_mod_word {lo n : Nat} (h : lo + n ≤ 64) (w : Nat) : bits (w % 2 ^ 64) lo n = bits w lo n := by
  have hsplit : (2 : Nat) ^ 64 = 2 ^ lo * 2 ^ (64 - lo) := by rw [← Nat.pow_add, Nat.add_sub_cancel' (by omega)]
  unfold bits
  rw [hsplit, Nat.mod_mul_right_div_self, Nat.mod_mod_of_dvd _ (Nat.pow_dvd_pow 2 (by omega))]

theorem bitOf_mod_word {i : Nat} (h : i < 64) (w : Nat) : bitOf (w % 2 ^ 64) i = bitOf w i := by
  have hbit := bits_mod_word (lo := i) (n := 1) h w
  simp only [bits, Nat.pow_one] at hbit
  rw [bitOf, bitOf, hbit]

theorem decGuard_mod_word (w : Nat) : decGuard (w % 2 ^ 64) = decGuard w := by
  simp (disch := decide) only [decGuard, bits_mod_word, bitOf_mod_word]

theorem decSelAt_mod_word {lo : Nat} (h : lo + 9 ≤ 64) (w : Nat) : decSelAt (w % 2 ^ 64) lo = decSelAt w lo := by
  rw [decSelAt, decSelAt, bits_mod_word h]

theorem decTyAt_mod_word {lo : Nat} (h : lo + 5 ≤ 64) (w : Nat) : decTyAt (w % 2 ^ 64) lo = decTyAt w lo := by
  rw [decTyAt, decTyAt, bits_mod_word h]

theorem decMods_mod_word (w : Nat) : decMods (w % 2 ^ 64) = decMods w := by
  simp (disch := decide) only [decMods, bits_mod_word, bitOf_mod_word]

theorem decA_mod_word (w : Nat) : decA (w % 2 ^ 64) = decA w := by
  simp (disch := decide) only [decA, decGuard_mod_word, decSelAt_mod_word, decTyAt_mod_word, decMods_mod_word, bits_mod_word, bitOf_mod_word]

theorem decCmp_mod_word (w : Nat) : decCmp (w % 2 ^ 64) = decCmp w := by
  simp (disch := decide) only [decCmp, decA_mod_word, bits_mod_word]

theorem decPlop_mod_word (w : Nat) : decPlop (w % 2 ^ 64) = decPlop w := by
  simp (disch := decide) only [decPlop, decGuard_mod_word, decSelAt_mod_word, decTyAt_mod_word, bits_mod_word]

theorem decLanex_mod_word (w : Nat) : decLanex (w % 2 ^ 64) = decLanex w := by
  simp (disch := decide) only [decLanex, decA_mod_word, bits_mod_word]

theorem decPoll_mod_word (w : Nat) : decPoll (w % 2 ^ 64) = decPoll w := by
  simp (disch := decide) only [decPoll, decA_mod_word, bits_mod_word]

theorem decPeers_mod_word (w : Nat) : decPeers (w % 2 ^ 64) = decPeers w := by
  simp (disch := decide) only [decPeers, decA_mod_word, bits_mod_word]

theorem decCvt_mod_word (w : Nat) : decCvt (w % 2 ^ 64) = decCvt w := by
  simp (disch := decide) only [decCvt, decGuard_mod_word, decSelAt_mod_word, decTyAt_mod_word, decMods_mod_word, bits_mod_word, bitOf_mod_word]

theorem decFredw_mod_word (w : Nat) : decFredw (w % 2 ^ 64) = decFredw w := by
  simp (disch := decide) only [decFredw, decGuard_mod_word, decSelAt_mod_word, decTyAt_mod_word, decMods_mod_word, bits_mod_word, bitOf_mod_word]

theorem decI_mod_word (w : Nat) : decI (w % 2 ^ 64) = decI w := by
  simp (disch := decide) only [decI, decGuard_mod_word, decSelAt_mod_word, bits_mod_word]

theorem decIcmpi_mod_word (w : Nat) : decIcmpi (w % 2 ^ 64) = decIcmpi w := by
  simp (disch := decide) only [decIcmpi, decI_mod_word, bits_mod_word]

theorem decWatch_mod_word (w : Nat) : decWatch (w % 2 ^ 64) = decWatch w := by
  simp (disch := decide) only [decWatch, decI_mod_word, bits_mod_word]

theorem decM_mod_word (w : Nat) : decM (w % 2 ^ 64) = decM w := by
  simp (disch := decide) only [decM, decGuard_mod_word, decSelAt_mod_word, bits_mod_word, bitOf_mod_word]

theorem decAtom_mod_word (w : Nat) : decAtom (w % 2 ^ 64) = decAtom w := by
  simp (disch := decide) only [decAtom, decM_mod_word, bits_mod_word]

theorem decE_mod_word (w : Nat) : decE (w % 2 ^ 64) = decE w := by
  simp (disch := decide) only [decE, decGuard_mod_word, decSelAt_mod_word, bits_mod_word, bitOf_mod_word]

theorem decSpawn_mod_word (w : Nat) : decSpawn (w % 2 ^ 64) = decSpawn w := by
  simp (disch := decide) only [decSpawn, decE_mod_word, bits_mod_word]

theorem decX_mod_word (w : Nat) : decX (w % 2 ^ 64) = decX w := by
  simp (disch := decide) only [decX, decGuard_mod_word, decSelAt_mod_word, bits_mod_word]

theorem decG_mod_word (w : Nat) : decG (w % 2 ^ 64) = decG w := by
  simp (disch := decide) only [decG, decGuard_mod_word, bits_mod_word]

theorem decS_mod_word (w : Nat) : decS (w % 2 ^ 64) = decS w := by
  simp (disch := decide) only [decS, decGuard_mod_word, decSelAt_mod_word, bits_mod_word]

theorem decSyswr_mod_word (w : Nat) : decSyswr (w % 2 ^ 64) = decSyswr w := by
  simp (disch := decide) only [decSyswr, decS_mod_word, bits_mod_word]

theorem decTret_mod_word (w : Nat) : decTret (w % 2 ^ 64) = decTret w := by
  simp (disch := decide) only [decTret, decS_mod_word, bits_mod_word]

/-- The map reads the 64 bits of a word, and nothing above them. -/
theorem decodeRaw_mod_word (w : Nat) : decodeRaw (w % 2 ^ 64) = decodeRaw w := by
  unfold decodeRaw
  rw [bits_mod_word (lo := 56) (by decide), bits_mod_word (lo := 40) (n := 12) (by decide), bitOf_mod_word (i
    := 2) (by decide), decA_mod_word, decCmp_mod_word, decPlop_mod_word, decLanex_mod_word, decPoll_mod_word,
    decPeers_mod_word, decCvt_mod_word, decFredw_mod_word, decI_mod_word, decIcmpi_mod_word,
    decWatch_mod_word, decM_mod_word, decAtom_mod_word, decE_mod_word, decSpawn_mod_word, decX_mod_word,
    decG_mod_word, decS_mod_word, decSyswr_mod_word, decTret_mod_word]

/-- What decodes is an instruction of the opcode map: it has a word. -/
theorem encode_of_decode {w : Nat} {i : Instr} (h : decode w = .ok i) : encode i = some (w % 2 ^ 64) := by
  have hraw := (decodeRaw_mod_word w).trans (decode_eq_ok.mp h)
  exact (decodeRaw_sound (Nat.mod_lt w (Nat.two_pow_pos 64)) i hraw).2

theorem invAfter_withWarp_none {s : State} (hcur : s.cur = none) (f : Nat → Nat → Warp → Outcome State Fault Refusal) :
    InvAfter (withWarp s f) := by
  rw [withWarp_none s f hcur]
  trivial

theorem exec_happening_inv {s : State} (h : s.Inv) (hcur : s.cur = none) (i : Instr) : InvAfter (exec i s) := by
  cases i with
  | tokenLand | deferredTokenRepresent | tokenLogWaitResume | recordInstance | brewTimerExpiry |
    carafeLingerExpiry | priorityAging | agePromotion | pour | releasedTokenSend | fenceGroupAdvance |
    syncStallTimeout | faultRecordDelivery | loadReturn | inFlightDecrement | cacheFillArrival | stashFill |
    dieDirectoryRecall | ownershipRequest | ownerRecall | upgradeGrant | genWrapSweep | rdcSweepWalker |
    roundViewUpdate | roundaComplete | tgenTakeUp | frameCreate | frameBringIn | freeRequest | frameRelease |
    childRetirement | taskDispatch | spillDrain | engineCommandStart | engineElement | engineCompletion |
    operandsConsumed | indirectStreamStart | streamElement | streamClose | streamControlDelivery |
    rowPacketArrival | rowFire | partialAdd | endPacket | rowCreditReturn | rowCreditGrant | rowsRowSend |
    bqSwap | accwbReadoutEnd | engineOwnershipTransfer | intersectStep | sparseInsert | launchStart |
    rootTokenSend | launchComplete | drainLimitExpiry | traceLoss | commandAccept | commandStart | commandEnd
    | hLaunch | hResume | hQueryDieEntry | hQueryErrorCounter | hQueryExchange | hJournalRead | hDieReset |
    hAttest | hDebugHalt | hDebugRelease | hDebugArm | hDebugDisarm | hConfigureQueuePriority |
    hConfigurePowerCap | hConfigureExchangeGroup | hConfigureChip | hConfigureInstallKey | hConfigureSendKey |
    hConfigureEraseKey | getVersion | getCapabilities | negotiateAlgorithms | getDigests | getCertificate |
    challenge | getMeasurements | keyExchange | finish | keyUpdate | endSession | unsupportedRequest |
    attestationResponseTimeout | attestationRetry | keyRolloverStart | senderKeyDelivery | firstNewKeyFlit |
    drainMarkerSend | drainMarkerArrival | boundaryTokenCreditReturn | fabricPacketSend | fabricPacketReceive
    | fabricPortChange | postArrival | phaseDoneMarker | phaseTimeout | dxchGrant | baristaHeartbeat |
    standbyTakeover | takeoverNotice | dxchGrantTimeout | dieReset | dieRejoin | uncorrectableMatchingError |
    memoryError | mgmtHeartbeatTimeout | powerSample | powerControlInterval | thermalTrip | powerOn |
    packageReset | flitCounterLimit | securedMessageCheckFailure =>
    exact invAfter_of_mem h (by simp [exec])
  | commit core slot => exact execCommit_inv h ..
  | commitResume core slot => exact execCommitResume_inv h ..
  | homeAccess req => exact execHomeAccess_inv h ..
  | pageWalkComplete die k => exact execPageWalkComplete_inv h ..
  | traceDrain core n => exact execTraceDrain_inv h ..
  | hLoad seq => exact execHLoad_inv h ..
  | hUnload seq => exact execHUnload_inv h ..
  | hCopy seq data => exact execHCopy_inv h ..
  | hPreempt seq => exact execHPreempt_inv h ..
  | boundaryTagFailure f => exact execBoundaryTagFailure_inv h ..
  | _ => exact invAfter_withWarp_none hcur _

/-! ### Time that passes keeps who issues (R262, R266) -/

theorem grantCrossings_cur (l : List Crossing) (s : State) : (grantCrossings l s).cur = s.cur := by
  induction l generalizing s with
  | nil => rfl
  | cons x t ih =>
    simp only [grantCrossings]
    split <;> rw [ih] <;> rfl

theorem arrive_cur (s : State) (p : Packet) : (s.arrive p).cur = s.cur := by
  unfold State.arrive
  split
  · unfold State.sendOff
    split <;> rfl
  all_goals rfl

theorem launchPkt_cur (s : State) (p : Packet) : (s.launchPkt p).cur = s.cur := by
  unfold State.launchPkt
  split
  · exact arrive_cur ..
  · exact grantCrossings_cur ..

theorem drainInject_cur (n c : Nat) (s : State) : (s.drainInject c n).cur = s.cur := by
  induction n generalizing s with
  | zero => rfl
  | succ n ih =>
    unfold State.drainInject
    dsimp only
    split
    · rfl
    · split
      · rfl
      · rw [ih, launchPkt_cur, setCore_cur]

theorem countStalls_cur (s : State) (c n : Nat) : (s.countStalls c n).cur = s.cur := by
  unfold State.countStalls
  dsimp only
  split <;> rfl

theorem drainOthers_cur (s : State) (c n : Nat) : (s.drainOthers c n).cur = s.cur := rfl

theorem tick_cur (s : State) (n : Nat) : (s.tick n).cur = s.cur := by
  unfold State.tick
  split
  · rfl
  · exact (foldl_keeps State.cur (fun _ _ => (drainOthers_cur ..).trans (drainInject_cur ..)) _ _).trans
      (foldl_keeps State.cur (fun _ _ => countStalls_cur ..) _ _)

theorem tickFull_cur (n : Nat) (s : State) : (s.tickFull n).1.cur = s.cur := by
  induction n generalizing s with
  | zero => rfl
  | succ n ih =>
    unfold State.tickFull
    split
    · exact (ih _).trans (tick_cur ..)
    · rfl

theorem advance_cur (s : State) (n : Nat) : (s.advance n).cur = s.cur := (tick_cur ..).trans (tickFull_cur ..)

theorem advance_inv {s : State} (h : s.Inv) (n : Nat) : (s.advance n).Inv :=
  inv_of_mem h (congrArg (fun x => x.2.2) (advance_standing s n))

/-! ### The step (R14, R30) -/

theorem exec_issued_inv {s : State} (h : s.Inv) {w : Nat} {i : Instr} (hdec : decode w = .ok i) :
    InvAfter (exec i s) := by
  cases hexec : exec i s with
  | next t => exact inv_of_mem h (congrArg Prod.fst ((exec_keepsStored (encode_of_decode hdec) s).of_next t hexec))
  | fault f => trivial
  | refused r => trivial

theorem spend_mem (s : State) (c k : Nat) : (s.spend c k).mem = s.mem := by
  unfold State.spend
  split <;> rfl

theorem spendTurn_inv {c k : Nat} {o : Outcome State Fault Refusal} (h : InvAfter o) : InvAfter (spendTurn c k o) := by
  cases o with
  | next t => exact inv_of_mem h (spend_mem ..)
  | fault f => trivial
  | refused r => trivial

theorem issue_inv {s : State} (h : s.Inv) (c k : Nat) : InvAfter (s.issue c k) := by
  unfold State.issue
  extract_lets s1
  have h1 : s1.Inv := h
  split
  · exact h1
  · split
    · exact h1
    · split
      · exact h1
      · split
        · trivial
        · next hdec =>
          split
          · exact h1
          · exact spendTurn_inv (exec_issued_inv h1 hdec)

theorem step_inv {s : State} (h : s.Inv) : InvAfter (step s) := by
  unfold step
  split
  · exact advance_inv (s := { s with cur := none }) h 1
  · next it rest _ =>
    extract_lets s1
    have h1 : s1.Inv := advance_inv (s := { s with agenda := rest, cur := none }) h it.wait
    have hcur : s1.cur = none := advance_cur ..
    clear_value s1
    split
    · exact issue_inv h1 ..
    · exact exec_happening_inv h1 hcur _

/-- Settles O8: an issue keeps what is stored, and of what happens only a write at a home writes memory. -/
theorem stepKeepsTheInvariant : Obligations.StepKeepsTheInvariant := by
  unfold Obligations.StepKeepsTheInvariant
  intro s t h hstep
  have hafter := step_inv h
  rwa [hstep] at hafter

end Sys2Proof.Machine
end
